-- ==== Sys2Proof/Word.lean ====
section
/-! DEFINITION. The word types of the slice: bytes, registers and sub-blocks (R6, R7, R110). -/

namespace Sys2Proof

/-- One byte. -/
abbrev Byte := BitVec 8

/-- A register or an aligned 8-byte word (R7, R437). -/
abbrev Word := BitVec 64

/-- A 64 B sub-block or granule; byte i is bits [8i+7 : 8i] (R6, R110, R198). -/
abbrev Sub := BitVec 512

/-- A 256 B sector; sub-block i is bits [512i+511 : 512i] (R110). -/
abbrev Sector := BitVec 2048

/-- A 256 B flit (R457). -/
abbrev Flit := BitVec 2048

/-- Agent ID, 6 bits (R24). -/
abbrev Agent := BitVec 6

/-- Die position, 3 bits (R19). -/
abbrev Pos := BitVec 3

/-- Hue, 8 bits (R102). -/
abbrev Hue := BitVec 8

/-- Tick frame number, 48 bits (R71). -/
abbrev Frame := BitVec 48

/-- Bit b as a Nat, 0 or 1. -/
def b2n (b : Bool) : Nat := if b then 1 else 0

end Sys2Proof
end

