-- ==== Sys2Proof/Syntax.lean ====
section
/-! DEFINITION. The commands of the slice: one constructor of Instr for every row of spec/opcode_table.json, with
the operands the spec gives the message, request, pin or event. The table gives the rows no bits. -/

namespace Sys2Proof

/-- Space codes (R76). -/
inductive Space where
  | mem | shade | tile | csr
deriving DecidableEq, Repr

/-- Operations of a request (R218). -/
inductive Op where
  | readShared | readUnique | claim | readOnce | readOnceNofill | write | writeBack | darken
  | clean | invalidate | cleanInvalidate | atomic | farAtomic | reduceStore
deriving DecidableEq, Repr

/-- Where a message enters the slice: an agent port, a die link, the slice's own engines and cores, or a port's sideband, which
carries its partner's reads and writes of SET_IDENT and of that port's registers (R488). -/
inductive Via where
  | agentPort (port : Fin 6)
  | dieLink (port : Fin 6)
  | own
  | sideband (port : Fin 6)
deriving DecidableEq, Repr

/-- What the SEC-DED check of a data read finds (R133, R359): unmirrored is an uncorrectable error whose copy in the buddy's
mirror ways is uncorrectable too. -/
inductive DataErr where
  | none | single | uncorrectable | unmirrored
deriving DecidableEq, Repr

/-- Bits that have been upset in the arrays since the last command (R118, R133, R134, R208, R211): the bits of each copy of
a tag entry by facet, set and way, of each copy of a directory entry likewise, the errors of sub-blocks by facet, set,
way and sub-block, and those of the accumulator files by engine and 8-byte word (R359). Empty: none. -/
structure Upset where
  tags : List (BitVec 6 × BitVec 11 × BitVec 4 × BitVec 48 × BitVec 48) := []
  dirs : List (BitVec 6 × BitVec 12 × BitVec 4 × BitVec 50 × BitVec 50) := []
  data : List (BitVec 6 × BitVec 11 × BitVec 4 × BitVec 2 × DataErr) := []
  acc : List (BitVec 2 × BitVec 14 × DataErr) := []
deriving DecidableEq, Repr

/-- Whether a message comes over a die link. -/
def Via.isDieLink : Via → Bool
  | .dieLink _ => true
  | _ => false

/-- The fields of a request (R102, R464) and where it enters. former: at a die link, its ingress slice admitted it before the last
patch
of the region table came into force (R106; log entry 89). -/
structure Request where
  via : Via
  space : Space
  addr : BitVec 64
  len : BitVec 6
  mask : BitVec 64
  view : BitVec 4
  hue : Hue
  src : Agent
  txid : BitVec 12
  arg : BitVec 16
  ticket : Option (BitVec 16)
  urgent : Bool
  stream : Bool
  upset : Upset
  former : Bool := false
deriving DecidableEq, Repr

/-- A snoop reply (R220, R466). home is the slice whose snoop it answers; at any other slice the reply has reached the
buddy first (R605), and sector and fgroup are the place the buddy mirrors it at. -/
structure SnoopReply where
  home : Pos
  src : Agent
  txid : BitVec 12
  final : BitVec 3
  notPresent : Bool
  sector : BitVec 64
  fgroup : BitVec 6
  subIndex : BitVec 2
deriving DecidableEq, Repr

/-- A side access of R828: a read, or a masked write, of one sub-block at device offset d of facet group grp,
an address of slice home. -/
structure SideAccess where
  sender : Agent
  txid : BitVec 12
  home : Pos
  grp : BitVec 6
  d : BitVec 64
  shadowed : Bool
  store : Option (BitVec 64 × Sub)
  upset : Upset
deriving DecidableEq, Repr

/-- The escape group, an address of slice home, that a claim or release names (R303, R314): the device offset of its slot 0, its
slot count, and the
block's index in its data page. -/
structure EscapeRef where
  sender : Agent
  txid : BitVec 12
  home : Pos
  grp : BitVec 6
  d : BitVec 64
  slots : BitVec 3
  block : BitVec 9
  shadowed : Bool
deriving DecidableEq, Repr

/-- One wrong symbol of a DRAM read: codeword position 0 to 76 (R560) and the XOR of what was read with what was
encoded. -/
structure SymErr where
  pos : Fin 77
  val : Byte
deriving DecidableEq, Repr

/-- Who writes a register or sends a management command: where the request enters, its agent, TXID and hue. -/
structure Writer where
  via : Via
  src : Agent
  txid : BitVec 12
  hue : Hue
deriving DecidableEq, Repr

/-- Who sends a CTL_RESET: its agent or slice, TXID and hue. -/
structure Sender where
  src : Agent
  txid : BitVec 12
  hue : Hue
deriving DecidableEq, Repr

/-- An agent reported suspect, and the slice that reports it (R259, R513). -/
structure Suspicion where
  sender : Pos
  agent : Agent
deriving DecidableEq, Repr

/-- The slice that sends a RECON_READ, and whether it is urgent (R481, R612). -/
structure ReconSender where
  pos : Pos
  urgent : Bool
deriving DecidableEq, Repr

/-- What a stack's IEEE 1500 port and training report (R541, R543). rateMax is in Mb/s. -/
structure StackReport where
  height : BitVec 8
  density : BitVec 8
  banks : BitVec 8
  trefwMs : BitVec 8
  refPerBank : BitVec 16
  trfcNs : BitVec 8
  rateMax : BitVec 16
  accessNs : BitVec 8
  qualified : Bool
  trains : Bool
deriving DecidableEq, Repr

/-- What the slice meets while it leaves reset (R749, R751, R753): the strap code converted, REFCLK present, the stacks, and the
8-byte words of afterglow memory that hold an uncorrectable error. -/
structure BootInputs where
  strap : BitVec 6
  refclk : Bool
  stack0 : StackReport
  stack1 : StackReport
  afterglowBad : List (BitVec 11) := []
deriving DecidableEq, Repr

/-- How a module's UCIe training ended (R453, R454): whether it trained, and its rate in GT/s. -/
structure ModuleTraining where
  trained : Bool
  rate : BitVec 6
deriving DecidableEq, Repr

/-- How many lanes of a module failed in training (R453, R454): of data lanes 0 to 31 and 32 to 63, of clock and track, and of
valid. -/
structure FailedLanes where
  dataLow : BitVec 4
  dataHigh : BitVec 4
  clock : BitVec 4
  valid : BitVec 4
deriving DecidableEq, Repr

/-- One port's sideband reads in a discovery round (R506, R508): did it train, the partner's SET_IDENT and PWK_DISC. -/
structure PartnerRead where
  trained : Bool
  ident : BitVec 64
  disc : BitVec 64
deriving DecidableEq, Repr

/-- The record of an ATOMIC or REDUCE_STORE that a MIRROR_PUT carries (R608). -/
structure AtomicRecord where
  src : Agent
  txid : BitVec 12
  old : BitVec 64
deriving DecidableEq, Repr

/-- An answer to RECON_READ (R612): the sub-block, its poison symbol, a member's pending delta with its TXID, and the
TXIDs the parity slice reports. -/
structure ReconAnswer where
  sender : Pos
  txid : BitVec 12
  data : Sub
  poison : Bool
  readable : Bool
  pending : Option (BitVec 12 × Sub × Bool)
  recorded : List (Pos × BitVec 12)
deriving DecidableEq, Repr

/-- Fuse programmer targets of R816. -/
inductive FuseTarget where
  | bin (v : BitVec 2)
  | deadFacets (d0 d1 d2 d3 : BitVec 6)
  | lensGood (v : BitVec 4)
  | leakClass (v : BitVec 4)
  | dieId (v : BitVec 64)
  | keyHash (slot : Fin 4) (hash : BitVec 384)
  | keyImage (slot : Fin 4)
  | keyDebug (slot : Fin 4)
  | repair (v : BitVec 64)
deriving DecidableEq, Repr

/-- The commands, in the order of spec/opcode_table.json. -/
inductive Instr where
  | frameTick
  | holdoverBoundary
  | holdoverHalt
  | planResume
  | slotStart
  | heartbeatMissed (lost : Pos)
  | heartbeat (sender : Pos) (frame : Frame) (usable : Bool) (lostLinks : BitVec 10) (ackLink : BitVec 4)
      (ackSeq : BitVec 12)
  | frameDone (sender : Pos) (frame : Frame) (usable : Bool)
  | frameGo (frame : Frame) (degraded : Bool)
  | degradedSwitch
  | readShared (r : Request)
  | readUnique (r : Request)
  | claim (r : Request)
  | readOnce (r : Request)
  | readOnceNofill (r : Request)
  | write (r : Request)
  | writeBack (r : Request)
  | darken (r : Request)
  | clean (r : Request)
  | invalidate (r : Request)
  | cleanInvalidate (r : Request)
  | atomic (r : Request)
  | farAtomic (r : Request)
  | reduceStore (r : Request)
  | snpReply (p : SnoopReply)
  | snpData (p : SnoopReply) (data : Sub)
  | compAck (src : Agent) (txid : BitVec 12)
  | writeData (src : Agent) (txid : BitVec 12) (off : BitVec 8) (data : List Sub)
  | sideAccess (a : SideAccess)
  | escapeClaimSlot (e : EscapeRef)
  | escapeReleaseSlot (e : EscapeRef)
  | prefetchHint (grp : BitVec 6) (d : BitVec 64) (allocClass : BitVec 3) (shadowed : Bool)
  | dramReadComplete (id : Nat) (errs : List (List SymErr))
  | dramWriteComplete (id : Nat)
  | parkedPartResume (facet : BitVec 6)
  | heldWaiterReenter (facet : BitVec 6) (d : BitVec 64)
  | tagScrub (facet : BitVec 6) (upsets : List (BitVec 4 × BitVec 48 × BitVec 48))
  | dirScrub (facet : BitVec 6) (upsets : List (BitVec 4 × BitVec 50 × BitVec 50))
  | dirRecallComplete (txn : Nat)
  | swClean (facet : BitVec 6) (set : BitVec 11) (way : BitVec 4)
  | swInvalidate (facet : BitVec 6) (set : BitVec 11) (way : BitVec 4)
  | swCleanInvalidate (facet : BitVec 6) (set : BitVec 11) (way : BitVec 4)
  | snoopTimeout (txn : Nat) (agent : Agent)
  | agentSuspect (report : Suspicion) (cause : BitVec 2)
  | agentDead (agent : Agent) (cause : BitVec 2)
  | fenced (sender : Pos) (agent : Agent)
  | reclaim (agent : Agent)
  | deathWalkEnd (agent : Agent)
  | ticketHoldExpiry (facet : BitVec 6) (ticket : BitVec 16)
  | eclipse (cause : BitVec 8) (origin : Pos)
  | waveStart (engine : Fin 4) (badSubs : List (Space × BitVec 64)) (accBad : List (BitVec 14 × DataErr))
  | waveComplete (engine : Fin 4)
  | flowStart (flow : BitVec 12)
  | flowLineApply (flow : BitVec 12) (line : BitVec 17)
  | flowComplete (flow : BitVec 12)
  | transferComplete (index : BitVec 12)
  | latticeFlit (port : Fin 6) (flit : Flit)
  | flitReceive (port : Fin 6) (flit : Flit)
  | podSync (sender : Pos) (src : Agent) (txid : BitVec 12)
  | podSyncDone (sender : Pos) (src : Agent) (txid : BitVec 12)
  | laneFail (port : Fin 6) (module : Fin 2)
  | moduleReturn (port : Fin 6) (module : Fin 2) (repaired : BitVec 4)
  | moduleFail (port : Fin 6) (module : Fin 2)
  | linkSilence (port : Fin 6)
  | glint (port : Fin 6) (training : Bool)
  | pwkGlint (ports : BitVec 6)
  | discoveryRound (partners : List PartnerRead)
  | discoveryTimeout
  | retirementCopyDone (badSubs : List (BitVec 7))
  | channelFail (stack : Fin 2) (channel : Fin 32)
  | memoryInitDone (durationUs : BitVec 16)
  | shadeZeroFillDone
  | mirrorPut (sender : Pos) (txid : BitVec 12) (sector : BitVec 64) (subs : BitVec 4) (fgroup : BitVec 6)
      (data : List Sub) (record : Option AtomicRecord)
  | mirrorRelease (sender : Pos) (sector : BitVec 64) (subs : BitVec 4) (fgroup : BitVec 6)
  | parityDelta (sender : Pos) (txid : BitVec 12) (d : BitVec 64) (delta : Sub) (poison : Bool)
  | parityRelease (sender : Pos) (txid : BitVec 12) (d : BitVec 64)
  | reconRead (sender : ReconSender) (txid : BitVec 12) (d : BitVec 64)
  | readData (a : ReconAnswer)
  | comp (sender : Pos) (txid : BitVec 12) (codes : List (BitVec 3))
  | homeMoved (lost : Pos) (newHome : Pos) (notice : Bool) (boundary : Frame)
  | adoptionWalkEnd
  | rebuildChunkDone (chunk : BitVec 17) (copy0 : Pos × BitVec 17) (copy1 : Pos × BitVec 17)
  | rflDoneOk (entry : BitVec 8)
  | rflDonePoison (entry : BitVec 8)
  | rflDoneDeny (entry : BitVec 8)
  | rflEntryTimeout (entry : BitVec 8)
  | stagingWrite (w : Writer) (offset : BitVec 15) (mask : BitVec 8) (value : BitVec 64)
  | imgSeal (value : BitVec 64)
  | load (w : Writer)
  | quiesce (w : Writer)
  | applyPatch (w : Writer)
  | liftFence (w : Writer) (agent : Agent)
  | debugToken (w : Writer)
  | debugLock (w : Writer)
  | revokeKey (w : Writer) (slot : BitVec 48)
  | raiseVersion (w : Writer)
  | dim (w : Writer)
  | lit (w : Writer)
  | dusk (w : Writer)
  | duskDrained
  | night (w : Writer)
  | resetWarm (w : Writer) (targets : BitVec 8)
  | resetCold (w : Writer) (targets : BitVec 8)
  | resetBlock (w : Writer) (targets : BitVec 8) (block : BitVec 8)
  | expose (w : Writer) (frame : Frame)
  | ctlExpose (frame : Frame)
  | clearCounters (w : Writer) (groups : BitVec 12)
  | clearLog (w : Writer)
  | reservedCommand (w : Writer) (code : BitVec 8)
  | commandEnd
  | forward (sender : Pos) (code : BitVec 8) (arg : BitVec 48)
  | ready (sender : Pos)
  | refused (sender : Pos) (code : BitVec 8)
  | commit (frame : Frame)
  | abort (code : BitVec 8)
  | seal (frame : Frame)
  | ctlResetWarm (via : Via) (w : Sender) (targets : BitVec 8)
  | ctlResetCold (via : Via) (w : Sender) (targets : BitVec 8)
  | ctlResetBlock (via : Via) (w : Sender) (targets : BitVec 8) (block : BitVec 8)
  | ctlResetReserved (via : Via) (w : Sender)
  | rstBlock (value : BitVec 64)
  | blockIdle
  | blockIdleTimeout
  | rstWdog
  | gnmCoreWdog (core : Fin 4)
  | cpWatchdogExpiry
  | coreWatchdogExpiry (core : Fin 4)
  | eclipseExitTimer
  | pwrGoodRise (b : BootInputs)
  | pwrGoodFall
  | rstNAssert
  | rstNRelease (b : BootInputs)
  | clockLoss
  | vddCoreDroop
  | vddCoreRecover (b : BootInputs)
  | vddCoreBrownout
  | retentionOverload
  | tempSample (celsius : BitVec 8)
  | wakeLit (sender : Pos)
  | extest (pins : BitVec 64)
  | idcode
  | samplePreload (pins : BitVec 64)
  | token (bytes : List Byte)
  | nonce
  | wrapper
  | ijtag
  | jtagCsr (offset : BitVec 24) (store : Option (BitVec 64))
  | bypass (code : BitVec 8)
  | wsBypass
  | wsExtest
  | wsIntest
  | wsScan
  | fuseBlow (target : FuseTarget)
  | csrWrite (w : Writer) (offset : BitVec 24) (value : BitVec 64)
  | pull (sender : Pos) (txid : BitVec 12)
  | portTrained (port : Fin 6) (m0 m1 : ModuleTraining) (failed0 failed1 : FailedLanes)
  | refclkReturn
  | powerLoss
  | trstNAssert
  | rampStep
deriving DecidableEq, Repr

end Sys2Proof
end

