-- ==== Sys2Proof/Decode.lean ====
section
/-! DEFINITION. Commands spelt by the bits of the opcode table: the table of this block gives no row any bits. -/

namespace Sys2Proof

/-- The command that a word of the opcode table spells. The table gives none of its rows bits, so no word spells one. -/
def decodeTableWord (_nbits _w : Nat) : Option Instr := none

end Sys2Proof
end

