-- ==== Sys2Proof/Config.lean ====
section
/-! DEFINITION. What the spec leaves to an implementation or does not state: free values with no body.
Nothing in Lean can evaluate them, so a statement that mentions one holds for every value. -/

namespace Sys2Proof.Config

/-- Free value number n (log entry 7): the slice's random source of R707, and every other value the spec leaves
unstated after a command that goes on. -/
opaque freeValue : Nat → BitVec 64

/-- The header slot, but for the fields of R462 that every message has, of a message that the spec gives no header: the number names
the message by its place in outbox (R828; log entry 117). -/
opaque openHeader : Nat → BitVec 256

/-- SHA-384 of a list of bytes, as the 384-bit integer of its bytes in little-endian order (R682, R684 name the
standard and do not give it; log entry 9). -/
opaque sha384 : List (BitVec 8) → BitVec 384

/-- Whether (r, s) is a valid ECDSA P-384 signature of a digest under the public key (x, y) (R682; log entry 9). -/
opaque ecdsaP384 : BitVec 384 → BitVec 384 → BitVec 384 → BitVec 384 → BitVec 384 → Bool

/-- The issue list that a timetable part of the lattice section gives a position: slots and transfers (R519; the part's
record layout is not stated: log entry 33). -/
opaque timetableIssues : List (BitVec 8) → Nat → List (Nat × Nat)

/-- The link list that a timetable part of the lattice section gives a position, 64-bit entries as R519 lays them out (the part's
record layout is not stated: log entry 33). -/
opaque timetableLinks : List (BitVec 8) → Nat → List Nat

/-- What a detour plan part holds: LINK, the PWK_ROUTE value of each position, and the timetable map (R532; log entry
33). -/
opaque detourPlan : List (BitVec 8) → Nat × List Nat × List Nat

/-- What a loss plan part holds: LOST, the PWK_ROUTE value of each position, the timetable map and the frame list (R627;
log entry 33). -/
opaque lossPlan : List (BitVec 8) → Nat × List Nat × List Nat × List Nat

/-- Whether the stack accepts a hard post-package repair (R556; log entry 133): position, entry word. -/
opaque stackAcceptsRepair : Nat → Nat → Bool

end Sys2Proof.Config
end

