-- ==== Sys2Proof/Machine/State.lean ====
section
/-! DEFINITION. The state of one slice as plain data, and the state right after reset. Every register of the spec has
one home: the register file csr, keyed by CSR offset, or the field it is computed from (Machine/Csr.lean). -/

namespace Sys2Proof.Machine

/-- A sparse table: keys strictly rising. -/
abbrev SMap (α : Type) := List (Nat × α)

/-- Bytes by address: addresses strictly rising, no entry equal to 0, which is what an unlisted byte reads as (log
entry 6). -/
abbrev Memory := List Host.Cell

/-- Response codes (R235). -/
inductive Code where
  | ok | poison | nak | deny | staleHue | notPresent
deriving DecidableEq, Repr

/-- The power and reset phase of the slice (R721, R743, R753, R634). boot k: the next out-of-reset step to end is k. -/
inductive Phase where
  | held
  | boot (step : Nat)
  | lit | dim | toDusk | dusk | waking | toNight | night | eclipse
deriving DecidableEq, Repr

/-- Board pins and supplies as the slice senses them (R802 to R805). -/
structure Pins where
  pwrGood : Bool
  rstN : Bool
  refclk : Bool
  vddIo : Bool
  droop : Bool
deriving DecidableEq, Repr

/-- One fused key slot (R684). -/
structure KeySlot where
  hash : BitVec 384
  programmed : Bool
  image : Bool
  debug : Bool
  revoked : Bool
deriving DecidableEq, Repr

/-- The fuses (R14, R684, R713, R714, R816). sealedOnce: a first seal of the die's life has happened. -/
structure Fuse where
  bin : BitVec 2
  lensGood : BitVec 4
  leakClass : BitVec 4
  dead0 : BitVec 6
  dead1 : BitVec 6
  dead2 : BitVec 6
  dead3 : BitVec 6
  facetCount : BitVec 8
  stepping : BitVec 8
  dieId : BitVec 64
  keys : List KeySlot
  minVersion : BitVec 16
  repair : BitVec 64
  sealedOnce : Bool
deriving DecidableEq, Repr

/-- Home states of a tracked granule (R209). -/
inductive HomeState where
  | shared (sharers : List Agent)
  | flare
  | excl (owner : Agent)
  | owned (owner : Agent) (sharers : List Agent)
  | ownedFlare (owner : Agent)
deriving DecidableEq, Repr

/-- A directory entry (R208), its copies being equal but for upsets. d, grp and shadowed are the granule's device
offset and facet group, which set, tag and GROUP name (R207), and its region's SHADOWED. -/
structure DirEntry where
  st : HomeState
  group : Bool
  tag : BitVec 14
  d : Nat
  grp : Nat
  shadowed : Bool
deriving DecidableEq, Repr

/-- A way of a cache set (R118, R647) with its 256 B of data. d and grp are the sector's device (or facet) offset
and facet group, which set, tag and GROUP name (R116). -/
structure Line where
  tag : BitVec 24
  group : Bool
  shd : Bool
  refl : Bool
  valid : BitVec 4
  dirty : BitVec 4
  age : BitVec 2
  hue : BitVec 8
  data : Sector
  d : Nat
  grp : Nat
deriving DecidableEq, Repr

/-- Which of the three kinds of line a place holds (R115, R647): the slice's own MEM lines, adopted lines of a lost
slice, or reflection lines of one hue. -/
inductive Kind where
  | own | adopted | refl (hue : Hue)
deriving DecidableEq, Repr

/-- Where a granule lives in the cache: facet, GROUP bit, device (or facet) offset of the granule, cache tag (R101,
R116, R117, R646). -/
structure Place where
  kind : Kind
  facet : Nat
  grp : Nat
  group : Bool
  d : Nat
  tag : BitVec 24
  shadowed : Bool
deriving DecidableEq, Repr

/-- One region table entry (R89). -/
structure Region where
  base : Word
  attr : Word
  typed : Word
  refl : Word
  acc0 : Word
  acc1 : Word
  acc2 : Word
  acc3 : Word
deriving DecidableEq, Repr

/-- A request in the request table (R137), with one code and one datum per 64 B it answers (R107, R467). -/
structure ReqEntry where
  id : Nat
  op : Op
  r : Request
  region : Nat
  rgn : Region
  n : Nat
  codes : List (Option Code)
  data : List Sub
  got : List Bool
  grant : BitVec 2
  sent : List Nat
  ticket : Option (BitVec 16)
  naks : List (Nat × BitVec 16)
  onDat : Bool
deriving DecidableEq, Repr

/-- The step a transaction stands at: snoop replies, pod synchronisation, placing snooped dirty data, a pending fill of its
sector (R156), the home's data, a typed request's other granules, placing its result, its read-modify-write, the writes
and mirror copies it owes, the response that carries its answer (R241), COMP_ACK, and a finished recall. -/
inductive Stage where
  | snoop | pod | place | fill | base | typed | store | rmw | owed | leave | ack | done
deriving DecidableEq, Repr

/-- Who opened a transaction: an agent's request, a directory victim recall (R214), the Dusk drain (R724), a death
walk (R263), a slot that a claim or release zeroes (R314), a reduce flow's destination step (R421) (mode 0 writes
its line, 1 to 3 add FP32, BF16 or INT32 lines, 4 combines records, 5 poisons), a side access (R828; reply: its
sender awaits the answer), or a planned write of a job (R351, R420; poison: of a poisoned block). -/
inductive Cause where
  | request (reqId : Nat) (index : Nat)
  | recall (reqId : Nat) (index : Nat)
  | dusk
  | death (agent : Agent)
  | flow (flow : Nat) (line : Nat) (mode : Nat) (lines : List Sub)
  | side (a : SideAccess) (reply : Bool)
  | zero (run : Nat) (a : SideAccess)
  | planned (job : Nat) (a : SideAccess) (poison : Bool)
deriving DecidableEq, Repr

/-- A snoop reply as held (R220). -/
structure Reply where
  agent : Agent
  final : BitVec 3
  data : Option Sub
  notPresent : Bool
deriving DecidableEq, Repr

/-- An open transaction on one granule (R241): held is the data it will return or store, dirtyIn what a snoop returned
and the home still has to place (R226), cls and aged the allocation class and stream age of its fills, filled whether its
data came with a fill of its own (R120), dirWay the directory way reserved for it (R214), since when it has waited for the
replies or the COMP_ACK, suspect the agents it has declared suspect (R259), broadcast whether it has been counted as one (R239),
ackDue whether a COMP_ACK is awaited beside the poison write of a death (R241, R262). -/
structure Txn where
  id : Nat
  cause : Cause
  op : Op
  src : Agent
  place : Place
  stage : Stage
  before : Option HomeState
  after : Option HomeState
  awaiting : List Agent
  replies : List Reply
  held : Option Sub
  dirtyIn : Option Sub
  grant : BitVec 2
  code : Code
  podWait : List Nat
  answered : Bool
  cls : Nat
  aged : Bool
  strict : Bool
  prefetch : Bool
  filled : Bool
  dirWay : Option Nat
  since : Nat
  suspect : List Agent
  ackTxid : BitVec 12
  broadcast : Bool
  ackDue : Bool
deriving DecidableEq, Repr

/-- What waits on a sector's PLR (R140, R242). -/
inductive Waiter where
  | txn (id : Nat)
  | part (reqId : Nat) (index : Nat)
deriving DecidableEq, Repr

/-- A pending-line register (R140): the sector, the sub-blocks its fill still fetches, those that came back poisoned,
those poisoned under it, which its fill must not bring back (R263), those that enter the way when they come (keep: not one that
only a no-fill read asked for, R227), what came back, the way it reserved (none for a no-fill read, R126, and for a hold register,
R244) and the age of the filled line (R120). -/
structure Plr where
  id : Nat
  place : Place
  fetching : BitVec 4
  bad : BitVec 4
  gone : BitVec 4
  keep : BitVec 4
  data : Sector
  way : Option Nat
  age : BitVec 2
  prefetch : Bool
  waiters : List Waiter
deriving DecidableEq, Repr

/-- The bounds of R142 that a facet's part can meet, the victim bound of a cache set and of a directory set apart (R214,
R250), the engine bound of R568, and a facet that a block reset has asked to go idle (R747). data: a part whose write data is not
there yet stands in its ingress list (R440, R468); order: a part behind such a one of its sector (R139). -/
inductive Bound where
  | plr | waiter | victim | directory | writeBack | engine | blockReset | data | order
deriving DecidableEq, Repr

/-- A parked part (R138, R142). urgent: it stands in the facet's urgent list (R482); reentered: a held waiter that met a bound when
it re-entered, which stands ahead of its sector's parts (R243). -/
structure Parked where
  facet : Nat
  reqId : Nat
  index : Nat
  bound : Bound
  urgent : Bool
  reentered : Bool
deriving DecidableEq, Repr

/-- A ticket table entry (R247): d is the granule it waits for, which with the bound names the bound instance (R250).
reserved: RETRY has been sent and the reservation stands (R252); since: the request that it was first issued to, in order of arrival
(R441). -/
structure Ticket where
  facet : Nat
  ticket : BitVec 16
  agent : Agent
  d : Nat
  bound : Bound
  txid : BitVec 12
  reserved : Bool
  since : Nat
deriving DecidableEq, Repr

/-- Steps of a write-back (R598); in an unshadowed chunk only the write. held: an earlier write-back of the same
sub-block is still open (R599). -/
inductive WbStep where
  | readOld | write | held | delta
deriving DecidableEq, Repr

/-- Who waits for a write-back. -/
inductive WbFor where
  | evict (entry : Nat) | txn (id : Nat) | maint (facet : Nat) | dusk | poison (agent : Agent) (txn : Nat) | early | lostBuddy
deriving DecidableEq, Repr

/-- A write-back of one sub-block (R141, R598). -/
structure Wb where
  id : Nat
  facet : Nat
  grp : Nat
  d : Nat
  data : Sub
  poison : Bool
  shadowed : Bool
  adopted : Bool
  old : Sub
  oldPoison : Bool
  step : WbStep
  why : WbFor
deriving DecidableEq, Repr

/-- A victim filter entry (R192). -/
structure FilterEntry where
  facet : Nat
  group : Bool
  set : Nat
  tag : BitVec 24
  time : Nat
deriving DecidableEq, Repr

/-- A set-and-way operation in progress on a facet (R168, R169). -/
structure Maint where
  facet : Nat
  op : Nat
  set : Nat
  way : Nat
  waitsFill : Bool
deriving DecidableEq, Repr

/-- What a pseudo-channel's command arbiter tells apart, in its order (R44). -/
inductive DramClass where
  | urgent | bulk | background | demand
deriving DecidableEq, Repr

/-- Why a DRAM read was issued (R123, R565, R569, R577, R598, R612). -/
inductive ReadFor where
  | fill (plr : Nat)
  | rmw (txn : Nat)
  | oldData (wb : Nat)
  | parity (op : Nat)
  | recon (answerTo : Nat) (txid : BitVec 12) (urgent : Bool)
  | scrub
deriving DecidableEq, Repr

/-- A DRAM read: the sub-blocks of one sector and what the stack holds of each at its place in the command order (R549; log
entry 12). issued: the arbiter has let it go (R44); dead: its channel has failed and no command was issued (R581); stale:
sub-blocks that a write has reached the
controller for since (R572). -/
structure DramRead where
  id : Nat
  sector : Nat
  subs : BitVec 4
  words : Sector
  poison : BitVec 4
  stale : BitVec 4
  grp : Nat
  shadowed : Bool
  retry : Bool
  dead : Bool
  cls : DramClass
  issued : Bool
  why : ReadFor
deriving DecidableEq, Repr

/-- Why a DRAM write was queued. -/
inductive WriteFor where
  | wb (id : Nat)
  | correct
  | poisoned
  | parity (op : Nat)
  | rmw
  | area
  | rebuilt
deriving DecidableEq, Repr

/-- A queued DRAM write of one sub-block of a pseudo-channel; issued: the arbiter has let it go (R44). -/
structure DramWrite where
  id : Nat
  pc : Nat
  d : Nat
  cls : DramClass
  issued : Bool
  data : Sub
  poison : Bool
  why : WriteFor
deriving DecidableEq, Repr

/-- A read-modify-write engine entry (R565): a FAR_ATOMIC transaction on a sub-block. -/
structure Rmw where
  facet : Nat
  d : Nat
  txn : Nat
deriving DecidableEq, Repr

/-- A row remap in force (R555, R576). -/
structure Remap where
  stack : Nat
  channel : Nat
  pc : Nat
  bank : Nat
  row : Nat
  spare : Nat
deriving DecidableEq, Repr

/-- A row-retirement copy (R577): the row, the spare chosen, and how many of its 256 accesses are made: 128 reads into the
rebuild buffer, then 128 writes to the spare. From its first access to its last it holds its facet's buffer (R578). -/
structure RowCopy where
  rowAddr : BitVec 32
  spare : Nat
  moved : Nat
deriving DecidableEq, Repr

/-- A mirror put awaiting the buddy's COMP (R604), with the data that a PULL sends (R601). -/
structure Put where
  txid : Nat
  grp : Nat
  sector : Nat
  subs : BitVec 4
  data : List Sub
  record : Option AtomicRecord
  txn : Nat
deriving DecidableEq, Repr

/-- The order of first puts per set (R608), oldest first. -/
structure Mirrored where
  facet : Nat
  group : Bool
  grp : Nat
  sector : Nat
deriving DecidableEq, Repr

/-- An applied delta the parity slice remembers (R600). -/
structure DeltaRec where
  sender : Pos
  txid : BitVec 12
  d : Nat
deriving DecidableEq, Repr

/-- A parity update in the parity engine (R597, R600): the deltas merged for one parity sub-block. recompute: its
read failed and the row's members are being read (R823). -/
structure ParityOp where
  id : Nat
  d : Nat
  deltas : List (Pos × BitVec 12 × Sub × Bool)
  started : Bool
  writing : Bool
  recompute : Bool
deriving DecidableEq, Repr

/-- Who waits for a reconstruction (R611, R614, R823); rebuild: the copy at device offset d of a lost slice's sub-block
(R631). -/
inductive ReconFor where
  | fill (plr : Nat) (sub : Nat)
  | oldData (wb : Nat)
  | parity (op : Nat)
  | scrub
  | rebuild (d : Nat)
deriving DecidableEq, Repr

/-- A reconstruction (R612). -/
structure Recon where
  id : Nat
  d : Nat
  grp : Nat
  waiting : List Nat
  answers : List ReconAnswer
  writeBack : Bool
  why : ReconFor
deriving DecidableEq, Repr

/-- A request that a port slice forwarded or holds for a lost home (R623). got: the 64 B answers that have passed
back. -/
structure PortReq where
  op : Op
  r : Request
  home : Nat
  ticket : Option (BitVec 16)
  got : Nat
deriving DecidableEq, Repr

/-- A reflection queue entry (R652) and the parts that wait for it. -/
structure RflEntry where
  write : Bool
  subs : BitVec 4
  hue : Hue
  src : Agent
  seq : BitVec 16
  addr : BitVec 64
  mask : BitVec 64
  fills : Bool
  place : Place
  region : Nat
  rgn : Region
  waiters : List (Nat × Nat)
deriving DecidableEq, Repr

/-- One hue table entry (R659, R663): STATE 0 FREE, 1 LIVE, 2 RETIRED. -/
structure HueEntry where
  state : BitVec 2
  mask : BitVec 48
  swept : BitVec 2
  skip : Bool
deriving DecidableEq, Repr

/-- One part of a wide-VIEW request being served: the blocks of one 1 KiB unit of its stored span, unit (R107, R308 to R316).
step: 0 its granules, 1 the scales, 2 the escape group or the slot
claims, 3 the scale and slot writes, 4 the payload. have_: what side reads returned (position, group, offset, data or
poison); wait: side accesses on their way, by TXID; block: the next block to encode,
enc its narrow encoding (scale, payload, saturations, dropped NaNs), claim the claim or release on its way and slot its
answer; stores: scale and slot writes
(position, group, offset, mask, data); payload: the stored sub-blocks to write; bad: blocks answered POISON. -/
structure TypedReq where
  id : Nat
  reqId : Nat
  unit : Nat
  step : Nat
  have_ : List ((Nat × Nat × Nat) × Option Sub)
  wait : List (Nat × (Nat × Nat × Nat))
  block : Nat
  enc : Option (Nat × Nat × Nat × Nat)
  claim : Option Nat
  slot : Option (Option Nat)
  stores : List ((Nat × Nat × Nat) × BitVec 64 × Sub)
  payload : List Sub
  bad : List Nat
deriving DecidableEq, Repr

/-- The sections of an image, body bytes each (R676), and the header fields kept (R674). -/
structure Sections where
  imageId : Word
  secVersion : BitVec 16
  topology : List Byte
  partition : List Byte
  regions : List Byte
  formats : List Byte
  plan : List Byte
  lattice : List Byte
  counters : List Byte
  power : List Byte
  firmware : List Byte
  initOrder : List Byte
deriving DecidableEq, Repr

/-- What a named boundary will install (R689, R696, R724). -/
inductive CommitKind where
  | image | patch | dusk
deriving DecidableEq, Repr

/-- The loader (R687 to R698). former: the region table that the last patch replaced, under which requests that it admitted
complete (R106). -/
structure Img where
  force : Sections
  idle : Option Sections
  idleKind : CommitKind
  stage : Memory
  zeroFilled : Bool
  initDone : Bool
  firstSealed : Bool
  fwReady : Bool
  readyFrom : List Nat
  refusals : SMap (BitVec 8)
  sealFrom : List Nat
  former : List Region
  idleTypes : List Nat
  quiescing : Bool
deriving DecidableEq, Repr

/-- The lists a plan frame can come from (R39, R627). -/
inductive WhichList where
  | normal | degraded | loss
deriving DecidableEq, Repr

/-- Kinds of planned items (R36). -/
inductive Item where
  | wave (engine : Nat) (desc : Nat)
  | flow (desc : Nat)
  | transfer (desc : Nat)
  | background (kind : Nat)
deriving DecidableEq, Repr

/-- Frame beat, barrier and plan position (chapter 02). items: the planned items issued in the plan frame and not yet
complete, with their issue slots, in issue order; frameFrom: when the plan frame started; restart: the list in force
has not started yet, so its entry 0 starts next (R696); haltAlarm: the pending halt is one of R33, R530 or R620, haltEvent:
the halt in force set FRM_EVENTS.HALT (R72); goFor: the least tick frame number of a FRAME_DONE that counts at the leader (R52);
commitGo: the FRAME_GO that stands came after the COMMIT that waits for one (R68, R696). -/
structure Frm where
  counter : Nat
  slot : Nat
  usableRun : Nat
  reports : SMap Nat
  which : WhichList
  started : Bool
  frameRunning : Bool
  doneSent : Bool
  go : Option (Frame × Bool)
  haltPending : Bool
  haltTick : Bool
  haltRoute : Bool
  haltOrdered : Bool
  haltAlarm : Bool
  haltEvent : Bool
  haltFrom : Frame
  restart : Bool
  frameFrom : Nat
  slipRun : Nat
  slipFrom : Frame
  doneFrom : List Nat
  lastDone : Pos
  items : List (Item × Nat)
  sealAt : Option Frame
  commitAt : Option (CommitKind × Option Frame)
  exposeAt : Option Frame
  movedAt : Option (Frame × Pos × Pos)
  beats : List Nat
  missed : SMap Nat
  grace : Nat
  deniedRec : Option Nat
  tickSeen : Bool
  follow : Bool
  lastEngines : Nat
  goFor : Nat
  commitGo : Bool
deriving DecidableEq, Repr

/-- A death under way at this slice (R260 to R265, R273): its cause, when its detection began, how far its walk has come (0 not
begun,
1 made, 2 over, 3 its records written), and when its last poison write so far was done. -/
structure Death where
  agent : Agent
  cause : BitVec 2
  start : Nat
  walk : Nat
  last : Option Nat
deriving DecidableEq, Repr

/-- Facets: cache, directory, work in flight (chapters 04 to 07). pods: POD_SYNCs to answer, by sender, SRC and TXID, with
the reflection queue entries each still waits for (R449); podOps: pod-scope requests outside MEM that have not executed, with the
slices whose POD_SYNC_DONE each awaits. deaths: those under way (R260 to R265); deathCount: granules poisoned for it by facet,
with the first offset; suspected: when the detection of an agent
that this slice declared suspect began (R273); fencedBy: who has answered FENCED to the leader (R260). storeRet and storeRest:
whether an unlisted line of a retained or other Shade or tile-store way reads as valid zeros (R188, R190, R191). tagUpset
and dirUpset: the bits upset in the two copies of a tag or directory entry, by its way's key; dataBad: the errors of
sub-blocks, by way and sub-block (R118, R133, R208). hints: prefetch hints on the facet grid, each with its class (R113,
R128). -/
structure Cache where
  lines : SMap Line
  storeRet : Bool
  storeRest : Bool
  dir : SMap DirEntry
  reqs : List ReqEntry
  txns : List Txn
  plrs : List Plr
  parked : List Parked
  tickets : List Ticket
  nextTicket : SMap (BitVec 16)
  wbs : List Wb
  filter : List FilterEntry
  refetch : SMap Nat
  busy : SMap Nat
  busUse : Nat
  maint : List Maint
  tagScrub : SMap Nat
  dirScrub : SMap Nat
  deaths : List Death
  deathCount : List (Agent × Nat × Nat × Nat)
  suspected : List (Agent × Nat)
  portsLost : List (Agent × Nat)
  fencedBy : List (Agent × Nat)
  pods : List (Nat × Nat × Nat × List Nat)
  podOps : List (Nat × List Nat)
  tagUpset : SMap (BitVec 48 × BitVec 48)
  dirUpset : SMap (BitVec 50 × BitVec 50)
  dataBad : SMap DataErr
  hints : List (Place × Nat)
deriving DecidableEq, Repr

/-- The stack side (chapter 16). poison: numbers of the sub-blocks that hold the poison code word; planRefresh: the plan's
refresh table is in force, not the boot schedule (R550, R551); used: data-bus cycles of the slot under way, by pseudo-channel
× 4 + class (R44); initAt: sub-blocks that the order in force has had zeroed, by pseudo-channel (R681). -/
structure Stack where
  dram : Memory
  poison : List Nat
  reads : List DramRead
  writes : List DramWrite
  rmw : List Rmw
  remaps : List Remap
  refreshBank : SMap Nat
  refreshCount : SMap Nat
  weakNext : SMap Nat
  scrubAt : SMap Nat
  copies : List RowCopy
  recentUe : List (Nat × Nat × Nat)
  initAt : SMap Nat
  planRefresh : Bool
  used : SMap Nat
deriving DecidableEq, Repr

/-- Shadow stripes, mirrors and failover (chapter 17). rebuildAt: sub-blocks of the chunk under rebuild that this slice's copy
has begun, by pseudo-channel (R631); bufferWanted: facets whose rebuild waits for the row copy that holds the rebuild buffer (R66).
deltaOut: identity of each delta without its PARITY_RELEASE, its write-back, and the position
it went to. -/
structure Shadow where
  puts : List Put
  order : List Mirrored
  records : List (Nat × AtomicRecord)
  deltas : List DeltaRec
  deltaOut : List (Nat × Nat × Nat)
  parity : List ParityOp
  recons : List Recon
  ports : List PortReq
  copies : SMap ((Pos × BitVec 17) × (Pos × BitVec 17))
  rebuildAt : SMap Nat
  bufferWanted : List Nat
  lastBeat : SMap Nat
  walking : Bool
  buddyDead : List Nat
deriving DecidableEq, Repr

/-- Reflections and hues (chapter 18). windows: words of the data windows by entry × 32 + word; sweepSet, headersAt: the sets, and
by
pseudo-channel the sub-blocks of headers, that the sweep pass under way has checked (R662). -/
structure Rfl where
  queue : SMap RflEntry
  windows : SMap Word
  nextSeq : BitVec 16
  hues : List HueEntry
  sweepSet : Nat
  headersAt : SMap Nat
deriving DecidableEq, Repr

/-- A slot claim (slot: the slot it answers) or a release, whose answer waits until the slots it zeroes are written and
mirrored (R314, R316). -/
structure SlotRun where
  id : Nat
  sender : Agent
  txid : BitVec 12
  slot : Option (Option Nat)
deriving DecidableEq, Repr

/-- Prism lanes (R292) and view requests in flight. claims: slots, by facet group and offset, that a claim has taken for a block
and that are not written yet; slots: claims and releases under way (R314). -/
structure Prism where
  planned : SMap (BitVec 32)
  demand : SMap (BitVec 32)
  typed : List TypedReq
  claims : List ((Nat × Nat) × Nat)
  slots : List SlotRun
deriving DecidableEq, Repr

/-- An exact value (chapter 08): NaN, an infinity, or (-1)^neg × mant × 2^exp. -/
inductive Exact where
  | nan
  | inf (neg : Bool)
  | fin (neg : Bool) (mant : Nat) (exp : Int)
deriving DecidableEq, Repr

/-- A running wave (R353, R365). taken: a mode-2 wave's columns have been taken (R423); begun: the slice clock at its start; out:
a mode-1 wave's output step has been taken (R351); loads: the PLRs that its missing weight sectors come through (R339). -/
structure WaveRun where
  desc : Nat
  taken : Bool
  begun : Nat
  out : Bool
  loads : List Nat
deriving DecidableEq, Repr

/-- A missing weight sector that a wave of an engine has still to fetch, allocated or not, with the AGE of its line (R339). -/
structure WeightRead where
  engine : Nat
  place : Place
  keep : Bool
  age : BitVec 2
deriving DecidableEq, Repr

/-- One logical Lens engine. pending: issued waves with the slice clock at their issue,
oldest first. -/
structure Engine where
  running : Option WaveRun
  pending : List (Nat × Nat)
deriving DecidableEq, Repr

/-- A block that a planned item writes into typed MEM (R351, R420): its number in the region, its exact values, its bits where the
item holds it in the region's own format, and whether it is poisoned. -/
structure PlanBlock where
  n : Nat
  vals : List Exact
  same : Option Nat
  poison : Bool
deriving DecidableEq, Repr

/-- Blocks that a planned item writes into MEM (R351, R413, R420): owner, the engine (0 to 3) or 4 + the flow; outs the payload
sub-blocks whose granules are still to be held: position, group, offset, mask, data, and whether they are poisoned; todo: the blocks
of region rgn to convert under the output word once they are held. -/
structure PlanJob where
  id : Nat
  owner : Nat
  rgn : Nat
  word : Nat
  outs : List ((Nat × Nat × Nat) × BitVec 64 × Sub × Bool)
  todo : List PlanBlock
  applied : Bool
deriving DecidableEq, Repr

/-- A reduce flow or transfer in progress on this member: the lines received from each child (or the parent), the
lines already handled, and the lines poisoned (R417, R518, R522). taken: the sources of a flow that this member has taken, each
with its lines, squared where the flow squares (R390, R423). -/
structure LineRun where
  flow : Bool
  desc : Nat
  started : Bool
  recv : List (Nat × Nat × Sub × Bool)
  handled : List Nat
  own : List (Nat × Sub × Bool)
  taken : List (Nat × List (Sub × Bool))
deriving DecidableEq, Repr

/-- Lens engines, accumulator files and line traffic (chapters 10 to 12, 15). acc: entries by engine × 32,768 +
column × 128 + row; accBad: the errors of its 8-byte words, by engine × 16,384 + word (R359); markAll: what an unlisted poison
mark reads as (R386); keeps: weight sectors
that waves still have to fetch (R339). -/
structure Lens where
  engines : SMap Engine
  acc : SMap (BitVec 32)
  marks : SMap Bool
  accBad : SMap DataErr
  markAll : Bool
  runs : List LineRun
  jobs : List PlanJob
  keeps : List WeightRead
deriving DecidableEq, Repr

/-- A message as its slots carry it: its VC, its header slot and its data (R459, R462, R463). -/
structure Wire where
  vc : Nat
  head : Nat
  data : List Sub
deriving DecidableEq, Repr

/-- One Palwick port's link layer (R453 to R480): which modules are in service, what discovery classed the port as,
whether it is barred until the set is reset (R619) or carries sideband only (R748); acked the last sequence number the
partner has accepted, rxSeq and rxLseq the last demand and lattice numbers accepted from it; askReplay, lnak: what the next flit
asks
for; resent: lattice flits already named in an LNAK; rxSlots: slots of messages whose last slot has not come, by VC, and rxHeld the
requests that wait in the receive buffer for room in the request table (R142, R475). -/
structure Port where
  up0 : Bool
  up1 : Bool
  trained : Bool
  dieLink : Bool
  agentPort : Bool
  sidebandOnly : Bool
  barred : Bool
  acked : BitVec 12
  rxSeq : BitVec 12
  rxLseq : BitVec 12
  askReplay : Bool
  lnak : List (BitVec 12)
  resent : List (BitVec 12)
  rxSlots : SMap (List (BitVec 256))
  rxHeld : List Wire
deriving DecidableEq, Repr

/-- A flit that a port sends (R457 to R460): kind (0 demand, 1 CTL, 2 lattice, 3 idle) and sequence number; the ACK, REPLAY,
LNAK and CREDIT of its header; body, for each filled slot its VC, the place in outbox of its message and the number of that
message's slot; lines, the places in outbox of a lattice flit's lines; bits, the flit itself, formed when it leaves. -/
structure FlitOut where
  kind : Nat
  seq : BitVec 12
  ack : BitVec 12
  replay : Bool
  lnak : Option (BitVec 12)
  credits : SMap Nat
  body : List (Nat × Nat × Nat)
  lines : List Nat
  bits : Flit
deriving DecidableEq, Repr

/-- A message in a port's transmit queue: its place in outbox, its VC, whether it is urgent, and whether a shadow message or side
access (R602), its slots and how many have left. -/
structure TxMsg where
  at_ : Nat
  vc : Nat
  urgent : Bool
  shadow : Bool
  slots : Nat
  sent : Nat
deriving DecidableEq, Repr

/-- The sending half of a port (R461, R472 to R479, R524): the transmit queue; the last demand sequence number and the replay
buffer, with how many of its flits a replay in progress has resent; the VC whose turn it is; freed, slots to return as credits,
kept, VC4 slots whose credits are withheld (R142), and room, the slots that the partner may still send, by VC; the last lattice
sequence number, the lattice flits sent and those to resend; ready, the lines that may leave (flow or transfer, descriptor,
line, place in outbox); deferred, the flits whose lines were late, and detour, lines that travel a detour (R531); wait: LCLK
cycles that the flit on the wire still takes (R455). -/
structure Tx where
  queue : List TxMsg
  seq : BitVec 12
  unacked : List FlitOut
  replay : Option Nat
  turn : Nat
  freed : SMap Nat
  kept : Nat
  room : SMap Nat
  lseq : BitVec 12
  lsent : List FlitOut
  lresend : List FlitOut
  ready : List (Bool × Nat × Nat × Nat)
  deferred : List (Bool × Nat × List Nat)
  detour : List Nat
  wait : Nat
deriving DecidableEq, Repr

/-- Links, lattice and discovery (chapters 14, 15). disc: the discovery word of R536; tx: the sending halves of the ports; taken:
messages of outbox that the ports have taken; urgent: places in outbox of the urgent messages (R481); wire: what the ports sent in
the LCLK cycles of the last SCLK cycle, in order; awaiting: the MIRROR_PUTs and PARITY_DELTAs that flits have brought and whose
data has not come (R601, R621); viaOther: agents whose primary port, on another slice, has passed a message for them on to this
slice: it is lost (R513). -/
structure Links where
  ports : SMap Port
  disc : Word
  lossAt : Option Nat
  tx : SMap Tx
  taken : Nat
  urgent : List Nat
  wire : List (Nat × FlitOut)
  awaiting : List Wire
  viaOther : List Nat
deriving DecidableEq, Repr

/-- A mailbox command being carried out (R794). -/
structure CmdRun where
  code : BitVec 8
  arg : BitVec 48
  result : Option (BitVec 8)
deriving DecidableEq, Repr

/-- A block reset that waits for idle (R747): its block code, its source code and when it began. -/
structure BlockRun where
  code : BitVec 8
  source : BitVec 8
  start : Nat
deriving DecidableEq, Repr

/-- Power, reset and management state (chapters 19 to 21). -/
structure Mgmt where
  cmd : Option CmdRun
  blockRun : Option BlockRun
  bootSource : BitVec 8
  coldBoot : Bool
  profile1 : Bool
  wdogAt : Nat
  coreWdogAt : SMap Nat
  eclipseAt : Option Nat
  exitKind : BitVec 2
  wakeAt : Nat
  litFrom : List Nat
  duskNext : Bool
  rampSteps : Nat
  throttleRuns : SMap (Nat × Nat × Frame)
  eventSeq : BitVec 32
  energyFrac : Nat
  slotBus : Nat
  slotFlits : Nat
  boot : Option BootInputs
  coreSram : List (List Byte)
  fwRunning : Bool
  recHead : BitVec 8
deriving DecidableEq, Repr

/-- Instructions of the wrapper (R814). -/
inductive Wir where
  | wsBypass | wsExtest | wsIntest | wsScan
deriving DecidableEq, Repr

/-- The test access port and the wrapper (R812 to R815). dr: what the selected data register holds. -/
structure Tap where
  ir : BitVec 8
  dr : BitVec 64
  boundary : BitVec 64
  wir : Wir
  viaTap : Bool
deriving DecidableEq, Repr

/-- Messages of VC0 that the slice sends (R470, R691, R702). -/
inductive Ctl where
  | heartbeat (frame : Frame) (usable : Bool) (lostLinks : BitVec 10) (ackLink : BitVec 4) (ackSeq : BitVec 12)
  | frameDone (frame : Frame) (usable : Bool)
  | frameGo (frame : Frame) (degraded : Bool)
  | agentSuspect (agent : Agent) (cause : BitVec 2)
  | agentDead (agent : Agent) (cause : BitVec 2)
  | fenced (agent : Agent)
  | reclaim (agent : Agent)
  | eclipse (cause : BitVec 8)
  | homeMoved (lost newHome : Pos) (notice : Bool) (boundary : Frame)
  | ctlReset (kind : BitVec 2) (targets : BitVec 8) (hue : Hue) (block : BitVec 8)
  | podSync (src : Agent) (txid : BitVec 12)
  | podSyncDone (src : Agent) (txid : BitVec 12)
  | expose (frame : Frame)
  | mgmt (op : BitVec 8) (code : BitVec 8) (arg : BitVec 48)
deriving DecidableEq, Repr

/-- What the slice sends at its ports, in order (log entry 8). -/
inductive Msg where
  | resp (dst : Agent) (txid : BitVec 12) (off : Nat) (codes : List Code) (grant : BitVec 2) (ticket : BitVec 16)
      (data : List Sub)
  | pull (dst : Agent) (txid : BitVec 12)
  | retry (dst : Agent) (ticket : BitVec 16) (txid : BitVec 12)
  | snoop (dst : Agent) (src : Agent) (txid : BitVec 12) (code : BitVec 3) (addr : Nat)
  | forwardReq (home : Nat) (op : Op) (r : Request)
  | forwardReply (home : Pos) (p : SnoopReply) (data : Option Sub)
  | forwardMsg (dst src : Agent) (txid : BitVec 12) (off : BitVec 8) (data : List Sub)
  | mirrorPut (dst : Nat) (txid : Nat) (sector : Nat) (subs : BitVec 4) (fgroup : Nat)
      (record : Option AtomicRecord)
  | mirrorRelease (dst : Nat) (sector : Nat) (subs : BitVec 4) (fgroup : Nat)
  | parityDelta (dst : Nat) (txid : Nat) (d : Nat) (poison : Bool)
  | parityRelease (dst : Nat) (txid : Nat) (d : Nat)
  | reconRead (dst : Nat) (txid : Nat) (d : Nat)
  | reconAnswer (dst : Nat) (a : ReconAnswer) (urgent : Bool)
  | comp (dst : Nat) (txid : BitVec 12) (codes : List Code)
  | writeData (dst : Nat) (txid : BitVec 12) (off : Nat) (codes : List Code) (data : List Sub) (record : Option AtomicRecord)
  | side (dst : Nat) (txid : Nat) (home : Nat) (grp : Nat) (d : Nat) (shadowed : Bool) (store : Option (BitVec 64 × Sub))
  | sideData (dst : Agent) (txid : BitVec 12) (code : Code) (data : Sub)
  | escape (dst : Nat) (txid : Nat) (claim : Bool) (home : Nat) (grp : Nat) (d : Nat) (slots : Nat)
      (block : Nat)
  | slot (dst : Agent) (txid : BitVec 12) (slot : Option Nat)
  | prefetchHint (facet : Nat) (grp : Nat) (d : Nat)
  | ctl (dst : Nat) (m : Ctl)
  | homeMovedNotice (agent : Agent) (lost newHome : Pos) (boundary : Frame)
  | stageCopy (dst : Nat) (length : Nat)
  | litReport (dst : Nat)
  | transit (tgt : Agent) (w : Wire)
  | latticeLine (port : Nat) (dst : Nat) (sender : Pos) (flow : Bool) (desc : Nat) (line : Nat) (data : Sub) (poison : Bool)
  | resendFrom (port : Nat) (seq : BitVec 12)
  | resendLattice (port : Nat) (seq : BitVec 12)
  | credit (port : Nat) (vc : Nat) (slots : Nat)
  | glint (port : Nat) (vendor : BitVec 16) (payload : BitVec 32)
  | sideband (port : Nat) (value : Word)
  | refresh (pc : Nat) (bank : Nat) (weakRow : Option Nat)
  | stackRepair (row : BitVec 32)
  | selfRefresh (enter : Bool)
  | tdo (v : Nat)
deriving DecidableEq, Repr

/-- The slice, but for the queue of waiting commands. -/
structure Dev where
  pins : Pins
  phase : Phase
  now : Nat
  freeCount : Nat
  nextId : Nat
  fuse : Fuse
  csr : SMap Word
  regions : List Region
  frm : Frm
  img : Img
  cache : Cache
  stack : Stack
  shadow : Shadow
  rfl_ : Rfl
  prism : Prism
  lens : Lens
  links : Links
  mgmt : Mgmt
  tap : Tap
  afterglow : Memory
  outbox : List Msg
deriving DecidableEq, Repr

/-- The state of the model: the slice and its queue of waiting commands, first in, first out. -/
structure State extends Dev where
  pending : List Instr
deriving DecidableEq, Repr

/-- Why a step stops with a fault. -/
inductive Fault where
  /-- Raised by the stack-side commands (SIDE_ACCESS, ESCAPE_CLAIM_SLOT, ESCAPE_RELEASE_SLOT, PREFETCH_HINT,
  MIRROR_PUT, MIRROR_RELEASE, PARITY_DELTA, PARITY_RELEASE, RECON_READ) that name a device offset at or above
  191,998,459,904, which R95 says does not exist. Safe: the model stops and proves nothing of what follows. -/
  | deviceOffsetOutside (d : Nat)
deriving DecidableEq, Repr

/-- Why a step answers no meaning. -/
inductive Refusal where
  /-- Raised by exec for a command whose meaning is not written; no command is left so. Safe. -/
  | notModelled (mnemonic : String)
deriving DecidableEq, Repr

/-- The stored registers whose Reset column is not 0 (R166, R195, R271, R498, R584, R591, R593, R594, R665, R756,
R757, R763, R768), by rising CSR offset. The facets' FCT_HOT_CFG resets to 0x26. -/
def resetCsr : SMap Word :=
  (List.range 64).map (fun f => (0x40040 + f * 0x400, 0x26))
    ++ [(0x50010, 0x200040), (0x50028, 0x414), (0xE0000, 4), (0x100000, 9600), (0x100048, 0x118), (0x100058, 8),
        (0x100060, 3), (0x160000, 1000), (0x180008, 240), (0x180010, 0x73690000), (0x190000, 20), (0x190008, 0x100),
        (0x190028, 0x64000A)]

/-- An empty image. -/
def Sections.empty : Sections :=
  { imageId := 0, secVersion := 0, topology := [], partition := [], regions := [], formats := [], plan := [],
    lattice := [], counters := [], power := [], firmware := [], initOrder := [] }

/-- Fuses of the modelled die (log entry 4): full bin, no keys. -/
def Fuse.reset : Fuse :=
  { bin := 0, lensGood := 0xF, leakClass := 0, dead0 := 0, dead1 := 0, dead2 := 0, dead3 := 0, facetCount := 64,
    stepping := 0, dieId := 0,
    keys := List.replicate 4 { hash := 0, programmed := false, image := false, debug := false, revoked := false },
    minVersion := 0, repair := 0, sealedOnce := false }

/-- Frame state after reset: nothing counted, nothing planned. -/
def Frm.reset : Frm :=
  { counter := 0, slot := 0, usableRun := 0, reports := [], which := .normal, started := false, frameRunning := false,
    doneSent := false, go := none, haltPending := false, haltTick := false, haltRoute := false, haltOrdered := false,
    haltAlarm := false, haltEvent := false, haltFrom := 0, restart := false, frameFrom := 0, slipRun := 0, slipFrom := 0,
    doneFrom := [], lastDone := 0, items := [], sealAt := none,
    commitAt := none, exposeAt := none, movedAt := none, beats := [], missed := [], grace := 0, deniedRec := none,
    tickSeen := false, follow := true, lastEngines := 0, goFor := 0, commitGo := false }

/-- Loader state after reset: nothing staged or loaded. -/
def Img.reset : Img :=
  { force := Sections.empty, idle := none, idleKind := .image, stage := [], zeroFilled := false, initDone := false,
    firstSealed := false, fwReady := false, readyFrom := [], refusals := [], sealFrom := [], former := [],
    idleTypes := [], quiescing := false }

/-- Facets after reset: caches, directories and work cleared (R744). -/
def Cache.reset : Cache :=
  { lines := [], storeRet := false, storeRest := false, dir := [], reqs := [], txns := [], plrs := [], parked := [],
    tickets := [], nextTicket := [], wbs := [], filter := [], refetch := [], busy := [], busUse := 0, maint := [],
    tagScrub := [], dirScrub := [], deaths := [], deathCount := [], suspected := [], portsLost := [], fencedBy := [], pods := [], podOps := [],
    tagUpset := [], dirUpset := [], dataBad := [], hints := [] }

/-- Stack side at power-on. -/
def Stack.reset : Stack :=
  { dram := [], poison := [], reads := [], writes := [], rmw := [], remaps := [], refreshBank := [],
    refreshCount := [], weakNext := [], scrubAt := [], copies := [], recentUe := [], initAt := [],
    planRefresh := false, used := [] }

/-- Shadow state after reset. -/
def Shadow.reset : Shadow :=
  { puts := [], order := [], records := [], deltas := [], deltaOut := [], parity := [], recons := [], ports := [],
    copies := [], rebuildAt := [], bufferWanted := [], lastBeat := [], walking := false, buddyDead := [] }

/-- Reflection state after reset: no entry, no hue but hue 0 LIVE (R659). -/
def Rfl.reset : Rfl :=
  { queue := [], windows := [], nextSeq := 0, hues := [], sweepSet := 0, headersAt := [] }

/-- Prism state after reset (log entry 17). -/
def Prism.reset : Prism := { planned := [], demand := [], typed := [], claims := [], slots := [] }

/-- Lens state after reset (log entry 18). -/
def Lens.reset : Lens := 
  { engines := [], acc := [], marks := [], accBad := [], markAll := false, runs := [], jobs := [], keeps := [] }

/-- Links after reset: down, discovery not started, POSITION in the discovery word (position 0, log entry 5). -/
def Links.reset : Links := { ports := [], disc := 0, lossAt := none, tx := [], taken := 0, urgent := [], wire := [], awaiting := [], viaOther := [] }

/-- Management state at power-on. -/
def Mgmt.reset : Mgmt :=
  { cmd := none, blockRun := none, bootSource := 0, coldBoot := true, profile1 := false, wdogAt := 0, coreWdogAt := [],
    eclipseAt := none, exitKind := 0, wakeAt := 0, litFrom := [], duskNext := false, rampSteps := 0,
    throttleRuns := [], eventSeq := 0, energyFrac := 0, slotBus := 0, slotFlits := 0,
    boot := none, coreSram := [], fwRunning := false, recHead := 0 }

/-- Test access after TRST_N or a power-on reset (R812; log entry 19): IDCODE selected. -/
def Tap.reset : Tap := { ir := 0x01, dr := 0, boundary := 0, wir := .wsBypass, viaTap := false }

/-- The slice at power-on, held in reset by RST_N with PWR_GOOD high (log entry 3): every register at its Reset
column, afterglow at 0 (R750), strap code 1 (position 0, profile 0: log entry 5). -/
def Dev.reset : Dev :=
  { pins := { pwrGood := true, rstN := false, refclk := true, vddIo := true, droop := false }, phase := .held, now := 0,
    freeCount := 0, nextId := 1, fuse := Fuse.reset, csr := resetCsr, regions := [], frm := Frm.reset,
    img := Img.reset, cache := Cache.reset, stack := Stack.reset, shadow := Shadow.reset, rfl_ := Rfl.reset,
    prism := Prism.reset, lens := Lens.reset, links := Links.reset, mgmt := Mgmt.reset, tap := Tap.reset,
    afterglow := [], outbox := [] }

/-- The machine right after reset, its queue empty. -/
def State.reset : State := { Dev.reset with pending := [] }

end Sys2Proof.Machine
end

