-- ==== Sys2Proof/Machine/Regs.lean ====
section
/-! DEFINITION. The register map: offsets, fields and access codes of every register, from the register tables of the
chapters (R3 to R801, the register rules named beside each). A field of a replicated register takes its index, or
its two indices. -/

namespace Sys2Proof.Machine

/-- A field of a register: CSR offset and bit range. -/
structure Field where
  off : Nat
  hi : Nat
  lo : Nat
deriving DecidableEq, Repr

/-- A row of the register map: first offset, strides and counts, and the masks of the bits by access code (R8). -/
structure RegRow where
  base : Nat
  dims : List (Nat × Nat)
  rw : Nat
  w1c : Nat
  rws : Nat
  wo : Nat
deriving DecidableEq, Repr

/-- SET_IDENT (R3). -/
def R.setIdent : Nat := 0x0
/-- SET_ENABLE (R14). -/
def R.setEnable : Nat := 0x8
/-- SET_NODE (R83). -/
def R.setNode : Nat := 0x10
/-- IMG_STATUS (R708). -/
def R.imgStatus : Nat := 0x10000
/-- IMG_REFUSAL (R709). -/
def R.imgRefusal : Nat := 0x10008
/-- IMG_ID (R710). -/
def R.imgId : Nat := 0x10010
/-- IMG_STAGE (R711). -/
def R.imgStage : Nat := 0x10018
/-- IMG_SEAL (R712). -/
def R.imgSeal : Nat := 0x10020
/-- IMG_RGN (R89). -/
def R.imgRgn (i : Nat) : Nat := 0x11000 + i * 0x8
/-- FRM_CONFIG (R69). -/
def R.frmConfig : Nat := 0x20000
/-- FRM_STATUS (R70). -/
def R.frmStatus : Nat := 0x20008
/-- FRM_TICK_COUNT (R71). -/
def R.frmTickCount : Nat := 0x20010
/-- FRM_EVENTS (R72). -/
def R.frmEvents : Nat := 0x20018
/-- FRM_SLIP (R74). -/
def R.frmSlip : Nat := 0x20020
/-- FRM_GUARD (R75). -/
def R.frmGuard : Nat := 0x20028
/-- FCT_CONFIG (R158). -/
def R.fctConfig (i : Nat) : Nat := 0x40000 + i * 0x400
/-- FCT_MASK_AGENT (R159). -/
def R.fctMaskAgent (i : Nat) : Nat := 0x40008 + i * 0x400
/-- FCT_MASK_ENGINE (R159). -/
def R.fctMaskEngine (i : Nat) : Nat := 0x40010 + i * 0x400
/-- FCT_STATUS (R160). -/
def R.fctStatus (i : Nat) : Nat := 0x40018 + i * 0x400
/-- FCT_ERR (R161). -/
def R.fctErr (i : Nat) : Nat := 0x40020 + i * 0x400
/-- FCT_ECC_COUNT (R163). -/
def R.fctEccCount (i : Nat) : Nat := 0x40028 + i * 0x400
/-- FCT_UE_ADDR (R164). -/
def R.fctUeAddr (i : Nat) : Nat := 0x40030 + i * 0x400
/-- FCT_DARKEN (R165). -/
def R.fctDarken (i : Nat) : Nat := 0x40038 + i * 0x400
/-- FCT_HOT_CFG (R166). -/
def R.fctHotCfg (i : Nat) : Nat := 0x40040 + i * 0x400
/-- FCT_HOT (R167). -/
def R.fctHot (i : Nat) : Nat := 0x40048 + i * 0x400
/-- FCT_MAINT_SW (R168). -/
def R.fctMaintSw (i : Nat) : Nat := 0x40050 + i * 0x400
/-- FCT_MAINT_STATUS (R169). -/
def R.fctMaintStatus (i : Nat) : Nat := 0x40058 + i * 0x400
/-- FCT_TAG_SEL (R170). -/
def R.fctTagSel (i : Nat) : Nat := 0x40060 + i * 0x400
/-- FCT_TAG_DATA (R170). -/
def R.fctTagData (i : Nat) : Nat := 0x40068 + i * 0x400
/-- FCT_THRASH (R194). -/
def R.fctThrash (i : Nat) : Nat := 0x40070 + i * 0x400
/-- FCT_DIR_STATUS (R238). -/
def R.fctDirStatus (i : Nat) : Nat := 0x40078 + i * 0x400
/-- FCT_DIR_COUNT (R239). -/
def R.fctDirCount (i : Nat) : Nat := 0x40080 + i * 0x400
/-- FCT_DIR_SEL (R240). -/
def R.fctDirSel (i : Nat) : Nat := 0x40088 + i * 0x400
/-- FCT_DIR_DATA (R240). -/
def R.fctDirData (i : Nat) : Nat := 0x40090 + i * 0x400
/-- FCT_TICKET (R274). -/
def R.fctTicket (i : Nat) : Nat := 0x40098 + i * 0x400
/-- FCT_REQ (R171). -/
def R.fctReq : Nat := 0x50000
/-- FCT_HOLD (R172). -/
def R.fctHold : Nat := 0x50008
/-- FCT_THRASH_CFG (R195). -/
def R.fctThrashCfg : Nat := 0x50010
/-- FCT_PARTITION (R196). -/
def R.fctPartition : Nat := 0x50018
/-- FCT_SHADE_STATE (R197). -/
def R.fctShadeState : Nat := 0x50020
/-- FCT_COH_CFG (R271). -/
def R.fctCohCfg : Nat := 0x50028
/-- FCT_FENCE (R272). -/
def R.fctFence : Nat := 0x50030
/-- FCT_DEATH (R273). -/
def R.fctDeath : Nat := 0x50038
/-- LNS_MAP (R362). -/
def R.lnsMap : Nat := 0x80000
/-- LNS_DESC (R363). -/
def R.lnsDesc : Nat := 0x80008
/-- LNS_DESC_SEL (R364). -/
def R.lnsDescSel : Nat := 0x80010
/-- LNS_DESC_DATA (R364). -/
def R.lnsDescData : Nat := 0x80018
/-- LNS_STATUS (R365). -/
def R.lnsStatus (i : Nat) : Nat := 0x80100 + i * 0x100
/-- LNS_ERR (R366). -/
def R.lnsErr (i : Nat) : Nat := 0x80108 + i * 0x100
/-- LNS_COUNT (R368). -/
def R.lnsCount (i : Nat) : Nat := 0x80110 + i * 0x100
/-- LNS_LATE (R369). -/
def R.lnsLate (i : Nat) : Nat := 0x80118 + i * 0x100
/-- LNS_POISON (R370). -/
def R.lnsPoison (i : Nat) : Nat := 0x80120 + i * 0x100
/-- LNS_ACC (R393). -/
def R.lnsAcc (i : Nat) : Nat := 0x80128 + i * 0x100
/-- PRM_SEED (R323). -/
def R.prmSeed : Nat := 0x90000
/-- PRM_FRAMES (R323). -/
def R.prmFrames : Nat := 0x90008
/-- PRM_ERR (R324). -/
def R.prmErr : Nat := 0x90010
/-- PRM_LFSR_SEL (R326). -/
def R.prmLfsrSel : Nat := 0x90018
/-- PRM_LFSR (R326). -/
def R.prmLfsr : Nat := 0x90020
/-- PRM_ABSMAX (R327). -/
def R.prmAbsmax (i : Nat) : Nat := 0x91000 + i * 0x100
/-- PRM_LOSS (R327). -/
def R.prmLoss (i : Nat) : Nat := 0x91008 + i * 0x100
/-- PRM_ESC (R327). -/
def R.prmEsc (i : Nat) : Nat := 0x91010 + i * 0x100
/-- PRM_BLOCKS (R327). -/
def R.prmBlocks (i : Nat) : Nat := 0x91018 + i * 0x100
/-- PRM_HIST0 (R327). -/
def R.prmHist0 (i : Nat) : Nat := 0x91020 + i * 0x100
/-- PRM_HIST1 (R327). -/
def R.prmHist1 (i : Nat) : Nat := 0x91028 + i * 0x100
/-- PRM_HIST2 (R327). -/
def R.prmHist2 (i : Nat) : Nat := 0x91030 + i * 0x100
/-- PRM_HIST3 (R327). -/
def R.prmHist3 (i : Nat) : Nat := 0x91038 + i * 0x100
/-- PRM_HIST4 (R327). -/
def R.prmHist4 (i : Nat) : Nat := 0x91040 + i * 0x100
/-- PRM_HIST5 (R327). -/
def R.prmHist5 (i : Nat) : Nat := 0x91048 + i * 0x100
/-- PRM_HIST6 (R327). -/
def R.prmHist6 (i : Nat) : Nat := 0x91050 + i * 0x100
/-- PRM_HIST7 (R327). -/
def R.prmHist7 (i : Nat) : Nat := 0x91058 + i * 0x100
/-- CRD_FLOWS (R428). -/
def R.crdFlows : Nat := 0xa0000
/-- CRD_FLOW_SEL (R429). -/
def R.crdFlowSel : Nat := 0xa0008
/-- CRD_FLOW_DATA (R429). -/
def R.crdFlowData : Nat := 0xa0010
/-- CRD_FLOW_STATUS (R430). -/
def R.crdFlowStatus : Nat := 0xa0018
/-- CRD_ERR (R431). -/
def R.crdErr : Nat := 0xa0020
/-- CRD_COUNT (R433). -/
def R.crdCount : Nat := 0xa0028
/-- CRD_FAR (R433). -/
def R.crdFar : Nat := 0xa0030
/-- PWK_CFG (R491). -/
def R.pwkCfg (i : Nat) : Nat := 0xc0000 + i * 0x400
/-- PWK_STATUS (R492). -/
def R.pwkStatus (i : Nat) : Nat := 0xc0008 + i * 0x400
/-- PWK_ERR (R493). -/
def R.pwkErr (i : Nat) : Nat := 0xc0010 + i * 0x400
/-- PWK_COUNT (R495). -/
def R.pwkCount (i : Nat) : Nat := 0xc0018 + i * 0x400
/-- PWK_CREDIT (R496). -/
def R.pwkCredit (i : Nat) : Nat := 0xc0020 + i * 0x400
/-- PWK_URG (R497). -/
def R.pwkUrg (i : Nat) : Nat := 0xc0028 + i * 0x400
/-- PWK_DISC (R536). -/
def R.pwkDisc (i : Nat) : Nat := 0xc0030 + i * 0x400
/-- PWK_URG_CFG (R498). -/
def R.pwkUrgCfg : Nat := 0xe0000
/-- PWK_GLINT (R499). -/
def R.pwkGlint : Nat := 0xe0008
/-- PWK_LOSS (R500). -/
def R.pwkLoss : Nat := 0xe0010
/-- PWK_ROUTE (R537). -/
def R.pwkRoute : Nat := 0xe0100
/-- PWK_DETOUR (R538). -/
def R.pwkDetour : Nat := 0xe0108
/-- PWK_LATTICE (R539). -/
def R.pwkLattice : Nat := 0xe0110
/-- STK_CONFIG (R584). -/
def R.stkConfig : Nat := 0x100000
/-- STK_ID0 (R585). -/
def R.stkId0 : Nat := 0x100010
/-- STK_ID1 (R585). -/
def R.stkId1 : Nat := 0x100018
/-- STK_STATUS0 (R586). -/
def R.stkStatus0 : Nat := 0x100020
/-- STK_STATUS1 (R586). -/
def R.stkStatus1 : Nat := 0x100028
/-- STK_ERR (R587). -/
def R.stkErr : Nat := 0x100030
/-- STK_COUNT (R589). -/
def R.stkCount : Nat := 0x100038
/-- STK_UE_ADDR (R590). -/
def R.stkUeAddr : Nat := 0x100040
/-- STK_SCRUB_CFG (R591). -/
def R.stkScrubCfg : Nat := 0x100048
/-- STK_SCRUB (R592). -/
def R.stkScrub : Nat := 0x100050
/-- STK_ROW_CFG (R593). -/
def R.stkRowCfg : Nat := 0x100058
/-- STK_ROWS (R594). -/
def R.stkRows : Nat := 0x100060
/-- STK_INIT (R595). -/
def R.stkInit : Nat := 0x100068
/-- SHD_CONFIG (R635). -/
def R.shdConfig : Nat := 0x140000
/-- SHD_STATUS (R636). -/
def R.shdStatus : Nat := 0x140008
/-- SHD_ERR (R637). -/
def R.shdErr : Nat := 0x140010
/-- SHD_COUNT (R639). -/
def R.shdCount : Nat := 0x140018
/-- SHD_TAKEOVER (R640). -/
def R.shdTakeover : Nat := 0x140020
/-- SHD_RECORDS (R641). -/
def R.shdRecords : Nat := 0x140028
/-- SHD_DOUBLE (R642). -/
def R.shdDouble : Nat := 0x140030
/-- RFL_CONFIG (R665). -/
def R.rflConfig : Nat := 0x160000
/-- RFL_QSTATUS (R666). -/
def R.rflQstatus : Nat := 0x160008
/-- RFL_DONE (R667). -/
def R.rflDone : Nat := 0x160010
/-- RFL_HUE_SEL (R668). -/
def R.rflHueSel : Nat := 0x160018
/-- RFL_HUE_DATA (R668). -/
def R.rflHueData : Nat := 0x160020
/-- RFL_SWEEP (R669). -/
def R.rflSweep : Nat := 0x160028
/-- RFL_COUNT (R670). -/
def R.rflCount : Nat := 0x160030
/-- RFL_COUNT2 (R670). -/
def R.rflCount2 : Nat := 0x160038
/-- RFL_ERR (R671). -/
def R.rflErr : Nat := 0x160040
/-- RFL_QDESC (R652). -/
def R.rflQdesc (i : Nat) : Nat := 0x161000 + i * 0x8
/-- RFL_WINDOW (R652). -/
def R.rflWindow (i : Nat) : Nat := 0x170000 + i * 0x8
/-- PWR_STATE (R755). -/
def R.pwrState : Nat := 0x180000
/-- PWR_CAP (R756). -/
def R.pwrCap : Nat := 0x180008
/-- PWR_CLASS (R757). -/
def R.pwrClass : Nat := 0x180010
/-- PWR_THROTTLE (R758). -/
def R.pwrThrottle : Nat := 0x180018
/-- PWR_THR_TIME (R759). -/
def R.pwrThrTime : Nat := 0x180020
/-- PWR_TEMP (R760). -/
def R.pwrTemp : Nat := 0x180028
/-- PWR_EST (R761). -/
def R.pwrEst : Nat := 0x180030
/-- PWR_RET (R762). -/
def R.pwrRet : Nat := 0x180038
/-- RST_CFG (R763). -/
def R.rstCfg : Nat := 0x190000
/-- RST_STRAP (R764). -/
def R.rstStrap : Nat := 0x190008
/-- RST_BLOCK (R765). -/
def R.rstBlock : Nat := 0x190010
/-- RST_BLOCK_STATUS (R766). -/
def R.rstBlockStatus : Nat := 0x190018
/-- RST_WDOG (R767). -/
def R.rstWdog : Nat := 0x190020
/-- RST_WDOG_CFG (R768). -/
def R.rstWdogCfg : Nat := 0x190028
/-- RST_AG0 (R750). -/
def R.rstAg0 : Nat := 0x190100
/-- RST_AG1 (R750). -/
def R.rstAg1 : Nat := 0x190108
/-- RST_AG2 (R750). -/
def R.rstAg2 : Nat := 0x190110
/-- RST_AG3 (R750). -/
def R.rstAg3 : Nat := 0x190118
/-- RST_AG4 (R750). -/
def R.rstAg4 : Nat := 0x190120
/-- RST_AG5 (R750). -/
def R.rstAg5 : Nat := 0x190128
/-- RST_AG6 (R750). -/
def R.rstAg6 : Nat := 0x190130
/-- RST_AG7 (R750). -/
def R.rstAg7 : Nat := 0x190138
/-- CNT_VAL (R796). -/
def R.cntVal (i : Nat) (j : Nat) : Nat := 0x1a0000 + i * 0x100 + j * 0x8
/-- CNT_SNAP (R796). -/
def R.cntSnap (i : Nat) (j : Nat) : Nat := 0x1a0040 + i * 0x100 + j * 0x8
/-- CNT_SEL (R796). -/
def R.cntSel (i : Nat) (j : Nat) : Nat := 0x1a0080 + i * 0x100 + j * 0x8
/-- CNT_CFG (R797). -/
def R.cntCfg (i : Nat) : Nat := 0x1a00c0 + i * 0x100
/-- CNT_OVF (R796). -/
def R.cntOvf (i : Nat) : Nat := 0x1a00c8 + i * 0x100
/-- CNT_EXPOSE (R798). -/
def R.cntExpose : Nat := 0x1a0c00
/-- CNT_ENERGY (R799). -/
def R.cntEnergy : Nat := 0x1a0c08
/-- CNT_ENERGY_SNAP (R799). -/
def R.cntEnergySnap : Nat := 0x1a0c10
/-- GNM_CMD (R794). -/
def R.gnmCmd : Nat := 0x1c0000
/-- GNM_CMD_STATUS (R794). -/
def R.gnmCmdStatus : Nat := 0x1c0008
/-- GNM_ALERT (R792). -/
def R.gnmAlert : Nat := 0x1c0010
/-- GNM_CORE_STATUS (R800). -/
def R.gnmCoreStatus (i : Nat) : Nat := 0x1c0100 + i * 0x40
/-- GNM_CORE_WDOG (R800). -/
def R.gnmCoreWdog (i : Nat) : Nat := 0x1c0108 + i * 0x40
/-- SEC_STATE (R713). -/
def R.secState : Nat := 0x1e0000
/-- SEC_DIE_ID (R714). -/
def R.secDieId : Nat := 0x1e0008
/-- SEC_NONCE (R714). -/
def R.secNonce : Nat := 0x1e0010
/-- SEC_DEBUG (R715). -/
def R.secDebug : Nat := 0x1e0018
/-- SEC_KEY_HASH (R716). -/
def R.secKeyHash (i : Nat) (j : Nat) : Nat := 0x1e0100 + i * 0x40 + j * 0x8

def F.setIdent_VENDOR : Field := ⟨R.setIdent, 63, 48⟩
def F.setIdent_BLOCK : Field := ⟨R.setIdent, 47, 32⟩
def F.setIdent_MAJOR : Field := ⟨R.setIdent, 31, 24⟩
def F.setIdent_MINOR : Field := ⟨R.setIdent, 23, 16⟩
def F.setIdent_STEP : Field := ⟨R.setIdent, 15, 8⟩
def F.setIdent_POSITION : Field := ⟨R.setIdent, 2, 0⟩
def F.setEnable_BIN : Field := ⟨R.setEnable, 49, 48⟩
def F.setEnable_LENS_GOOD : Field := ⟨R.setEnable, 47, 44⟩
def F.setEnable_LEAK_CLASS : Field := ⟨R.setEnable, 43, 40⟩
def F.setEnable_DEAD_FACET3 : Field := ⟨R.setEnable, 39, 34⟩
def F.setEnable_DEAD_FACET2 : Field := ⟨R.setEnable, 33, 28⟩
def F.setEnable_DEAD_FACET1 : Field := ⟨R.setEnable, 27, 22⟩
def F.setEnable_DEAD_FACET0 : Field := ⟨R.setEnable, 21, 16⟩
def F.setEnable_FACET_COUNT : Field := ⟨R.setEnable, 15, 8⟩
def F.setNode_POD : Field := ⟨R.setNode, 15, 6⟩
def F.setNode_SLOT : Field := ⟨R.setNode, 5, 0⟩
def F.imgStatus_PATCH_SEQ : Field := ⟨R.imgStatus, 63, 32⟩
def F.imgStatus_STEP : Field := ⟨R.imgStatus, 7, 4⟩
def F.imgStatus_QUIESCED : Field := ⟨R.imgStatus, 3, 3⟩
def F.imgStatus_SEALED : Field := ⟨R.imgStatus, 2, 2⟩
def F.imgStatus_PATCH_PENDING : Field := ⟨R.imgStatus, 1, 1⟩
def F.imgStatus_LOADED : Field := ⟨R.imgStatus, 0, 0⟩
def F.imgRefusal_VALID : Field := ⟨R.imgRefusal, 63, 63⟩
def F.imgRefusal_POSITION : Field := ⟨R.imgRefusal, 58, 56⟩
def F.imgRefusal_CODE : Field := ⟨R.imgRefusal, 55, 48⟩
def F.imgRefusal_TYPE : Field := ⟨R.imgRefusal, 47, 40⟩
def F.imgRefusal_OFFSET : Field := ⟨R.imgRefusal, 31, 0⟩
def F.imgId_IMAGE_ID : Field := ⟨R.imgId, 63, 0⟩
def F.imgStage_LENGTH : Field := ⟨R.imgStage, 56, 32⟩
def F.imgStage_OFFSET : Field := ⟨R.imgStage, 24, 0⟩
def F.imgSeal_SEAL : Field := ⟨R.imgSeal, 0, 0⟩
def F.imgRgn_WORD (i : Nat) : Field := ⟨R.imgRgn i, 63, 0⟩
def F.frmConfig_GO_LEAD : Field := ⟨R.frmConfig, 57, 50⟩
def F.frmConfig_LEADER : Field := ⟨R.frmConfig, 49, 47⟩
def F.frmConfig_PERIOD : Field := ⟨R.frmConfig, 46, 34⟩
def F.frmConfig_DEG_PERIOD : Field := ⟨R.frmConfig, 33, 25⟩
def F.frmConfig_TEMPLATES : Field := ⟨R.frmConfig, 24, 19⟩
def F.frmConfig_LEN_CODE : Field := ⟨R.frmConfig, 1, 0⟩
def F.frmStatus_PLAN_INDEX : Field := ⟨R.frmStatus, 47, 36⟩
def F.frmStatus_TEMPLATE : Field := ⟨R.frmStatus, 35, 30⟩
def F.frmStatus_HOLDOVER_RUN : Field := ⟨R.frmStatus, 22, 16⟩
def F.frmStatus_CONSEC_SLIPS : Field := ⟨R.frmStatus, 15, 12⟩
def F.frmStatus_TICK_LOCK : Field := ⟨R.frmStatus, 7, 7⟩
def F.frmStatus_HOLDOVER : Field := ⟨R.frmStatus, 6, 6⟩
def F.frmStatus_DEGRADED : Field := ⟨R.frmStatus, 5, 5⟩
def F.frmStatus_STATE : Field := ⟨R.frmStatus, 2, 0⟩
def F.frmTickCount_COUNT : Field := ⟨R.frmTickCount, 47, 0⟩
def F.frmEvents_DEGRADED_SWITCH : Field := ⟨R.frmEvents, 5, 5⟩
def F.frmEvents_HALT : Field := ⟨R.frmEvents, 4, 4⟩
def F.frmEvents_SLIP : Field := ⟨R.frmEvents, 3, 3⟩
def F.frmEvents_HOLDOVER_ENTERED : Field := ⟨R.frmEvents, 2, 2⟩
def F.frmEvents_TICK_PHASE : Field := ⟨R.frmEvents, 1, 1⟩
def F.frmEvents_TICK_MISSING : Field := ⟨R.frmEvents, 0, 0⟩
def F.frmSlip_SLIP_TOTAL : Field := ⟨R.frmSlip, 63, 32⟩
def F.frmSlip_LAST_FRAMES : Field := ⟨R.frmSlip, 31, 16⟩
def F.frmSlip_LATE_POSITION : Field := ⟨R.frmSlip, 10, 8⟩
def F.frmGuard_PEAK_SCLK : Field := ⟨R.frmGuard, 15, 0⟩
def F.fctConfig_ENABLED (i : Nat) : Field := ⟨R.fctConfig i, 33, 33⟩
def F.fctConfig_ABSORBS (i : Nat) : Field := ⟨R.fctConfig i, 32, 32⟩
def F.fctConfig_WAY_CLASS (i : Nat) : Field := ⟨R.fctConfig i, 31, 0⟩
def F.fctMaskAgent_A3 (i : Nat) : Field := ⟨R.fctMaskAgent i, 63, 48⟩
def F.fctMaskAgent_A2 (i : Nat) : Field := ⟨R.fctMaskAgent i, 47, 32⟩
def F.fctMaskAgent_A1 (i : Nat) : Field := ⟨R.fctMaskAgent i, 31, 16⟩
def F.fctMaskAgent_A0 (i : Nat) : Field := ⟨R.fctMaskAgent i, 15, 0⟩
def F.fctMaskEngine_MIRROR (i : Nat) : Field := ⟨R.fctMaskEngine i, 63, 48⟩
def F.fctMaskEngine_REFL (i : Nat) : Field := ⟨R.fctMaskEngine i, 47, 32⟩
def F.fctMaskEngine_PRISM (i : Nat) : Field := ⟨R.fctMaskEngine i, 31, 16⟩
def F.fctMaskEngine_LENS (i : Nat) : Field := ⟨R.fctMaskEngine i, 15, 0⟩
def F.fctStatus_INGRESS (i : Nat) : Field := ⟨R.fctStatus i, 34, 20⟩
def F.fctStatus_PLR_BUSY (i : Nat) : Field := ⟨R.fctStatus i, 19, 15⟩
def F.fctStatus_WB_BUSY (i : Nat) : Field := ⟨R.fctStatus i, 14, 11⟩
def F.fctErr_HOT (i : Nat) : Field := ⟨R.fctErr i, 6, 6⟩
def F.fctErr_DARK_REREAD (i : Nat) : Field := ⟨R.fctErr i, 5, 5⟩
def F.fctErr_TAG_LOST (i : Nat) : Field := ⟨R.fctErr i, 4, 4⟩
def F.fctErr_TAG_CE (i : Nat) : Field := ⟨R.fctErr i, 3, 3⟩
def F.fctErr_DATA_UE_DIRTY (i : Nat) : Field := ⟨R.fctErr i, 2, 2⟩
def F.fctErr_DATA_UE (i : Nat) : Field := ⟨R.fctErr i, 1, 1⟩
def F.fctErr_DATA_CE (i : Nat) : Field := ⟨R.fctErr i, 0, 0⟩
def F.fctEccCount_TAG_CE (i : Nat) : Field := ⟨R.fctEccCount i, 63, 48⟩
def F.fctEccCount_DATA_UE (i : Nat) : Field := ⟨R.fctEccCount i, 47, 32⟩
def F.fctEccCount_DATA_CE (i : Nat) : Field := ⟨R.fctEccCount i, 31, 0⟩
def F.fctUeAddr_VALID (i : Nat) : Field := ⟨R.fctUeAddr i, 63, 63⟩
def F.fctUeAddr_ADDR (i : Nat) : Field := ⟨R.fctUeAddr i, 37, 6⟩
def F.fctDarken_CAPTURED (i : Nat) : Field := ⟨R.fctDarken i, 63, 63⟩
def F.fctDarken_COUNT (i : Nat) : Field := ⟨R.fctDarken i, 53, 38⟩
def F.fctDarken_FIRST (i : Nat) : Field := ⟨R.fctDarken i, 37, 6⟩
def F.fctHotCfg_IDLE_THR (i : Nat) : Field := ⟨R.fctHotCfg i, 7, 4⟩
def F.fctHotCfg_BUSY_THR (i : Nat) : Field := ⟨R.fctHotCfg i, 3, 0⟩
def F.fctHot_HOT_FRAMES (i : Nat) : Field := ⟨R.fctHot i, 63, 32⟩
def F.fctHot_LAST_FRAME (i : Nat) : Field := ⟨R.fctHot i, 31, 0⟩
def F.fctMaintSw_OP (i : Nat) : Field := ⟨R.fctMaintSw i, 17, 16⟩
def F.fctMaintSw_SET (i : Nat) : Field := ⟨R.fctMaintSw i, 14, 4⟩
def F.fctMaintSw_WAY (i : Nat) : Field := ⟨R.fctMaintSw i, 3, 0⟩
def F.fctMaintStatus_REFUSED (i : Nat) : Field := ⟨R.fctMaintStatus i, 1, 1⟩
def F.fctMaintStatus_BUSY (i : Nat) : Field := ⟨R.fctMaintStatus i, 0, 0⟩
def F.fctTagSel_COPY (i : Nat) : Field := ⟨R.fctTagSel i, 16, 16⟩
def F.fctTagSel_SET (i : Nat) : Field := ⟨R.fctTagSel i, 14, 4⟩
def F.fctTagSel_WAY (i : Nat) : Field := ⟨R.fctTagSel i, 3, 0⟩
def F.fctTagData_ENTRY (i : Nat) : Field := ⟨R.fctTagData i, 47, 0⟩
def F.fctThrash_THRASHED (i : Nat) : Field := ⟨R.fctThrash i, 63, 63⟩
def F.fctThrash_LAST_COUNT (i : Nat) : Field := ⟨R.fctThrash i, 47, 32⟩
def F.fctThrash_THRASH_FRAMES (i : Nat) : Field := ⟨R.fctThrash i, 31, 0⟩
def F.fctDirStatus_USED (i : Nat) : Field := ⟨R.fctDirStatus i, 48, 32⟩
def F.fctDirStatus_FLARED (i : Nat) : Field := ⟨R.fctDirStatus i, 16, 0⟩
def F.fctDirCount_DIR_CE (i : Nat) : Field := ⟨R.fctDirCount i, 63, 48⟩
def F.fctDirCount_BROADCASTS (i : Nat) : Field := ⟨R.fctDirCount i, 47, 24⟩
def F.fctDirCount_RECALLS (i : Nat) : Field := ⟨R.fctDirCount i, 23, 0⟩
def F.fctDirSel_COPY (i : Nat) : Field := ⟨R.fctDirSel i, 16, 16⟩
def F.fctDirSel_SET (i : Nat) : Field := ⟨R.fctDirSel i, 15, 4⟩
def F.fctDirSel_WAY (i : Nat) : Field := ⟨R.fctDirSel i, 3, 0⟩
def F.fctDirData_ENTRY (i : Nat) : Field := ⟨R.fctDirData i, 49, 0⟩
def F.fctTicket_NEXT (i : Nat) : Field := ⟨R.fctTicket i, 63, 48⟩
def F.fctTicket_OUTSTANDING (i : Nat) : Field := ⟨R.fctTicket i, 47, 40⟩
def F.fctTicket_LAPSED (i : Nat) : Field := ⟨R.fctTicket i, 31, 16⟩
def F.fctTicket_FULL (i : Nat) : Field := ⟨R.fctTicket i, 15, 0⟩
def F.fctReq_PEAK : Field := ⟨R.fctReq, 41, 28⟩
def F.fctReq_OCCUPANCY : Field := ⟨R.fctReq, 27, 14⟩
def F.fctReq_POOL_USED : Field := ⟨R.fctReq, 11, 0⟩
def F.fctHold_CYCLES : Field := ⟨R.fctHold, 47, 0⟩
def F.fctThrashCfg_THR : Field := ⟨R.fctThrashCfg, 25, 16⟩
def F.fctThrashCfg_WINDOW : Field := ⟨R.fctThrashCfg, 7, 0⟩
def F.fctPartition_WORD : Field := ⟨R.fctPartition, 63, 0⟩
def F.fctShadeState_RETAIN_DROPPED : Field := ⟨R.fctShadeState, 1, 1⟩
def F.fctShadeState_BUILT : Field := ⟨R.fctShadeState, 0, 0⟩
def F.fctCohCfg_MODE : Field := ⟨R.fctCohCfg, 32, 32⟩
def F.fctCohCfg_TICKET_HOLD : Field := ⟨R.fctCohCfg, 15, 8⟩
def F.fctCohCfg_SNOOP_TIMEOUT : Field := ⟨R.fctCohCfg, 7, 0⟩
def F.fctFence_MASK : Field := ⟨R.fctFence, 47, 0⟩
def F.fctDeath_VALID : Field := ⟨R.fctDeath, 63, 63⟩
def F.fctDeath_AGENT : Field := ⟨R.fctDeath, 55, 50⟩
def F.fctDeath_CAUSE : Field := ⟨R.fctDeath, 49, 48⟩
def F.fctDeath_DURATION : Field := ⟨R.fctDeath, 47, 32⟩
def F.fctDeath_POISONED : Field := ⟨R.fctDeath, 31, 0⟩
def F.lnsMap_COUNT : Field := ⟨R.lnsMap, 10, 8⟩
def F.lnsMap_L3_PHYS : Field := ⟨R.lnsMap, 7, 6⟩
def F.lnsMap_L2_PHYS : Field := ⟨R.lnsMap, 5, 4⟩
def F.lnsMap_L1_PHYS : Field := ⟨R.lnsMap, 3, 2⟩
def F.lnsMap_L0_PHYS : Field := ⟨R.lnsMap, 1, 0⟩
def F.lnsDesc_COUNT : Field := ⟨R.lnsDesc, 13, 0⟩
def F.lnsDescSel_WORD : Field := ⟨R.lnsDescSel, 18, 16⟩
def F.lnsDescSel_INDEX : Field := ⟨R.lnsDescSel, 12, 0⟩
def F.lnsDescData_WORD : Field := ⟨R.lnsDescData, 63, 0⟩
def F.lnsStatus_TILE (i : Nat) : Field := ⟨R.lnsStatus i, 63, 40⟩
def F.lnsStatus_WAVE (i : Nat) : Field := ⟨R.lnsStatus i, 28, 16⟩
def F.lnsStatus_PENDING (i : Nat) : Field := ⟨R.lnsStatus i, 5, 4⟩
def F.lnsStatus_STATE (i : Nat) : Field := ⟨R.lnsStatus i, 2, 0⟩
def F.lnsErr_LATE (i : Nat) : Field := ⟨R.lnsErr i, 5, 5⟩
def F.lnsErr_ACC_UE (i : Nat) : Field := ⟨R.lnsErr i, 4, 4⟩
def F.lnsErr_ACC_CE (i : Nat) : Field := ⟨R.lnsErr i, 3, 3⟩
def F.lnsErr_A_POISON (i : Nat) : Field := ⟨R.lnsErr i, 2, 2⟩
def F.lnsErr_W_POISON (i : Nat) : Field := ⟨R.lnsErr i, 1, 1⟩
def F.lnsErr_ESC_TILE (i : Nat) : Field := ⟨R.lnsErr i, 0, 0⟩
def F.lnsCount_WAVES (i : Nat) : Field := ⟨R.lnsCount i, 63, 32⟩
def F.lnsCount_ESC_TILES (i : Nat) : Field := ⟨R.lnsCount i, 31, 0⟩
def F.lnsLate_LATE_WAVES (i : Nat) : Field := ⟨R.lnsLate i, 63, 32⟩
def F.lnsLate_PEAK_SCLK (i : Nat) : Field := ⟨R.lnsLate i, 15, 0⟩
def F.lnsPoison_VALID (i : Nat) : Field := ⟨R.lnsPoison i, 63, 63⟩
def F.lnsPoison_WAVE (i : Nat) : Field := ⟨R.lnsPoison i, 60, 48⟩
def F.lnsPoison_ENTRIES (i : Nat) : Field := ⟨R.lnsPoison i, 31, 0⟩
def F.lnsAcc_SAT (i : Nat) : Field := ⟨R.lnsAcc i, 63, 32⟩
def F.lnsAcc_SAT_SEEN (i : Nat) : Field := ⟨R.lnsAcc i, 31, 31⟩
def F.lnsAcc_SAT_WAVE (i : Nat) : Field := ⟨R.lnsAcc i, 12, 0⟩
def F.prmSeed_SEED : Field := ⟨R.prmSeed, 31, 0⟩
def F.prmFrames_FRAMES : Field := ⟨R.prmFrames, 47, 0⟩
def F.prmErr_ESC_MISSING : Field := ⟨R.prmErr, 4, 4⟩
def F.prmErr_BUDGET_FULL : Field := ⟨R.prmErr, 3, 3⟩
def F.prmErr_WIDE_SAT : Field := ⟨R.prmErr, 2, 2⟩
def F.prmErr_NAN_DROP : Field := ⟨R.prmErr, 1, 1⟩
def F.prmErr_SAT : Field := ⟨R.prmErr, 0, 0⟩
def F.prmLfsrSel_WHICH : Field := ⟨R.prmLfsrSel, 8, 8⟩
def F.prmLfsrSel_FACET : Field := ⟨R.prmLfsrSel, 5, 0⟩
def F.prmLfsr_STATE : Field := ⟨R.prmLfsr, 31, 0⟩
def F.prmAbsmax_ABSMAX (i : Nat) : Field := ⟨R.prmAbsmax i, 31, 0⟩
def F.prmLoss_SATURATED (i : Nat) : Field := ⟨R.prmLoss i, 63, 32⟩
def F.prmLoss_NAN_DROPPED (i : Nat) : Field := ⟨R.prmLoss i, 31, 0⟩
def F.prmEsc_ESCAPED (i : Nat) : Field := ⟨R.prmEsc i, 63, 32⟩
def F.prmEsc_BUDGET_FULL (i : Nat) : Field := ⟨R.prmEsc i, 31, 0⟩
def F.prmBlocks_WIDE_SAT (i : Nat) : Field := ⟨R.prmBlocks i, 63, 32⟩
def F.prmBlocks_BLOCKS (i : Nat) : Field := ⟨R.prmBlocks i, 31, 0⟩
def F.prmHist0_BIN_ODD (i : Nat) : Field := ⟨R.prmHist0 i, 63, 32⟩
def F.prmHist0_BIN_EVEN (i : Nat) : Field := ⟨R.prmHist0 i, 31, 0⟩
def F.prmHist1_BIN_ODD (i : Nat) : Field := ⟨R.prmHist1 i, 63, 32⟩
def F.prmHist1_BIN_EVEN (i : Nat) : Field := ⟨R.prmHist1 i, 31, 0⟩
def F.prmHist2_BIN_ODD (i : Nat) : Field := ⟨R.prmHist2 i, 63, 32⟩
def F.prmHist2_BIN_EVEN (i : Nat) : Field := ⟨R.prmHist2 i, 31, 0⟩
def F.prmHist3_BIN_ODD (i : Nat) : Field := ⟨R.prmHist3 i, 63, 32⟩
def F.prmHist3_BIN_EVEN (i : Nat) : Field := ⟨R.prmHist3 i, 31, 0⟩
def F.prmHist4_BIN_ODD (i : Nat) : Field := ⟨R.prmHist4 i, 63, 32⟩
def F.prmHist4_BIN_EVEN (i : Nat) : Field := ⟨R.prmHist4 i, 31, 0⟩
def F.prmHist5_BIN_ODD (i : Nat) : Field := ⟨R.prmHist5 i, 63, 32⟩
def F.prmHist5_BIN_EVEN (i : Nat) : Field := ⟨R.prmHist5 i, 31, 0⟩
def F.prmHist6_BIN_ODD (i : Nat) : Field := ⟨R.prmHist6 i, 63, 32⟩
def F.prmHist6_BIN_EVEN (i : Nat) : Field := ⟨R.prmHist6 i, 31, 0⟩
def F.prmHist7_BIN_ODD (i : Nat) : Field := ⟨R.prmHist7 i, 63, 32⟩
def F.prmHist7_BIN_EVEN (i : Nat) : Field := ⟨R.prmHist7 i, 31, 0⟩
def F.crdFlows_COUNT : Field := ⟨R.crdFlows, 12, 0⟩
def F.crdFlowSel_WORD : Field := ⟨R.crdFlowSel, 18, 16⟩
def F.crdFlowSel_INDEX : Field := ⟨R.crdFlowSel, 11, 0⟩
def F.crdFlowData_WORD : Field := ⟨R.crdFlowData, 63, 0⟩
def F.crdFlowStatus_ACTIVE : Field := ⟨R.crdFlowStatus, 39, 32⟩
def F.crdFlowStatus_LAST_FLOW : Field := ⟨R.crdFlowStatus, 27, 16⟩
def F.crdErr_COUNT_SAT : Field := ⟨R.crdErr, 4, 4⟩
def F.crdErr_NAN : Field := ⟨R.crdErr, 3, 3⟩
def F.crdErr_OVERFLOW : Field := ⟨R.crdErr, 2, 2⟩
def F.crdErr_POISON_OUT : Field := ⟨R.crdErr, 1, 1⟩
def F.crdErr_POISON_RES : Field := ⟨R.crdErr, 0, 0⟩
def F.crdCount_ATOMICS : Field := ⟨R.crdCount, 63, 32⟩
def F.crdCount_REDUCE_LINES : Field := ⟨R.crdCount, 31, 0⟩
def F.crdFar_FLOWS : Field := ⟨R.crdFar, 63, 32⟩
def F.crdFar_FAR : Field := ⟨R.crdFar, 31, 0⟩
def F.pwkCfg_ROLE (i : Nat) : Field := ⟨R.pwkCfg i, 33, 32⟩
def F.pwkCfg_NEIGHBOUR (i : Nat) : Field := ⟨R.pwkCfg i, 31, 29⟩
def F.pwkCfg_AGENTS (i : Nat) : Field := ⟨R.pwkCfg i, 28, 26⟩
def F.pwkCfg_AGENT3 (i : Nat) : Field := ⟨R.pwkCfg i, 23, 18⟩
def F.pwkCfg_AGENT2 (i : Nat) : Field := ⟨R.pwkCfg i, 17, 12⟩
def F.pwkCfg_AGENT1 (i : Nat) : Field := ⟨R.pwkCfg i, 11, 6⟩
def F.pwkCfg_AGENT0 (i : Nat) : Field := ⟨R.pwkCfg i, 5, 0⟩
def F.pwkStatus_LATTICE (i : Nat) : Field := ⟨R.pwkStatus i, 16, 16⟩
def F.pwkStatus_REPAIRED1 (i : Nat) : Field := ⟨R.pwkStatus i, 15, 12⟩
def F.pwkStatus_REPAIRED0 (i : Nat) : Field := ⟨R.pwkStatus i, 11, 8⟩
def F.pwkStatus_RATE (i : Nat) : Field := ⟨R.pwkStatus i, 7, 6⟩
def F.pwkStatus_MOD_UP (i : Nat) : Field := ⟨R.pwkStatus i, 5, 4⟩
def F.pwkStatus_STATE (i : Nat) : Field := ⟨R.pwkStatus i, 2, 0⟩
def F.pwkErr_PROTOCOL (i : Nat) : Field := ⟨R.pwkErr i, 7, 7⟩
def F.pwkErr_LINK_LOST (i : Nat) : Field := ⟨R.pwkErr i, 6, 6⟩
def F.pwkErr_MODULE_LOST (i : Nat) : Field := ⟨R.pwkErr i, 5, 5⟩
def F.pwkErr_LANE_REPAIRED (i : Nat) : Field := ⟨R.pwkErr i, 4, 4⟩
def F.pwkErr_URG_DOWNGRADE (i : Nat) : Field := ⟨R.pwkErr i, 3, 3⟩
def F.pwkErr_LRESEND (i : Nat) : Field := ⟨R.pwkErr i, 2, 2⟩
def F.pwkErr_REPLAY (i : Nat) : Field := ⟨R.pwkErr i, 1, 1⟩
def F.pwkErr_CRC (i : Nat) : Field := ⟨R.pwkErr i, 0, 0⟩
def F.pwkCount_CRC_ERRORS (i : Nat) : Field := ⟨R.pwkCount i, 63, 32⟩
def F.pwkCount_REPLAYS (i : Nat) : Field := ⟨R.pwkCount i, 31, 16⟩
def F.pwkCount_LANE_REPAIRS (i : Nat) : Field := ⟨R.pwkCount i, 15, 0⟩
def F.pwkCredit_VC4 (i : Nat) : Field := ⟨R.pwkCredit i, 49, 40⟩
def F.pwkCredit_VC3 (i : Nat) : Field := ⟨R.pwkCredit i, 39, 30⟩
def F.pwkCredit_VC2 (i : Nat) : Field := ⟨R.pwkCredit i, 29, 20⟩
def F.pwkCredit_VC1 (i : Nat) : Field := ⟨R.pwkCredit i, 19, 10⟩
def F.pwkCredit_VC0 (i : Nat) : Field := ⟨R.pwkCredit i, 9, 0⟩
def F.pwkUrg_DOWNGRADED (i : Nat) : Field := ⟨R.pwkUrg i, 63, 32⟩
def F.pwkUrg_OUTSTANDING (i : Nat) : Field := ⟨R.pwkUrg i, 4, 0⟩
def F.pwkDisc_STABLE (i : Nat) : Field := ⟨R.pwkDisc i, 63, 63⟩
def F.pwkDisc_ERR (i : Nat) : Field := ⟨R.pwkDisc i, 62, 60⟩
def F.pwkDisc_ROUND (i : Nat) : Field := ⟨R.pwkDisc i, 59, 48⟩
def F.pwkDisc_LINKS (i : Nat) : Field := ⟨R.pwkDisc i, 41, 32⟩
def F.pwkDisc_PRESENT (i : Nat) : Field := ⟨R.pwkDisc i, 31, 24⟩
def F.pwkDisc_POSITION (i : Nat) : Field := ⟨R.pwkDisc i, 23, 21⟩
def F.pwkUrgCfg_MAX : Field := ⟨R.pwkUrgCfg, 4, 0⟩
def F.pwkGlint_PORTS : Field := ⟨R.pwkGlint, 5, 0⟩
def F.pwkLoss_VALID : Field := ⟨R.pwkLoss, 63, 63⟩
def F.pwkLoss_PORT : Field := ⟨R.pwkLoss, 50, 48⟩
def F.pwkLoss_CAUSE : Field := ⟨R.pwkLoss, 45, 44⟩
def F.pwkLoss_FRAME : Field := ⟨R.pwkLoss, 31, 0⟩
def F.pwkRoute_ROUTES : Field := ⟨R.pwkRoute, 31, 0⟩
def F.pwkDetour_SWITCH_US : Field := ⟨R.pwkDetour, 39, 24⟩
def F.pwkDetour_MODE : Field := ⟨R.pwkDetour, 15, 14⟩
def F.pwkDetour_LOST_LINKS : Field := ⟨R.pwkDetour, 9, 0⟩
def F.pwkLattice_DEFERRED : Field := ⟨R.pwkLattice, 63, 32⟩
def F.pwkLattice_PEAK_LINES : Field := ⟨R.pwkLattice, 31, 17⟩
def F.pwkLattice_TIMETABLE : Field := ⟨R.pwkLattice, 13, 8⟩
def F.stkConfig_TRAINED : Field := ⟨R.stkConfig, 31, 16⟩
def F.stkConfig_RATE : Field := ⟨R.stkConfig, 15, 0⟩
def F.stkId0_HEIGHT : Field := ⟨R.stkId0, 63, 56⟩
def F.stkId0_DENSITY : Field := ⟨R.stkId0, 55, 48⟩
def F.stkId0_BANKS : Field := ⟨R.stkId0, 47, 40⟩
def F.stkId0_TREFW_MS : Field := ⟨R.stkId0, 39, 32⟩
def F.stkId0_REF_PER_BANK : Field := ⟨R.stkId0, 31, 16⟩
def F.stkId0_TRFCPB_NS : Field := ⟨R.stkId0, 15, 8⟩
def F.stkId1_HEIGHT : Field := ⟨R.stkId1, 63, 56⟩
def F.stkId1_DENSITY : Field := ⟨R.stkId1, 55, 48⟩
def F.stkId1_BANKS : Field := ⟨R.stkId1, 47, 40⟩
def F.stkId1_TREFW_MS : Field := ⟨R.stkId1, 39, 32⟩
def F.stkId1_REF_PER_BANK : Field := ⟨R.stkId1, 31, 16⟩
def F.stkId1_TRFCPB_NS : Field := ⟨R.stkId1, 15, 8⟩
def F.stkStatus0_CH_FAILED : Field := ⟨R.stkStatus0, 63, 32⟩
def F.stkStatus0_TEMP : Field := ⟨R.stkStatus0, 31, 24⟩
def F.stkStatus0_STATE : Field := ⟨R.stkStatus0, 2, 0⟩
def F.stkStatus1_CH_FAILED : Field := ⟨R.stkStatus1, 63, 32⟩
def F.stkStatus1_TEMP : Field := ⟨R.stkStatus1, 31, 24⟩
def F.stkStatus1_STATE : Field := ⟨R.stkStatus1, 2, 0⟩
def F.stkErr_INIT_FAIL : Field := ⟨R.stkErr, 10, 10⟩
def F.stkErr_STACK_FAILED : Field := ⟨R.stkErr, 9, 9⟩
def F.stkErr_CH_FAILED : Field := ⟨R.stkErr, 8, 8⟩
def F.stkErr_SPARE_EXHAUSTED : Field := ⟨R.stkErr, 7, 7⟩
def F.stkErr_ROW_RETIRED : Field := ⟨R.stkErr, 6, 6⟩
def F.stkErr_SCRUB_BEHIND : Field := ⟨R.stkErr, 5, 5⟩
def F.stkErr_POISON_WRITTEN : Field := ⟨R.stkErr, 4, 4⟩
def F.stkErr_ADDR : Field := ⟨R.stkErr, 3, 3⟩
def F.stkErr_UE : Field := ⟨R.stkErr, 2, 2⟩
def F.stkErr_RETRY : Field := ⟨R.stkErr, 1, 1⟩
def F.stkErr_CE : Field := ⟨R.stkErr, 0, 0⟩
def F.stkCount_ADDR : Field := ⟨R.stkCount, 63, 48⟩
def F.stkCount_UE : Field := ⟨R.stkCount, 47, 32⟩
def F.stkCount_CE : Field := ⟨R.stkCount, 31, 0⟩
def F.stkUeAddr_VALID : Field := ⟨R.stkUeAddr, 63, 63⟩
def F.stkUeAddr_KIND : Field := ⟨R.stkUeAddr, 32, 32⟩
def F.stkUeAddr_ADDR : Field := ⟨R.stkUeAddr, 31, 0⟩
def F.stkScrubCfg_ENABLE : Field := ⟨R.stkScrubCfg, 8, 8⟩
def F.stkScrubCfg_PERIOD : Field := ⟨R.stkScrubCfg, 7, 0⟩
def F.stkScrub_PASSES : Field := ⟨R.stkScrub, 63, 32⟩
def F.stkScrub_BEHIND : Field := ⟨R.stkScrub, 31, 31⟩
def F.stkScrub_PROGRESS : Field := ⟨R.stkScrub, 6, 0⟩
def F.stkRowCfg_CE_THR : Field := ⟨R.stkRowCfg, 7, 0⟩
def F.stkRows_RETIRED : Field := ⟨R.stkRows, 63, 48⟩
def F.stkRows_TABLE_FULL : Field := ⟨R.stkRows, 47, 32⟩
def F.stkRows_FAILED : Field := ⟨R.stkRows, 31, 16⟩
def F.stkRows_SPARES_MIN : Field := ⟨R.stkRows, 1, 0⟩
def F.stkInit_DONE : Field := ⟨R.stkInit, 63, 63⟩
def F.stkInit_DURATION : Field := ⟨R.stkInit, 15, 0⟩
def F.shdConfig_SHADOWED : Field := ⟨R.shdConfig, 48, 32⟩
def F.shdConfig_SPARE : Field := ⟨R.shdConfig, 31, 15⟩
def F.shdConfig_SET_SIZE : Field := ⟨R.shdConfig, 7, 4⟩
def F.shdConfig_BUDDY : Field := ⟨R.shdConfig, 2, 0⟩
def F.shdStatus_LOST : Field := ⟨R.shdStatus, 39, 32⟩
def F.shdStatus_REBUILD_PCT : Field := ⟨R.shdStatus, 24, 18⟩
def F.shdStatus_ADOPTING : Field := ⟨R.shdStatus, 15, 15⟩
def F.shdStatus_ADOPTED : Field := ⟨R.shdStatus, 14, 12⟩
def F.shdStatus_WRITE_THROUGH : Field := ⟨R.shdStatus, 8, 8⟩
def F.shdStatus_STATE : Field := ⟨R.shdStatus, 2, 0⟩
def F.shdErr_REBUILD_DONE : Field := ⟨R.shdErr, 4, 4⟩
def F.shdErr_DOUBLE_FAULT : Field := ⟨R.shdErr, 3, 3⟩
def F.shdErr_SLICE_LOST : Field := ⟨R.shdErr, 2, 2⟩
def F.shdErr_MEMBER_FAILED : Field := ⟨R.shdErr, 1, 1⟩
def F.shdErr_RECON : Field := ⟨R.shdErr, 0, 0⟩
def F.shdCount_RECON : Field := ⟨R.shdCount, 63, 32⟩
def F.shdCount_EARLY_WB : Field := ⟨R.shdCount, 31, 0⟩
def F.shdTakeover_VALID : Field := ⟨R.shdTakeover, 63, 63⟩
def F.shdTakeover_LOST : Field := ⟨R.shdTakeover, 50, 48⟩
def F.shdTakeover_DURATION_US : Field := ⟨R.shdTakeover, 47, 32⟩
def F.shdTakeover_FRAME : Field := ⟨R.shdTakeover, 31, 0⟩
def F.shdRecords_PEAK : Field := ⟨R.shdRecords, 28, 16⟩
def F.shdRecords_USED : Field := ⟨R.shdRecords, 12, 0⟩
def F.shdDouble_VALID : Field := ⟨R.shdDouble, 63, 63⟩
def F.shdDouble_ADDR : Field := ⟨R.shdDouble, 31, 0⟩
def F.rflConfig_ENABLE : Field := ⟨R.rflConfig, 16, 16⟩
def F.rflConfig_TIMEOUT_US : Field := ⟨R.rflConfig, 15, 0⟩
def F.rflQstatus_NEXT_SEQ : Field := ⟨R.rflQstatus, 63, 48⟩
def F.rflQstatus_USED : Field := ⟨R.rflQstatus, 40, 32⟩
def F.rflDone_STATUS : Field := ⟨R.rflDone, 9, 8⟩
def F.rflDone_ENTRY : Field := ⟨R.rflDone, 7, 0⟩
def F.rflHueSel_HUE : Field := ⟨R.rflHueSel, 7, 0⟩
def F.rflHueData_STATE : Field := ⟨R.rflHueData, 63, 62⟩
def F.rflHueData_SWEPT : Field := ⟨R.rflHueData, 57, 56⟩
def F.rflHueData_AGENT_MASK : Field := ⟨R.rflHueData, 47, 0⟩
def F.rflSweep_PASSES : Field := ⟨R.rflSweep, 63, 32⟩
def F.rflSweep_PROGRESS : Field := ⟨R.rflSweep, 6, 0⟩
def F.rflCount_REMOTE_READS : Field := ⟨R.rflCount, 63, 32⟩
def F.rflCount_REMOTE_WRITES : Field := ⟨R.rflCount, 31, 0⟩
def F.rflCount2_AREA_HITS : Field := ⟨R.rflCount2, 63, 32⟩
def F.rflCount2_STALE : Field := ⟨R.rflCount2, 31, 0⟩
def F.rflErr_WRITE_LOST : Field := ⟨R.rflErr, 3, 3⟩
def F.rflErr_READ_TIMEOUT : Field := ⟨R.rflErr, 2, 2⟩
def F.rflErr_REMOTE_POISON : Field := ⟨R.rflErr, 1, 1⟩
def F.rflErr_AREA_UE : Field := ⟨R.rflErr, 0, 0⟩
def F.rflQdesc_WORD (i : Nat) : Field := ⟨R.rflQdesc i, 63, 0⟩
def F.rflWindow_DATA (i : Nat) : Field := ⟨R.rflWindow i, 63, 0⟩
def F.pwrState_WAKE_US : Field := ⟨R.pwrState, 23, 16⟩
def F.pwrState_WAKE_CAUSE : Field := ⟨R.pwrState, 11, 10⟩
def F.pwrState_SCLK_PLL : Field := ⟨R.pwrState, 4, 4⟩
def F.pwrState_RAMPING : Field := ⟨R.pwrState, 3, 3⟩
def F.pwrState_STATE : Field := ⟨R.pwrState, 2, 0⟩
def F.pwrCap_CAP_W : Field := ⟨R.pwrCap, 7, 0⟩
def F.pwrClass_CRIT_C : Field := ⟨R.pwrClass, 31, 24⟩
def F.pwrClass_THROTTLE_C : Field := ⟨R.pwrClass, 23, 16⟩
def F.pwrClass_DEMAND_W : Field := ⟨R.pwrClass, 15, 8⟩
def F.pwrClass_CLASS : Field := ⟨R.pwrClass, 2, 0⟩
def F.pwrThrottle_CRIT_SEEN : Field := ⟨R.pwrThrottle, 11, 11⟩
def F.pwrThrottle_DEMAND_SEEN : Field := ⟨R.pwrThrottle, 10, 10⟩
def F.pwrThrottle_CURRENT_SEEN : Field := ⟨R.pwrThrottle, 9, 9⟩
def F.pwrThrottle_THERMAL_SEEN : Field := ⟨R.pwrThrottle, 8, 8⟩
def F.pwrThrottle_CRIT : Field := ⟨R.pwrThrottle, 3, 3⟩
def F.pwrThrottle_DEMAND : Field := ⟨R.pwrThrottle, 2, 2⟩
def F.pwrThrottle_CURRENT : Field := ⟨R.pwrThrottle, 1, 1⟩
def F.pwrThrottle_THERMAL : Field := ⟨R.pwrThrottle, 0, 0⟩
def F.pwrThrTime_THERMAL_US : Field := ⟨R.pwrThrTime, 62, 42⟩
def F.pwrThrTime_CURRENT_US : Field := ⟨R.pwrThrTime, 41, 21⟩
def F.pwrThrTime_DEMAND_US : Field := ⟨R.pwrThrTime, 20, 0⟩
def F.pwrTemp_PEAK_C : Field := ⟨R.pwrTemp, 15, 8⟩
def F.pwrTemp_DIE_C : Field := ⟨R.pwrTemp, 7, 0⟩
def F.pwrEst_PEAK_W : Field := ⟨R.pwrEst, 15, 8⟩
def F.pwrEst_LAST_W : Field := ⟨R.pwrEst, 7, 0⟩
def F.pwrRet_BUDGET : Field := ⟨R.pwrRet, 23, 16⟩
def F.pwrRet_RETAINED : Field := ⟨R.pwrRet, 7, 0⟩
def F.rstCfg_ECLIPSE_EXIT : Field := ⟨R.rstCfg, 17, 16⟩
def F.rstCfg_IDLE_US : Field := ⟨R.rstCfg, 7, 0⟩
def F.rstStrap_CODE : Field := ⟨R.rstStrap, 13, 8⟩
def F.rstStrap_MARGINAL : Field := ⟨R.rstStrap, 7, 7⟩
def F.rstStrap_BAND : Field := ⟨R.rstStrap, 3, 0⟩
def F.rstBlock_BLOCK : Field := ⟨R.rstBlock, 7, 0⟩
def F.rstBlockStatus_LAST : Field := ⟨R.rstBlockStatus, 15, 8⟩
def F.rstBlockStatus_REFUSED : Field := ⟨R.rstBlockStatus, 2, 2⟩
def F.rstBlockStatus_TIMED_OUT : Field := ⟨R.rstBlockStatus, 1, 1⟩
def F.rstBlockStatus_BUSY : Field := ⟨R.rstBlockStatus, 0, 0⟩
def F.rstWdog_ANY : Field := ⟨R.rstWdog, 63, 0⟩
def F.rstWdogCfg_CP_MS : Field := ⟨R.rstWdogCfg, 31, 16⟩
def F.rstWdogCfg_CORE_MS : Field := ⟨R.rstWdogCfg, 15, 0⟩
def F.rstAg0_COUNT : Field := ⟨R.rstAg0, 63, 48⟩
def F.rstAg0_SOURCE : Field := ⟨R.rstAg0, 31, 24⟩
def F.rstAg0_KIND : Field := ⟨R.rstAg0, 23, 16⟩
def F.rstAg0_BLOCK : Field := ⟨R.rstAg0, 15, 8⟩
def F.rstAg1_VALID : Field := ⟨R.rstAg1, 63, 63⟩
def F.rstAg1_ORIGIN : Field := ⟨R.rstAg1, 58, 56⟩
def F.rstAg1_CAUSE : Field := ⟨R.rstAg1, 55, 48⟩
def F.rstAg1_FRAME : Field := ⟨R.rstAg1, 47, 0⟩
def F.rstAg2_NIGHT : Field := ⟨R.rstAg2, 2, 2⟩
def F.rstAg2_CORE_BROWNOUT : Field := ⟨R.rstAg2, 1, 1⟩
def F.rstAg2_RET_BROWNOUT : Field := ⟨R.rstAg2, 0, 0⟩
def F.rstAg3_COUNT : Field := ⟨R.rstAg3, 16, 8⟩
def F.rstAg3_HEAD : Field := ⟨R.rstAg3, 7, 0⟩
def F.rstAg4_FW0 : Field := ⟨R.rstAg4, 63, 0⟩
def F.rstAg5_FW1 : Field := ⟨R.rstAg5, 63, 0⟩
def F.rstAg6_FW2 : Field := ⟨R.rstAg6, 63, 0⟩
def F.rstAg7_FW3 : Field := ⟨R.rstAg7, 63, 0⟩
def F.cntVal_VALUE (i : Nat) (j : Nat) : Field := ⟨R.cntVal i j, 47, 0⟩
def F.cntSnap_SNAP (i : Nat) (j : Nat) : Field := ⟨R.cntSnap i j, 47, 0⟩
def F.cntSel_WORD (i : Nat) (j : Nat) : Field := ⟨R.cntSel i j, 63, 0⟩
def F.cntCfg_OPEN (i : Nat) : Field := ⟨R.cntCfg i, 63, 63⟩
def F.cntCfg_HUE (i : Nat) : Field := ⟨R.cntCfg i, 55, 48⟩
def F.cntOvf_OVF (i : Nat) : Field := ⟨R.cntOvf i, 7, 0⟩
def F.cntExpose_PENDING : Field := ⟨R.cntExpose, 63, 63⟩
def F.cntExpose_SEQ : Field := ⟨R.cntExpose, 62, 48⟩
def F.cntExpose_FRAME : Field := ⟨R.cntExpose, 47, 0⟩
def F.cntEnergy_UJ : Field := ⟨R.cntEnergy, 47, 0⟩
def F.cntEnergySnap_UJ : Field := ⟨R.cntEnergySnap, 47, 0⟩
def F.gnmCmd_ARG : Field := ⟨R.gnmCmd, 63, 16⟩
def F.gnmCmd_CODE : Field := ⟨R.gnmCmd, 7, 0⟩
def F.gnmCmdStatus_BUSY : Field := ⟨R.gnmCmdStatus, 63, 63⟩
def F.gnmCmdStatus_DONE : Field := ⟨R.gnmCmdStatus, 62, 62⟩
def F.gnmCmdStatus_RESULT : Field := ⟨R.gnmCmdStatus, 15, 8⟩
def F.gnmCmdStatus_CODE : Field := ⟨R.gnmCmdStatus, 7, 0⟩
def F.gnmAlert_SOURCES : Field := ⟨R.gnmAlert, 9, 0⟩
def F.gnmCoreStatus_RESTARTS (i : Nat) : Field := ⟨R.gnmCoreStatus i, 63, 32⟩
def F.gnmCoreStatus_STATE (i : Nat) : Field := ⟨R.gnmCoreStatus i, 1, 0⟩
def F.gnmCoreWdog_ANY (i : Nat) : Field := ⟨R.gnmCoreWdog i, 63, 0⟩
def F.secState_MIN_VERSION : Field := ⟨R.secState, 47, 32⟩
def F.secState_REVOKED : Field := ⟨R.secState, 15, 12⟩
def F.secState_DEBUG_KEY : Field := ⟨R.secState, 11, 8⟩
def F.secState_IMAGE_KEY : Field := ⟨R.secState, 7, 4⟩
def F.secState_PROGRAMMED : Field := ⟨R.secState, 3, 0⟩
def F.secDieId_DIE_ID : Field := ⟨R.secDieId, 63, 0⟩
def F.secNonce_NONCE : Field := ⟨R.secNonce, 63, 0⟩
def F.secDebug_FAILS : Field := ⟨R.secDebug, 9, 8⟩
def F.secDebug_PERMS : Field := ⟨R.secDebug, 2, 0⟩
def F.secKeyHash_HASH (i : Nat) (j : Nat) : Field := ⟨R.secKeyHash i j, 63, 0⟩

/-- Part 0 of the register map. -/
def regRows0 : List RegRow :=
  [⟨0x0, [], 0x0, 0x0, 0x0, 0x0⟩,
   ⟨0x8, [], 0x0, 0x0, 0x0, 0x0⟩,
   ⟨0x10, [], 0x0, 0x0, 0xffff, 0x0⟩,
   ⟨0x10000, [], 0x0, 0x0, 0x0, 0x0⟩,
   ⟨0x10008, [], 0x0, 0x8000000000000000, 0x0, 0x0⟩,
   ⟨0x10010, [], 0x0, 0x0, 0x0, 0x0⟩,
   ⟨0x10018, [], 0x1ffffff01ffffff, 0x0, 0x0, 0x0⟩,
   ⟨0x10020, [], 0x0, 0x0, 0x0, 0x1⟩,
   ⟨0x11000, [(0x8, 512)], 0x0, 0x0, 0x0, 0x0⟩,
   ⟨0x20000, [], 0x0, 0x0, 0x0, 0x0⟩,
   ⟨0x20008, [], 0x0, 0x0, 0x0, 0x0⟩,
   ⟨0x20010, [], 0x0, 0x0, 0x0, 0x0⟩,
   ⟨0x20018, [], 0x0, 0x3f, 0x0, 0x0⟩,
   ⟨0x20020, [], 0x0, 0x0, 0x0, 0x0⟩,
   ⟨0x20028, [], 0xffff, 0x0, 0x0, 0x0⟩,
   ⟨0x40000, [(0x400, 64)], 0x0, 0x0, 0x0, 0x0⟩,
   ⟨0x40008, [(0x400, 64)], 0x0, 0x0, 0x0, 0x0⟩,
   ⟨0x40010, [(0x400, 64)], 0x0, 0x0, 0x0, 0x0⟩,
   ⟨0x40018, [(0x400, 64)], 0x0, 0x0, 0x0, 0x0⟩,
   ⟨0x40020, [(0x400, 64)], 0x0, 0x7f, 0x0, 0x0⟩]

/-- Part 1 of the register map. -/
def regRows1 : List RegRow :=
  [⟨0x40028, [(0x400, 64)], 0x0, 0x0, 0x0, 0x0⟩,
   ⟨0x40030, [(0x400, 64)], 0x0, 0x8000000000000000, 0x0, 0x0⟩,
   ⟨0x40038, [(0x400, 64)], 0x0, 0x8000000000000000, 0x0, 0x0⟩,
   ⟨0x40040, [(0x400, 64)], 0xff, 0x0, 0x0, 0x0⟩,
   ⟨0x40048, [(0x400, 64)], 0x0, 0x0, 0x0, 0x0⟩,
   ⟨0x40050, [(0x400, 64)], 0x0, 0x0, 0x0, 0x37fff⟩,
   ⟨0x40058, [(0x400, 64)], 0x0, 0x0, 0x0, 0x0⟩,
   ⟨0x40060, [(0x400, 64)], 0x17fff, 0x0, 0x0, 0x0⟩,
   ⟨0x40068, [(0x400, 64)], 0x0, 0x0, 0x0, 0x0⟩,
   ⟨0x40070, [(0x400, 64)], 0x0, 0x8000000000000000, 0x0, 0x0⟩,
   ⟨0x40078, [(0x400, 64)], 0x0, 0x0, 0x0, 0x0⟩,
   ⟨0x40080, [(0x400, 64)], 0x0, 0x0, 0x0, 0x0⟩,
   ⟨0x40088, [(0x400, 64)], 0x1ffff, 0x0, 0x0, 0x0⟩,
   ⟨0x40090, [(0x400, 64)], 0x0, 0x0, 0x0, 0x0⟩,
   ⟨0x40098, [(0x400, 64)], 0x0, 0x0, 0x0, 0x0⟩,
   ⟨0x50000, [], 0x3fff0000000, 0x0, 0x0, 0x0⟩,
   ⟨0x50008, [], 0x0, 0x0, 0x0, 0x0⟩,
   ⟨0x50010, [], 0x3ff00ff, 0x0, 0x0, 0x0⟩,
   ⟨0x50018, [], 0x0, 0x0, 0x0, 0x0⟩,
   ⟨0x50020, [], 0x0, 0x2, 0x0, 0x0⟩]

/-- Part 2 of the register map. -/
def regRows2 : List RegRow :=
  [⟨0x50028, [], 0x0, 0x0, 0xffff, 0x0⟩,
   ⟨0x50030, [], 0x0, 0x0, 0x0, 0x0⟩,
   ⟨0x50038, [], 0x0, 0x8000000000000000, 0x0, 0x0⟩,
   ⟨0x80000, [], 0x0, 0x0, 0x0, 0x0⟩,
   ⟨0x80008, [], 0x0, 0x0, 0x0, 0x0⟩,
   ⟨0x80010, [], 0x71fff, 0x0, 0x0, 0x0⟩,
   ⟨0x80018, [], 0x0, 0x0, 0x0, 0x0⟩,
   ⟨0x80100, [(0x100, 4)], 0x0, 0x0, 0x0, 0x0⟩,
   ⟨0x80108, [(0x100, 4)], 0x0, 0x3f, 0x0, 0x0⟩,
   ⟨0x80110, [(0x100, 4)], 0x0, 0x0, 0x0, 0x0⟩,
   ⟨0x80118, [(0x100, 4)], 0xffff, 0x0, 0x0, 0x0⟩,
   ⟨0x80120, [(0x100, 4)], 0x0, 0x8000000000000000, 0x0, 0x0⟩,
   ⟨0x80128, [(0x100, 4)], 0x0, 0x80000000, 0x0, 0x0⟩,
   ⟨0x90000, [], 0x0, 0x0, 0x0, 0x0⟩,
   ⟨0x90008, [], 0x0, 0x0, 0x0, 0x0⟩,
   ⟨0x90010, [], 0x0, 0x1f, 0x0, 0x0⟩,
   ⟨0x90018, [], 0x13f, 0x0, 0x0, 0x0⟩,
   ⟨0x90020, [], 0x0, 0x0, 0x0, 0x0⟩,
   ⟨0x91000, [(0x100, 64)], 0xffffffff, 0x0, 0x0, 0x0⟩,
   ⟨0x91008, [(0x100, 64)], 0xffffffffffffffff, 0x0, 0x0, 0x0⟩]

/-- Part 3 of the register map. -/
def regRows3 : List RegRow :=
  [⟨0x91010, [(0x100, 64)], 0xffffffffffffffff, 0x0, 0x0, 0x0⟩,
   ⟨0x91018, [(0x100, 64)], 0xffffffffffffffff, 0x0, 0x0, 0x0⟩,
   ⟨0x91020, [(0x100, 64)], 0xffffffffffffffff, 0x0, 0x0, 0x0⟩,
   ⟨0x91028, [(0x100, 64)], 0xffffffffffffffff, 0x0, 0x0, 0x0⟩,
   ⟨0x91030, [(0x100, 64)], 0xffffffffffffffff, 0x0, 0x0, 0x0⟩,
   ⟨0x91038, [(0x100, 64)], 0xffffffffffffffff, 0x0, 0x0, 0x0⟩,
   ⟨0x91040, [(0x100, 64)], 0xffffffffffffffff, 0x0, 0x0, 0x0⟩,
   ⟨0x91048, [(0x100, 64)], 0xffffffffffffffff, 0x0, 0x0, 0x0⟩,
   ⟨0x91050, [(0x100, 64)], 0xffffffffffffffff, 0x0, 0x0, 0x0⟩,
   ⟨0x91058, [(0x100, 64)], 0xffffffffffffffff, 0x0, 0x0, 0x0⟩,
   ⟨0xa0000, [], 0x0, 0x0, 0x0, 0x0⟩,
   ⟨0xa0008, [], 0x70fff, 0x0, 0x0, 0x0⟩,
   ⟨0xa0010, [], 0x0, 0x0, 0x0, 0x0⟩,
   ⟨0xa0018, [], 0x0, 0x0, 0x0, 0x0⟩,
   ⟨0xa0020, [], 0x0, 0x1f, 0x0, 0x0⟩,
   ⟨0xa0028, [], 0x0, 0x0, 0x0, 0x0⟩,
   ⟨0xa0030, [], 0x0, 0x0, 0x0, 0x0⟩,
   ⟨0xc0000, [(0x400, 6)], 0x0, 0x0, 0x0, 0x0⟩,
   ⟨0xc0008, [(0x400, 6)], 0x0, 0x0, 0x0, 0x0⟩,
   ⟨0xc0010, [(0x400, 6)], 0x0, 0xff, 0x0, 0x0⟩]

/-- Part 4 of the register map. -/
def regRows4 : List RegRow :=
  [⟨0xc0018, [(0x400, 6)], 0x0, 0x0, 0x0, 0x0⟩,
   ⟨0xc0020, [(0x400, 6)], 0x0, 0x0, 0x0, 0x0⟩,
   ⟨0xc0028, [(0x400, 6)], 0x0, 0x0, 0x0, 0x0⟩,
   ⟨0xc0030, [(0x400, 6)], 0x0, 0x0, 0x0, 0x0⟩,
   ⟨0xe0000, [], 0x0, 0x0, 0x1f, 0x0⟩,
   ⟨0xe0008, [], 0x0, 0x0, 0x0, 0x3f⟩,
   ⟨0xe0010, [], 0x0, 0x8000000000000000, 0x0, 0x0⟩,
   ⟨0xe0100, [], 0x0, 0x0, 0x0, 0x0⟩,
   ⟨0xe0108, [], 0x0, 0x0, 0x0, 0x0⟩,
   ⟨0xe0110, [], 0xfffe0000, 0x0, 0x0, 0x0⟩,
   ⟨0x100000, [], 0x0, 0x0, 0xffff, 0x0⟩,
   ⟨0x100010, [], 0x0, 0x0, 0x0, 0x0⟩,
   ⟨0x100018, [], 0x0, 0x0, 0x0, 0x0⟩,
   ⟨0x100020, [], 0x0, 0x0, 0x0, 0x0⟩,
   ⟨0x100028, [], 0x0, 0x0, 0x0, 0x0⟩,
   ⟨0x100030, [], 0x0, 0x7ff, 0x0, 0x0⟩,
   ⟨0x100038, [], 0x0, 0x0, 0x0, 0x0⟩,
   ⟨0x100040, [], 0x0, 0x8000000000000000, 0x0, 0x0⟩,
   ⟨0x100048, [], 0x1ff, 0x0, 0x0, 0x0⟩,
   ⟨0x100050, [], 0x0, 0x0, 0x0, 0x0⟩]

/-- Part 5 of the register map. -/
def regRows5 : List RegRow :=
  [⟨0x100058, [], 0xff, 0x0, 0x0, 0x0⟩,
   ⟨0x100060, [], 0x0, 0x0, 0x0, 0x0⟩,
   ⟨0x100068, [], 0x0, 0x0, 0x0, 0x0⟩,
   ⟨0x140000, [], 0x0, 0x0, 0x0, 0x0⟩,
   ⟨0x140008, [], 0x0, 0x0, 0x0, 0x0⟩,
   ⟨0x140010, [], 0x0, 0x1f, 0x0, 0x0⟩,
   ⟨0x140018, [], 0x0, 0x0, 0x0, 0x0⟩,
   ⟨0x140020, [], 0x0, 0x8000000000000000, 0x0, 0x0⟩,
   ⟨0x140028, [], 0x1fff0000, 0x0, 0x0, 0x0⟩,
   ⟨0x140030, [], 0x0, 0x8000000000000000, 0x0, 0x0⟩,
   ⟨0x160000, [], 0x0, 0x0, 0x1ffff, 0x0⟩,
   ⟨0x160008, [], 0x0, 0x0, 0x0, 0x0⟩,
   ⟨0x160010, [], 0x0, 0x0, 0x0, 0x3ff⟩,
   ⟨0x160018, [], 0xff, 0x0, 0x0, 0x0⟩,
   ⟨0x160020, [], 0x0, 0x0, 0x0, 0x0⟩,
   ⟨0x160028, [], 0x0, 0x0, 0x0, 0x0⟩,
   ⟨0x160030, [], 0x0, 0x0, 0x0, 0x0⟩,
   ⟨0x160038, [], 0x0, 0x0, 0x0, 0x0⟩,
   ⟨0x160040, [], 0x0, 0xf, 0x0, 0x0⟩,
   ⟨0x161000, [(0x8, 1024)], 0x0, 0x0, 0x0, 0x0⟩]

/-- Part 6 of the register map. -/
def regRows6 : List RegRow :=
  [⟨0x170000, [(0x8, 8192)], 0xffffffffffffffff, 0x0, 0x0, 0x0⟩,
   ⟨0x180000, [], 0x0, 0x0, 0x0, 0x0⟩,
   ⟨0x180008, [], 0x0, 0x0, 0xff, 0x0⟩,
   ⟨0x180010, [], 0x0, 0x0, 0x0, 0x0⟩,
   ⟨0x180018, [], 0x0, 0xf00, 0x0, 0x0⟩,
   ⟨0x180020, [], 0x7fffffffffffffff, 0x0, 0x0, 0x0⟩,
   ⟨0x180028, [], 0xff00, 0x0, 0x0, 0x0⟩,
   ⟨0x180030, [], 0xff00, 0x0, 0x0, 0x0⟩,
   ⟨0x180038, [], 0x0, 0x0, 0x0, 0x0⟩,
   ⟨0x190000, [], 0x0, 0x0, 0x300ff, 0x0⟩,
   ⟨0x190008, [], 0x0, 0x0, 0x0, 0x0⟩,
   ⟨0x190010, [], 0x0, 0x0, 0x0, 0xff⟩,
   ⟨0x190018, [], 0x0, 0x6, 0x0, 0x0⟩,
   ⟨0x190020, [], 0x0, 0x0, 0x0, 0xffffffffffffffff⟩,
   ⟨0x190028, [], 0x0, 0x0, 0xffffffff, 0x0⟩,
   ⟨0x190100, [], 0x0, 0x0, 0x0, 0x0⟩,
   ⟨0x190108, [], 0x0, 0x8000000000000000, 0x0, 0x0⟩,
   ⟨0x190110, [], 0x0, 0x7, 0x0, 0x0⟩,
   ⟨0x190118, [], 0x0, 0x0, 0x0, 0x0⟩,
   ⟨0x190120, [], 0xffffffffffffffff, 0x0, 0x0, 0x0⟩]

/-- Part 7 of the register map. -/
def regRows7 : List RegRow :=
  [⟨0x190128, [], 0xffffffffffffffff, 0x0, 0x0, 0x0⟩,
   ⟨0x190130, [], 0xffffffffffffffff, 0x0, 0x0, 0x0⟩,
   ⟨0x190138, [], 0xffffffffffffffff, 0x0, 0x0, 0x0⟩,
   ⟨0x1a0000, [(0x8, 8), (0x100, 12)], 0xffffffffffff, 0x0, 0x0, 0x0⟩,
   ⟨0x1a0040, [(0x8, 8), (0x100, 12)], 0x0, 0x0, 0x0, 0x0⟩,
   ⟨0x1a0080, [(0x8, 8), (0x100, 12)], 0x0, 0x0, 0x0, 0x0⟩,
   ⟨0x1a00c0, [(0x100, 12)], 0x0, 0x0, 0x0, 0x0⟩,
   ⟨0x1a00c8, [(0x100, 12)], 0x0, 0xff, 0x0, 0x0⟩,
   ⟨0x1a0c00, [], 0x0, 0x0, 0x0, 0x0⟩,
   ⟨0x1a0c08, [], 0xffffffffffff, 0x0, 0x0, 0x0⟩,
   ⟨0x1a0c10, [], 0x0, 0x0, 0x0, 0x0⟩,
   ⟨0x1c0000, [], 0x0, 0x0, 0x0, 0xffffffffffff00ff⟩,
   ⟨0x1c0008, [], 0x0, 0x4000000000000000, 0x0, 0x0⟩,
   ⟨0x1c0010, [], 0x0, 0x3ff, 0x0, 0x0⟩,
   ⟨0x1c0100, [(0x40, 4)], 0x0, 0x0, 0x0, 0x0⟩,
   ⟨0x1c0108, [(0x40, 4)], 0x0, 0x0, 0x0, 0xffffffffffffffff⟩,
   ⟨0x1e0000, [], 0x0, 0x0, 0x0, 0x0⟩,
   ⟨0x1e0008, [], 0x0, 0x0, 0x0, 0x0⟩,
   ⟨0x1e0010, [], 0x0, 0x0, 0x0, 0x0⟩,
   ⟨0x1e0018, [], 0x0, 0x0, 0x0, 0x0⟩]

/-- Part 8 of the register map. -/
def regRows8 : List RegRow :=
  [⟨0x1e0100, [(0x8, 6), (0x40, 4)], 0x0, 0x0, 0x0, 0x0⟩]

/-- The register map, one row per register. -/
def regRows : List RegRow :=
  regRows0 ++ regRows1 ++ regRows2 ++ regRows3 ++ regRows4 ++ regRows5 ++ regRows6 ++ regRows7 ++ regRows8

end Sys2Proof.Machine
end

