-- ==== Sys2Proof/Machine/Ops.lean ====
section
/-! DEFINITION. The named operations over the state: bit fields, sparse tables, byte memories, registers, the outbox,
free values, facets and groups. Every meaning is written over these. -/

namespace Sys2Proof.Machine

/-! ### Bit fields of naturals -/

/-- Bits [hi:lo] of w (R6). -/
def bitsOf (w hi lo : Nat) : Nat := (w >>> lo) % 2 ^ (hi + 1 - lo)

/-- w with bits [hi:lo] replaced by v. -/
def withBits (w hi lo v : Nat) : Nat :=
  w - bitsOf w hi lo * 2 ^ lo + (v % 2 ^ (hi + 1 - lo)) * 2 ^ lo

/-- Bit i of w. -/
def bitAt (w i : Nat) : Bool := (w >>> i) % 2 == 1

/-- The two's complement value of the low n bits of v. -/
def signed (n v : Nat) : Int :=
  let u := v % 2 ^ n
  if u < 2 ^ (n - 1) then (u : Int) else (u : Int) - ((2 ^ n : Nat) : Int)

/-- The low n bits of an integer. -/
def wrapInt (n : Nat) (x : Int) : Nat := (x % ((2 ^ n : Nat) : Int)).toNat

/-- The number of one bits among the low n bits of w. -/
def popCount : Nat → Nat → Nat
  | 0, _ => 0
  | n + 1, w => w % 2 + popCount n (w / 2)

/-- The place of the lowest one bit of w, or n when the low n bits are 0. -/
def lowestBit (n w : Nat) : Nat := ((List.range n).find? (fun i => bitAt w i)).getD n

/-- The floor of the base 2 logarithm, 0 for 0. -/
def log2f (x : Nat) : Nat := Nat.log2 x

/-- The least x with a ≤ x × b. -/
def divUp (a b : Nat) : Nat := (a + b - 1) / b

/-- The naturals whose bits of w are 1, below n, rising. -/
def onesOf (n w : Nat) : List Nat := (List.range n).filter (fun i => bitAt w i)

/-- Left rotation of a 6-bit value by m mod 6 places (R99). -/
def rotl6 (x m : Nat) : Nat := ((x <<< (m % 6)) ||| (x >>> (6 - m % 6))) % 64

/-- The XOR of the low n bits of w. -/
def parityOf (n w : Nat) : Bool := popCount n w % 2 == 1

/-! ### Sparse tables -/

/-- The entry of a key. -/
def tget {α : Type} : SMap α → Nat → Option α
  | [], _ => none
  | (k, v) :: t, i => if k == i then some v else tget t i

/-- The entry of a key, or d. -/
def tgetD {α : Type} (m : SMap α) (i : Nat) (d : α) : α := (tget m i).getD d

/-- Sets the entry of a key, keys staying in rising order. -/
def tset {α : Type} : SMap α → Nat → α → SMap α
  | [], i, v => [(i, v)]
  | (k, w) :: t, i, v =>
    if i < k then (i, v) :: (k, w) :: t
    else if i == k then (i, v) :: t
    else (k, w) :: tset t i v

/-- Removes the entry of a key. -/
def tdel {α : Type} : SMap α → Nat → SMap α
  | [], _ => []
  | (k, w) :: t, i => if k == i then t else (k, w) :: tdel t i

/-- Sets the entry of a key, a value equal to the default d being removed. -/
def tput {α : Type} [DecidableEq α] (d : α) (m : SMap α) (i : Nat) (v : α) : SMap α :=
  if v = d then tdel m i else tset m i v

/-! ### Byte memories (R6; unlisted bytes read 0, log entry 6) -/

/-- The byte at an address. -/
def memGet : Memory → Nat → Byte
  | [], _ => 0
  | (k, v) :: t, i => if k == i then v else memGet t i

/-- Inserts or replaces a byte that is not 0. -/
def memIns : Memory → Nat → Byte → Memory
  | [], i, v => [(i, v)]
  | (k, w) :: t, i, v =>
    if i < k then (i, v) :: (k, w) :: t
    else if i == k then (i, v) :: t
    else (k, w) :: memIns t i v

/-- Removes a byte, which then reads 0. -/
def memDel : Memory → Nat → Memory
  | [], _ => []
  | (k, w) :: t, i => if k == i then t else (k, w) :: memDel t i

/-- Writes one byte, keeping the canonical form. -/
def memPut (m : Memory) (i : Nat) (v : Byte) : Memory := if v = 0 then memDel m i else memIns m i v

/-- Every listed address is above b, the addresses rise, and no listed byte is 0. -/
def memWfFrom : Nat → Memory → Bool
  | _, [] => true
  | b, (k, v) :: t => b ≤ k && v != 0 && memWfFrom (k + 1) t

/-- The canonical form: addresses strictly rising, no entry equal to 0. -/
def memWf (m : Memory) : Bool := memWfFrom 0 m

/-- n bytes from an address, as one little-endian natural (R6). -/
def memRead (m : Memory) (a : Nat) : Nat → Nat
  | 0 => 0
  | n + 1 => (memGet m a).toNat + 256 * memRead m (a + 1) n

/-- Writes the n low bytes of v, little-endian. -/
def memWrite (m : Memory) (a : Nat) : Nat → Nat → Memory
  | 0, _ => m
  | n + 1, v => memWrite (memPut m a (BitVec.ofNat 8 v)) (a + 1) n (v / 256)

/-- The bytes from an address. -/
def memBytes (m : Memory) (a n : Nat) : List Byte := (List.range n).map (fun i => memGet m (a + i))

/-- A 64 B sub-block of a memory. -/
def memSub (m : Memory) (a : Nat) : Sub := BitVec.ofNat 512 (memRead m a 64)

/-- Writes a 64 B sub-block. -/
def memPutSub (m : Memory) (a : Nat) (v : Sub) : Memory := memWrite m a 64 v.toNat

/-! ### Byte lists -/

/-- Byte i of a list, 0 beyond its end. -/
def byteAt (l : List Byte) (i : Nat) : Nat := (l.getD i 0).toNat

/-- n bytes of a list from i, little-endian (R6). -/
def leAt (l : List Byte) (i : Nat) : Nat → Nat
  | 0 => 0
  | n + 1 => byteAt l i + 256 * leAt l (i + 1) n

/-- n bytes of a list from i. -/
def sliceOf (l : List Byte) (i n : Nat) : List Byte := (l.drop i).take n

/-- The bytes of a little-endian natural. -/
def bytesOf : Nat → Nat → List Byte
  | 0, _ => []
  | n + 1, v => BitVec.ofNat 8 v :: bytesOf n (v / 256)

/-! ### Sub-blocks and sectors -/

/-- Sub-block i of a sector (R110). -/
def Sector.sub (x : Sector) (i : Nat) : Sub := BitVec.ofNat 512 (x.toNat >>> (512 * i))

/-- A sector with sub-block i replaced. -/
def Sector.put (x : Sector) (i : Nat) (v : Sub) : Sector :=
  BitVec.ofNat 2048 (withBits x.toNat (512 * i + 511) (512 * i) v.toNat)

/-- The bytes of new where the mask has a 1, of old elsewhere (R102). -/
def mergeMask (mask : Nat) (old new : Sub) : Sub :=
  BitVec.ofNat 512 ((List.range 64).foldl
    (fun a i => a + (if bitAt mask i then bitsOf new.toNat (8 * i + 7) (8 * i) else
      bitsOf old.toNat (8 * i + 7) (8 * i)) * 2 ^ (8 * i)) 0)

/-- A mask of all 64 bytes. -/
def fullMask : BitVec 64 := 0xFFFFFFFFFFFFFFFF

/-! ### Registers -/

/-- What the register file holds at a CSR offset. -/
def Dev.reg (s : Dev) (off : Nat) : Nat := (tgetD s.csr off 0).toNat

/-- Sets what the register file holds at a CSR offset. -/
def Dev.setReg (s : Dev) (off v : Nat) : Dev := { s with csr := tput 0 s.csr off (BitVec.ofNat 64 v) }

/-- The value of a field. -/
def Dev.get (s : Dev) (f : Field) : Nat := bitsOf (s.reg f.off) f.hi f.lo

/-- Sets a field, the other fields of its register unchanged. -/
def Dev.put (s : Dev) (f : Field) (v : Nat) : Dev := s.setReg f.off (withBits (s.reg f.off) f.hi f.lo v)

/-- Whether a field is not 0. -/
def Dev.on (s : Dev) (f : Field) : Bool := s.get f != 0

/-- The largest value of a field. -/
def Field.max (f : Field) : Nat := 2 ^ (f.hi + 1 - f.lo) - 1

/-- Adds to a counter field that saturates. -/
def Dev.bump (s : Dev) (f : Field) (n : Nat := 1) : Dev := s.put f (min (s.get f + n) f.max)

/-- Adds to a counter field that wraps. -/
def Dev.bumpWrap (s : Dev) (f : Field) (n : Nat := 1) : Dev := s.put f (s.get f + n)

/-- Sets a one-bit field to 1. -/
def Dev.raise (s : Dev) (f : Field) : Dev := s.put f 1

/-- Raises a peak field to v, saturating. -/
def Dev.peak (s : Dev) (f : Field) (v : Nat) : Dev :=
  if s.get f < v then s.put f (min v f.max) else s

/-- Sets a register's field of one bit when a condition holds. -/
def Dev.raiseIf (s : Dev) (b : Bool) (f : Field) : Dev := if b then s.raise f else s

/-! ### Messages, free values, identities -/

/-- Sends a message (log entry 8). -/
def Dev.send (s : Dev) (m : Msg) : Dev := { s with outbox := s.outbox ++ [m] }

/-- Sends several messages in order. -/
def Dev.sendAll (s : Dev) (ms : List Msg) : Dev := { s with outbox := s.outbox ++ ms }

/-- A free value (log entry 7) and the state after taking it. -/
def Dev.free (s : Dev) : Word × Dev := (Config.freeValue s.freeCount, { s with freeCount := s.freeCount + 1 })

/-- A fresh identity for an internal object, and the state after taking it. -/
def Dev.newId (s : Dev) : Nat × Dev := (s.nextId, { s with nextId := s.nextId + 1 })

/-- Applies f once for each element, in order. -/
def Dev.each {α : Type} (s : Dev) (l : List α) (f : Dev → α → Dev) : Dev := l.foldl f s

/-! ### Positions, facets and groups -/

/-- The slice's die position: BAND >> 1 (R751, R3). -/
def Dev.pos (s : Dev) : Nat := s.get F.rstStrap_BAND / 2

/-- The set size in force (R635); 0 before the topology section commits. -/
def Dev.setSize (s : Dev) : Nat := s.get F.shdConfig_SET_SIZE

/-- The buddy's position (R21). -/
def Dev.buddy (s : Dev) : Nat := s.pos ^^^ 1

/-- Agent ID of a slice (R24). -/
def sliceAgent (p : Nat) : Agent := BitVec.ofNat 6 (56 + p)

/-- Whether a facet is disabled by its fuses (R14, R15). -/
def Fuse.dead (u : Fuse) (f : Nat) : Bool :=
  u.facetCount != 64 && (u.dead0.toNat == f || u.dead1.toNat == f || u.dead2.toNat == f || u.dead3.toNat == f)

/-- The facet that owns a facet group (R17, R101). -/
def Fuse.owner (u : Fuse) (g : Nat) : Nat := if u.dead g then (g + 1) % 64 else g

/-- The enabled facets in rising order (R16). -/
def Fuse.facets (u : Fuse) : List Nat := (List.range 64).filter (fun f => !u.dead f)

/-- The good Lens engines in rising physical order (R14). -/
def Fuse.lenses (u : Fuse) : List Nat := onesOf 4 u.lensGood.toNat

/-- Facets that own a second, disabled, group (R17). -/
def Fuse.absorbs (u : Fuse) (f : Nat) : Bool := !u.dead f && u.dead ((f + 63) % 64)

/-! ### ALERT_N (R792) -/

/-- Sets a source bit of GNM_ALERT, which asserts ALERT_N while any bit is set (R792). -/
def Dev.alert (s : Dev) (src : Nat) : Dev :=
  s.setReg R.gnmAlert (s.reg R.gnmAlert ||| 2 ^ src)

end Sys2Proof.Machine
end

