-- ==== Sys2Proof/Machine/PlanBody.lean ====
section
/-! DEFINITION. The frame plan body: its parts, the tables of its templates, and what of it is in force (R27, R39 to R43, R57,
R678). -/

namespace Sys2Proof.Machine

/-! ### The frame plan body (R678) -/

/-- n rounded up to a multiple of 8. -/
def up8 (n : Nat) : Nat := divUp n 8 * 8

def planLenCode (b : List Byte) : Nat := byteAt b 0
def planTemplates (b : List Byte) : Nat := byteAt b 1
def planPeriod (b : List Byte) : Nat := leAt b 2 2
def planDegPeriod (b : List Byte) : Nat := leAt b 4 2
def planRows (b : List Byte) : Nat := leAt b 6 2
def planWaves (b : List Byte) : Nat := leAt b 8 2
def planFlows (b : List Byte) : Nat := leAt b 10 2

/-- Bytes of a template (R42). -/
def templateBytes : Nat := 23744

/-- Offsets of the parts. -/
def offDegraded (b : List Byte) : Nat := 64 + up8 (2 * planPeriod b)
def offRefresh (b : List Byte) : Nat := offDegraded b + up8 (2 * planDegPeriod b)
def offRows (b : List Byte) : Nat := offRefresh b + 2048
def offTemplates (b : List Byte) : Nat := offRows b + up8 (4 * planRows b)
def offWaves (b : List Byte) : Nat := offTemplates b + templateBytes * planTemplates b
def offFlows (b : List Byte) : Nat := offWaves b + 64 * planWaves b
def planEnd (b : List Byte) : Nat := offFlows b + 64 * planFlows b

/-- Entry i of the normal and of the degraded frame list (R41). -/
def normalEntry (b : List Byte) (i : Nat) : Nat := leAt b (64 + 2 * i) 2
def degradedEntry (b : List Byte) (i : Nat) : Nat := leAt b (offDegraded b + 2 * i) 2

/-- Refresh commands of a pseudo-channel in a slot (R43): 2 bits each, slot by slot. -/
def refreshEntry (b : List Byte) (slot pc : Nat) : Nat :=
  let k := 128 * slot + pc
  bitsOf (byteAt b (offRefresh b + k / 4)) (2 * (k % 4) + 1) (2 * (k % 4))

/-- Word i of the row list (R553). -/
def rowWord (b : List Byte) (i : Nat) : Nat := leAt b (offRows b + 4 * i) 4

/-- Entries of a template's tables (R42, R43). -/
def offTemplate (b : List Byte) (t : Nat) : Nat := offTemplates b + templateBytes * t
def templateTimetable (b : List Byte) (t : Nat) : Nat := byteAt b (offTemplate b t)
def dramEntry (b : List Byte) (t slot pc : Nat) : Nat := leAt b (offTemplate b t + 64 + 256 * slot + 2 * pc) 2
/-- BULK and BACKGROUND eighths of a DRAM window entry (R43). -/
def bulkShare (e : Nat) : Nat := bitsOf e 5 3
def backgroundShare (e : Nat) : Nat := bitsOf e 2 0

/-- The other tables' entries. -/
def portEntry (b : List Byte) (t slot f : Nat) : Nat := byteAt b (offTemplate b t + 16448 + 64 * slot + f)
def waveEntry (b : List Byte) (t slot e : Nat) : Nat := leAt b (offTemplate b t + 20544 + 16 * slot + 4 * e) 4
def flowEntry (b : List Byte) (t slot k : Nat) : Nat := leAt b (offTemplate b t + 21568 + 32 * slot + 4 * k) 4
def backgroundEntry (b : List Byte) (t slot : Nat) : Nat := leAt b (offTemplate b t + 23616 + 2 * slot) 2

/-- Word w of wave descriptor i, and of flow descriptor i (R346, R415). -/
def waveWord (b : List Byte) (i w : Nat) : Nat := leAt b (offWaves b + 64 * i + 8 * w) 8
def flowWord (b : List Byte) (i w : Nat) : Nat := leAt b (offFlows b + 64 * i + 8 * w) 8

/-! ### The plan in force on this slice -/

/-- The frame plan in force. -/
def Dev.plan (s : Dev) : List Byte := s.img.force.plan

/-- The template of the current or next plan frame. -/
def Dev.template (s : Dev) : Nat := s.get F.frmStatus_TEMPLATE

/-- SCLK cycles of a frame and of a slot (R27); 16,384 and 256 before an image commits (R57). -/
def Dev.frameLen (s : Dev) : Nat :=
  if !s.on F.imgStatus_LOADED then 16384 else 2048 * 2 ^ s.get F.frmConfig_LEN_CODE
def Dev.slotLen (s : Dev) : Nat := s.frameLen / 64

end Sys2Proof.Machine
end

