-- ==== Sys2Proof/Machine/Numbers.lean ====
section
/-! DEFINITION. Number formats (chapter 08): exact values, the element codes, the block scale, rounding, and the IEEE
arithmetic of the Chord unit and the reduce adders (R403). -/

namespace Sys2Proof.Machine

/-- x × 2^k as a natural and the bits below it: the floor of mant × 2^k, the remainder and the remainder's unit. -/
def shiftFloor (mant : Nat) (k : Int) : Nat × Nat × Nat :=
  if 0 ≤ k then (mant * 2 ^ k.toNat, 0, 1)
  else
    let u := 2 ^ (-k).toNat
    (mant / u, mant % u, u)

/-- a × 2^ea ≤ b × 2^eb on magnitudes. -/
def magLe (a : Nat) (ea : Int) (b : Nat) (eb : Int) : Bool :=
  if ea ≤ eb then a ≤ b * 2 ^ (eb - ea).toNat else a * 2 ^ (ea - eb).toNat ≤ b

/-- The signed mantissa of a finite value at a smaller or equal exponent e. -/
def Exact.atExp (x : Exact) (e : Int) : Int :=
  match x with
  | .fin neg m ex => let v : Int := (m * 2 ^ (ex - e).toNat : Nat); if neg then -v else v
  | _ => 0

/-- The exponent of a finite value, 0 otherwise. -/
def Exact.exp (x : Exact) : Int :=
  match x with
  | .fin _ _ e => e
  | _ => 0

/-- A value of signed mantissa i. -/
def Exact.ofInt (i : Int) (e : Int) : Exact := .fin (i < 0) i.natAbs e

/-- Whether a value is finite. -/
def Exact.isFin (x : Exact) : Bool :=
  match x with
  | .fin _ _ _ => true
  | _ => false

/-- Order of finite values. -/
def Exact.le (x y : Exact) : Bool :=
  let e := min x.exp y.exp
  x.atExp e ≤ y.atExp e

/-- Magnitude of a finite value. -/
def Exact.abs (x : Exact) : Exact :=
  match x with
  | .nan => .nan
  | .inf _ => .inf false
  | .fin _ m e => .fin false m e

/-- x × 2^k. -/
def Exact.scale (x : Exact) (k : Int) : Exact :=
  match x with
  | .nan => .nan
  | .inf b => .inf b
  | .fin b m e => .fin b m (e + k)

/-- Difference of finite values. -/
def Exact.sub (x y : Exact) : Exact :=
  let e := min x.exp y.exp
  Exact.ofInt (x.atExp e - y.atExp e) e

/-! ### Rounding (R290 to R293) -/

/-- How a conversion rounds: to nearest with ties to even, or stochastically with a 16-bit draw. -/
inductive Rounding where
  | rne
  | stochastic (r : Nat)
deriving DecidableEq, Repr

/-- Rounds lo + rem / u to lo or lo + 1 (R291). -/
def roundUnit (md : Rounding) (lo rem u : Nat) : Nat :=
  if rem == 0 then lo
  else match md with
    | .rne => if 2 * rem > u || (2 * rem == u && lo % 2 == 1) then lo + 1 else lo
    | .stochastic r => if r < 65536 * rem / u then lo + 1 else lo

/-- Sixteen steps of a lane's LFSR (R292): the new state, whose low 16 bits are the draw. -/
def step16From : Nat → Nat → Nat
  | 0, s => s
  | n + 1, s =>
    let t := s / 2
    step16From n (if s % 2 == 1 then t ^^^ 0x80200003 else t)

def step16 (s : Nat) : Nat := step16From 16 s

/-- Seeds of a facet's planned and demand LFSRs (R292). -/
def seedPlanned (seed f frames : Nat) : Nat :=
  let s := (seed ^^^ (f * 2 ^ 26) ^^^ (frames % 2 ^ 26)) % 2 ^ 32
  if s == 0 then 1 else s

def seedDemand (seed f : Nat) : Nat :=
  let s := (seed ^^^ (f * 2 ^ 26) ^^^ 0x3FFFFFF) % 2 ^ 32
  if s == 0 then 1 else s

/-! ### Binary floats (R277, R278) -/

/-- A sign-magnitude float layout: mantissa width, exponent width and bias. -/
structure FloatFmt where
  m : Nat
  e : Nat
  bias : Nat
deriving DecidableEq, Repr

def fp32 : FloatFmt := ⟨23, 8, 127⟩
def bf16 : FloatFmt := ⟨7, 8, 127⟩
def fp16 : FloatFmt := ⟨10, 5, 15⟩
def fp64 : FloatFmt := ⟨52, 11, 1023⟩
def e4m3 : FloatFmt := ⟨3, 4, 7⟩
def e5m2 : FloatFmt := ⟨2, 5, 15⟩
def e3m2 : FloatFmt := ⟨2, 3, 3⟩
def e2m3 : FloatFmt := ⟨3, 2, 1⟩
def e2m1 : FloatFmt := ⟨1, 2, 1⟩

/-- Width of a float layout in bits. -/
def FloatFmt.width (f : FloatFmt) : Nat := 1 + f.e + f.m

/-- The magnitude code of +Inf in the IEEE layouts. -/
def FloatFmt.infCode (f : FloatFmt) : Nat := (2 ^ f.e - 1) * 2 ^ f.m

/-- The finite value of a magnitude code (R278). -/
def FloatFmt.value (f : FloatFmt) (neg : Bool) (mag : Nat) : Exact :=
  let ef := mag / 2 ^ f.m
  let mf := mag % 2 ^ f.m
  if ef == 0 then .fin neg mf (1 - (f.bias : Int) - f.m)
  else .fin neg (2 ^ f.m + mf) ((ef : Int) - f.bias - f.m)

/-- Magnitude code of a positive finite value, rounded, with no upper limit (R291). -/
def FloatFmt.code (f : FloatFmt) (md : Rounding) (mant : Nat) (exp : Int) : Nat :=
  if mant == 0 then 0
  else
    let e : Int := (log2f mant : Int) + exp
    let eff : Int := max e (1 - (f.bias : Int))
    let s := shiftFloor mant (exp - eff + f.m)
    (eff + f.bias - 1).toNat * 2 ^ f.m + roundUnit md s.1 s.2.1 s.2.2

/-- Bits of a float with a sign. -/
def FloatFmt.bits (f : FloatFmt) (neg : Bool) (mag : Nat) : Nat := b2n neg * 2 ^ (f.e + f.m) + mag

/-- The exact value of an IEEE code (R277). -/
def FloatFmt.decode (f : FloatFmt) (c : Nat) : Exact :=
  let neg := bitAt c (f.e + f.m)
  let mag := c % 2 ^ (f.e + f.m)
  if mag == f.infCode then .inf neg
  else if mag > f.infCode then .nan
  else f.value neg mag

/-- The canonical NaN of an IEEE layout (R297, R403). -/
def FloatFmt.nan (f : FloatFmt) : Nat := f.infCode + 2 ^ (f.m - 1)

/-! ### IEEE arithmetic (R403) -/

/-- What a float operation reports (R403, R408, R431). -/
structure ArithFlags where
  overflow : Bool := false
  nan : Bool := false
  countSat : Bool := false
deriving DecidableEq, Repr

def ArithFlags.or (a b : ArithFlags) : ArithFlags :=
  ⟨a.overflow || b.overflow, a.nan || b.nan, a.countSat || b.countSat⟩

/-- Rounds an exact result once to nearest even; overflow gives an infinity (R403). -/
def FloatFmt.round (f : FloatFmt) (x : Exact) : Nat × ArithFlags :=
  match x with
  | .nan => (f.nan, { nan := true })
  | .inf neg => (f.bits neg f.infCode, {})
  | .fin neg m e =>
    let c := f.code .rne m e
    if f.infCode ≤ c then (f.bits neg f.infCode, { overflow := true }) else (f.bits neg c, {})

/-- The exact sum: NaN for a NaN operand or opposite infinities; a zero sum of unlike signs is +0. -/
def Exact.add (x y : Exact) : Exact :=
  match x, y with
  | .nan, _ => .nan
  | _, .nan => .nan
  | .inf a, .inf b => if a == b then .inf a else .nan
  | .inf a, _ => .inf a
  | _, .inf b => .inf b
  | .fin a m e, .fin b n g =>
    let ex := min e g
    let v := Exact.atExp (.fin a m e) ex + Exact.atExp (.fin b n g) ex
    if v == 0 then .fin (a && b) 0 0 else Exact.ofInt v ex

/-- The exact product. -/
def Exact.mul (x y : Exact) : Exact :=
  match x, y with
  | .nan, _ => .nan
  | _, .nan => .nan
  | .inf a, .inf b => .inf (a != b)
  | .inf a, .fin b n _ => if n == 0 then .nan else .inf (a != b)
  | .fin a m _, .inf b => if m == 0 then .nan else .inf (a != b)
  | .fin a m e, .fin b n g => .fin (a != b) (m * n) (e + g)

/-- The negation. -/
def Exact.neg (x : Exact) : Exact :=
  match x with
  | .nan => .nan
  | .inf a => .inf (!a)
  | .fin a m e => .fin (!a) m e

/-- Addition of two codes of a layout (R403). -/
def FloatFmt.addBits (f : FloatFmt) (a b : Nat) : Nat × ArithFlags := f.round ((f.decode a).add (f.decode b))

/-- Product of two codes, rounded once. -/
def FloatFmt.mulBits (f : FloatFmt) (a b : Nat) : Nat × ArithFlags := f.round ((f.decode a).mul (f.decode b))

/-- r + x × x with an exact product and one rounding (R406 RSUMSQ_F32). -/
def FloatFmt.addSquare (f : FloatFmt) (r x : Nat) : Nat × ArithFlags :=
  f.round ((f.decode r).add ((f.decode x).mul (f.decode x)))

/-- Subtraction of codes. -/
def FloatFmt.subBits (f : FloatFmt) (a b : Nat) : Nat × ArithFlags :=
  f.round ((f.decode a).add (f.decode b).neg)

/-- An unsigned integer to FP32 (R408 f32). -/
def f32OfNat (n : Nat) : Nat := (fp32.round (.fin false n 0)).1

/-- Quotient of two positive finite FP32 codes, rounded once: 64 quotient bits and a sticky bit decide it. -/
def div32 (a b : Nat) : Nat × ArithFlags :=
  match fp32.decode a, fp32.decode b with
  | .fin _ m e, .fin _ n g =>
    let q := m * 2 ^ 64 / n
    let r := m * 2 ^ 64 % n
    fp32.round (.fin false (2 * q + b2n (r != 0)) (e - g - 65))
  | _, _ => (fp32.nan, { nan := true })

/-- The smaller or larger by R403: -0 below +0, the other operand when exactly one is NaN. -/
def FloatFmt.minMax (f : FloatFmt) (wantMax : Bool) (a b : Nat) : Nat × ArithFlags :=
  let key := fun (c : Nat) =>
    let mag : Int := ((c % 2 ^ (f.e + f.m) : Nat) : Int)
    if bitAt c (f.e + f.m) then -mag - 1 else mag
  match f.decode a, f.decode b with
  | .nan, .nan => (f.nan, { nan := true })
  | .nan, _ => (b, {})
  | _, .nan => (a, {})
  | _, _ => if (key a ≤ key b) != wantMax then (a, {}) else (b, {})

/-! ### Palettes (R280, R287, R288) -/

/-- A palette table: its entries and its exponent. -/
structure Palette where
  entries : List Int
  texp : Int
deriving DecidableEq, Repr

/-- Palette p of a format tables body, with the entries its kind uses (R287, R288). -/
def paletteOf (body : List Byte) (p : Nat) : Palette :=
  let base := 8 + 32 * p
  let n := if byteAt body (base + 16) == 0x0D then 8 else 16
  { entries := (List.range n).map (fun j => signed 6 (byteAt body (base + j)))
    texp := signed 8 (byteAt body (base + 17)) }

/-! ### Format codes (R275) -/

/-- Element bits of a format (R275). -/
def elemBits (fmt : Nat) : Nat :=
  match fmt with
  | 0x1 => 32
  | 0x2 => 16
  | 0x3 => 16
  | 0x4 => 8
  | 0x5 => 8
  | 0x6 => 6
  | 0x7 => 6
  | 0x8 => 4
  | 0x9 => 8
  | 0xA => 4
  | 0xB => 2
  | 0xC => 4
  | 0xD => 3
  | _ => 0

/-- Whether a format is a wide float (R275). -/
def isWide (fmt : Nat) : Bool := 1 ≤ fmt && fmt ≤ 3

/-- Layout of a wide format. -/
def wideFmt (fmt : Nat) : FloatFmt := if fmt == 1 then fp32 else if fmt == 2 then bf16 else fp16

/-- Layout of a block float format. -/
def blockFloat (fmt : Nat) : Option FloatFmt :=
  match fmt with
  | 0x4 => some e4m3
  | 0x5 => some e5m2
  | 0x6 => some e3m2
  | 0x7 => some e2m3
  | 0x8 => some e2m1
  | _ => none

/-- Largest finite magnitude code of a block float (R278). -/
def blockMaxCode (fmt : Nat) : Nat :=
  match fmt with
  | 0x4 => 0x7E
  | 0x5 => 0x7B
  | 0x6 => 0x1F
  | 0x7 => 0x1F
  | _ => 0x7

/-- Binary places of an integer format: INT8 counts in 2^-6 (R279). -/
def intFrac (fmt : Nat) : Int := if fmt == 0x9 then -6 else 0

/-- The exact element value of a code, before the block scale (R277 to R280). -/
def decodeElem (fmt : Nat) (pal : Palette) (c : Nat) : Exact :=
  if isWide fmt then (wideFmt fmt).decode c
  else match blockFloat fmt with
    | some f =>
      let neg := bitAt c (f.e + f.m)
      let mag := c % 2 ^ (f.e + f.m)
      if fmt == 0x4 && mag == 0x7F then .nan
      else if fmt == 0x5 && mag == 0x7C then .inf neg
      else if fmt == 0x5 && mag > 0x7C then .nan
      else f.value neg mag
    | none =>
      if fmt == 0xC || fmt == 0xD then Exact.ofInt (pal.entries.getD c 0) pal.texp
      else Exact.ofInt (signed (elemBits fmt) c) (intFrac fmt)

/-- The greatest and least of a list of integers. -/
def maxOf (l : List Int) : Int := l.foldl max (l.headD 0)
def minOf (l : List Int) : Int := l.foldl min (l.headD 0)

/-- Positive limit of a block format, none where a palette has none (R278 to R280). -/
def posLimit (fmt : Nat) (pal : Palette) : Option Exact :=
  match blockFloat fmt with
  | some f => some (f.value false (blockMaxCode fmt))
  | none =>
    if fmt == 0xC || fmt == 0xD then
      let m := maxOf pal.entries
      if 0 < m then some (Exact.ofInt m pal.texp) else none
    else some (Exact.ofInt (2 ^ (elemBits fmt - 1) - 1) (intFrac fmt))

/-- Negative limit of a block format (R278 to R280). -/
def negLimit (fmt : Nat) (pal : Palette) : Option Exact :=
  match blockFloat fmt with
  | some f => some (f.value true (blockMaxCode fmt))
  | none =>
    if fmt == 0xC || fmt == 0xD then
      let m := minOf pal.entries
      if m < 0 then some (Exact.ofInt m pal.texp) else none
    else some (Exact.ofInt (-(2 ^ (elemBits fmt - 1))) (intFrac fmt))

/-- The least e with mag ≤ lim × 2^e on magnitudes (R295). -/
def leastExp (x lim : Exact) : Int :=
  match x, lim with
  | .fin _ m e, .fin _ n g =>
    let e0 : Int := ((log2f m : Int) + e) - ((log2f n : Int) + g)
    if magLe m e n (g + e0) then e0 else e0 + 1
  | _, _ => 0

/-- The finite value largest in magnitude among those of one sign, none if there is none (R295). -/
def extreme (neg : Bool) (v : List Exact) : Option Exact :=
  v.foldl (fun b x =>
    match x with
    | .fin s m e =>
      if s == neg && m != 0 then
        match b with
        | none => some x
        | some y => if Exact.le y.abs (Exact.fin false m e) then some x else b
      else b
    | _ => b) none

/-- The scale of 32 values under given limits (R295). -/
def scaleFor (v : List Exact) (posLim negLim : Option Exact) : Nat :=
  let pos := match extreme false v, posLim with
    | some x, some l => some (leastExp x l)
    | _, _ => none
  let neg := match extreme true v, negLim with
    | some x, some l => some (leastExp x l)
    | _, _ => none
  match pos, neg with
  | none, none => 127
  | some a, none => (min (max (a + 127) 0) 254).toNat
  | none, some b => (min (max (b + 127) 0) 254).toNat
  | some a, some b => (min (max (max a b + 127) 0) 254).toNat

/-- The scale of a block (R295). -/
def chooseScale (v : List Exact) (fmt : Nat) (pal : Palette) : Nat := scaleFor v (posLimit fmt pal) (negLimit fmt pal)

/-- An encoded element: its code, whether it saturated and whether a NaN was dropped (R296, R297). -/
structure Enc where
  code : Nat
  sat : Bool
  nanDropped : Bool
deriving DecidableEq, Repr

/-- The first index of a palette whose entry is v. -/
def palIndex (pal : Palette) (v : Int) : Nat := (pal.entries.findIdx? (fun e => e == v)).getD 0

/-- The entry nearest 0, lowest index on a tie (R297). -/
def palZero (pal : Palette) : Nat :=
  let m := (pal.entries.map Int.natAbs).foldl min ((pal.entries.headD 0).natAbs)
  (pal.entries.findIdx? (fun e => e.natAbs == m)).getD 0

/-- Encodes a finite value that is not 0 in a palette (R291, R296). -/
def encodePal (pal : Palette) (md : Rounding) (x : Exact) : Enc :=
  let e := min x.exp pal.texp
  let u : Int := ((2 ^ (pal.texp - e).toNat : Nat) : Int)
  let v := x.atExp e
  let mx := maxOf pal.entries
  let mn := minOf pal.entries
  if v > mx * u then ⟨palIndex pal mx, true, false⟩
  else if v < mn * u then ⟨palIndex pal mn, true, false⟩
  else
    let lo := maxOf ((pal.entries.filter (fun k => k * u ≤ v)))
    let hi := minOf ((pal.entries.filter (fun k => v ≤ k * u)))
    if lo == hi then ⟨palIndex pal lo, false, false⟩
    else
      let dl := v - lo * u
      let dh := hi * u - v
      let pick := match md with
        | .rne => if dl < dh then lo else if dh < dl then hi else if lo.natAbs ≤ hi.natAbs then lo else hi
        | .stochastic r => if (r : Int) < 65536 * dl / ((hi - lo) * u) then hi else lo
      ⟨palIndex pal pick, false, false⟩

/-- Encodes a value in a sign-magnitude float target whose largest finite magnitude code is mx (R296). -/
def encodeFloat (f : FloatFmt) (mx : Nat) (md : Rounding) (neg : Bool) (m : Nat) (e : Int) : Enc :=
  match f.value false mx with
  | .fin _ lm le =>
    if magLe m e lm le then ⟨f.bits neg (f.code md m e), false, false⟩ else ⟨f.bits neg mx, true, false⟩
  | _ => ⟨0, false, false⟩

/-- Encodes a value in an integer target (R296). -/
def encodeInt (fmt : Nat) (md : Rounding) (neg : Bool) (m : Nat) (e : Int) : Enc :=
  let w := elemBits fmt
  let e' := e - intFrac fmt
  let lim := if neg then 2 ^ (w - 1) else 2 ^ (w - 1) - 1
  if magLe m e' lim 0 then
    let s := shiftFloor m e'
    let q : Int := (roundUnit md s.1 s.2.1 s.2.2 : Nat)
    ⟨wrapInt w (if neg then -q else q), false, false⟩
  else ⟨wrapInt w (if neg then -(lim : Int) else lim), true, false⟩

/-- Encodes a scaled value in a format (R296, R297). -/
def encodeElem (fmt : Nat) (pal : Palette) (md : Rounding) (x : Exact) : Enc :=
  if isWide fmt then
    let f := wideFmt fmt
    match x with
    | .nan => ⟨f.nan, false, false⟩
    | .inf neg => ⟨f.bits neg f.infCode, false, false⟩
    | .fin neg m e => encodeFloat f (f.infCode - 1) md neg m e
  else match blockFloat fmt with
    | some f =>
      let mx := blockMaxCode fmt
      match x with
      | .nan =>
        if fmt == 0x4 then ⟨0x7F, false, false⟩ else if fmt == 0x5 then ⟨0x7E, false, false⟩ else ⟨0, false, true⟩
      | .inf neg => if fmt == 0x5 then ⟨f.bits neg 0x7C, false, false⟩ else ⟨f.bits neg mx, true, false⟩
      | .fin neg m e => encodeFloat f mx md neg m e
    | none =>
      if fmt == 0xC || fmt == 0xD then
        match x with
        | .nan => ⟨palZero pal, false, true⟩
        | .inf neg => ⟨palIndex pal (if neg then minOf pal.entries else maxOf pal.entries), true, false⟩
        | .fin _ m _ => if m == 0 then ⟨palZero pal, false, false⟩ else encodePal pal md x
      else
        match x with
        | .nan => ⟨0, false, true⟩
        | .inf neg =>
          let w := elemBits fmt
          ⟨if neg then 2 ^ (w - 1) else 2 ^ (w - 1) - 1, true, false⟩
        | .fin neg m e => encodeInt fmt md neg m e

/-! ### Blocks (R281, R282, R292) -/

/-- The 32 element codes of a payload read as one little-endian integer (R281). -/
def blockCodes (fmt payload : Nat) : List Nat :=
  let w := elemBits fmt
  (List.range 32).map (fun k => bitsOf payload (w * k + w - 1) (w * k))

/-- The payload of 32 codes (R281). -/
def blockPayload (fmt : Nat) (codes : List Nat) : Nat :=
  let w := elemBits fmt
  codes.foldr (fun c acc => acc * 2 ^ w + c % 2 ^ w) 0

/-- The 32 exact values of a block with scale X; outside a scale plane X = 0xFF is NaN (R282, R284). -/
def blockValues (fmt : Nat) (pal : Palette) (payload x : Nat) : List Exact :=
  if x == 0xFF then List.replicate 32 .nan
  else (blockCodes fmt payload).map (fun c => (decodeElem fmt pal c).scale ((x : Int) - 127))

/-- Encodes values one after another in a mode: round to nearest, or stochastic, advancing the lane's LFSR by 16
steps for every element (R292). -/
def encodeAll (fmt : Nat) (pal : Palette) (stoch : Bool) : List Exact → Nat → List Enc × Nat
  | [], lf => ([], lf)
  | v :: vs, lf =>
    if stoch then
      let s := step16 lf
      let rest := encodeAll fmt pal stoch vs s
      (encodeElem fmt pal (.stochastic (s % 65536)) v :: rest.1, rest.2)
    else
      let rest := encodeAll fmt pal stoch vs lf
      (encodeElem fmt pal .rne v :: rest.1, rest.2)

/-- A narrowed block: its scale, payload, saturation and dropped-NaN counts, and the LFSR after it. -/
structure Block where
  x : Nat
  payload : Nat
  sats : Nat
  nans : Nat
  lfsr : Nat
deriving DecidableEq, Repr

/-- Narrows 32 values into a block format (R295, R296, R297). -/
def encodeBlock (fmt : Nat) (pal : Palette) (stoch : Bool) (v : List Exact) (lf : Nat) : Block :=
  let x := chooseScale v fmt pal
  let r := encodeAll fmt pal stoch (v.map (fun n => n.scale (127 - (x : Int)))) lf
  { x := x, payload := blockPayload fmt (r.1.map Enc.code), sats := (r.1.filter Enc.sat).length,
    nans := (r.1.filter Enc.nanDropped).length, lfsr := r.2 }

/-- Elements in a wide format: codes, saturation and dropped-NaN counts, LFSR (R296 to R298). -/
structure WideOut where
  codes : List Nat
  sats : Nat
  nans : Nat
  lfsr : Nat
deriving DecidableEq, Repr

/-- Converts values to a wide format. -/
def encodeWide (fmt : Nat) (stoch : Bool) (v : List Exact) (lf : Nat) : WideOut :=
  let r := encodeAll fmt ⟨[], 0⟩ stoch v lf
  { codes := r.1.map Enc.code, sats := (r.1.filter Enc.sat).length, nans := (r.1.filter Enc.nanDropped).length,
    lfsr := r.2 }

/-- The largest magnitude among the finite values, 0 for none (R313 amax). -/
def amaxOf (v : List Exact) : Exact :=
  v.foldl (fun b x => if x.isFin && Exact.le b x.abs then x.abs else b) (.fin false 0 0)

/-- The largest error of a narrow block among the finite values (R313 err). -/
def errOf (fmt : Nat) (pal : Palette) (v : List Exact) (b : Block) : Exact :=
  let q := blockValues fmt pal b.payload b.x
  (v.zip q).foldl (fun m p =>
    if p.1.isFin then
      let d := (Exact.sub p.1 p.2).abs
      if Exact.le m d then d else m
    else m) (.fin false 0 0)

/-- Bytes of an element list in a wide format, little-endian, as one natural. -/
def packCodes (w : Nat) (codes : List Nat) : Nat := codes.foldr (fun c acc => acc * 2 ^ w + c % 2 ^ w) 0

/-- n elements of w bits of a natural. -/
def unpackCodes (w n v : Nat) : List Nat := (List.range n).map (fun i => bitsOf v (w * i + w - 1) (w * i))

/-! ### Moment records (R407, R408) -/

/-- A moment record: COUNT, MEAN and M2. -/
structure Moment where
  count : Nat
  mean : Nat
  m2 : Nat
deriving DecidableEq, Repr

def Moment.ofNat (v : Nat) : Moment := ⟨bitsOf v 31 0, bitsOf v 63 32, bitsOf v 95 64⟩
def Moment.toNat (m : Moment) : Nat := m.count + m.mean * 2 ^ 32 + m.m2 * 2 ^ 64

/-- The combine of a resident record with an incoming one (R408). -/
def Moment.combine (a b : Moment) : Moment × ArithFlags :=
  if b.count == 0 then (a, {})
  else if a.count == 0 then (b, {})
  else
    let tot := a.count + b.count
    let n := min tot (2 ^ 32 - 1)
    let d := fp32.subBits b.mean a.mean
    let w := div32 (f32OfNat b.count) (f32OfNat n)
    let dw := fp32.mulBits d.1 w.1
    let mean := fp32.addBits a.mean dw.1
    let dd := fp32.mulBits d.1 d.1
    let aw := fp32.mulBits (f32OfNat a.count) w.1
    let q := fp32.mulBits dd.1 aw.1
    let ms := fp32.addBits a.m2 b.m2
    let m2 := fp32.addBits ms.1 q.1
    let fl := [d.2, w.2, dw.2, mean.2, dd.2, aw.2, q.2, ms.2, m2.2].foldl ArithFlags.or {}
    (⟨n, mean.1, m2.1⟩, { fl with countSat := n != tot })

end Sys2Proof.Machine
end

