-- ==== Sys2Proof/Machine/Flags.lean ====
section
/-! DEFINITION. What the slice reports: ALERT_N sources, error records, event records and counter events
(chapter 21). -/

namespace Sys2Proof.Machine

/-- GNM_ALERT bits (R792). -/
def alertFrm : Nat := 0
def alertFct : Nat := 1
def alertPrm : Nat := 2
def alertLns : Nat := 3
def alertPwk : Nat := 4
def alertStk : Nat := 5
def alertShd : Nat := 6
def alertRfl : Nat := 7
def alertImgSec : Nat := 8
def alertPwrRst : Nat := 9

/-- The tick frame number (R71). -/
def Dev.frameNo (s : Dev) : Nat := s.get F.frmTickCount_COUNT

/-- The GNM_ALERT source that a record type asserts, none where R786's Alert column reads No. -/
def recordAlert (type : Nat) : Option Nat :=
  match type with
  | 0x01 => some alertFct
  | 0x02 => some alertFct
  | 0x03 => some alertStk
  | 0x04 => some alertFct
  | 0x06 => some alertFct
  | 0x07 => some alertShd
  | 0x08 => some alertFct
  | 0x09 => some alertPwk
  | 0x0A => some alertStk
  | 0x0B => some alertShd
  | 0x0C => some alertLns
  | 0x0D => some alertRfl
  | 0x0E => some alertImgSec
  | _ => none

/-- The 32 bytes of an error record, as a little-endian natural (R785). -/
def errorRecordValue (type unit frame addr info count : Nat) : Nat :=
  (2 ^ 63 + (type % 128) * 2 ^ 56 + (unit % 256) * 2 ^ 48 + frame % 2 ^ 48)
    + (addr % 2 ^ 64) * 2 ^ 64 + (info % 2 ^ 64) * 2 ^ 128 + (count % 2 ^ 32) * 2 ^ 224

/-- Writes an error record at HEAD, advances HEAD, raises COUNT and asserts ALERT_N where R786 says so
(R784, R785). -/
def Dev.errorRecord (s : Dev) (type unit addr info : Nat) (count : Nat := 1) : Dev :=
  let head := s.get F.rstAg3_HEAD
  let v := errorRecordValue type unit s.frameNo addr info count
  let s1 := { s with afterglow := memWrite s.afterglow (32 * head) 32 v }
  let s2 := (s1.put F.rstAg3_HEAD (head + 1)).put F.rstAg3_COUNT (min 256 (s.get F.rstAg3_COUNT + 1))
  match recordAlert type with
  | some a => s2.alert a
  | none => s2

/-- TYPE of a record, and a record put behind those of a list whose TYPE is not higher (R785, R788). -/
def recordType (v : Nat) : Nat := bitsOf v 62 56
def insertRecord (v : Nat) : List Nat → List Nat
  | [] => [v]
  | x :: l => if recordType v < recordType x then v :: x :: l else x :: insertRecord v l

/-- The records written in the SCLK cycle that ends stand in ascending TYPE; mgmt.recHead is HEAD as that cycle found it
(R788). -/
def Dev.orderRecords (s : Dev) : Dev :=
  let head := s.get F.rstAg3_HEAD
  let n := (head + 256 - s.mgmt.recHead.toNat) % 256
  let at_ := fun (k : Nat) => 32 * ((head + 256 - n + k) % 256)
  let s1 : Dev := { s with mgmt.recHead := BitVec.ofNat 8 head }
  let old := (List.range n).map (fun k => memRead s.afterglow (at_ k) 32)
  let new := old.foldl (fun l v => insertRecord v l) []
  if new == old then s1
  else { s1 with
    afterglow := new.zipIdx.foldl (fun m e => memWrite m (at_ e.2) 32 e.1) s.afterglow
    frm.deniedRec := s.frm.deniedRec.map (fun off =>
      if (List.range n).any (fun k => at_ k == off) then
        (((new.zipIdx.filter (fun e => recordType e.1 == 5)).getLast?).map (fun e => at_ e.2)).getD off
      else off) }

/-- Writes a denial: one type 0x05 record per tick frame, further denials of the frame raising its COUNT
(R786, R787). -/
def Dev.denialRecord (s : Dev) (addr info : Nat) : Dev :=
  match s.frm.deniedRec with
  | some off =>
    let c := memRead s.afterglow (off + 28) 4
    { s with afterglow := memWrite s.afterglow (off + 28) 4 (min (c + 1) (2 ^ 32 - 1)) }
  | none =>
    let off := 32 * s.get F.rstAg3_HEAD
    let s1 := s.errorRecord 0x05 0 addr info
    { s1 with frm.deniedRec := some off }

/-- Writes an event record at SEQ mod 128 and advances SEQ (R789, R790). -/
def Dev.eventRecord (s : Dev) (kind frame duration info : Nat) : Dev :=
  let q := s.mgmt.eventSeq.toNat
  let v := (2 ^ 63 + (kind % 256) * 2 ^ 48 + frame % 2 ^ 48)
    + ((duration % 2 ^ 32) * 2 ^ 32 + q) * 2 ^ 64 + (info % 2 ^ 64) * 2 ^ 128
  { s with
    afterglow := memWrite s.afterglow (0x2000 + 32 * (q % 128)) 32 v
    mgmt.eventSeq := BitVec.ofNat 32 (q + 1) }

/-! ### Counter events (R771 to R775) -/

/-- Codes of R775. -/
def evSclk : Nat := 0x001
def evReadHit : Nat := 0x010
def evReadMiss : Nat := 0x011
def evPrefetch : Nat := 0x012
def evWriteBack : Nat := 0x013
def evRefetch : Nat := 0x014
def evDarkRead : Nat := 0x015
def evPlrs : Nat := 0x016
def evIngress : Nat := 0x017
def evReqs : Nat := 0x018
def evHeld : Nat := 0x019
def evSnoop : Nat := 0x020
def evBroadcast : Nat := 0x021
def evNak : Nat := 0x022
def evLensPass : Nat := 0x030
def evWaveWait : Nat := 0x031
def evPrism : Nat := 0x040
def evChord : Nat := 0x041
def evBus : Nat := 0x050
def evRefresh : Nat := 0x051
def evCorrected : Nat := 0x052
def evLatticeFlit : Nat := 0x060
def evDemandFlit : Nat := 0x061
def evCrc : Nat := 0x062
def evRflPost : Nat := 0x070
def evRflUsed : Nat := 0x071
def evStale : Nat := 0x072
def evSlip : Nat := 0x080
def evThrottle : Nat := 0x081

/-- The counter that a CSR offset selects for, when it is a CNT_SEL register (R796). -/
def selCounter (off : Nat) : Option (Nat × Nat) :=
  if 0x1A0000 ≤ off && off < 0x1A0C00 then
    let w := off % 0x100
    if 0x80 ≤ w && w < 0xC0 then some ((off - 0x1A0000) / 0x100, (w - 0x80) / 8) else none
  else none

/-- The selection words that are not 0, with their counters. -/
def Dev.selections (s : Dev) : List ((Nat × Nat) × Nat) :=
  s.csr.filterMap (fun e => (selCounter e.1).map (fun gk => (gk, e.2.toNat)))

/-- Adds to counter g.k; at 2^48 - 1 it saturates and sets its overflow bit (R773). -/
def Dev.countAdd (s : Dev) (g k n : Nat) : Dev :=
  let f := F.cntVal_VALUE g k
  let v := s.get f + n
  if 2 ^ 48 - 1 ≤ v then
    (s.put f (2 ^ 48 - 1)).setReg (R.cntOvf g) (s.reg (R.cntOvf g) ||| 2 ^ k)
  else s.put f v

/-- Whether a selection word counts occurrences of an event in a unit caused by a hue (R771, R772). -/
def selMatches (w code unit : Nat) (hue : Option Hue) : Bool :=
  bitsOf w 63 62 == 1 && bitsOf w 9 0 == code && (bitsOf w 23 16 == unit || bitsOf w 23 16 == 255) &&
    (bitsOf w 60 60 == 0 || (hue.map BitVec.toNat) == some (bitsOf w 31 24))

/-- n occurrences of an event in a unit, caused by a request of a hue where one caused it (R772). -/
def Dev.event (s : Dev) (code unit : Nat) (hue : Option Hue := none) (n : Nat := 1) : Dev :=
  s.each (s.selections.filter (fun e => selMatches e.2 code unit hue)) (fun s e => s.countAdd e.1.1 e.1.2 n)

/-! ### The outputs ALERT_N and ECLIPSE_N (R752, R792, R809, R810) -/

/-- Whether the slice drives ALERT_N low: throughout Eclipse, and out of reset while any GNM_ALERT bit is 1, which a wake event
in Night sets (R734, R752, R792). -/
def Dev.alertLow (s : Dev) : Bool := s.phase == .eclipse || (s.phase != .held && s.reg R.gnmAlert != 0)

/-- Whether the slice drives ECLIPSE_N low: in Eclipse and in no other phase (R634, R752). -/
def Dev.eclipseLow (s : Dev) : Bool := s.phase == .eclipse

end Sys2Proof.Machine
end

