-- ==== Sys2Proof/Machine/Address.lean ====
section
/-! DEFINITION. Regions, the mapping from address to home slice, facet, DRAM place and cache place, and the topology's
agents (chapters 03, 05, 06, 15, 16). -/

namespace Sys2Proof.Machine

/-! ### Region entries (R89, R300) -/

def Region.field (w : Word) (hi lo : Nat) : Nat := bitsOf w.toNat hi lo
def Region.valid (g : Region) : Bool := Region.field g.base 63 63 == 1
def Region.space (g : Region) : Nat := Region.field g.base 62 61
def Region.first (g : Region) : Nat := Region.field g.base 60 34
def Region.size (g : Region) : Nat := Region.field g.base 33 7
def Region.interleave (g : Region) : Nat := Region.field g.attr 63 62
def Region.home (g : Region) : Nat := Region.field g.attr 61 59
def Region.shadowed (g : Region) : Bool := Region.field g.attr 58 58 == 1
def Region.strictDarken (g : Region) : Bool := Region.field g.attr 57 57 == 1
def Region.prefetchOff (g : Region) : Bool := Region.field g.attr 56 56 == 1
def Region.stream (g : Region) : Bool := Region.field g.attr 55 55 == 1
def Region.reflection (g : Region) : Bool := Region.field g.attr 54 54 == 1
def Region.reflDram (g : Region) : Bool := Region.field g.attr 53 53 == 1
def Region.format (g : Region) : Nat := Region.field g.attr 52 49
def Region.salt (g : Region) : Nat := Region.field g.attr 48 37
def Region.devBase (g : Region) : Nat := Region.field g.attr 16 0
def Region.dataLen (g : Region) : Nat := Region.field g.typed 63 40
def Region.escSlots (g : Region) : Nat :=
  match Region.field g.typed 39 38 with
  | 0 => 0
  | 1 => 1
  | 2 => 2
  | _ => 4
def Region.round (g : Region) : Nat := Region.field g.typed 37 36
def Region.escThr (g : Region) : Nat := Region.field g.typed 35 31
def Region.palette (g : Region) : Nat := Region.field g.typed 30 27
def Region.nodeFirst (g : Region) : Nat := Region.field g.refl 63 48
def Region.nodeLast (g : Region) : Nat := Region.field g.refl 47 32
def Region.accesses (g : Region) : List Nat := [g.acc0.toNat, g.acc1.toNat, g.acc2.toNat, g.acc3.toNat]

/-- An entry of the table that holds nothing. -/
def Region.empty : Region :=
  { base := 0, attr := 0, typed := 0, refl := 0, acc0 := 0, acc1 := 0, acc2 := 0, acc3 := 0 }

/-- Word w of a region entry (R89). -/
def Region.word (g : Region) (w : Nat) : Word :=
  match w with
  | 0 => g.base
  | 1 => g.attr
  | 2 => g.typed
  | 3 => g.refl
  | 4 => g.acc0
  | 5 => g.acc1
  | 6 => g.acc2
  | _ => g.acc3

/-- Entry n of the table in force, empty before a load (R85, R86). -/
def Dev.region (s : Dev) (n : Nat) : Region := s.regions.getD n Region.empty

/-- Bytes of one unit of BASE and SIZE in a space (R89). -/
def unitOf (space : Nat) : Nat := if space == 0 then 0x200000 else 0x10000

/-- Whether a span of bytes of a space lies wholly in a region's range (R86, R90). -/
def Region.contains (g : Region) (space a len : Nat) : Bool :=
  g.valid && g.space == space && g.first * unitOf space ≤ a && a + len ≤ (g.first + g.size) * unitOf space

/-- Space codes (R76). -/
def Space.code : Space → Nat
  | .mem => 0
  | .shade => 1
  | .tile => 2
  | .csr => 3

/-- The region that governs a span of this node: its entry number (R86). -/
def Dev.regionOf (s : Dev) (space a len : Nat) : Option Nat :=
  (List.range 64).find? (fun n => (s.region n).contains space a len && !((s.region n).reflection))

/-- The reflection region that governs a span of another node (R643). -/
def Dev.reflRegionOf (s : Dev) (node a len : Nat) : Option Nat :=
  (List.range 64).find? (fun n =>
    let g := s.region n
    g.contains 0 a len && g.reflection && g.nodeFirst ≤ node && node ≤ g.nodeLast)

/-- Rights of an access entry granted to an agent with a hue (R92, R93). -/
def rightsFor (acc agent hue : Nat) : Nat :=
  let rights := bitsOf acc 55 48
  if bitAt acc agent && agent < 48 && (bitsOf acc 63 56 == hue || bitAt rights 7) then rights else 0

/-- Whether some access entry of a region grants an agent every right of a mask for a hue (R93). -/
def Region.grants (g : Region) (agent hue need : Nat) : Bool :=
  g.accesses.any (fun a => rightsFor a agent hue &&& need == need && rightsFor a agent hue != 0)

/-! ### Home slice and device offset (R98) -/

/-- Page r, counted from 0, of the pages from q on whose number is not s modulo n; any n pages in a row hold n - 1
of them. -/
def skipParity (n s : Nat) : Nat → Nat → Nat → Nat
  | 0, q, _ => q
  | fuel + 1, q, r =>
    if q % n == s then skipParity n s fuel (q + 1) r
    else if r == 0 then q
    else skipParity n s fuel (q + 1) (r - 1)

/-- Home slice and device offset of a MEM address in a region of a set of n slices (R98). -/
def homeOf (a : Nat) (g : Region) (n : Nat) : Nat × Nat :=
  let o := a - g.first * 0x200000
  let k := o / 4096
  let b := g.devBase * 512
  let pg := o % 4096
  if g.interleave == 0 && !g.shadowed then (k % n, (b + k / n) * 4096 + pg)
  else if g.interleave == 0 then
    let q := b + k / (n - 1)
    ((q % n + 1 + k % (n - 1)) % n, q * 4096 + pg)
  else if !g.shadowed then (g.home, (b + k) * 4096 + pg)
  else
    let q := skipParity n g.home (2 * n) (b + k / (n - 1) * n) (k % (n - 1))
    (g.home, q * 4096 + pg)

/-- Facet group of a device offset (R99). -/
def facetGroup (d salt : Nat) : Nat :=
  let t := d / 1024
  let c := fun i => (t >>> (6 * i)) % 64
  let r := fun i => (salt >>> (3 * i)) % 8
  c 0 ^^^ rotl6 (c 1) (r 0) ^^^ rotl6 (c 2) (r 1) ^^^ rotl6 (c 3) (r 2) ^^^ rotl6 (c 4) (r 3)

/-- Parity slice of a device page (R97). -/
def paritySlice (d n : Nat) : Nat := (d / 4096) % n

/-! ### DRAM places (R100, R544, R546) -/

/-- Stack, channel and pseudo-channel of a device offset of a facet group, and its byte there (R100). -/
def stackOf (grp : Nat) : Nat := grp / 32
def channelOf (grp : Nat) : Nat := grp % 32
def pcOf (d : Nat) : Nat := (d / 512) % 2
def pcByte (d : Nat) : Nat := (d / 65536) * 512 + d % 512

/-- Pseudo-channel number 0 to 127 of a slice: facet group and d[9]. -/
def pcNumber (grp d : Nat) : Nat := 2 * grp + pcOf d

/-- Bank, row and column of a byte of a pseudo-channel (R544). -/
def locate (b : Nat) : Nat × Nat × Nat :=
  let u := b / 512
  (u % 64, u / 1024, ((u / 64) % 16) * 8 + (b / 64) % 8)

/-- The folded address of a sub-block as originally addressed (R546). -/
def foldedAddress (grp d : Nat) : Nat :=
  let l := locate (pcByte d)
  stackOf grp * 2 ^ 31 + channelOf grp * 2 ^ 26 + pcOf d * 2 ^ 25 + l.1 * 2 ^ 19 + l.2.1 * 2 ^ 7 + l.2.2

/-- Bytes of device space: 91,552 chunks of 2 MiB (R95). -/
def deviceEnd : Nat := 91552 * 0x200000

/-! ### Cache and directory places (R116, R117, R207) -/

/-- Set index and tag of a device offset (R116). -/
def setIndex (d : Nat) : Nat := ((d / 65536) % 512) * 4 + (d / 256) % 4
def tagOf (d : Nat) : Nat := d / 1024 / 32768

/-- Directory set index and tag (R207). -/
def dirSet (d : Nat) : Nat := ((d / 65536) % 256) * 16 + (d / 64) % 16
def dirTag (d : Nat) : Nat := d / 1024 / 16384

/-- The place of a device offset of a facet group, in the lines of this slice's own addresses. -/
def Dev.placeAt (s : Dev) (grp d : Nat) (shadowed : Bool) : Place :=
  { kind := .own, facet := s.fuse.owner grp, grp := grp, group := s.fuse.owner grp != grp, d := d / 64 * 64,
    tag := BitVec.ofNat 24 (tagOf d), shadowed := shadowed }

/-- The place of a device offset of a lost slice that this slice serves (R115, R621). -/
def Dev.adoptedPlaceAt (s : Dev) (grp d : Nat) (shadowed : Bool) : Place :=
  { s.placeAt grp d shadowed with kind := .adopted }

/-- Home slice and place of a reflection address (R646): a the LOCAL address, g the region entry and idx its number.
-/
def Dev.reflPlace (s : Dev) (g : Region) (a idx node n : Nat) (hue : Hue) : Nat × Place :=
  let p := (node - g.nodeFirst) * g.size * 0x200000 + (a - g.first * 0x200000)
  let k := p / 4096
  let d := (k / n) * 4096 + p % 4096
  let grp := facetGroup d g.salt
  (k % n, { kind := .refl hue, facet := s.fuse.owner grp, grp := grp, group := s.fuse.owner grp != grp,
            d := d / 64 * 64, tag := BitVec.ofNat 24 (idx * 2 ^ 18 + d / 2 ^ 25), shadowed := false })

/-- The granule a place names: the same kind, facet, group and sector-in-tag, and sub-block. -/
def Place.same (p q : Place) : Bool :=
  p.kind == q.kind && p.facet == q.facet && p.grp == q.grp && p.d == q.d && p.tag == q.tag

/-- Two places in one 256 B sector. -/
def Place.sameSector (p q : Place) : Bool :=
  p.kind == q.kind && p.facet == q.facet && p.grp == q.grp && p.d / 256 == q.d / 256 && p.tag == q.tag

/-- Sub-block of a place in its sector (R110). -/
def Place.sub (p : Place) : Nat := (p.d / 64) % 4

/-- Cache set of a place; a reflection line uses the same bits of its facet offset (R116, R646). -/
def Place.set (p : Place) : Nat := setIndex p.d

/-! ### Shade and tile-store places (R173 to R179) -/

/-- Enabled facets of a die half (R173). -/
def Fuse.half (u : Fuse) (h : Nat) : List Nat := u.facets.filter (fun f => f / 32 == h)

/-- Fields of the partition word (R174). -/
def Dev.partition (s : Dev) : Nat := s.reg R.fctPartition
def partMirror (w : Nat) : Nat := bitsOf w 35 32
def partShade (w h : Nat) : Nat := if h == 0 then bitsOf w 3 0 else bitsOf w 19 16
def partTile (w h : Nat) : Nat := if h == 0 then bitsOf w 7 4 else bitsOf w 23 20
def partRetShade (w h : Nat) : Nat := if h == 0 then bitsOf w 11 8 else bitsOf w 27 24
def partRetTile (w h : Nat) : Nat := if h == 0 then bitsOf w 15 12 else bitsOf w 31 28

/-- Classes of ways (R158). -/
def clsOrdinary : Nat := 0
def clsShade : Nat := 1
def clsTile : Nat := 2
def clsMirror : Nat := 3

/-- Class of way w of a facet of half h under a partition word: from way 15 downward mirror, tile store, Shade, and
ordinary from way 0 upward (R175). -/
def wayClassOf (word h w : Nat) : Nat :=
  let m := partMirror word
  let t := partTile word h
  let sh := partShade word h
  if 16 ≤ w + m then clsMirror
  else if 16 ≤ w + m + t then clsTile
  else if 16 ≤ w + m + t + sh then clsShade
  else clsOrdinary

/-- Class of a way of a facet in force (R175); every way is ordinary before an image's partition. -/
def Dev.wayClass (s : Dev) (f w : Nat) : Nat := wayClassOf s.partition (f / 32) w

/-- Ways of a facet of a class, ascending. -/
def Dev.waysOf (s : Dev) (f cls : Nat) : List Nat := (List.range 16).filter (fun w => s.wayClass f w == cls)

/-- Bytes of a half's Shade or tile store that the partition builds (R178). -/
def Dev.storeExtent (s : Dev) (cls h : Nat) : Nat :=
  (s.fuse.half h).length * (if cls == clsShade then partShade s.partition h else partTile s.partition h) * 0x80000

/-- Facet, way, set and byte of an offset of a half's store (R179). -/
def Dev.storePlace (s : Dev) (cls h x : Nat) : Nat × Nat × Nat × Nat :=
  let u := x / 1024
  let fs := s.fuse.half h
  let f := fs.getD (u % fs.length) 0
  let j := u / fs.length
  let w := (s.waysOf f cls).getD (j / 512) 0
  (f, w, (j % 512) * 4 + (x / 256) % 4, x % 256)

/-- Where an offset of the SHADE or TILE window lies (R79, R178). -/
inductive Window where
  | store (cls half offset : Nat)
  | acc (engine : Nat) (byte : Nat)
  | outside
deriving DecidableEq, Repr

/-- What a window offset names: a built store byte, an accumulator file's byte, or nothing (R79, R178). -/
def Dev.windowOf (s : Dev) (sp : Space) (x : Nat) : Window :=
  match sp with
  | .shade =>
    let h := x / 0x10000000
    if h < 2 && x % 0x10000000 < s.storeExtent clsShade h then .store clsShade h (x % 0x10000000) else .outside
  | .tile =>
    if x < 0x10000000 then
      let h := x / 0x8000000
      if x % 0x8000000 < s.storeExtent clsTile h then .store clsTile h (x % 0x8000000) else .outside
    else
      let y := x - 0x10000000
      if y < 4 * 0x20000 then .acc (y / 0x20000) (y % 0x20000) else .outside
  | _ => .outside

/-! ### Topology (R514) -/

/-- Agent record of an agent ID (R514). -/
def Dev.agentRec (s : Dev) (a : Nat) : Nat := if a < 48 then byteAt s.img.force.topology (448 + a) else 0

/-- Whether the topology marks an agent VALID and CACHING (R514). -/
def Dev.caching (s : Dev) (a : Nat) : Bool := bitAt (s.agentRec a) 7 && bitAt (s.agentRec a) 6

/-- Agent class A0 to A3 of an agent (R113). -/
def Dev.agentClass (s : Dev) (a : Nat) : Nat := bitsOf (s.agentRec a) 5 4

/-- Whether an agent is fenced (R261, R272). -/
def Dev.fenced (s : Dev) (a : Nat) : Bool := a < 48 && bitAt (s.get F.fctFence_MASK) a

/-- Every caching agent of the set that is not fenced (R223, R261). -/
def Dev.cachers (s : Dev) : List Agent :=
  ((List.range 48).filter (fun a => s.caching a && !s.fenced a)).map (BitVec.ofNat 6)

/-- PWK_CFG value that the topology gives port k of position p (R514). -/
def portRecord (topology : List Byte) (p k : Nat) : Nat := leAt topology (64 + 48 * p + 8 * k) 8

/-- Agent IDs of a PWK_CFG value (R491). -/
def cfgAgents (w : Nat) : List Nat :=
  if bitsOf w 33 32 == 2 then (List.range (min 4 (bitsOf w 28 26))).map (fun i => bitsOf w (6 * i + 5) (6 * i)) else []

/-- Whether the home of the lost slice's addresses is this slice (R620). -/
def Dev.adopting (s : Dev) : Bool := s.on F.shdStatus_ADOPTING

/-- Whether a position is held lost (R636). -/
def Dev.isLost (s : Dev) (p : Nat) : Bool := bitAt (s.get F.shdStatus_LOST) p

/-- Whether the messages of slice q are discarded: another slice that is held lost (R619). -/
def Dev.deaf (s : Dev) (q : Nat) : Bool := q != s.pos && s.isLost q

/-- Whether the messages of agent a are discarded: it is fenced (R261), or it is another slice that is held lost (R619). -/
def Dev.discards (s : Dev) (a : Nat) : Bool := s.fenced a || (56 ≤ a && s.deaf (a - 56))

/-- Slices that discovery or the image gives the set. -/
def Dev.setCount (s : Dev) : Nat :=
  if s.setSize != 0 then s.setSize
  else if bitAt s.links.disc.toNat 63 then popCount 8 (bitsOf s.links.disc.toNat 31 24) else 0

/-- The live positions of the set. -/
def Dev.livePositions (s : Dev) : List Nat := (List.range s.setSize).filter (fun p => !s.isLost p)

/-- The leader's position (R58, R69). -/
def Dev.leader (s : Dev) : Nat := s.get F.frmConfig_LEADER

/-- Whether this slice is the leader. -/
def Dev.isLeader (s : Dev) : Bool := s.leader == s.pos

end Sys2Proof.Machine
end

