-- ==== Sys2Proof/Machine/Codes.lean ====
section
/-! DEFINITION. The codes that guard stored and sent bits: the stack's Reed-Solomon code (R557 to R560), the tag and
directory entries and their checks (R118, R134, R208 to R212), and CRC-32C (R471). -/

namespace Sys2Proof.Machine

/-! ### GF(2^8) with x^8 + x^4 + x^3 + x^2 + 1 (R557) -/

/-- Product in the field: n steps of shift and reduce. -/
def gfMulFrom : Nat → Nat → Nat → Nat
  | 0, _, _ => 0
  | n + 1, a, b =>
    let rest := gfMulFrom n (if a ≥ 128 then ((a * 2) ^^^ 0x11D) else a * 2) (b / 2)
    if b % 2 == 1 then a ^^^ rest else rest

def gfMul (a b : Nat) : Nat := gfMulFrom 8 a b

/-- a to the power n, by repeated squaring over 8 bits of n. -/
def gfPowFrom : Nat → Nat → Nat → Nat
  | 0, _, _ => 1
  | k + 1, a, n =>
    let rest := gfPowFrom k (gfMul a a) (n / 2)
    if n % 2 == 1 then gfMul a rest else rest

def gfPow (a n : Nat) : Nat := gfPowFrom 8 a (n % 255)

/-- The inverse of a non-zero element. -/
def gfInv (a : Nat) : Nat := gfPow a 254

/-- α^p. -/
def gfAlpha (p : Nat) : Nat := gfPow 2 p

/-! ### Decoding (R560) -/

/-- Outcomes of a read (R560). -/
inductive RsOutcome where
  | ok | corrected | poison | address | uncorrectable
deriving DecidableEq, Repr

/-- Syndromes of a list of symbol errors (position, value), powers 0 to 7. -/
def syndromes (errs : List (Nat × Nat)) : List Nat :=
  (List.range 8).map (fun j => errs.foldl (fun a e => a ^^^ gfMul e.2 (gfAlpha (j * e.1))) 0)

/-- Solves a sequence of syndromes, from power base on, with at most two errors below position lim: the errors. -/
def solveTwo (s : List Nat) (base lim : Nat) : Option (List (Nat × Nat)) :=
  let g := fun i => s.getD i 0
  if s.all (fun x => x == 0) then some []
  else
    let unweight := fun (p w : Nat) => gfMul w (gfInv (gfPow (gfAlpha p) base))
    let det := gfMul (g 1) (g 1) ^^^ gfMul (g 0) (g 2)
    if det == 0 then
      if g 0 == 0 then none
      else
        let x := gfMul (g 1) (gfInv (g 0))
        if (List.range (s.length - 1)).all (fun i => g (i + 1) == gfMul (g i) x) then
          match (List.range lim).find? (fun p => gfAlpha p == x) with
          | some p => some [(p, unweight p (g 0))]
          | none => none
        else none
    else
      let di := gfInv det
      let s1 := gfMul (gfMul (g 0) (g 3) ^^^ gfMul (g 1) (g 2)) di
      let s2 := gfMul (gfMul (g 1) (g 3) ^^^ gfMul (g 2) (g 2)) di
      if (List.range (s.length - 2)).all (fun i => g (i + 2) == (gfMul s1 (g (i + 1)) ^^^ gfMul s2 (g i))) then
        let roots := (List.range lim).filter (fun p =>
          let x := gfAlpha p
          (gfMul x x ^^^ gfMul s1 x ^^^ s2) == 0)
        match roots with
        | [p, q] =>
          let x := gfAlpha p
          let y := gfAlpha q
          let w := gfMul (g 1 ^^^ gfMul (g 0) x) (gfInv (x ^^^ y))
          some [(p, unweight p (g 0 ^^^ w)), (q, unweight q w)]
        | _ => none
      else none

/-- Syndromes with the address positions 72 to 75 as erasures: the coefficients 4 to 7 of the syndromes times the
erasure locator (step 4 of R560). -/
def erasedSyndromes (s : List Nat) : List Nat :=
  [72, 73, 74, 75].foldl (fun l p =>
    let x := gfAlpha p
    ((l.drop 1).zip l).map (fun ab => ab.1 ^^^ gfMul x ab.2)) s

/-- Classifies a read whose syndromes, with the expected address and m68 = 0, are s: the outcome and the symbols that
the decoder corrects (R560). -/
def classify (s : List Nat) : RsOutcome × List (Nat × Nat) :=
  match solveTwo s 0 77 with
  | some [] => (.ok, [])
  | some es =>
    if es.all (fun e => e.1 < 72) then (.corrected, es)
    else if es.any (fun e => e == (76, 1)) && (es.filter (fun e => e.1 != 76)).all (fun e => e.1 < 72) then (.poison, [])
    else (.address, [])
  | none =>
    let s1 := ((List.range 8).map (fun j => s.getD j 0 ^^^ gfAlpha (j * 76)))
    match solveTwo s1 0 72 with
    | some _ => (.poison, [])
    | none =>
      match solveTwo (erasedSyndromes s) 4 72 with
      | some _ => (.address, [])
      | none => (.uncorrectable, [])

/-- The symbol errors of a command operand, as positions and values. -/
def symErrs (l : List SymErr) : List (Nat × Nat) := l.map (fun e => (e.pos.val, e.val.toNat))

/-- The XOR on the 64 data bytes that a list of symbols at positions 8 to 71 makes. -/
def dataDelta (l : List (Nat × Nat)) : Nat :=
  l.foldl (fun a e => if 8 ≤ e.1 && e.1 < 72 then a ^^^ (e.2 * 2 ^ (8 * (e.1 - 8))) else a) 0

/-- Decodes a read of a sub-block: what is stored, whether it is the poison code word, and what was read wrong. -/
def decodeRead (stored : Sub) (poison : Bool) (errs : List SymErr) : RsOutcome × Sub :=
  let es := symErrs errs
  let r := classify (syndromes (if poison then (76, 1) :: es else es))
  (r.1, BitVec.ofNat 512 (stored.toNat ^^^ dataDelta es ^^^ dataDelta r.2))

/-! ### Tag entries (R118, R134) -/

/-- Bits [46:0] of a line's tag entry (R118). -/
def tagBits (l : Line) : Nat :=
  l.tag.toNat + b2n l.group * 2 ^ 34 + b2n l.shd * 2 ^ 35 + b2n l.refl * 2 ^ 36 + l.valid.toNat * 2 ^ 37
    + l.dirty.toNat * 2 ^ 41 + l.age.toNat * 2 ^ 45

/-- An entry with its even parity bit over [46:0] (R118). -/
def tagEntry (l : Line) : Nat := tagBits l + b2n (parityOf 47 (tagBits l)) * 2 ^ 47

/-- Whether an entry passes even parity over all 48 bits. -/
def tagPasses (e : Nat) : Bool := !parityOf 48 e

/-- What a check of two copies finds: both good, one repaired, sharers lost (a flare), or the entry lost. -/
inductive CopyCheck where
  | good | repaired | flared | lost
deriving DecidableEq, Repr

/-- Checks two copies of a tag entry (R134). -/
def checkTag (a b : Nat) : CopyCheck :=
  if tagPasses a && tagPasses b then (if a == b then .good else .lost)
  else if tagPasses a || tagPasses b then .repaired
  else .lost

/-! ### Directory entries (R208 to R212) -/

/-- STATE and FLARE of a home state (R209). -/
def HomeState.code : HomeState → Nat × Nat
  | .shared _ => (1, 0)
  | .flare => (1, 1)
  | .excl _ => (2, 0)
  | .owned _ _ => (3, 0)
  | .ownedFlare _ => (3, 1)

/-- Pointers PTR0 upward of a home state (R209; log entry 14). -/
def HomeState.ptrs : HomeState → List Agent
  | .shared p => p
  | .flare => []
  | .excl o => [o]
  | .owned o p => o :: p
  | .ownedFlare o => [o]

/-- Bits [47:0] of a directory entry (R208). -/
def dirBits (e : DirEntry) : Nat :=
  let ps := e.st.ptrs.take 4
  e.tag.toNat + b2n e.group * 2 ^ 14
    + ((ps.zipIdx).foldl (fun a p => a + p.1.toNat * 2 ^ (16 + 6 * p.2) + 2 ^ (40 + p.2)) 0)
    + e.st.code.2 * 2 ^ 44 + e.st.code.1 * 2 ^ 45

/-- Parity of the state part and of the pointer part of an entry (R208). -/
def dirParS (w : Nat) : Bool := parityOf 4 (bitsOf w 47 44) != parityOf 16 (bitsOf w 15 0)
def dirParP (w : Nat) : Bool := parityOf 28 (bitsOf w 43 16)

/-- A directory entry with its two parity bits (R208). -/
def dirWord (e : DirEntry) : Nat :=
  let w := dirBits e
  w + b2n (dirParP w) * 2 ^ 48 + b2n (dirParS w) * 2 ^ 49

/-- Whether a copy passes PAR_S and PAR_P. -/
def dirPassesS (w : Nat) : Bool := dirParS w == bitAt w 49
def dirPassesP (w : Nat) : Bool := dirParP w == bitAt w 48
def dirPasses (w : Nat) : Bool := dirPassesS w && dirPassesP w

/-- Checks two copies of a directory entry (R211, R212). -/
def checkDir (a b : Nat) : CopyCheck :=
  if dirPasses a && dirPasses b && a == b then .good
  else if dirPasses a != dirPasses b then .repaired
  else if dirPassesS a && dirPassesS b && bitsOf a 47 44 == bitsOf b 47 44 && bitsOf a 15 0 == bitsOf b 15 0 &&
      bitsOf a 47 45 == 1 then .flared
  else .lost

/-! ### CRC-32C (R471) -/

/-- The reflected CRC register over n bits of a natural, lowest first: each byte's lowest bit goes first. -/
def crcBits : Nat → Nat → Nat → Nat
  | 0, _, c => c
  | n + 1, v, c => if (c ^^^ v) % 2 == 1 then crcBits n (v / 2) ((c / 2) ^^^ 0x82F63B78) else crcBits n (v / 2) (c / 2)

/-- CRC-32C over bytes [255:4] of a flit (R458, R471). -/
def flitCrc (f : Flit) : Nat := crcBits 2016 (f.toNat / 2 ^ 32) 0xFFFFFFFF ^^^ 0xFFFFFFFF

end Sys2Proof.Machine
end

