-- ==== Sys2Proof/Machine/Respond.lean ====
section
/-! DEFINITION. The request table and its responses: codes and data per 64 B, one message per 1 KiB unit (R137, R235,
R467), NAK and tickets (R247 to R256). -/

namespace Sys2Proof

/-! ### Operations and requests -/

/-- Whether an operation carries write data that the home pulls (R468). -/
def Op.pulls (op : Op) : Bool :=
  match op with
  | .write => true
  | .writeBack => true
  | .atomic => true
  | .farAtomic => true
  | .reduceStore => true
  | _ => false

/-- Whether an operation reads without changing anything. -/
def Op.isRead (op : Op) : Bool :=
  match op with
  | .readOnce => true
  | .readOnceNofill => true
  | .readShared => true
  | .readUnique => true
  | _ => false

/-- Whether an operation asks for a grant (R221). -/
def Op.grants (op : Op) : Bool :=
  match op with
  | .readShared => true
  | .readUnique => true
  | .claim => true
  | _ => false

/-- Opcode of an operation (R218). -/
def Op.code (op : Op) : Nat :=
  match op with
  | .readShared => 0x00
  | .readUnique => 0x01
  | .claim => 0x02
  | .readOnce => 0x03
  | .readOnceNofill => 0x04
  | .write => 0x05
  | .writeBack => 0x06
  | .darken => 0x07
  | .clean => 0x08
  | .invalidate => 0x09
  | .cleanInvalidate => 0x0A
  | .atomic => 0x0B
  | .farAtomic => 0x0C
  | .reduceStore => 0x0D

/-- Rights an operation needs (R218, R153). -/
def Op.rights (op : Op) : Nat :=
  match op with
  | .readShared => 1
  | .readUnique => 3
  | .claim => 3
  | .readOnce => 1
  | .readOnceNofill => 1
  | .write => 2
  | .writeBack => 2
  | .darken => 2
  | .clean => 8
  | .invalidate => 10
  | .cleanInvalidate => 10
  | .atomic => 4
  | .farAtomic => 4
  | .reduceStore => 4

/-- Bytes of a request's span. -/
def Request.bytes (r : Request) : Nat := (r.len.toNat + 1) * 64

/-- LOCAL address of a request (R80). -/
def Request.localAddr (r : Request) : Nat := Machine.bitsOf r.addr.toNat 47 0

/-- Node ID of a request (R80, R81). -/
def Request.node (r : Request) : Nat := Machine.bitsOf r.addr.toNat 63 48

end Sys2Proof

namespace Sys2Proof.Machine

/-! ### Blocks of typed regions, as views name them (R301, R308) -/

/-- Payload bytes of a block of a format, and blocks per 1 KiB data unit (R301). -/
def payloadBytes (fmt : Nat) : Nat := if fmt == 1 then 128 else if isWide fmt then 64 else 4 * elemBits fmt
def unitBlocks (fmt : Nat) : Nat := 1024 / payloadBytes fmt

/-- Region offset of the payload of block n (R301). -/
def blockOffset (fmt n : Nat) : Nat := n / unitBlocks fmt * 1024 + n % unitBlocks fmt * payloadBytes fmt

/-- The blocks that lie wholly in a span of region offsets, ascending (R308). -/
def blocksIn (fmt o len : Nat) : List Nat :=
  let b := unitBlocks fmt
  let u0 := o / 1024
  let units := (o + len - 1) / 1024 + 1 - u0
  ((List.range units).flatMap (fun i => (List.range b).map (fun k => (u0 + i) * b + k))).filter (fun n =>
    o ≤ blockOffset fmt n && blockOffset fmt n + payloadBytes fmt ≤ o + len)

/-! ### Entries of the request table -/

/-- Region offset of a request's span. -/
def ReqEntry.spanOffset (e : ReqEntry) : Nat := e.r.localAddr - e.rgn.first * 0x200000

/-- The blocks of a wide-VIEW request (R308). -/
def ReqEntry.blocks (e : ReqEntry) : List Nat := blocksIn e.rgn.format e.spanOffset e.r.bytes

/-- Bytes of one block in a view. -/
def viewBytes (view : Nat) : Nat := if view == 1 then 128 else 64


/-- The request of an identity. -/
def Dev.req (s : Dev) (id : Nat) : Option ReqEntry := s.cache.reqs.find? (fun e => e.id == id)

/-- Changes one request. -/
def Dev.updReq (s : Dev) (id : Nat) (f : ReqEntry → ReqEntry) : Dev :=
  { s with cache.reqs := s.cache.reqs.map (fun e => if e.id == id then f e else e) }

/-- Removes one request. -/
def Dev.dropReq (s : Dev) (id : Nat) : Dev := { s with cache.reqs := s.cache.reqs.filter (fun e => e.id != id) }

/-- Whether a request takes a request-table entry: MEM requests only (R137). -/
def ReqEntry.counted (e : ReqEntry) : Bool := e.r.space == .mem

/-- Request table entries in use (R137, R171). -/
def Dev.occupancy (s : Dev) : Nat := (s.cache.reqs.filter ReqEntry.counted).length

/-- Whether a request is a read through a wide view (R308). -/
def ReqEntry.viewRead (e : ReqEntry) : Bool := e.op.isRead && e.r.view != 0

/-- The response message that carries answer i of a request: 1 KiB units of the span, or of the view data (R467). -/
def ReqEntry.unitOf (e : ReqEntry) (i : Nat) : Nat :=
  if e.viewRead then i / 16 else (e.r.localAddr % 1024 + 64 * i) / 1024

/-- The part of a request that a granule of its span belongs to: one per 1 KiB unit (R107). -/
def ReqEntry.partOf (e : ReqEntry) (i : Nat) : Nat := (e.r.localAddr % 1024 + 64 * i) / 1024

/-- The data of a code: zeros unless OK (R235). -/
def codeData (c : Code) (d : Sub) : Sub := if c == .ok then d else 0

/-- Sends a response, unless the requester is fenced (R261). -/
def Dev.respond (s : Dev) (dst : Agent) (txid : BitVec 12) (off : Nat) (codes : List Code) (grant : BitVec 2)
    (ticket : BitVec 16) (data : List Sub) : Dev :=
  if s.fenced dst.toNat then s else s.send (.resp dst txid off codes grant ticket data)

/-- Notes that the response just sent answers an urgent request (R481). -/
def Dev.noteUrgent (s : Dev) (r : Request) : Dev :=
  if r.urgent then { s with links.urgent := s.links.urgent ++ [s.outbox.length - 1] } else s

/-- Whether a request is one through a wide view (R308). -/
def ReqEntry.viewed (e : ReqEntry) : Bool := e.r.view != 0

/-- The part that a block's payload lies in: no block is split between two (R107, R301). -/
def ReqEntry.blockPart (e : ReqEntry) (n : Nat) : Nat :=
  (e.r.localAddr % 1024 + (blockOffset e.rgn.format n - e.spanOffset)) / 1024

/-- The part that answer i belongs to: of the block that it is view data of, for a wide-VIEW read (R107, R467). -/
def ReqEntry.answerPart (e : ReqEntry) (i : Nat) : Nat :=
  if e.viewRead then e.blockPart (e.blocks.getD (i / (viewBytes e.r.view.toNat / 64)) 0) else e.partOf i

/-- The granules of a part, by index of the stored span, and its answers. -/
def ReqEntry.granulesOf (e : ReqEntry) (u : Nat) : List Nat :=
  (List.range (e.r.len.toNat + 1)).filter (fun i => e.partOf i == u)
def ReqEntry.answersOf (e : ReqEntry) (u : Nat) : List Nat := (List.range e.n).filter (fun i => e.answerPart i == u)

/-- The index under which the granule of index i starts and parks: its own, or that of its part's first granule for a request
through a wide view, whose parts are each served as one (R315). -/
def ReqEntry.entryOf (e : ReqEntry) (i : Nat) : Nat := if e.viewed then (e.granulesOf (e.partOf i)).headD i else i

/-- Sends the message of one unit of a request whose answers are all there. It carries the ticket of the first part in it that was
answered NAK (log entry 93). -/
def Dev.sendUnit (s : Dev) (e : ReqEntry) (u : Nat) : Dev :=
  let idx := (List.range e.n).filter (fun i => e.unitOf i == u)
  let codes := idx.map (fun i => (e.codes.getD i none).getD .poison)
  let data := if e.onDat then idx.map (fun i => codeData ((e.codes.getD i none).getD .poison) (e.data.getD i 0)) else []
  let ticket := (idx.findSome? (fun i => if e.codes.getD i none == some .nak then
    (e.naks.find? (fun k => k.1 == e.answerPart i)).map Prod.snd else none)).getD 0
  (s.respond e.r.src e.r.txid (idx.headD 0) codes e.grant ticket data).noteUrgent e.r

/-- Whether answer i is still owed. -/
def ReqEntry.owes (e : ReqEntry) (i : Nat) : Bool := (e.codes.getD i none).isNone

/-- Units of a request whose every answer is there and that have not been sent. A wide-VIEW write's, but for one answered NAK, wait
until every block of the span is done (R316). -/
def ReqEntry.ready (e : ReqEntry) : List Nat :=
  let us := ((List.range e.n).map e.unitOf).eraseDups
  let all := !e.viewed || e.viewRead || (List.range e.n).all (fun i => !e.owes i)
  us.filter (fun u => !e.sent.contains u &&
    (List.range e.n).all (fun i => e.unitOf i != u || if all then !e.owes i else e.codes.getD i none == some .nak))

/-- Ends an urgent request of an agent port (R497). -/
def Dev.urgentDone (s : Dev) (r : Request) : Dev :=
  match r.via with
  | .agentPort p =>
    if r.urgent then s.put (F.pwkUrg_OUTSTANDING p) (s.get (F.pwkUrg_OUTSTANDING p) - 1) else s
  | _ => s

/-- Ends the holds that wait for the responses of some units of a request to leave (R241). -/
def Dev.endHolds (s : Dev) (e : ReqEntry) (us : List Nat) : Dev :=
  { s with cache.txns := s.cache.txns.filter (fun t => !(t.stage == .leave &&
      match t.cause with
      | .request id i => id == e.id && us.contains (e.unitOf i)
      | _ => false)) }

/-- Sends what is ready of a request, whose holds end with it, and frees its entry when its last response leaves (R137,
R241). -/
def Dev.flush (s : Dev) (id : Nat) : Dev :=
  match s.req id with
  | none => s
  | some e =>
    let us := e.ready
    let s1 := (s.each us (fun s u => s.sendUnit e u)).endHolds e us
    let sent := e.sent ++ us
    if (List.range e.n).all (fun i => sent.contains (e.unitOf i)) then (s1.dropReq id).urgentDone e.r
    else s1.updReq id (fun e => { e with sent := sent })

/-- Gives answer i of a request. -/
def Dev.answer (s : Dev) (id i : Nat) (c : Code) (data : Option Sub) : Dev :=
  s.updReq id (fun e =>
    { e with
      codes := e.codes.set i (some c)
      data := e.data.set i (data.getD 0)
      onDat := e.onDat || data.isSome })

/-- Gives answer i and sends what is then ready. -/
def Dev.finish (s : Dev) (id i : Nat) (c : Code) (data : Option Sub) : Dev := (s.answer id i c data).flush id

/-- Gives one code to every answer a request still owes. -/
def Dev.answerRest (s : Dev) (id : Nat) (c : Code) : Dev :=
  match s.req id with
  | none => s
  | some e => (s.each ((List.range e.n).filter e.owes) (fun s i => s.answer id i c none)).flush id

/-! ### Tickets (R247 to R256) -/

/-- Whether the set runs in NAK mode (R245, R271). -/
def Dev.nakMode (s : Dev) : Bool := s.on F.fctCohCfg_MODE

/-- Tickets a facet's table holds. -/
def Dev.ticketsOf (s : Dev) (f : Nat) : List Ticket := s.cache.tickets.filter (fun t => t.facet == f)

/-- Ticket a is earlier than ticket b (R251). -/
def earlier (a b : BitVec 16) : Bool :=
  let k := (b - a).toNat
  1 ≤ k && k ≤ 32767

/-- The table's entry of a ticket. -/
def Dev.ticket (s : Dev) (f : Nat) (t : BitVec 16) : Option Ticket :=
  (s.ticketsOf f).find? (fun e => e.ticket == t)

/-- Drops a ticket. -/
def Dev.dropTicket (s : Dev) (f : Nat) (t : BitVec 16) : Dev :=
  { s with cache.tickets := s.cache.tickets.filter (fun e => !(e.facet == f && e.ticket == t)) }

/-- Whether a bound is one of R142, R214 or R568 that a part is answered NAK for in NAK mode (R143). -/
def Bound.naks (b : Bound) : Bool :=
  match b with
  | .blockReset => false
  | .data => false
  | .order => false
  | _ => true

/-- Whether a part in an ingress list has not come to its facet yet: its write data is awaited, or a block reset keeps it out (R468,
R747). -/
def Parked.outside (k : Parked) : Bool := k.bound == .blockReset || k.bound == .data || k.bound == .order

/-- The 1 KiB parts in a facet's ingress list, but for those that await their write data (R107, R138, R160). -/
def Dev.parkedParts (s : Dev) (f : Nat) : List (Nat × Nat) :=
  ((s.cache.parked.filter (fun p => p.facet == f && p.bound != .data)).map (fun p =>
    (p.reqId, ((s.req p.reqId).map (fun e => e.partOf p.index)).getD p.index))).eraseDups

/-- Parks a part at a facet (R138, R142); one that is parked keeps its place. -/
def Dev.park (s : Dev) (f id i : Nat) (b : Bound) : Dev :=
  if s.cache.parked.any (fun p => p.reqId == id && p.index == i) then
    { s with cache.parked := s.cache.parked.map (fun p => if p.reqId == id && p.index == i then { p with bound := b } else p) }
  else { s with cache.parked := s.cache.parked ++
    [{ facet := f, reqId := id, index := i, bound := b, urgent := false, reentered := false }] }

/-- Removes a parked part. -/
def Dev.unpark (s : Dev) (id i : Nat) : Dev :=
  { s with cache.parked := s.cache.parked.filter (fun p => !(p.reqId == id && p.index == i)) }

/-- Answers the part of index i of a request NAK (R143, R248, R254, R256): with the ticket its part already has, with the ticket
the request carries, or with the facet's next ticket. d: the granule that names the bound instance. -/
def Dev.nakWith (s0 : Dev) (f : Nat) (e : ReqEntry) (i : Nat) (d : Nat) (b : Bound) : Dev :=
  let s := s0.unpark e.id (e.entryOf i)
  let u := e.partOf i
  let give := fun (s : Dev) => (s.each (if e.viewed then e.answersOf u else [i]) (fun s k => s.answer e.id k .nak none)).flush e.id
  let entry := fun (t : BitVec 16) (since : Nat) =>
    ({ facet := f, ticket := t, agent := e.r.src, d := d, bound := b, txid := e.r.txid, reserved := false
       since := since } : Ticket)
  let put := fun (s : Dev) (k : Ticket) => give
    (({ s with cache.tickets := s.cache.tickets.filter (fun (x : Ticket) => !(x.facet == f && x.ticket == k.ticket)) ++ [k] }.updReq e.id
      (fun e => { e with naks := (u, k.ticket) :: e.naks })).event evNak f (some e.r.hue))
  match e.naks.find? (fun k => k.1 == u), e.ticket with
  | some _, _ => give s
  | none, some t => put s (entry t (((s.ticket f t).map (fun k => k.since)).getD e.id))
  | none, none =>
    let t := tgetD s.cache.nextTicket f 0
    put { s with cache.nextTicket := tput 0 s.cache.nextTicket f (t + 1) } (entry t e.id)

/-- Whether a part at a bound is answered NAK: in NAK mode, for an agent's request (R143, R245), with a ticket of its own
or a place in the facet's table for one (R249). -/
def Dev.mayNak (s : Dev) (f : Nat) (e : ReqEntry) (i : Nat) : Bool :=
  s.nakMode && e.r.src.toNat < 56 &&
    (e.ticket.isSome || e.naks.any (fun k => k.1 == e.partOf i) || (s.ticketsOf f).length < 128)

/-- A part parks at a bound; one that only a full ticket table keeps from a NAK is counted, once (R249, R274). -/
def Dev.parkAt (s : Dev) (f : Nat) (e : ReqEntry) (i : Nat) (b : Bound) : Dev :=
  let mine := s.cache.parked.any (fun k => k.reqId == e.id && e.partOf k.index == e.partOf i && k.bound.naks)
  (if s.nakMode && e.r.src.toNat < 56 && b.naks && !mine then s.bump (F.fctTicket_FULL f) else s).park f e.id (e.entryOf i) b

/-- What the part of index i of a request does at a bound of R142: it is answered NAK where it may be, and parks otherwise (R143).
Its instance is named by granule d. -/
def Dev.atBound (s : Dev) (f id i d : Nat) (b : Bound) : Dev :=
  match s.req id with
  | none => s
  | some e => if b.naks && s.mayNak f e i then s.nakWith f e i d b else s.parkAt f e i b

/-- Answers every part of a request NAK (R254). -/
def Dev.nakAll (s : Dev) (id f d : Nat) (b : Bound) : Dev :=
  match s.req id with
  | none => s
  | some e => s.each (List.range (e.r.len.toNat + 1)) (fun s i =>
      match s.req id with
      | some e' => if e'.entryOf i == i then s.nakWith f e' i d b else s
      | none => s)

/-- Sends RETRY for a ticket and reserves for it (R252). -/
def Dev.retry (s : Dev) (t : Ticket) : Dev :=
  let s1 := { s with cache.tickets := s.cache.tickets.map (fun (k : Ticket) =>
    if k.facet == t.facet && k.ticket == t.ticket then { k with reserved := true } else k) }
  if s.fenced t.agent.toNat then s1 else s1.send (.retry t.agent t.ticket t.txid)

end Sys2Proof.Machine
end

