-- ==== Sys2Proof/Machine/Arrays.lean ====
section
/-! DEFINITION. The cache and directory arrays: lookup, ages, victims, the victim filter, and the directory's sets
(R110 to R125, R192, R206 to R214, R647). -/

namespace Sys2Proof.Machine

/-! ### Lines -/

/-- Key of a way of a set of a facet. -/
def lineKey (f set way : Nat) : Nat := (f * 2048 + set) * 16 + way

/-- The line of a way. A Shade or tile-store way that is not listed reads as valid zeros or as invalid, as storeRet
and storeRest say of the retained and the other way slots (R188, R190, R191). -/
def Dev.line (s : Dev) (f set way : Nat) : Option Line := tget s.cache.lines (lineKey f set way)

/-- Sets the line of a way; both copies of its tag entry are written, so no bit of them stays upset. -/
def Dev.setLine (s : Dev) (f set way : Nat) (l : Line) : Dev :=
  { s with
    cache.lines := tset s.cache.lines (lineKey f set way) l
    cache.tagUpset := tdel s.cache.tagUpset (lineKey f set way) }

/-- Empties a way, whose tag entry is written with it. -/
def Dev.delLine (s : Dev) (f set way : Nat) : Dev :=
  { s with
    cache.lines := tdel s.cache.lines (lineKey f set way)
    cache.tagUpset := tdel s.cache.tagUpset (lineKey f set way)
    cache.dataBad := s.cache.dataBad.filter (fun e => e.1 / 4 != lineKey f set way) }

/-- A sub-block of a way is written: no error stays in it. -/
def Dev.heal (s : Dev) (f set way i : Nat) : Dev :=
  { s with cache.dataBad := tdel s.cache.dataBad (lineKey f set way * 4 + i) }

/-- Changes the line of a way that holds one; a line left with no valid sub-block and no marker is dropped, and its way's tag
entry then reads as 0 (log entry 90). -/
def Dev.updLine (s : Dev) (f set way : Nat) (g : Line → Line) : Dev :=
  match s.line f set way with
  | none => s
  | some l =>
    let l' := g l
    if l'.valid == 0 && l'.dirty == 0 then s.delLine f set way else s.setLine f set way l'

/-- Whether a hue is LIVE (R659). -/
def Dev.hueState (s : Dev) (h : Nat) : Nat :=
  if h == 0 then 1 else ((s.rfl_.hues[h]?).map (fun e => e.state.toNat)).getD 0

def Dev.hueLive (s : Dev) (h : Nat) : Bool := s.hueState h == 1

/-- Agents that a hue admits (R659, R660): hue 0's mask is its table entry's. -/
def Dev.hueMask (s : Dev) (h : Nat) : Nat := ((s.rfl_.hues[h]?).map (fun e => e.mask.toNat)).getD 0

/-- Whether a line is the line of a place (R115, R117, R647). -/
def Line.matches (l : Line) (p : Place) : Bool :=
  l.tag == p.tag && l.group == p.group &&
    (match p.kind with
     | .refl h => l.refl && l.hue == h
     | _ => !l.refl)

/-- Class of the ways a lookup of a place searches (R112, R115). -/
def Place.searches (p : Place) : Nat :=
  match p.kind with
  | .adopted => clsMirror
  | _ => clsOrdinary

/-- The way and line that hold a place (R115, R647). -/
def Dev.lookup (s : Dev) (p : Place) : Option (Nat × Line) :=
  let live := match p.kind with
    | .refl h => s.hueLive h.toNat
    | _ => true
  if !live then none
  else (s.waysOf p.facet p.searches).findSome? (fun w =>
    match s.line p.facet p.set w with
    | some l => if l.matches p then some (w, l) else none
    | none => none)

/-- Whether sub-block i of a line is valid, dirty, or a darken marker (R110, R119). -/
def Line.isValid (l : Line) (i : Nat) : Bool := bitAt l.valid.toNat i
def Line.isDirty (l : Line) (i : Nat) : Bool := bitAt l.valid.toNat i && bitAt l.dirty.toNat i
def Line.isMarker (l : Line) (i : Nat) : Bool := !bitAt l.valid.toNat i && bitAt l.dirty.toNat i

/-- Dirty valid sub-blocks of a line. -/
def Line.dirtySubs (l : Line) : List Nat := (List.range 4).filter l.isDirty

/-- A line with sub-block i set: data, validity and dirtiness. -/
def Line.setSub (l : Line) (i : Nat) (v d : Bool) (x : Sub) : Line :=
  { l with
    valid := BitVec.ofNat 4 (withBits l.valid.toNat i i (b2n v))
    dirty := BitVec.ofNat 4 (withBits l.dirty.toNat i i (b2n d))
    data := Sector.put l.data i x }

/-- Sub-block i made clean, or invalid. -/
def Line.cleanSub (l : Line) (i : Nat) : Line := { l with dirty := BitVec.ofNat 4 (withBits l.dirty.toNat i i 0) }
def Line.dropSub (l : Line) (i : Nat) : Line :=
  { l with
    valid := BitVec.ofNat 4 (withBits l.valid.toNat i i 0)
    dirty := BitVec.ofNat 4 (withBits l.dirty.toNat i i 0) }

/-- The sub-block of a place as the cache holds it, when valid. -/
def Dev.cached (s : Dev) (p : Place) : Option Sub :=
  match s.lookup p with
  | some (_, l) => if l.isValid p.sub then some (Sector.sub l.data p.sub) else none
  | none => none

/-- Whether the sub-block of a place is dirty in the cache. -/
def Dev.dirtyAt (s : Dev) (p : Place) : Bool :=
  match s.lookup p with
  | some (_, l) => l.isDirty p.sub
  | none => false

/-- Changes the line of a place. -/
def Dev.updAt (s : Dev) (p : Place) (g : Line → Line) : Dev :=
  match s.lookup p with
  | some (w, _) => s.updLine p.facet p.set w g
  | none => s

/-! ### Allocation classes and victims (R113, R120, R121) -/

/-- Allocation classes, in the order of R677. -/
def allocLens : Nat := 4
def allocPrism : Nat := 5
def allocRefl : Nat := 6
def allocMirror : Nat := 7

/-- The way mask of an allocation class (R113, R677), 0 before an image is loaded. -/
def Dev.wayMask (s : Dev) (k : Nat) : Nat := leAt s.img.force.regions (6148 + 2 * k) 2

/-- Ways of a facet's set that a pending fill has reserved (R121). -/
def Dev.reserved (s : Dev) (f set : Nat) : List Nat :=
  (s.cache.plrs.filter (fun p => p.place.facet == f && p.place.set == set)).filterMap (fun p => p.way)

/-- Candidate ways for a fill of a class: its mask, less the reserved ways (R121). -/
def Dev.candidates (s : Dev) (f set k : Nat) : List Nat :=
  let rsv := s.reserved f set
  (onesOf 16 (s.wayMask k)).filter (fun w => !rsv.contains w)

/-- Whether a way has no valid sub-block; markers count as invalid (R121). -/
def Dev.wayEmpty (s : Dev) (f set w : Nat) : Bool :=
  match s.line f set w with
  | some l => l.valid == 0
  | none => true

/-- Age of a way's line. -/
def Dev.wayAge (s : Dev) (f set w : Nat) : Nat := ((s.line f set w).map (fun l => l.age.toNat)).getD 0

/-- The victim for a fill of a class, and the state with the ways aged (R121): the first way with no valid sub-block,
else the first that is oldest once all candidates have aged until one reaches 3. -/
def Dev.victim (s : Dev) (f set k : Nat) : Option (Nat × Dev) :=
  let cand := s.candidates f set k
  match cand.find? (s.wayEmpty f set) with
  | some w => some (w, s)
  | none =>
    match cand with
    | [] => none
    | _ =>
      let mx := (cand.map (s.wayAge f set)).foldl max 0
      let s1 := s.each cand (fun s w => s.updLine f set w (fun l =>
        { l with age := BitVec.ofNat 2 (min 3 (l.age.toNat + (3 - mx))) }))
      match cand.find? (fun w => s.wayAge f set w == mx) with
      | some w => some (w, s1)
      | none => none

/-- A hit makes its line the newest (R120). -/
def Dev.touch (s : Dev) (p : Place) : Dev := s.updAt p (fun l => { l with age := 0 })

/-- An empty line for a place. -/
def emptyLine (p : Place) (age : BitVec 2) : Line :=
  { tag := p.tag, group := p.group, shd := p.shadowed
    refl := (match p.kind with | .refl _ => true | _ => false)
    valid := 0, dirty := 0, age := age
    hue := (match p.kind with | .refl h => h | _ => 0)
    data := 0, d := p.d / 256 * 256, grp := p.grp }

/-! ### The victim filter (R192, R193) -/

/-- Adds an evicted sector to a facet's filter of 64, the newest last; an eviction's entry is there before its own miss meets the
filter (log entry 91). -/
def Dev.filterAdd (s : Dev) (f set : Nat) (l : Line) : Dev :=
  let e : FilterEntry := { facet := f, group := l.group, set := set, tag := l.tag, time := s.now }
  let mine := (s.cache.filter.filter (fun x => x.facet == f)) ++ [e]
  let rest := s.cache.filter.filter (fun x => x.facet != f)
  { s with cache.filter := rest ++ mine.drop (mine.length - 64) }

/-- A demand miss meets the filter: the newest matching entry goes, and counts when inside the window (R192). -/
def Dev.filterMiss (s : Dev) (p : Place) : Dev :=
  match s.cache.filter.reverse.find? (fun x => x.facet == p.facet && x.group == p.group && x.set == p.set && x.tag == p.tag) with
  | none => s
  | some e =>
    let s1 := { s with cache.filter := s.cache.filter.filter (fun x => x != e) }
    if s.now - e.time ≤ 64 * s.get F.fctThrashCfg_WINDOW then
      { s1.event evRefetch p.facet with cache.refetch := tset s1.cache.refetch p.facet (tgetD s1.cache.refetch p.facet 0 + 1) }
    else s1

/-! ### Pending-line registers (R140, R244) -/

/-- PLRs of a facet in use. -/
def Dev.plrsOf (s : Dev) (f : Nat) : List Plr := s.cache.plrs.filter (fun p => p.place.facet == f)

/-- The PLR of a sector. -/
def Dev.plrAt (s : Dev) (p : Place) : Option Plr := s.cache.plrs.find? (fun x => x.place.sameSector p)

/-- Changes a PLR. -/
def Dev.updPlr (s : Dev) (id : Nat) (g : Plr → Plr) : Dev :=
  { s with cache.plrs := s.cache.plrs.map (fun x => if x.id == id then g x else x) }

/-- Frees a PLR that has no waiter and fetches nothing (R244). -/
def Dev.freePlr (s : Dev) (id : Nat) : Dev :=
  { s with cache.plrs := s.cache.plrs.filter (fun x => !(x.id == id && x.waiters.isEmpty && x.fetching == 0)) }

/-- The part of a request, one per 1 KiB unit (R107), that a waiter belongs to: kind, identity and unit. -/
def Dev.waiterPart (s : Dev) (w : Waiter) : Nat × Nat × Nat :=
  match w with
  | .part id i => (0, id, ((s.req id).map (fun e => e.partOf i)).getD i)
  | .txn id =>
    match (s.cache.txns.find? (fun t => t.id == id)).map Txn.cause with
    | some (Cause.request r i) => (0, r, ((s.req r).map (fun e => e.partOf i)).getD i)
    | _ => (1, id, 0)

/-- The parts that wait on a PLR: each is one waiter (R140). -/
def Dev.waitingParts (s : Dev) (p : Plr) : List (Nat × Nat × Nat) := (p.waiters.map s.waiterPart).eraseDups

/-- Waiters beyond the four inline ones of each PLR (R140, R171). -/
def Dev.poolUsed (s : Dev) : Nat := s.cache.plrs.foldl (fun a p => a + ((s.waitingParts p).length - 4)) 0

/-- Whether a PLR can take a waiter's part, beside rsv places reserved on it and pool reserved in all (R140, R142, R252). -/
def Dev.waiterFree (s : Dev) (p : Plr) (w : Waiter) (rsv pool : Nat) : Bool :=
  let l := s.waitingParts p
  l.contains (s.waiterPart w) || l.length + rsv < 4 || s.poolUsed + pool < 2048

/-- Write-back entries a facet has in use: one per eviction of a miss, until its last sub-block is written back (R141). The
write-backs that no miss makes take none (log entry 92). -/
def Dev.wbEntries (s : Dev) (f : Nat) : Nat :=
  (((s.cache.wbs.filter (fun w => w.facet == f)).filterMap (fun w => match w.why with
    | .evict n => some n
    | _ => none)).eraseDups).length

/-! ### The directory -/

/-- Key of a way of a directory set. -/
def dirKey (f set way : Nat) : Nat := (f * 4096 + set) * 16 + way

/-- The directory way and entry of a granule of this slice (R207); adopted granules have none (R622). -/
def Dev.dirLookup (s : Dev) (p : Place) : Option (Nat × DirEntry) :=
  match p.kind with
  | .own => (List.range 16).findSome? (fun w =>
      match tget s.cache.dir (dirKey p.facet (dirSet p.d) w) with
      | some e => if e.tag.toNat == dirTag p.d && e.group == p.group then some (w, e) else none
      | none => none)
  | _ => none

/-- Home state of a granule: none is U (R209). -/
def Dev.home (s : Dev) (p : Place) : Option HomeState := (s.dirLookup p).map (fun x => x.2.st)

/-- The directory ways of a set that open transactions have reserved (R214). -/
def Dev.dirTaken (s : Dev) (f set : Nat) : List Nat :=
  (s.cache.txns.filter (fun t => t.place.facet == f && dirSet t.place.d == set)).filterMap (fun t => t.dirWay)

/-- The directory ways of a set that are free: neither valid nor reserved. -/
def Dev.dirFrees (s : Dev) (f set : Nat) : List Nat :=
  let taken := s.dirTaken f set
  (List.range 16).filter (fun w => (tget s.cache.dir (dirKey f set w)).isNone && !taken.contains w)

/-- Writes a directory way, or frees it; both copies are written, so no bit of them stays upset. -/
def Dev.setDir (s : Dev) (f set w : Nat) (e : Option DirEntry) : Dev :=
  let k := dirKey f set w
  { s with
    cache.dir := match e with
      | some x => tset s.cache.dir k x
      | none => tdel s.cache.dir k
    cache.dirUpset := tdel s.cache.dirUpset k }

/-- Sets the home state of a granule; U frees its entry. A new entry takes the way that its transaction has reserved, or the
lowest free one. -/
def Dev.setHome (s : Dev) (p : Place) (st : Option HomeState) (way : Option Nat) : Dev :=
  match p.kind with
  | .own =>
    let set := dirSet p.d
    match s.dirLookup p, st with
    | some (w, e), some h => s.setDir p.facet set w (some { e with st := h })
    | some (w, _), none => s.setDir p.facet set w none
    | none, some h =>
      match way.or (s.dirFrees p.facet set).head? with
      | some w =>
        s.setDir p.facet set w (some { st := h, group := p.group, tag := BitVec.ofNat 14 (dirTag p.d), d := p.d, grp := p.grp,
                                       shadowed := p.shadowed })
      | none => s
    | none, none => s
  | _ => s

/-- Whether a transaction is a side access, which holds nothing: its block is held through its data granule (R315). -/
def Txn.isSide (t : Txn) : Bool :=
  match t.cause with
  | .side _ _ => true
  | .zero _ _ => true
  | _ => false

/-- Whether an open transaction holds a granule (R241). -/
def Dev.held (s : Dev) (p : Place) : Bool := s.cache.txns.any (fun t => t.place.same p && !t.isSide)

/-- Rank of a home state in the order of R214: shared by pointer count, exclusive, owned, flare, owned flare. -/
def HomeState.rank : HomeState → Nat
  | .shared p => p.length
  | .excl _ => 5
  | .owned _ _ => 6
  | .flare => 7
  | .ownedFlare _ => 8

/-- The place of a directory entry's granule. -/
def Dev.dirPlace (s : Dev) (e : DirEntry) : Place := s.placeAt e.grp e.d e.shadowed

/-- The victim of a directory set: the entry not held that ranks first, lowest way on a tie (R214). -/
def Dev.dirVictim (s : Dev) (f set : Nat) : Option DirEntry :=
  let es := ((List.range 16).filterMap (fun w => tget s.cache.dir (dirKey f set w))).filter
    (fun e => !s.held (s.dirPlace e))
  es.foldl (fun b e =>
    match b with
    | none => some e
    | some x => if e.st.rank < x.st.rank then some e else some x) none

/-- Entries of a facet's directory, with the flare states among them (R238). -/
def Dev.dirOf (s : Dev) (f : Nat) : List DirEntry :=
  (s.cache.dir.filter (fun e => e.1 / 65536 == f)).map Prod.snd

def HomeState.isFlare : HomeState → Bool
  | .flare => true
  | .ownedFlare _ => true
  | _ => false

/-! ### Shade and tile-store lines (R180, R186 to R191) -/

/-- Whether way slot k of a class is retained in a half (R179). -/
def Dev.slotRetained (s : Dev) (f cls w : Nat) : Bool :=
  let h := f / 32
  let k := (s.waysOf f cls).findIdx (fun x => x == w)
  k < (if cls == clsShade then partRetShade s.partition h else partRetTile s.partition h)

/-- What an unlisted line of a Shade or tile-store way reads as. -/
def Dev.storeLine (s : Dev) (f set w : Nat) : Line :=
  match s.line f set w with
  | some l => l
  | none =>
    let v := if s.slotRetained f (s.wayClass f w) w then s.cache.storeRet else s.cache.storeRest
    { tag := 0, group := false, shd := false, refl := false, valid := if v then 0xF else 0, dirty := 0, age := 0,
      hue := 0, data := 0, d := 0, grp := 0 }

/-- A sub-block of a store, none where it is poisoned (R187): offset x of a half's store of a class. -/
def Dev.storeSub (s : Dev) (cls h x : Nat) : Option Sub :=
  let p := s.storePlace cls h x
  let l := s.storeLine p.1 p.2.2.1 p.2.1
  let i := p.2.2.2 / 64
  if l.isValid i then some (Sector.sub l.data i) else none

/-- Writes a sub-block of a store, valid or poisoned (R186, R187). -/
def Dev.setStoreSub (s : Dev) (cls h x : Nat) (v : Option Sub) : Dev :=
  let p := s.storePlace cls h x
  let l := s.storeLine p.1 p.2.2.1 p.2.1
  let i := p.2.2.2 / 64
  (s.setLine p.1 p.2.2.1 p.2.1 (l.setSub i v.isSome false (v.getD (Sector.sub l.data i)))).heal p.1 p.2.2.1 p.2.1 i

end Sys2Proof.Machine
end

