-- ==== Sys2Proof/Machine/Stack.lean ====
section
/-! DEFINITION. Eclipse entry (R633, R634), and the stack side: what a sub-block holds, reads and writes issued, row
health, spares and refresh (chapter 16). -/

namespace Sys2Proof.Machine

/-! ### Eclipse (R633, R634) -/

/-- Whether the slice serves messages at its ports. -/
def Dev.active (s : Dev) : Bool :=
  match s.phase with
  | .boot k => 8 ≤ k
  | .lit => true
  | .dim => true
  | .toDusk => true
  | .waking => true
  | .toNight => true
  | _ => false

/-- Puts both stacks in self-refresh, or takes them out (R583, R586). -/
def Dev.selfRefresh (s : Dev) (enter : Bool) : Dev :=
  let one := fun (s : Dev) (f : Field) => if s.get f == 4 then s else s.put f (if enter then 3 else 2)
  { (one (one s F.stkStatus0_STATE) F.stkStatus1_STATE).send (.selfRefresh enter) with stack.planRefresh := false }

/-- Puts the mainband of every port in use in electrical idle, with the given STATE (R492, R634, R724). -/
def Dev.portsIdle (s : Dev) (state : Nat) : Dev :=
  s.each (List.range 6) (fun s p =>
    if s.get (F.pwkStatus_STATE p) == 0 || s.get (F.pwkStatus_STATE p) == 4 then s
    else ((s.put (F.pwkStatus_STATE p) state).put (F.pwkStatus_MOD_UP p) 0).put (F.pwkStatus_LATTICE p) 0)

/-- Work in flight in the facets, dropped. -/
def Dev.dropWork (s : Dev) : Dev :=
  { s with
    cache.reqs := [], cache.txns := [], cache.plrs := [], cache.parked := [], cache.tickets := [], cache.wbs := []
    cache.maint := [], cache.pods := [], cache.podOps := [], cache.deaths := [], cache.suspected := [], cache.hints := []
    stack.reads := [], stack.writes := [], stack.rmw := [], stack.copies := [], stack.used := []
    shadow.puts := [], shadow.parity := [], shadow.recons := [], shadow.ports := [], shadow.rebuildAt := []
    prism.typed := [], prism.claims := [], prism.slots := [], links.awaiting := [] }

/-- Stops planned work and discards it. -/
def Dev.dropPlan (s : Dev) : Dev :=
  { s with
    frm.frameRunning := false, frm.items := [], frm.go := none
    lens.engines := [], lens.runs := [], lens.jobs := [], lens.keeps := [] }

/-- Enters Eclipse with a cause that arose at a slice (R634, R742, R750, R791). No effect in reset, Dusk, Night or
Eclipse. -/
def Dev.enterEclipse (s : Dev) (cause origin : Nat) : Dev :=
  let may := match s.phase with
    | .boot _ => true
    | .lit => true
    | .dim => true
    | .toDusk => true
    | .waking => true
    | .toNight => true
    | _ => false
  if !may then s
  else
    let s1 := s.each (s.cache.reqs.map (fun e => e.id)) (fun s id => s.answerRest id .poison)
    let s2 := s1.each ((List.range s.setSize).filter (fun p => p != s.pos))
      (fun s p => s.send (.ctl p (.eclipse (BitVec.ofNat 8 cause))))
    let s3 := ((s2.portsIdle 0).selfRefresh true).dropWork.dropPlan
    let s4 := s3.setReg R.rstAg1 (2 ^ 63 + (origin % 8) * 2 ^ 56 + (cause % 256) * 2 ^ 48 + s.frameNo)
    let s5 := (s4.eventRecord 5 s.frameNo 0 (cause % 256 + (origin % 8) * 256)).put F.pwrState_SCLK_PLL 0
    { s5 with
      phase := .eclipse
      mgmt.eclipseAt := some s.now
      mgmt.exitKind := BitVec.ofNat 2 (s.get F.rstCfg_ECLIPSE_EXIT) }

/-! ### What the stacks hold -/

/-- Inserts a number in a rising list, once. -/
def insNat (n : Nat) : List Nat → List Nat
  | [] => [n]
  | x :: t => if n < x then n :: x :: t else if n == x then x :: t else x :: insNat n t

/-- What the stack and its write queue hold of a sub-block: data and whether it is the poison code word (R549). -/
def Dev.dramWord (s : Dev) (d : Nat) : Sub × Bool :=
  match (s.stack.writes.filter (fun w => w.d == d)).getLast? with
  | some w => (w.data, w.poison)
  | none =>
    if s.stack.poison.contains (d / 64) then (0, true) else (memSub s.stack.dram d, false)

/-- Whether the channel of a facet group has failed, or its stack (R580, R586). -/
def Dev.channelFailed (s : Dev) (grp : Nat) : Bool :=
  if stackOf grp == 0 then bitAt (s.get F.stkStatus0_CH_FAILED) (channelOf grp) || s.get F.stkStatus0_STATE == 4
  else bitAt (s.get F.stkStatus1_CH_FAILED) (channelOf grp) || s.get F.stkStatus1_STATE == 4

/-- Data-bus SCLK cycles of n sub-blocks at the trained rate (R541: 32 data bits per pseudo-channel and stack pin
rate; 24 B per SCLK at 9.6 Gb/s). -/
def Dev.busCycles (s : Dev) (n : Nat) : Nat :=
  let rate := s.get F.stkConfig_TRAINED
  if rate == 0 then 0 else (64 * n * 400 + rate / 2) / rate

/-! ### The command arbiter of a pseudo-channel (R44 to R48) -/

/-- The place of a class in the order of R44. -/
def DramClass.index : DramClass → Nat
  | .urgent => 0
  | .bulk => 1
  | .background => 2
  | .demand => 3

/-- Data-bus cycles that a class has used on a pseudo-channel in the slot under way. -/
def Dev.busUsed (s : Dev) (pc : Nat) (c : DramClass) : Nat := tgetD s.stack.used (4 * pc + c.index) 0

/-- Counts data-bus use of n sub-blocks on a pseudo-channel by a class (R44, R149, R775). -/
def Dev.busUse (s : Dev) (pc : Nat) (c : DramClass) (n : Nat) : Dev :=
  let k := s.busCycles n
  ({ s with
    stack.used := tset s.stack.used (4 * pc + c.index) (s.busUsed pc c + k)
    cache.busUse := s.cache.busUse + k, mgmt.slotBus := s.mgmt.slotBus + k }).event evBus pc none k

/-- SCLK cycles of a slot: the plan's, or before the first seal the boot schedule's own (R27, R551). -/
def Dev.slotCycles (s : Dev) : Nat := if s.img.firstSealed then s.slotLen else 64

/-- Data-bus cycles that the plan gives bulk or background work on a pseudo-channel in the slot under way (R43, R45). -/
def Dev.busShare (s : Dev) (pc : Nat) (c : DramClass) : Nat :=
  if !s.frm.frameRunning then 0
  else
    let e := dramEntry s.plan s.template ((s.frm.slot + 63) % 64) pc
    match c with
    | .bulk => bulkShare e * s.slotCycles / 8
    | .background => backgroundShare e * s.slotCycles / 8
    | _ => 0

/-- Accesses of background work that the slot under way still has room for on a pseudo-channel (R45). -/
def Dev.backgroundRoom (s : Dev) (pc : Nat) : Nat :=
  (s.busShare pc .background - s.busUsed pc .background) / max 1 (s.busCycles 1)

/-- Commands of a class that the arbiters have not let go yet, oldest first: identity, pseudo-channel and sub-blocks. -/
def Dev.waitingOf (s : Dev) (c : DramClass) : List (Nat × Nat × Nat) :=
  let rs := (s.stack.reads.filter (fun r => r.cls == c && !r.issued)).map (fun r =>
    (r.id, pcNumber r.grp r.sector, popCount 4 r.subs.toNat))
  let ws := (s.stack.writes.filter (fun w => w.cls == c && !w.issued)).map (fun w => (w.id, w.pc, 1))
  (rs ++ ws).foldl (fun l e => l.filter (fun x => x.1 < e.1) ++ [e] ++ l.filter (fun x => e.1 ≤ x.1)) []

/-- Data-bus cycles that waiting commands of a class ask of a pseudo-channel. -/
def Dev.busWaiting (s : Dev) (pc : Nat) (c : DramClass) : Nat :=
  ((s.waitingOf c).filter (fun e => e.2.1 == pc)).foldl (fun a e => a + s.busCycles e.2.2) 0

/-- Whether a command of a class may use n sub-blocks' data-bus time of a pseudo-channel in the slot under way: urgent demand
at once, bulk and background work within their shares, other demand in all that their waiting work leaves (R44 to R47; log
entry 102). In a wake every command waits for its stack to leave self-refresh (R731). -/
def Dev.mayIssue (s : Dev) (pc : Nat) (c : DramClass) (n : Nat) : Bool :=
  s.phase != .waking &&
  let cost := s.busCycles n
  let all := s.busUsed pc .urgent + s.busUsed pc .bulk + s.busUsed pc .background + s.busUsed pc .demand + cost
  let kept := fun (k : DramClass) => min (s.busShare pc k - s.busUsed pc k) (s.busWaiting pc k)
  match c with
  | .urgent => true
  | .demand => all + kept .bulk + kept .background ≤ s.slotCycles
  | k => s.busUsed pc k + cost ≤ s.busShare pc k && all ≤ s.slotCycles

/-- The arbiter lets a waiting command go. -/
def Dev.letGo (s : Dev) (id : Nat) : Dev :=
  { s with
    stack.reads := s.stack.reads.map (fun r => if r.id == id then { r with issued := true } else r)
    stack.writes := s.stack.writes.map (fun w => if w.id == id then { w with issued := true } else w) }

/-- The waiting commands go, in the order of the classes, as far as the new slot has room (R44). -/
def Dev.issueWaiting (s : Dev) : Dev :=
  s.each [DramClass.urgent, .bulk, .background, .demand] (fun s c => s.each (s.waitingOf c) (fun s e =>
    if s.mayIssue e.2.1 c e.2.2 then (s.letGo e.1).busUse e.2.1 c e.2.2 else s))

/-- The waiting reads of a fill go at once: an urgent request waits for it (R47). -/
def Dev.hasten (s : Dev) (plr : Nat) : Dev :=
  s.each (s.stack.reads.filter (fun r => r.why == .fill plr && !r.issued && s.phase != .waking)) (fun s r =>
    (s.letGo r.id).busUse (pcNumber r.grp r.sector) .urgent (popCount 4 r.subs.toNat))

/-- Sub-blocks of a bulk burst (R548), at most what the share of the slot under way holds, and at least one. -/
def Dev.burst (s : Dev) (pc : Nat) : Nat :=
  max 1 (min (s.get F.stkConfig_TRAINED / 3200) (s.busShare pc .bulk / max 1 (s.busCycles 1)))

/-- Issues a read of sub-blocks of a sector, or has it wait, and gives its identity (R44, R123, R549). -/
def Dev.issueRead (s : Dev) (grp sector : Nat) (subs : BitVec 4) (shadowed : Bool) (c : DramClass) (why : ReadFor) :
    Nat × Dev :=
  let id := s.nextId
  let ws := (List.range 4).map (fun i => s.dramWord (sector + 64 * i))
  let words := ws.zipIdx.foldl (fun (x : Sector) w => Sector.put x w.2 w.1.1) 0
  let poison := ws.zipIdx.foldl (fun a w => a + b2n w.1.2 * 2 ^ w.2) 0
  let n := popCount 4 subs.toNat
  let pc := pcNumber grp sector
  let dead := s.channelFailed grp
  let go := dead || s.mayIssue pc c n
  let e : DramRead :=
    { id := id, sector := sector, subs := subs, words := words, poison := BitVec.ofNat 4 poison, stale := 0, grp := grp,
      shadowed := shadowed, retry := false, dead := dead, cls := c, issued := go, why := why }
  let s1 : Dev := { s with nextId := id + 1, stack.reads := s.stack.reads ++ [e] }
  (id, if go && !dead then s1.busUse pc c n else s1)

/-- Queues a write of a sub-block and gives its identity (R44, R549). On a failed channel no command is issued (R581), and
the write is reported complete with nothing stored. -/
def Dev.issueWrite (s : Dev) (grp d : Nat) (data : Sub) (poison : Bool) (c : DramClass) (why : WriteFor) : Nat × Dev :=
  let id := s.nextId
  let pc := pcNumber grp d
  let dead := s.channelFailed grp
  let go := dead || s.mayIssue pc c 1
  let e : DramWrite :=
    { id := id, pc := pc, d := d, cls := c, issued := go, data := if poison then 0 else data, poison := poison, why := why }
  let s1 : Dev := { s with
    nextId := id + 1, stack.writes := s.stack.writes ++ [e]
    stack.reads := s.stack.reads.map (fun r =>
      if r.sector == d / 256 * 256 then { r with stale := r.stale ||| BitVec.ofNat 4 (2 ^ (d / 64 % 4)) } else r) }
  (id, if go && !dead then s1.busUse pc c 1 else s1)

/-- A queued write reaches the stack. -/
def Dev.commitWrite (s : Dev) (w : DramWrite) : Dev :=
  let p := if w.poison then insNat (w.d / 64) s.stack.poison else s.stack.poison.filter (fun n => n != w.d / 64)
  { s with
    stack.writes := s.stack.writes.filter (fun x => x.id != w.id)
    stack.dram := memPutSub s.stack.dram w.d (if w.poison then 0 else w.data)
    stack.poison := p }

/-! ### Footprints and salts (R96, R97) -/

/-- The last device page, plus one, that a region's mapping gives a slice of a set of n (R96, R98); 0 for none. A
reflection region's footprint is its area (R649). -/
def Region.lastPage (g : Region) (n p : Nat) : Nat :=
  let total := g.size * 512
  let b := g.devBase * 512
  if !g.valid || g.space != 0 || n == 0 then 0
  else if g.reflection then (if g.reflDram then b + divUp g.size n * 512 else 0)
  else if g.interleave == 0 && !g.shadowed then (if p < total then b + (total - 1 - p) / n + 1 else 0)
  else if g.interleave == 0 then
    let rows := (total - 1) / (n - 1)
    let has := fun (r : Nat) =>
      let q := b + r
      let j := (p + 2 * n - q % n - 1) % n
      j < n - 1 && r * (n - 1) + j < total
    if has rows then b + rows + 1
    else if 1 ≤ rows && has (rows - 1) then b + rows
    else if 2 ≤ rows && has (rows - 2) then b + rows - 1
    else 0
  else if g.home != p then 0
  else if !g.shadowed then b + total
  else skipParity n p (2 * n) (b + (total - 1) / (n - 1) * n) ((total - 1) % (n - 1)) + 1

/-- Device chunks of a region's footprint on a slice: the first and the end (R96). -/
def Region.footprint (g : Region) (n p : Nat) : Nat × Nat :=
  let l := g.lastPage n p
  if l == 0 then (0, 0) else (g.devBase, divUp l 512)

/-- The region whose footprint on the slice at position p holds a device offset (R91, R96); and on this slice. -/
def Dev.regionOn (s : Dev) (p d : Nat) : Option Nat :=
  (List.range 64).find? (fun k =>
    let f := (s.region k).footprint s.setSize p
    f.1 ≤ d / 0x200000 && d / 0x200000 < f.2)
def Dev.regionAt (s : Dev) (d : Nat) : Option Nat := s.regionOn s.pos d

/-- Whether a device chunk is shadowed: it holds a shadowed footprint on some slice (R97). -/
def Dev.shadowedChunk (s : Dev) (c : Nat) : Bool :=
  (List.range 64).any (fun k => (s.region k).shadowed && (List.range s.setSize).any (fun p =>
    let f := (s.region k).footprint s.setSize p
    f.1 ≤ c && c < f.2))

/-- The facet group that serves a device offset of the slice at position p: its region's salt, or 0 for parity pages and pages
no region uses (R99, R597); and of this slice. -/
def Dev.groupOn (s : Dev) (p d : Nat) : Nat :=
  let parity := s.setSize != 0 && paritySlice d s.setSize == p && s.shadowedChunk (d / 0x200000)
  match s.regionOn p d with
  | some k => if parity then facetGroup d 0 else facetGroup d (s.region k).salt
  | none => facetGroup d 0
def Dev.groupAt (s : Dev) (d : Nat) : Nat := s.groupOn s.pos d

/-- The low six bits of a 1 KiB unit from its facet group and salt: the inverse of R99. -/
def unitLow (hi grp salt : Nat) : Nat :=
  let c := fun i => ((hi * 64) >>> (6 * i)) % 64
  let r := fun i => (salt >>> (3 * i)) % 8
  grp ^^^ rotl6 (c 1) (r 0) ^^^ rotl6 (c 2) (r 1) ^^^ rotl6 (c 3) (r 2) ^^^ rotl6 (c 4) (r 3)

/-- The device offset of a folded address with a column (inverse of R100, R544), under the salt of the region there. -/
def Dev.deviceOf (s : Dev) (row col : Nat) : Nat :=
  let grp := bitsOf row 31 31 * 32 + bitsOf row 30 26
  let u := bitsOf row 18 7 * 1024 + (col / 8) * 64 + bitsOf row 24 19
  let off := bitsOf row 25 25 * 512 + (col % 8) * 64
  let d0 := (u * 64 + unitLow u grp 0) * 1024 + off
  match s.regionAt (u * 65536) with
  | none => d0
  | some k =>
    let d1 := (u * 64 + unitLow u grp (s.region k).salt) * 1024 + off
    if s.setSize != 0 && paritySlice d1 s.setSize == s.pos && s.shadowedChunk (d1 / 0x200000) then d0 else d1

/-- Device offset of the i-th sub-block of a pseudo-channel in a device chunk that no region uses (R99, R100). -/
def chunkPlace (c pc i : Nat) : Nat :=
  let hi := c * 32 + i / 8
  (hi * 64 + unitLow hi (pc / 2) 0) * 1024 + pc % 2 * 512 + i % 8 * 64

/-- Puts zero data with valid check bytes in a sub-block of the stack (R582). -/
def Dev.zeroSub (s : Dev) (d : Nat) : Dev :=
  { s with stack.dram := memPutSub s.stack.dram d 0, stack.poison := s.stack.poison.filter (fun n => n != d / 64) }

/-! ### Row health (R574 to R579) -/

/-- Entry i of the row health table (R574). -/
def Dev.rowEntry (s : Dev) (i : Nat) : Nat := memRead s.afterglow (0x3000 + 8 * i) 8

/-- Sets entry i of the row health table. -/
def Dev.setRowEntry (s : Dev) (i v : Nat) : Dev := { s with afterglow := memWrite s.afterglow (0x3000 + 8 * i) 8 v }

/-- Listed entries of the row health table: those with a byte that is not 0. -/
def Dev.rowIndices (s : Dev) : List Nat :=
  ((s.afterglow.filter (fun c => 0x3000 ≤ c.1)).map (fun c => (c.1 - 0x3000) / 8)).eraseDups

/-- The entry of a row address whose STATE is not 0. -/
def Dev.rowFind (s : Dev) (row : Nat) : Option Nat :=
  s.rowIndices.find? (fun i => bitsOf (s.rowEntry i) 63 62 != 0 && bitsOf (s.rowEntry i) 31 0 == row)

/-- The row address of a sub-block: its folded address with COLUMN 0 (R574). -/
def rowAddr (grp d : Nat) : Nat := withBits (foldedAddress grp d) 6 0 0

/-- Spares of a bank in use by a remap or a copy. -/
def Dev.sparesUsed (s : Dev) (row : Nat) : List Nat :=
  let bank := bitsOf row 31 19
  ((s.stack.remaps.filter (fun m =>
      m.stack * 2 ^ 12 + m.channel * 2 ^ 7 + m.pc * 2 ^ 6 + m.bank == bank)).map (fun m => m.spare))
    ++ ((s.stack.copies.filter (fun c => bitsOf c.rowAddr.toNat 31 19 == bank)).map (fun c => c.spare))

/-- The lowest free spare of a row's bank (R576). -/
def Dev.spareFree (s : Dev) (row : Nat) : Option Nat :=
  (List.range 3).find? (fun k => !(s.sparesUsed row).contains k)

/-- Sets STK_ERR bits and asserts ALERT_N for the bits of R588. -/
def Dev.stkErr (s : Dev) (f : Field) : Dev :=
  let s1 := s.raise f
  if f == F.stkErr_INIT_FAIL || f == F.stkErr_STACK_FAILED || f == F.stkErr_CH_FAILED ||
      f == F.stkErr_SPARE_EXHAUSTED || f == F.stkErr_POISON_WRITTEN then s1.alert alertStk else s1

/-- Retires the row of an entry: a copy to the lowest free spare is to run, or the row stays with STATE 3 (R576, R579). -/
def Dev.retireRow (s : Dev) (i : Nat) : Dev :=
  let e := s.rowEntry i
  let row := bitsOf e 31 0
  if s.stack.copies.any (fun c => c.rowAddr.toNat == row) || bitsOf e 63 62 == 3 then s
  else match s.spareFree row with
    | some k => { s with stack.copies := s.stack.copies ++ [{ rowAddr := BitVec.ofNat 32 row, spare := k, moved := 0 }] }
    | none => ((s.setRowEntry i (withBits e 63 62 3)).stkErr F.stkErr_SPARE_EXHAUSTED).bump F.stkRows_FAILED

/-- The entry a counted error takes: the row's own, the lowest empty one, or the tracking entry with the lowest CE
(R575). -/
def Dev.rowSlot (s : Dev) (row : Nat) : Option Nat :=
  match s.rowFind row with
  | some i => some i
  | none =>
    let used := s.rowIndices.filter (fun i => bitsOf (s.rowEntry i) 63 62 != 0)
    match (List.range 512).find? (fun i => !used.contains i) with
    | some i => some i
    | none =>
      ((List.range 512).filter (fun i => bitsOf (s.rowEntry i) 63 62 == 1)).foldl (fun b i =>
        match b with
        | none => some i
        | some j => if bitsOf (s.rowEntry i) 59 52 < bitsOf (s.rowEntry j) 59 52 then some i else some j) none

/-- Counts a corrected or uncorrectable error against the row of a sub-block, and retires the row when it is due
(R574 to R576). -/
def Dev.countRow (s : Dev) (grp d : Nat) (ue : Bool) : Dev :=
  let row := rowAddr grp d
  match s.rowSlot row with
  | none => s.bump F.stkRows_TABLE_FULL
  | some i =>
    let old := s.rowEntry i
    let e := if bitsOf old 63 62 != 0 && bitsOf old 31 0 == row then old else 2 ^ 62 + row
    let ce := min 255 (bitsOf e 59 52 + b2n (!ue))
    let un := min 15 (bitsOf e 51 48 + b2n ue)
    let s1 := s.setRowEntry i (withBits (withBits e 59 52 ce) 51 48 un)
    let thr := s.get F.stkRowCfg_CE_THR
    if ue || (thr != 0 && thr ≤ ce) then s1.retireRow i else s1

/-- Counts a corrected read (R561, R562). -/
def Dev.corrected (s : Dev) (grp d : Nat) : Dev :=
  (((s.stkErr F.stkErr_CE).bump F.stkCount_CE).countRow grp d false).event evCorrected (pcNumber grp d)

/-- A channel, and with its second one the stack, fails; its reads in flight are served by reconstruction or answered POISON
(R580, R581, R615). -/
def Dev.channelFail (s : Dev) (stack ch : Nat) : Dev :=
  let chF := if stack == 0 then F.stkStatus0_CH_FAILED else F.stkStatus1_CH_FAILED
  let stF := if stack == 0 then F.stkStatus0_STATE else F.stkStatus1_STATE
  let mask := s.get chF ||| 2 ^ ch
  let s1 := ((s.put chF mask).stkErr F.stkErr_CH_FAILED).errorRecord 0x0A (stack * 32 + ch) 0 0
  let s2 := if 2 ≤ popCount 32 mask then
      ((s1.put stF 4).stkErr F.stkErr_STACK_FAILED).errorRecord 0x0A (stack * 32 + ch) 0 1
    else s1
  let s3 := if (List.range 64).any (fun k => (s.region k).shadowed) then (s2.raise F.shdErr_MEMBER_FAILED).alert alertShd else s2
  { s3 with stack.reads := s3.stack.reads.map (fun r => if s3.channelFailed r.grp then { r with dead := true, issued := true } else r)
            stack.writes := s3.stack.writes.map (fun w => if s3.channelFailed (w.pc / 2) then { w with issued := true } else w) }

/-- The rows of a channel whose reads have failed after their retry within 1 ms (R580). -/
def Dev.recentRows (s : Dev) (grp : Nat) : List Nat :=
  ((s.stack.recentUe.filter (fun e => e.1 == grp)).map (fun e => e.2.1)).eraseDups

/-- Counts a failed read and retry (R563, R590): STK_UE_ADDR takes the first, and four distinct rows of a channel in 1 ms fail
it (R580). -/
def Dev.failedRead (s : Dev) (grp d : Nat) (addr : Bool) : Dev :=
  let s1 := if addr then (s.stkErr F.stkErr_ADDR).bump F.stkCount_ADDR else (s.stkErr F.stkErr_UE).bump F.stkCount_UE
  let s2 := if s1.on F.stkUeAddr_VALID then s1
    else s1.setReg R.stkUeAddr (2 ^ 63 + b2n addr * 2 ^ 32 + foldedAddress grp d)
  let s3 := s2.countRow grp d true
  let s4 := { s3 with stack.recentUe := (grp, rowAddr grp d, s.now) ::
      s3.stack.recentUe.filter (fun e => s.now - e.2.2 ≤ 1600000) }
  if 4 ≤ (s4.recentRows grp).length && !s4.channelFailed grp then s4.channelFail (grp / 32) (grp % 32) else s4

/-- A failed read of an unshadowed chunk leaves the poison code word, shows it and records it (R563, R786). -/
def Dev.poisonWrite (s : Dev) (grp d : Nat) : Dev :=
  (((s.issueWrite grp d 0 true .demand .poisoned).2).stkErr F.stkErr_POISON_WRITTEN).errorRecord 0x03 (grp % 64)
    (foldedAddress grp d) 0

end Sys2Proof.Machine
end

