-- ==== Sys2Proof/Machine/Upsets.lean ====
section
/-! DEFINITION. Bits upset in the facets' arrays, and what a read of a tag, a directory entry or a cached sub-block finds and
does about them (R118, R133 to R136, R186, R208, R211, R212, R269). -/

namespace Sys2Proof.Machine

/-! ### Upsets in the arrays -/

/-- The bits that strike the arrays: each stays until its entry or sub-block is written. A disabled facet has no arrays
(R16). -/
def Dev.inject (s : Dev) (u : Upset) : Dev :=
  let live := fun (f : BitVec 6) => !s.fuse.dead f.toNat
  let tags := (u.tags.filter (fun e => live e.1)).foldl (fun m e =>
    let k := lineKey e.1.toNat e.2.1.toNat e.2.2.1.toNat
    let old := tgetD m k (0, 0)
    tset m k (old.1 ^^^ e.2.2.2.1, old.2 ^^^ e.2.2.2.2)) s.cache.tagUpset
  let dirs := (u.dirs.filter (fun e => live e.1)).foldl (fun m e =>
    let k := dirKey e.1.toNat e.2.1.toNat e.2.2.1.toNat
    let old := tgetD m k (0, 0)
    tset m k (old.1 ^^^ e.2.2.2.1, old.2 ^^^ e.2.2.2.2)) s.cache.dirUpset
  let data := (u.data.filter (fun e => live e.1 && e.2.2.2.2 != .none)).foldl (fun m e =>
    tset m (lineKey e.1.toNat e.2.1.toNat e.2.2.1.toNat * 4 + e.2.2.2.1.toNat) e.2.2.2.2) s.cache.dataBad
  let acc := (u.acc.filter (fun e => e.1.toNat < s.fuse.lenses.length && e.2.2 != .none)).foldl (fun m e =>
    tset m (e.1.toNat * 16384 + e.2.1.toNat) e.2.2) s.lens.accBad
  { s with cache.tagUpset := tags, cache.dirUpset := dirs, cache.dataBad := data, lens.accBad := acc }

/-- Whether an array holds an upset bit. -/
def Dev.upset (s : Dev) : Bool :=
  !(s.cache.tagUpset.isEmpty && s.cache.dirUpset.isEmpty && s.cache.dataBad.isEmpty && s.lens.accBad.isEmpty)

/-! ### Tag and directory reads (R134 to R136, R211, R212, R269) -/

/-- The tag entry of a way, as it was written (R118, R188). -/
def Dev.tagWord (s : Dev) (f set w : Nat) : Nat :=
  if s.wayClass f w == clsShade || s.wayClass f w == clsTile then tagEntry (s.storeLine f set w)
  else ((s.line f set w).map tagEntry).getD 0

/-- The directory entry of a way, as it was written: 0 where none is valid (R208; log entry 95). -/
def Dev.dirWordAt (s : Dev) (f set w : Nat) : Nat := ((tget s.cache.dir (dirKey f set w)).map dirWord).getD 0

/-- A lost tag or directory entry takes the set to Eclipse (R136, R269). -/
def Dev.entryLost (s : Dev) (f d : Nat) (tag : Bool) : Dev :=
  let s1 := if tag then (s.raise (F.fctErr_TAG_LOST f)).alert alertFct else s
  (s1.errorRecord 0x08 f d (b2n tag)).enterEclipse 0x01 s.pos

/-- What a read of a way's two tag copies finds (R134). -/
def Dev.checkTagAt (s : Dev) (f set w : Nat) : Dev :=
  match tget s.cache.tagUpset (lineKey f set w) with
  | none => s
  | some (a, b) =>
    let e := s.tagWord f set w
    match checkTag (e ^^^ a.toNat) (e ^^^ b.toNat) with
    | .repaired =>
      let s1 := { s with cache.tagUpset := tdel s.cache.tagUpset (lineKey f set w) }
      (s1.raise (F.fctErr_TAG_CE f)).bump (F.fctEccCount_TAG_CE f)
    | .lost => s.entryLost f (((s.line f set w).map (fun l => l.d)).getD 0) true
    | _ => s

/-- What a read of a directory way's two copies finds (R211, R212). -/
def Dev.checkDirAt (s : Dev) (f set w : Nat) : Dev :=
  match tget s.cache.dirUpset (dirKey f set w) with
  | none => s
  | some (a, b) =>
    let e := tget s.cache.dir (dirKey f set w)
    let v := s.dirWordAt f set w
    match checkDir (v ^^^ a.toNat) (v ^^^ b.toNat) with
    | .repaired =>
      ({ s with cache.dirUpset := tdel s.cache.dirUpset (dirKey f set w) }).bump (F.fctDirCount_DIR_CE f)
    | .flared => s.setDir f set w (e.map (fun x => { x with st := .flare }))
    | .lost => s.entryLost f ((e.map (fun x => x.d)).getD 0) false
    | .good => s

/-- A read of every tag entry of a set: each way's copies are checked, until one takes the slice to Eclipse. -/
def Dev.readTags (s : Dev) (f set : Nat) : Dev :=
  s.each ((s.cache.tagUpset.map Prod.fst).filter (fun k => k / 16 == f * 2048 + set)) (fun s k =>
    if s.phase == .eclipse then s else s.checkTagAt f set (k % 16))

/-- A read of every entry of a directory set. -/
def Dev.readDirs (s : Dev) (f set : Nat) : Dev :=
  s.each ((s.cache.dirUpset.map Prod.fst).filter (fun k => k / 16 == f * 4096 + set)) (fun s k =>
    if s.phase == .eclipse then s else s.checkDirAt f set (k % 16))

/-- The reads of a place's tag set and directory set that a lookup makes (R130, R134, R211). -/
def Dev.readSets (s : Dev) (p : Place) : Dev :=
  let s1 := s.readTags p.facet p.set
  if p.kind == .own then s1.readDirs p.facet (dirSet p.d) else s1

/-! ### Data reads (R133, R161 to R164, R186) -/

/-- An uncorrectable error lost a dirty sub-block (R133, R161, R162). -/
def Dev.dataLost (s : Dev) (f d : Nat) : Dev :=
  ((s.raise (F.fctErr_DATA_UE_DIRTY f)).alert alertFct).errorRecord 0x01 f d 0

/-- Counts an uncorrectable data error (R163, R164). -/
def Dev.dataUe (s : Dev) (f d : Nat) : Dev :=
  let s1 := (s.raise (F.fctErr_DATA_UE f)).bump (F.fctEccCount_DATA_UE f)
  if s1.on (F.fctUeAddr_VALID f) then s1 else (s1.put (F.fctUeAddr_ADDR f) (d / 64)).raise (F.fctUeAddr_VALID f)

/-- Counts a corrected data error (R133, R163). -/
def Dev.dataCe (s : Dev) (f : Nat) : Dev := (s.raise (F.fctErr_DATA_CE f)).bump (F.fctEccCount_DATA_CE f)

/-- What a read of sub-block i of a way's line finds in the data array, and whether its data is readable (R133; log entry 138): a
corrected
word is rewritten; a dirty shadowed sub-block of this slice is rewritten from the buddy's mirror ways, where its copy is
readable there; a mirror way's is sent again by its home, whose copy is intact, but not once the home is lost (R621). -/
def Dev.dataCheck (s : Dev) (f set w i : Nat) : Dev × Bool :=
  match tget s.cache.dataBad (lineKey f set w * 4 + i), s.line f set w with
  | some u, some l =>
    if !l.isValid i || u == .none then (s, true)
    else
      let s1 := s.heal f set w i
      if u == .single then (s1.dataCe f, true)
      else
        let s2 := s1.dataUe f (l.d + 64 * i)
        if !l.isDirty i then (s2, false)
        else
          let mirror := s.wayClass f w == clsMirror
          let copied := l.shd && !s.on F.shdStatus_WRITE_THROUGH && !mirror && u == .uncorrectable
          if copied || (mirror && !s.adopting) then (s2, true) else (s2.dataLost f (l.d + 64 * i), false)
  | _, _ => (s, true)

/-- Local address of an offset of a half's Shade or tile store (R78, R79, R178). -/
def Dev.storeAddr (s : Dev) (cls h x : Nat) : Nat :=
  s.pos * 0x20000000 + h * (if cls == clsShade then 0x10000000 else 0x8000000) + x

/-- The check of a read of a sub-block of a half's Shade or tile store (R133, R186). FCT_UE_ADDR takes its local address (log
entry 94). -/
def Dev.storeCheck (s : Dev) (cls h x : Nat) : Dev :=
  let p := s.storePlace cls h x
  let i := p.2.2.2 / 64
  match tget s.cache.dataBad (lineKey p.1 p.2.2.1 p.2.1 * 4 + i) with
  | none => s
  | some u =>
    if (s.storeSub cls h x).isNone || u == .none then s
    else if u == .single then (s.heal p.1 p.2.2.1 p.2.1 i).dataCe p.1
    else
      let a := s.storeAddr cls h (x / 64 * 64)
      let s1 := (s.setStoreSub cls h x none).dataUe p.1 a
      ((s1.raise (F.fctErr_DATA_UE_DIRTY p.1)).alert alertFct).errorRecord 0x02 p.1 a 0

end Sys2Proof.Machine
end

