-- ==== Sys2Proof/Machine/Chord.lean ====
section
/-! DEFINITION. The arithmetic of the Chord unit, the reduce adders and the stack-side engine (R398 to R408, R417 to
R419). -/

namespace Sys2Proof.Machine

/-! ### ARG (R398) -/

def argScope (a : BitVec 16) : Nat := bitsOf a.toNat 15 14
def argSize (a : BitVec 16) : Nat := bitsOf a.toNat 13 13
def argOp (a : BitVec 16) : Nat := bitsOf a.toNat 11 8
def argWord (a : BitVec 16) : Nat := bitsOf a.toNat 3 0

/-- Whether a reserved ARG bit is 1 (R398, R399). -/
def argReserved (a : BitVec 16) : Bool := bitAt a.toNat 12 || bitsOf a.toNat 7 4 != 0

/-! ### Atomics (R401, R402) -/

/-- The new value of a word of w bits, none where CAS does not write (R402). -/
def atomicWord (op w old x cmp : Nat) : Option Nat × ArithFlags :=
  let f := if w == 32 then fp32 else fp64
  let lt := signed w old ≤ signed w x
  match op with
  | 0x0 => (some ((old + x) % 2 ^ w), {})
  | 0x1 => let r := f.addBits old x; (some r.1, r.2)
  | 0x2 => (some (if lt then old else x), {})
  | 0x3 => (some (if lt then x else old), {})
  | 0x4 => (some (min old x), {})
  | 0x5 => (some (max old x), {})
  | 0x6 => let r := f.minMax false old x; (some r.1, r.2)
  | 0x7 => let r := f.minMax true old x; (some r.1, r.2)
  | 0x8 => (some x, {})
  | 0x9 => (if old == cmp then some x else none, {})
  | 0xA => (some (old &&& x), {})
  | 0xB => (some (old ||| x), {})
  | 0xC => (some (old ^^^ x), {})
  | _ => (none, {})

/-- An ATOMIC or FAR_ATOMIC on a granule: its new value, none where nothing is written, the response data (the old
word, zero-extended), and what the float operation reports (R401, R402). -/
def atomicApply (arg : BitVec 16) (payload old : Sub) : Option Sub × Sub × ArithFlags :=
  let w := if argSize arg == 1 then 64 else 32
  let lo := 32 * argWord arg
  let o := bitsOf old.toNat (lo + w - 1) lo
  let r := atomicWord (argOp arg) w o (bitsOf payload.toNat (w - 1) 0) (bitsOf payload.toNat (64 + w - 1) 64)
  (r.1.map (fun v => BitVec.ofNat 512 (withBits old.toNat (lo + w - 1) lo v)), BitVec.ofNat 512 o, r.2)

/-! ### Reduce-stores and line sums (R406, R408, R417) -/

/-- Applies f to the lanes of w bits of two sub-blocks. -/
def zipLanes (w : Nat) (f : Nat → Nat → Nat × ArithFlags) (r x : Sub) : Sub × ArithFlags :=
  let out := (List.range (512 / w)).map (fun i =>
    f (bitsOf r.toNat (w * i + w - 1) (w * i)) (bitsOf x.toNat (w * i + w - 1) (w * i)))
  (BitVec.ofNat 512 (packCodes w (out.map Prod.fst)), (out.map Prod.snd).foldl ArithFlags.or {})

/-- One lane of an addition of a type: 0 FP32, 1 BF16, 2 INT32 (R415, R417). -/
def addLane (type a b : Nat) : Nat × ArithFlags :=
  match type with
  | 0 => fp32.addBits a b
  | 1 => bf16.addBits a b
  | _ => ((a + b) % 2 ^ 32, {})

/-- Element-wise addition of two lines. -/
def addLines (type : Nat) (a b : Sub) : Sub × ArithFlags := zipLanes (if type == 1 then 16 else 32) (addLane type) a b

/-- Element-wise square of an FP32 line, each rounded once (R417). -/
def squareLine (a : Sub) : Sub × ArithFlags := zipLanes 32 (fun x _ => fp32.mulBits x x) a a

/-- The combine of the four moment records of two lines (R407, R408). -/
def combineLines (a b : Sub) : Sub × ArithFlags :=
  zipLanes 128 (fun x y => let r := Moment.combine (Moment.ofNat x) (Moment.ofNat y); (r.1.toNat, r.2)) a b

/-- A REDUCE_STORE's new value of a sub-block: resident r, incoming x (R406). -/
def reduceApply (op : Nat) (r x : Sub) : Sub × ArithFlags :=
  match op with
  | 0x0 => addLines 0 r x
  | 0x1 => addLines 1 r x
  | 0x2 => addLines 2 r x
  | 0x3 => zipLanes 32 fp32.addSquare r x
  | _ => combineLines r x

/-- Folds lines in order, from the left. -/
def foldLines (f : Sub → Sub → Sub × ArithFlags) : List Sub → Option (Sub × ArithFlags)
  | [] => none
  | x :: xs => some (xs.foldl (fun acc y => let r := f acc.1 y; (r.1, acc.2.or r.2)) (x, {}))

/-- What the float operations set in CRD_ERR (R403, R408, R431). -/
def Dev.chordFlags (s : Dev) (f : ArithFlags) : Dev :=
  ((s.raiseIf f.overflow F.crdErr_OVERFLOW).raiseIf f.nan F.crdErr_NAN).raiseIf f.countSat F.crdErr_COUNT_SAT

/-! ### The destination step of a reduce flow (R413, R418, R419, R433) -/

/-- Whether a step of a mode reads the resident line: 1 to 3 add to it, 4 combines records with it. -/
def stepReads (mode : Nat) : Bool := mode != 0 && mode < 5

/-- What a step writes, with its flags, from its lines and the resident one; none for poison, which mode 5 stands for. -/
def stepResult (mode : Nat) (lines : List Sub) (base : Option Sub) : Option (Sub × ArithFlags) :=
  let fold := fun (b : Sub) (l : List Sub) =>
    l.foldl (fun acc y => let q := combineLines acc.1 y; (q.1, acc.2.or q.2)) (b, ({} : ArithFlags))
  match mode with
  | 0 => some (lines.headD 0, {})
  | 4 => base.map (fun b => fold b lines)
  | 5 => none
  | 6 => some (fold (lines.headD 0) lines.tail)
  | m => base.map (fun b => addLines (m - 1) b (lines.headD 0))

/-- The 64 B lines that a step applies: every record of a moment combine. -/
def stepLines (mode : Nat) (lines : List Sub) : Nat := if mode == 4 || mode == 6 then lines.length else 1

end Sys2Proof.Machine
end

