-- ==== Sys2Proof/Machine/Shadow.lean ====
section
/-! DEFINITION. Shadow stripes: mirror puts and releases, write-backs through parity, the parity engine, and
reconstruction (chapter 17, R598 to R614, R823). -/

namespace Sys2Proof.Machine

/-! ### Addresses from device offsets -/

/-- Global address of a device offset of position p, under the region there: the inverse of R98. -/
def Dev.addressOf (s : Dev) (p d : Nat) : Nat :=
  match s.regionOn p d with
  | none => 0
  | some k =>
    let g := s.region k
    let n := s.setSize
    let q := d / 4096
    let b := g.devBase * 512
    let page :=
      if g.interleave == 0 && !g.shadowed then (q - b) * n + p
      else if g.interleave == 0 then (q - b) * (n - 1) + (p + 2 * n - q % n - 1) % n
      else if !g.shadowed then q - b
      else (q - b) - ((q + n - 1 - p) / n - (b + n - 1 - p) / n)
    s.reg R.setNode % 2 ^ 16 * 2 ^ 48 + g.first * 0x200000 + page * 4096 + d % 4096

/-- The position whose addresses a place belongs to (R621, R622). -/
def Dev.homePos (s : Dev) (p : Place) : Nat :=
  match p.kind with
  | .adopted => s.get F.shdStatus_ADOPTED
  | _ => s.pos

/-- Whether a place lies in adopted lines. -/
def Place.adopted (p : Place) : Bool := p.kind == .adopted

/-- Whether this slice mirrors: its buddy is not lost (R628). -/
def Dev.mirrors (s : Dev) : Bool := !s.on F.shdStatus_WRITE_THROUGH

/-! ### Mirror copies at the home (R604, R607 to R609) -/

/-- Mirrored sectors that a home facet may keep in a set of a facet group (R607). -/
def Dev.quota (s : Dev) (grp : Nat) : Nat :=
  let dead := fun (g : Nat) => s.shadow.buddyDead.contains g
  let o := if dead grp then (grp + 1) % 64 else grp
  let m := partMirror s.partition
  if !dead ((o + 63) % 64) then m
  else if o == grp then divUp m 2
  else m / 2

/-- The mirrored sectors of a place's set and group. -/
def Dev.mirroredIn (s : Dev) (p : Place) : List Mirrored :=
  s.shadow.order.filter (fun m => m.facet == p.facet && m.grp == p.grp && setIndex m.sector == p.set)

/-- Whether placing dirty data at a place would mirror a new sector in a set at its quota (R608). -/
def Dev.quotaFull (s : Dev) (p : Place) : Bool :=
  p.shadowed && s.mirrors && p.kind == .own &&
    !(s.mirroredIn p).any (fun m => m.sector == p.d / 256 * 256) && s.quota p.grp ≤ (s.mirroredIn p).length

/-- Sends MIRROR_PUT of a sub-block that became dirty, for a transaction (R604, R608). -/
def Dev.putMirror (s : Dev) (p : Place) (data : Sub) (record : Option AtomicRecord) (txn : Nat) : Dev :=
  if !(p.shadowed && s.mirrors && p.kind == .own) then s
  else
    let id := s.nextId
    let sector := p.d / 256 * 256
    let subs := BitVec.ofNat 4 (2 ^ p.sub)
    let put : Put :=
      { txid := id, grp := p.grp, sector := sector, subs := subs, data := [data], record := record, txn := txn }
    let mir : Mirrored := { facet := p.facet, group := p.group, grp := p.grp, sector := sector }
    let order := if s.shadow.order.contains mir then s.shadow.order else s.shadow.order ++ [mir]
    ({ s with nextId := id + 1, shadow.puts := s.shadow.puts ++ [put], shadow.order := order }).send
      (.mirrorPut s.buddy id sector subs p.grp record)

/-- Whether a put of a sub-block awaits COMP. -/
def Dev.putOpen (s : Dev) (grp d : Nat) : Bool :=
  s.shadow.puts.any (fun u => u.grp == grp && u.sector == d / 256 * 256 && bitAt u.subs.toNat ((d / 64) % 4))

/-- Releases the mirror copies of sub-blocks of a sector that are no longer dirty here and have no put awaiting COMP
(R609). -/
def Dev.releaseMirror (s : Dev) (grp sector : Nat) (subs : List Nat) : Dev :=
  let free := subs.filter (fun i =>
    !s.dirtyAt (s.placeAt grp (sector + 64 * i) true) && !s.putOpen grp (sector + 64 * i))
  if free.isEmpty || !s.mirrors || !s.shadow.order.any (fun m => m.grp == grp && m.sector == sector) then s
  else
    let mask := free.foldl (fun a i => a + 2 ^ i) 0
    let s1 := s.send (.mirrorRelease s.buddy sector (BitVec.ofNat 4 mask) grp)
    let still := (List.range 4).any (fun i =>
      s.dirtyAt (s.placeAt grp (sector + 64 * i) true) || s.putOpen grp (sector + 64 * i))
    if still then s1
    else { s1 with shadow.order := s1.shadow.order.filter (fun m => !(m.grp == grp && m.sector == sector)) }

/-! ### Reconstruction (R611 to R613) -/

/-- The rebuilt copies of a chunk of the lost slice: positions and device offsets of the sub-block (R631, R632). -/
def Dev.copiesOf (s : Dev) (d : Nat) : List (Nat × Nat) :=
  match tget s.shadow.copies (d / 0x200000) with
  | some (a, b) => [(a.1.toNat, a.2.toNat * 0x200000 + d % 0x200000), (b.1.toNat, b.2.toNat * 0x200000 + d % 0x200000)]
  | none => []

/-- Where the other members of the stripe row of device offset d are read, when position h's is reconstructed: every other live
slice, and, for a lost one that is rebuilt, a copy on a slice other than h (R611, R632). -/
def Dev.reconTargets (s : Dev) (h d : Nat) : List (Nat × Nat) :=
  let live := (s.livePositions.filter (fun p => p != h)).map (fun p => (p, d))
  let lost := (List.range s.setSize).filter (fun p => p != h && s.isLost p)
  match lost with
  | [_] => live ++ ((s.copiesOf d).filter (fun c => c.1 != h && !s.isLost c.1)).take 1
  | _ => live

/-- Starts reconstructing the sub-block at device offset d of position h: RECON_READ to every other member of its row. With
another member unreadable too it ends at once with no answers (R613). -/
def Dev.startRecon (s : Dev) (h grp d : Nat) (writeBack : Bool) (why : ReconFor) : Dev :=
  let id := s.nextId
  let ts := s.reconTargets h d
  let whole := ts.length + 1 == s.setSize
  let e : Recon := { id := id, d := d, grp := grp, waiting := if whole then ts.map Prod.fst else [], answers := [],
                     writeBack := writeBack, why := why }
  let s1 := { s with nextId := id + 1, shadow.recons := s.shadow.recons ++ [e] }
  if whole then s1.each ts (fun s p => s.send (.reconRead p.1 id p.2)) else s1

/-- The sub-block that a list of answers gives: the XOR of all, each member's pending delta that the parity slice has
not recorded added once more (R612); none where a member is unreadable. Only the parity slice, or a rebuilt copy of its page,
answers
with records. -/
def combineAnswers (as : List ReconAnswer) : Option (Sub × Bool) :=
  if as.isEmpty || as.any (fun a => !a.readable) then none
  else
    let rec_ := as.flatMap (fun a => a.recorded)
    some (as.foldl (fun acc a =>
      let x := (acc.1 ^^^ a.data, acc.2 != a.poison)
      match a.pending with
      | some (t, dl, p) =>
        if !rec_.contains (a.sender, t) then (x.1 ^^^ dl, x.2 != p) else x
      | none => x) ((0 : Sub), false))

/-- Records a double fault (R613, R823). -/
def Dev.doubleFault (s : Dev) (grp d : Nat) : Dev :=
  let a := foldedAddress grp d
  let s1 := ((s.raise F.shdErr_DOUBLE_FAULT).alert alertShd).errorRecord 0x07 s.pos a 0
  if s1.on F.shdDouble_VALID then s1 else s1.setReg R.shdDouble (2 ^ 63 + a)

/-- The reconstruction of an identity, and without it. -/
def Dev.recon (s : Dev) (id : Nat) : Option Recon := s.shadow.recons.find? (fun e => e.id == id)
def Dev.dropRecon (s : Dev) (id : Nat) : Dev :=
  { s with shadow.recons := s.shadow.recons.filter (fun e => e.id != id) }

/-! ### Write-backs (R122, R141, R598, R599, R614) -/

/-- The write-back of an identity, changed, and without it. -/
def Dev.wb (s : Dev) (id : Nat) : Option Wb := s.cache.wbs.find? (fun w => w.id == id)
def Dev.updWb (s : Dev) (id : Nat) (f : Wb → Wb) : Dev :=
  { s with cache.wbs := s.cache.wbs.map (fun w => if w.id == id then f w else w) }
def Dev.dropWb (s : Dev) (id : Nat) : Dev := { s with cache.wbs := s.cache.wbs.filter (fun w => w.id != id) }

/-- The newest open write-back of a place. -/
def Dev.wbAt (s : Dev) (p : Place) : Option Wb :=
  (s.cache.wbs.filter (fun w => w.grp == p.grp && w.d == p.d && w.adopted == p.adopted &&
    (match p.kind with | .refl _ => false | _ => true))).getLast?

/-- Where the home position of a write-back lies. -/
def Dev.wbPos (s : Dev) (w : Wb) : Nat := if w.adopted then s.get F.shdStatus_ADOPTED else s.pos

/-- The class of a write-back's read and write: a death's poison write is urgent (R264). -/
def Wb.dramClass (w : Wb) : DramClass :=
  match w.why with
  | .poison _ _ => .urgent
  | _ => .demand

/-- Queues the data write of a write-back (R598 step 2). -/
def Dev.wbWrite (s : Dev) (w : Wb) : Dev :=
  ((s.updWb w.id (fun w => { w with step := .write })).issueWrite w.grp w.d w.data w.poison w.dramClass (.wb w.id)).2

/-- Where the parity updates of a sub-block go: its parity slice, the rebuilt copies of a lost one, or nowhere
(R598, R628, R632). -/
def Dev.parityTargets (s : Dev) (d : Nat) : List (Nat × Nat) :=
  let p := paritySlice d s.setSize
  if s.isLost p then s.copiesOf d else [(p, d)]

/-- The poison symbol of a delta: the XOR of the two, or the new sub-block's in a set of 2 (R598). -/
def Dev.deltaPoison (s : Dev) (w : Wb) : Bool := if s.setSize == 2 then w.poison else w.poison != w.oldPoison

/-- Sends the deltas of a write-back (R598 step 3), and its data to the rebuilt copies of its page (R632). -/
def Dev.wbDelta (s : Dev) (w : Wb) : Dev :=
  let s1 := if w.adopted then
      (s.copiesOf w.d).foldl (fun s c => s.send (.side c.1 0 c.1 (facetGroup c.2 0) c.2 true (some (fullMask, w.data)))) s
    else s
  let pois := s.deltaPoison w
  (s.parityTargets w.d).foldl (fun s c =>
    let id := s.nextId
    ({ s with nextId := id + 1, shadow.deltaOut := s.shadow.deltaOut ++ [(id, w.id, c.1)] }).send
      (.parityDelta c.1 id c.2 pois)) (s1.updWb w.id (fun w => { w with step := .delta }))

/-- Starts the first step of a write-back: only the write in an unshadowed chunk; else the old value's read, which a
set of 2 skips and which a lost location takes from its stripe (R598, R614). -/
def Dev.wbBegin (s : Dev) (w : Wb) : Dev :=
  if !w.shadowed then s.wbWrite w
  else
    let s1 := s.updWb w.id (fun w => { w with step := .readOld })
    if w.adopted || s.channelFailed w.grp then
      if s.setSize == 2 then s1.wbDelta w else s1.startRecon (s.wbPos w) w.grp w.d false (.oldData w.id)
    else if s.setSize == 2 then s1.wbWrite w
    else (s1.issueRead w.grp (w.d / 256 * 256) (BitVec.ofNat 4 (2 ^ ((w.d / 64) % 4))) true w.dramClass (.oldData w.id)).2

/-- Starts a write-back of a sub-block, behind any earlier one of the same sub-block (R599). -/
def Dev.startWb (s : Dev) (p : Place) (data : Sub) (poison : Bool) (why : WbFor) : Dev :=
  let w : Wb := { id := s.nextId, facet := p.facet, grp := p.grp, d := p.d, data := data, poison := poison,
                  shadowed := p.shadowed, adopted := p.adopted, old := 0, oldPoison := false, step := .held, why := why }
  let behind := p.shadowed && s.cache.wbs.any (fun x => x.grp == p.grp && x.d == p.d && x.adopted == p.adopted)
  let s1 := ({ s with nextId := s.nextId + 1, cache.wbs := s.cache.wbs ++ [w] }).event evWriteBack p.facet
  if behind then s1 else s1.wbBegin w

/-- Notes when the poison write of a death is done (R273). -/
def Dev.poisonDone (s : Dev) (w : Wb) : Dev :=
  match w.why with
  | .poison a _ => { s with cache.deaths := s.cache.deaths.map (fun (d : Death) =>
      if d.agent == a then { d with last := some s.now } else d) }
  | _ => s

/-- A write-back has reached step 5, or its write where it needs no delta: it ends, its mirror copy goes, and the next
write-back of its sub-block starts (R598, R599, R609). -/
def Dev.wbEnd (s : Dev) (w : Wb) : Dev :=
  let s1 := (s.dropWb w.id).poisonDone w
  let s2 := if w.shadowed && !w.adopted then s1.releaseMirror w.grp (w.d / 256 * 256) [(w.d / 64) % 4] else s1
  match s2.cache.wbs.find? (fun x => x.grp == w.grp && x.d == w.d && x.adopted == w.adopted && x.step == .held) with
  | some n => s2.wbBegin n
  | none => s2

/-- The data write of a write-back is done, or it writes none: the deltas go out; none ends it (R598, R628). -/
def Dev.wbWritten (s : Dev) (id : Nat) : Dev :=
  match s.wb id with
  | none => s
  | some w =>
    if !w.shadowed || (s.parityTargets w.d).isEmpty then s.wbEnd w else s.wbDelta w

/-- The old value of a write-back is known: it writes, or, with its location lost, sends its delta (R598, R614). -/
def Dev.wbOld (s : Dev) (id : Nat) (old : Sub) (poison : Bool) : Dev :=
  match s.wb id with
  | none => s
  | some w =>
    let w' := { w with old := old, oldPoison := poison }
    let s1 := s.updWb id (fun _ => w')
    if w.adopted || s.channelFailed w.grp then s1.wbWritten id else s1.wbWrite w'

/-- The data of a delta: old XOR new, or the new sub-block in a set of 2 (R598). -/
def Dev.deltaData (s : Dev) (w : Wb) : Sub := if s.setSize == 2 then w.data else w.old ^^^ w.data

/-- COMP of a delta: PARITY_RELEASE, and the end of the write-back with its last one (R598 step 5). -/
def Dev.deltaComp (s : Dev) (sender txid : Nat) : Dev :=
  match s.shadow.deltaOut.find? (fun e => e.1 % 4096 == txid) with
  | none => s
  | some (t, id, _) =>
    let s1 := { s with shadow.deltaOut := s.shadow.deltaOut.filter (fun e => e.1 != t) }
    match s1.wb id with
    | none => s1
    | some w =>
      let at_ := ((s.parityTargets w.d).find? (fun c => c.1 == sender)).map Prod.snd
      let s2 := s1.send (.parityRelease sender t (at_.getD w.d))
      if s2.shadow.deltaOut.any (fun e => e.2.1 == id) then s2 else s2.wbEnd w

/-! ### The parity engine (R597, R600, R823) -/

/-- Parity engine entries of a facet, and records in use. -/
def Dev.parityBusy (s : Dev) (f : Nat) : Nat :=
  (s.shadow.parity.filter (fun o => o.started && s.fuse.owner (facetGroup o.d 0) == f)).length

/-- Records in use and those that the deltas of the operations under way will take (R600). -/
def Dev.recordsTaken (s : Dev) : Nat :=
  s.shadow.deltas.length + (s.shadow.parity.filter (fun o => o.started && !o.writing)).foldl (fun a o => a + o.deltas.length) 0

/-- Records the deltas that an operation applies; those of a slice since lost leave none (R600, R619). -/
def Dev.recordDeltas (s : Dev) (o : ParityOp) : Dev :=
  let recs := (o.deltas.filter (fun e => !s.isLost e.1.toNat)).map (fun e => ({ sender := e.1, txid := e.2.1, d := o.d } : DeltaRec))
  let s1 := { s with shadow.deltas := s.shadow.deltas ++ recs }
  s1.peak F.shdRecords_PEAK s1.shadow.deltas.length

/-- Changes a parity operation. -/
def Dev.updParity (s : Dev) (id : Nat) (g : ParityOp → ParityOp) : Dev :=
  { s with shadow.parity := s.shadow.parity.map (fun x => if x.id == id then g x else x) }

/-- Starts a waiting parity operation that may start: no other one of its sub-block runs, its engine has an entry, and
records are free (R597, R600). In a set of 2 the copy is written without a read. -/
def Dev.parityBegin (s : Dev) (o : ParityOp) : Dev :=
  let grp := facetGroup o.d 0
  let other := s.shadow.parity.any (fun x => x.d == o.d && x.started)
  if o.started || other || 16 ≤ s.parityBusy (s.fuse.owner grp) || 4096 < s.recordsTaken + o.deltas.length then s
  else
    if s.setSize == 2 then
      let last := o.deltas.getLastD (0, 0, 0, false)
      ((s.updParity o.id (fun x => { x with started := true, writing := true })).issueWrite grp o.d last.2.2.1 last.2.2.2
        .demand (.parity o.id)).2.recordDeltas o
    else
      ((s.updParity o.id (fun x => { x with started := true })).issueRead grp (o.d / 256 * 256)
        (BitVec.ofNat 4 (2 ^ ((o.d / 64) % 4))) true .demand (.parity o.id)).2

/-- Starts every parity operation that may start. -/
def Dev.parityRun (s : Dev) : Dev := s.each s.shadow.parity Dev.parityBegin

/-- A delta arrives with its data: it joins the waiting operation of its sub-block, or one that has not yet read while a record is
free, or a new
one (R600). Its data is pulled (R601), unless its PULL has been sent. -/
def Dev.parityArrive (s : Dev) (sender : Pos) (txid : BitVec 12) (d : Nat) (delta : Sub) (poison pulled : Bool) : Dev :=
  let s1 := if pulled then s else s.send (.pull (sliceAgent sender.toNat) txid)
  let e := (sender, txid, delta, poison)
  match s1.shadow.parity.find? (fun o => o.d == d && !o.writing && !o.recompute && (!o.started || s1.recordsTaken < 4096)) with
  | some o =>
    (s1.updParity o.id (fun x => { x with deltas := x.deltas ++ [e] })).parityRun
  | none =>
    let o : ParityOp := { id := s1.nextId, d := d, deltas := [e], started := false, writing := false,
                          recompute := false }
    ({ s1 with nextId := s1.nextId + 1, shadow.parity := s1.shadow.parity ++ [o] }).parityRun

/-- Writes a parity sub-block and records every delta that the operation holds as applied (R600, R823). -/
def Dev.parityWrite (s : Dev) (o : ParityOp) (data : Sub) (poison : Bool) : Dev :=
  let s1 := s.updParity o.id (fun x => { x with writing := true })
  (s1.issueWrite (facetGroup o.d 0) o.d data poison .demand (.parity o.id)).2.recordDeltas o

/-- The parity sub-block has been read: every delta is XORed in (R598 step 4). -/
def Dev.parityOld (s : Dev) (id : Nat) (old : Sub) (poison : Bool) : Dev :=
  match s.shadow.parity.find? (fun o => o.id == id) with
  | none => s
  | some o =>
    let r := o.deltas.foldl (fun acc e => (acc.1 ^^^ e.2.2.1, acc.2 != e.2.2.2)) (old, poison)
    s.parityWrite o r.1 r.2

/-- The parity sub-block is unreadable: it is recomputed from the row's data members (R823). -/
def Dev.parityLost (s : Dev) (id : Nat) : Dev :=
  match s.shadow.parity.find? (fun o => o.id == id) with
  | none => s
  | some o =>
    let s1 := s.updParity id (fun x => { x with recompute := true })
    s1.startRecon s.pos (facetGroup o.d 0) o.d false (.parity id)

/-- A parity sub-block that a scrub found unreadable is recomputed and written back, unless an operation of its own that
reads or writes it is under way (R563, R569, R823). -/
def Dev.parityRepair (s : Dev) (d : Nat) : Dev :=
  if s.shadow.parity.any (fun o => o.d == d) then s
  else
    let o : ParityOp := { id := s.nextId, d := d, deltas := [], started := true, writing := false, recompute := true }
    ({ s with nextId := s.nextId + 1, shadow.parity := s.shadow.parity ++ [o] }).parityLost o.id

/-- The members have answered (R823): pending deltas that are neither recorded nor held are XORed once more, and those
held count as applied. -/
def Dev.parityRecomputed (s : Dev) (id : Nat) (as : List ReconAnswer) : Dev :=
  match s.shadow.parity.find? (fun o => o.id == id) with
  | none => s
  | some o =>
    if as.isEmpty || as.any (fun a => !a.readable) then
      (s.doubleFault (facetGroup o.d 0) o.d).parityWrite o 0 true
    else
      let known := fun (p : Pos) (t : BitVec 12) =>
        s.shadow.deltas.any (fun r => r.d == o.d && r.sender == p && r.txid == t) ||
          s.shadow.parity.any (fun x => x.d == o.d && x.deltas.any (fun e => e.1 == p && e.2.1 == t))
      let r := as.foldl (fun acc a =>
        let x := (acc.1 ^^^ a.data, acc.2 != a.poison)
        match a.pending with
        | some (t, dl, p) => if known a.sender t then x else (x.1 ^^^ dl, x.2 != p)
        | none => x) ((0 : Sub), false)
      s.parityWrite o r.1 r.2

/-- The parity write is done: COMP for every delta of the operation, which ends (R598 step 4). -/
def Dev.parityDone (s : Dev) (id : Nat) : Dev :=
  match s.shadow.parity.find? (fun o => o.id == id) with
  | none => s
  | some o =>
    let s1 := s.each (o.deltas.filter (fun e => !s.isLost e.1.toNat)) (fun s e => s.send (.comp e.1.toNat e.2.1 [.ok]))
    ({ s1 with shadow.parity := s1.shadow.parity.filter (fun x => x.id != id) }).parityRun

/-- PARITY_RELEASE: the record goes, and waiting deltas may be applied (R600). -/
def Dev.parityReleased (s : Dev) (sender : Pos) (txid : BitVec 12) (d : Nat) : Dev :=
  ({ s with shadow.deltas := s.shadow.deltas.filter (fun r => !(r.sender == sender && r.txid == txid && r.d == d)) }).parityRun

/-- What a member answers to RECON_READ of a sub-block: its data as stored now, its pending delta once the write is done, and the
records of the parity slice (R612). A write that the stack has not done yet is not in the answer. -/
def Dev.reconAnswer (s : Dev) (dst : Nat) (txid : BitVec 12) (d : Nat) (readable urgent : Bool) : Dev :=
  let mine := s.cache.wbs.filter (fun w => w.d == d && w.shadowed && !w.adopted)
  let x := match mine.find? (fun w => w.step == .write && s.setSize != 2) with
    | some w => (w.old, w.oldPoison)
    | none => s.dramWord d
  let parityAt := (((s.parityTargets d).map Prod.fst).find? (fun p => p != dst)).getD dst
  let pending := (mine.find? (fun w => w.step == .delta)).bind (fun w =>
    (s.shadow.deltaOut.find? (fun e => e.2.1 == w.id && e.2.2 == parityAt)).map (fun e =>
      (BitVec.ofNat 12 e.1, s.deltaData w, s.deltaPoison w)))
  let a : ReconAnswer :=
    { sender := BitVec.ofNat 3 s.pos, txid := txid, data := if readable then x.1 else 0, poison := readable && x.2,
      readable := readable, pending := pending,
      recorded := (s.shadow.deltas.filter (fun r => r.d == d)).map (fun r => (r.sender, r.txid)) }
  s.send (.reconAnswer dst a urgent)

/-! ### The buddy's side (R606, R609) -/

/-- The mirror way that holds a sector of a facet group, or the first empty one. -/
def Dev.mirrorWay (s : Dev) (grp sector : Nat) : Option Nat :=
  let f := s.fuse.owner grp
  let p := s.placeAt grp sector true
  let ws := s.waysOf f clsMirror
  match ws.find? (fun w => match s.line f p.set w with | some l => l.tag == p.tag && l.group == p.group | none => false) with
  | some w => some w
  | none => ws.find? (fun w => (s.line f p.set w).isNone)

/-- Key of the atomic records of a mirrored sector. -/
def recordKey (grp sector : Nat) : Nat := sector * 64 + grp

/-- Stores sub-blocks as a MIRROR_PUT does: dirty, SHD 1, AGE 0, with the put's record (R120, R606, R608). -/
def Dev.mirrorStore (s : Dev) (grp sector : Nat) (subs : BitVec 4) (data : List Sub) (record : Option AtomicRecord) :
    Option Dev :=
  let f := s.fuse.owner grp
  let p := s.placeAt grp sector true
  match s.mirrorWay grp sector with
  | none => none
  | some w =>
    let l0 := (s.line f p.set w).getD (emptyLine p 0)
    let l := ((onesOf 4 subs.toNat).zip data).foldl (fun (l : Line) e => l.setSub e.1 true true e.2) { l0 with age := 0 }
    let s1 := (s.setLine f p.set w l).each (onesOf 4 subs.toNat) (fun s i => s.heal f p.set w i)
    match record with
    | some r => some { s1 with shadow.records := s1.shadow.records ++ [(recordKey grp sector, r)] }
    | none => some s1

/-- Frees mirrored sub-blocks; a way with no dirty sub-block frees with its records (R609). -/
def Dev.mirrorFree (s : Dev) (grp sector : Nat) (subs : BitVec 4) : Dev :=
  let f := s.fuse.owner grp
  let p := s.placeAt grp sector true
  match (s.waysOf f clsMirror).find? (fun w =>
      match s.line f p.set w with | some l => l.tag == p.tag && l.group == p.group | none => false) with
  | none => s
  | some w =>
    let s1 := s.updLine f p.set w (fun l => (onesOf 4 subs.toNat).foldl Line.dropSub l)
    if (s1.line f p.set w).isNone then
      { s1 with shadow.records := s1.shadow.records.filter (fun r => r.1 != recordKey grp sector) }
    else s1

end Sys2Proof.Machine
end

