-- ==== Sys2Proof/Machine/Fill.lean ====
section
/-! DEFINITION. Fills, evictions, placing dirty data, and the bounds they meet (R121 to R129, R139 to R143, R252,
R608, R824). -/

namespace Sys2Proof.Machine

/-! ### Reservations for tickets (R250, R252) -/

/-- Whether two tickets wait on one bound instance (R250). -/
def Ticket.sameInstance (a b : Ticket) : Bool :=
  a.facet == b.facet && a.bound == b.bound &&
    match a.bound with
    | .waiter => a.d / 256 == b.d / 256
    | .victim => setIndex a.d == setIndex b.d
    | .directory => dirSet a.d == dirSet b.d
    | _ => true

/-- Reservations that stand on a bound instance of a facet for tickets other than one's own (R252): the instance that granule d
would wait on. -/
def Dev.rsv (s : Dev) (f : Nat) (own : Option (BitVec 16)) (b : Bound) (d : Nat) : Nat :=
  let me : Ticket := { facet := f, ticket := 0, agent := 0, d := d, bound := b, txid := 0, reserved := false, since := 0 }
  ((s.ticketsOf f).filter (fun t => t.reserved && t.sameInstance me && some t.ticket != own)).length

/-- Places reserved in the shared waiter pool for tickets other than one's own (R140, R250, R252). -/
def Dev.rsvPool (s : Dev) (f : Nat) (own : Option (BitVec 16)) : Nat :=
  (s.cache.tickets.filter (fun t => t.reserved && t.bound == .waiter && !(t.facet == f && some t.ticket == own))).length

/-! ### Evictions -/

/-- The place of sub-block i of the line of a way. -/
def Dev.linePlace (s : Dev) (f w : Nat) (l : Line) (i : Nat) : Place :=
  { kind := if l.refl then .refl l.hue else if s.wayClass f w == clsMirror then .adopted else .own
    facet := f, grp := l.grp, group := l.group, d := l.d + 64 * i, tag := l.tag, shadowed := l.shd }

/-- Starts the write-back of sub-block i of a way's line, read from the data array: its data, or the poison code where that
is not readable (R133). -/
def Dev.wbOf (s : Dev) (f set w : Nat) (l : Line) (i : Nat) (why : WbFor) : Dev :=
  let r := s.dataCheck f set w i
  r.1.startWb (s.linePlace f w l i) (if r.2 then Sector.sub l.data i else 0) (!r.2) why

/-- Evicts the line of a way: its dirty sub-blocks are written back, and an ordinary way's sector enters the victim
filter, but not for a prefetch (R122, R192). -/
def Dev.evict (s : Dev) (f set w : Nat) (filter : Bool) : Dev :=
  match s.line f set w with
  | none => s
  | some l =>
    let entry := s.nextId
    let s1 := s.each l.dirtySubs (fun s i => s.wbOf f set w l i (.evict entry))
    let s2 := s1.delLine f set w
    if filter && s.wayClass f w == clsOrdinary && l.valid != 0 then s2.filterAdd f set l else s2

/-- The bound that taking a way would meet, for a part with a ticket of its own or for none (R121, R141, R142, R252). -/
def Dev.wayBound (s : Dev) (p : Place) (cls : Nat) (own : Option (BitVec 16)) : Option Bound :=
  let c := s.candidates p.facet p.set cls
  if c.length ≤ s.rsv p.facet own .victim p.d then some .victim
  else match s.victim p.facet p.set cls with
    | none => some .victim
    | some (w, _) =>
      let dirty := ((s.line p.facet p.set w).map (fun l => !l.dirtySubs.isEmpty)).getD false
      if dirty && 8 ≤ s.wbEntries p.facet + s.rsv p.facet own .writeBack p.d then some .writeBack else none

/-- Takes a way for a fill of a class, its victim evicted; or the bound that is met, what is reserved for tickets left alone (R121,
R141, R142, R252). -/
def Dev.allocWay (s : Dev) (p : Place) (cls : Nat) (filter : Bool) : Except Bound (Nat × Dev) :=
  match s.wayBound p cls none, s.victim p.facet p.set cls with
  | some b, _ => .error b
  | none, none => .error .victim
  | none, some (w, s1) => .ok (w, s1.evict p.facet p.set w filter)

/-! ### Fills (R123, R125, R126, R129) -/

/-- A list in pieces of n, the last one shorter; l has at most k elements. -/
def pieces (n : Nat) : Nat → List Nat → List (List Nat)
  | 0, _ => []
  | _, [] => []
  | k + 1, l => l.take n :: pieces n k (l.drop n)

/-- Sub-blocks of a sector as a mask. -/
def subMask (l : List Nat) : BitVec 4 := BitVec.ofNat 4 (l.foldl (fun a i => a + 2 ^ i) 0)

/-- Reads sub-blocks of a sector from the stack for a PLR, planned bulk in bursts (R548); a lost slice's come from a rebuilt copy
or from the stripe (R611, R632). -/
def Dev.fillRead (s : Dev) (p : Place) (plr : Nat) (subs : List Nat) (c : DramClass) : Dev :=
  let sector := p.d / 256 * 256
  match p.kind with
  | .adopted => s.each subs (fun s i =>
      let d := sector + 64 * i
      match (s.copiesOf d).find? (fun c => !s.isLost c.1) with
      | some c =>
        let e : Recon := { id := s.nextId, d := d, grp := p.grp, waiting := [c.1], answers := [], writeBack := false,
                           why := .fill plr i }
        ({ s with nextId := s.nextId + 1, shadow.recons := s.shadow.recons ++ [e] }).send
          (.side c.1 e.id c.1 (facetGroup c.2 0) c.2 true none)
      | none => s.startRecon (s.homePos p) p.grp d false (.fill plr i))
  | _ =>
    let n := if c == .bulk then s.burst (pcNumber p.grp p.d) else 4
    s.each (pieces n 4 subs) (fun s l =>
      (s.issueRead p.grp sector (subMask l) p.shadowed c (.fill plr)).2)

/-- A sub-block reaches its PLR: data, or none for poison. It enters the reserved way where it is still invalid (R125), and the line
takes the fill's age (R120); one that only a no-fill read asked for does not (R227). Poison leaves it invalid (R129), and so does a
poisoning under the fill (R263). -/
def Dev.fillSub (s : Dev) (id i : Nat) (v0 : Option Sub) : Dev :=
  match s.cache.plrs.find? (fun x => x.id == id) with
  | none => s
  | some x =>
    let v := if bitAt x.gone.toNat i then none else v0
    let s1 := s.updPlr id (fun x =>
      { x with
        fetching := BitVec.ofNat 4 (withBits x.fetching.toNat i i 0)
        bad := BitVec.ofNat 4 (withBits x.bad.toNat i i (b2n v.isNone))
        data := Sector.put x.data i (v.getD 0) })
    let f := x.place.facet
    let set := x.place.set
    match v, if bitAt x.keep.toNat i then x.way else none with
    | some y, some w =>
      match s1.lookup x.place with
      | some (w', l) =>
        if l.isValid i then s1 else (s1.setLine f set w' ({ l with age := x.age }.setSub i true false y)).heal f set w' i
      | none => (s1.setLine f set w ((emptyLine x.place x.age).setSub i true false y)).heal f set w i
    | _, _ => s1

/-- The sub-block of a place as an open write-back holds it (R257): data, or none where it is poison. -/
def Dev.captured (s : Dev) (p : Place) : Option (Option Sub) :=
  (s.wbAt p).map (fun w => if w.poison then none else some w.data)

/-- Fetches sub-blocks for a PLR: those that a write-back holds come from it, the others from the stack (R123, R257). -/
def Dev.fillStart (s : Dev) (p : Place) (id : Nat) (subs : List Nat) (c : DramClass) : Dev :=
  let sector := p.d / 256 * 256
  let s1 := s.updPlr id (fun x => { x with fetching := x.fetching ||| subMask subs })
  let at_ := fun (i : Nat) => s.captured { p with d := sector + 64 * i }
  let s2 := s1.each subs (fun s i =>
    match at_ i with
    | some v => s.fillSub id i v
    | none => s)
  let rest := subs.filter (fun i => (at_ i).isNone)
  if rest.isEmpty then s2 else s2.fillRead p id rest c

/-- What a fetch serves: a demand read's whole sector, a read's one sub-block that fills no way (R126), the one sub-block
that a partial write merges into (R124), a prefetch (R127), or a planned read, which keeps its sector or passes it on (R339). -/
inductive FetchFor where
  | read | noFill | merge | prefetch | planned | pass
deriving DecidableEq, Repr

/-- Whether a far atomic is at its engine for sub-block i of a place's sector, so that no fill takes it from DRAM (R232, R436). -/
def Dev.atEngine (s : Dev) (p : Place) (i : Nat) : Bool :=
  s.cache.txns.any (fun t => t.stage == .rmw && t.place.same { p with d := p.d / 256 * 256 + 64 * i })

/-- Sub-blocks of a sector that a fill fetches: every invalid one, or only the one that a partial write merges into (R123, R124). -/
def Dev.fillSubs (s : Dev) (p : Place) (why : FetchFor) : List Nat :=
  if why == .merge then [p.sub]
  else
    let valid := fun (i : Nat) => match s.lookup p with
      | some (_, l) => l.isValid i
      | none => false
    (List.range 4).filter (fun i => !valid i && !s.atEngine p i)

/-- A new PLR for the sector of a place, with its first waiter. -/
def Dev.newPlr (s : Dev) (p : Place) (way : Option Nat) (age : BitVec 2) (prefetch : Bool) (w : Option Waiter) : Plr :=
  { id := s.nextId, place := p, fetching := 0, bad := 0, gone := 0, keep := 0, data := 0, way := way, age := age
    prefetch := prefetch, waiters := w.toList }

/-- Whether a waiter's request is urgent (R47, R481). -/
def Dev.urgentWaiter (s : Dev) (w : Waiter) : Bool := ((s.req (s.waiterPart w).1).map (fun e => e.r.urgent)).getD false

/-- The class of a fetch's DRAM reads: a planned read's are bulk, an urgent request's urgent, and all others, a prefetch's too,
other demand (R44, R128). -/
def Dev.fetchClass (s : Dev) (why : FetchFor) (w : Option Waiter) : DramClass :=
  if why == .planned || why == .pass then .bulk else if w.any s.urgentWaiter then .urgent else .demand

/-- The bound that a PLR for a sector, or a waiter's place on it, would meet (R140, R142, R252). -/
def Dev.plrBound (s : Dev) (p : Place) (w : Waiter) (own : Option (BitVec 16)) : Option Bound :=
  match s.plrAt p with
  | some x =>
    if s.waiterFree x w (s.rsv p.facet own .waiter p.d) (s.rsvPool p.facet own) then none else some .waiter
  | none => if 16 ≤ (s.plrsOf p.facet).length + s.rsv p.facet own .plr p.d then some .plr else none

/-- Fetches the sector of a place: joins its PLR, or takes one with a way (R123, R124, R126, R140 to R142). The sub-block of
the place is not valid. A miss meets the victim filter after the eviction that makes its way has entered it (R192; log entry 91). A
prefetch's own reads stay other demand when an urgent request joins it (R128). -/
def Dev.fetch (s : Dev) (p : Place) (cls : Nat) (age : BitVec 2) (why : FetchFor) (w : Option Waiter) : Except Bound Dev :=
  let noFill := why == .noFill || why == .pass
  let c := s.fetchClass why w
  let want := s.fillSubs p why
  let keeps := fun (x : Plr) (k : Option Nat) =>
    { x with way := k, age := if x.way.isSome then x.age else age, keep := if noFill then x.keep else x.keep ||| subMask want }
  match s.plrAt p with
  | some x =>
    if w.any (fun w => (s.plrBound p w none).isSome) then .error .waiter
    else
      let s0 := s.updPlr x.id (fun x => { x with waiters := x.waiters ++ w.toList })
      let s1 := if c == .urgent && !x.prefetch then s0.hasten x.id else s0
      let subs := want.filter (fun i => !bitAt x.fetching.toNat i)
      if noFill || x.way.isSome then .ok ((s1.updPlr x.id (fun x => keeps x x.way)).fillStart p x.id subs c)
      else match s1.lookup p with
        | some (k, _) => .ok ((s1.updPlr x.id (fun x => keeps x (some k))).fillStart p x.id subs c)
        | none =>
          match s1.allocWay p cls (why != .prefetch) with
          | .error b => .error b
          | .ok (k, s2) => .ok ((s2.updPlr x.id (fun x => keeps x (some k))).fillStart p x.id subs c)
  | none =>
    if 16 ≤ (s.plrsOf p.facet).length + s.rsv p.facet none .plr p.d then .error .plr
    else
      let mk := fun (s : Dev) (way : Option Nat) =>
        let x := keeps (s.newPlr p none age (why == .prefetch) w) way
        let s1 := { s with nextId := s.nextId + 1, cache.plrs := s.cache.plrs ++ [x] }
        (if why == .prefetch then s1.event evPrefetch p.facet else if why == .planned || why == .pass then s1 else s1.filterMiss p).fillStart p
          x.id want c
      if noFill then .ok (mk s none)
      else match s.lookup p with
        | some (k, _) => .ok (mk s (some k))
        | none =>
          match s.allocWay p cls (why != .prefetch) with
          | .error b => .error b
          | .ok (k, s1) => .ok (mk s1 (some k))

/-- Joins a held granule's PLR as a waiter, taking one as a hold register where its sector has none (R242). -/
def Dev.holdWait (s : Dev) (p : Place) (w : Waiter) : Except Bound Dev :=
  match s.plrBound p w none, s.plrAt p with
  | some b, _ => .error b
  | none, some x => .ok (s.updPlr x.id (fun x => { x with waiters := x.waiters ++ [w] }))
  | none, none => .ok { s with nextId := s.nextId + 1, cache.plrs := s.cache.plrs ++ [s.newPlr p none 0 false (some w)] }

/-- Prefetches the sector of a place when its conditions hold, and else drops the prefetch (R127, R128). Its AGE is 2 in a
STREAM region too (log entry 96). A sector whose every sub-block comes from write-backs leaves no PLR behind. -/
def Dev.prefetchAt (s0 : Dev) (p : Place) (cls : Nat) : Dev :=
  let s := s0.readTags p.facet p.set
  let noValid := match s.lookup p with
    | some (_, l) => l.valid == 0
    | none => true
  if s.phase != .eclipse && noValid && (s.plrAt p).isNone && (s.plrsOf p.facet).length + s.rsv p.facet none .plr p.d + 4 ≤ 16 then
    match s.fetch p cls 2 .prefetch none with
    | .ok s1 => s1.each (s1.plrAt p).toList (fun s x => s.freePlr x.id)
    | .error _ => s
  else s

/-- The next sector's prefetch of a read miss that allocated a way: here, or as a hint to its facet, which carries the class of
the miss (R113, R127, R128). -/
def Dev.prefetchNext (s : Dev) (p : Place) (cls : Nat) : Dev :=
  let d := p.d / 256 * 256 + 256
  match p.kind with
  | .refl _ => s
  | k =>
    if d / 4096 != p.d / 4096 then s
    else
      let grp := if d / 1024 == p.d / 1024 then p.grp else s.groupOn (s.homePos p) d
      let q := if k == .adopted then s.adoptedPlaceAt grp d p.shadowed else s.placeAt grp d p.shadowed
      if q.facet == p.facet then s.prefetchAt q cls
      else ({ s with cache.hints := s.cache.hints ++ [(q, cls)] }).send (.prefetchHint q.facet grp d)

/-- A prefetch hint reaches its facet, with the class of its miss (R113, R127, R128). One that no miss of this slice sent finds
nothing to do. -/
def Dev.hintArrive (s : Dev) (grp d cls : Nat) (shadowed : Bool) : Dev :=
  match s.cache.hints.find? (fun h => h.1.grp == grp && h.1.d == d && h.2 == cls && h.1.shadowed == shadowed) with
  | none => s
  | some h => ({ s with cache.hints := s.cache.hints.erase h }).prefetchAt h.1 h.2

/-! ### Placing dirty data (R226, R230, R604, R824) -/

/-- Places dirty data of a place in the cache, or meets a bound, one reserved for a ticket too (R824, R608, R252). A line found
there becomes the newest, unless its
own fill has just brought it (filled); a way newly taken, which no fill of its own brings, gets AGE 1 (R120; log entry 97). -/
def Dev.placeDirty (s : Dev) (p : Place) (cls : Nat) (filled : Bool) (data : Sub) : Except Bound Dev :=
  let f := p.facet
  let put := fun (s : Dev) (w : Nat) (l : Line) => (s.setLine f p.set w (l.setSub p.sub true true data)).heal f p.set w p.sub
  if s.quotaFull p then .error .writeBack
  else match s.lookup p with
    | some (w, l) => .ok (put s w (if filled then l else { l with age := 0 }))
    | none =>
      match (s.plrAt p).bind (fun x => x.way.map (fun w => (w, x.age))) with
      | some (w, age) => .ok (put s w (emptyLine p age))
      | none =>
        match s.allocWay p cls true with
        | .error b => .error b
        | .ok (w, s1) => .ok (put s1 w (emptyLine p 1))

/-- Starts the write-back of a dirty sub-block, which stays valid and clean, or is dropped. -/
def Dev.writeBackSub (s : Dev) (p : Place) (drop : Bool) (why : WbFor) : Dev :=
  match s.lookup p with
  | none => s
  | some (w, l) =>
    if l.isDirty p.sub then
      let r := s.dataCheck p.facet p.set w p.sub
      (r.1.updLine p.facet p.set w (fun l => if drop || !r.2 then l.dropSub p.sub else l.cleanSub p.sub)).startWb p
        (if r.2 then Sector.sub l.data p.sub else 0) (!r.2) why
    else if drop then s.updLine p.facet p.set w (fun l => l.dropSub p.sub)
    else s

/-- Writes back early the oldest mirrored sector of a place's set (R608). -/
def Dev.earlyWb (s : Dev) (p : Place) : Dev :=
  match s.mirroredIn p with
  | [] => s
  | m :: _ =>
    let ps := ((List.range 4).map (fun i => s.placeAt m.grp (m.sector + 64 * i) true)).filter s.dirtyAt
    if ps.isEmpty then s
    else (s.each ps (fun s q => s.writeBackSub q false .early)).bump F.shdCount_EARLY_WB

/-- Poisons the granule of a transaction: the home's copy goes, a fill under way brings none back, and the poison code word is
written through the write-back path (R225, R263). -/
def Dev.poisonGranule (s : Dev) (p : Place) (why : WbFor) : Dev :=
  let d := s.dirtyAt p
  let s1 := s.updAt p (fun l => l.dropSub p.sub)
  let s2 := match s1.plrAt p with
    | some x => if bitAt x.fetching.toNat p.sub then
        s1.updPlr x.id (fun x => { x with gone := BitVec.ofNat 4 (withBits x.gone.toNat p.sub p.sub 1) }) else s1
    | none => s1
  let s3 := if d && p.shadowed then s2.releaseMirror p.grp (p.d / 256 * 256) [p.sub] else s2
  s3.startWb p 0 true why

/-- A read of a place's sub-block from the data array: an error found there is handled before the data is used (R133). -/
def Dev.readCheck (s : Dev) (p : Place) : Dev :=
  match s.lookup p with
  | none => s
  | some (w, l) =>
    if !l.isValid p.sub then s
    else
      let r := s.dataCheck p.facet p.set w p.sub
      if r.2 then r.1
      else if l.isDirty p.sub then r.1.poisonGranule p .early
      else r.1.updAt p (fun l => l.dropSub p.sub)

/-! ### Bounds before a part starts (R142, R143) -/

/-- The bound that a fetch would meet. -/
def Dev.fetchBound (s : Dev) (p : Place) (cls : Nat) (noFill : Bool) (w : Waiter) (own : Option (BitVec 16)) : Option Bound :=
  match s.plrBound p w own with
  | some b => some b
  | none =>
    let has := (s.lookup p).isSome || ((s.plrAt p).map (fun x => x.way.isSome)).getD false
    if noFill || has then none else s.wayBound p cls own

/-- The bound that placing dirty data would meet. -/
def Dev.storeBound (s : Dev) (p : Place) (cls : Nat) (own : Option (BitVec 16)) : Option Bound :=
  if s.quotaFull p then some .writeBack
  else
    let has := (s.lookup p).isSome || ((s.plrAt p).map (fun x => x.way.isSome)).getD false
    if has then none else s.wayBound p cls own

end Sys2Proof.Machine
end

