-- ==== Sys2Proof/Machine/Coherence.lean ====
section
/-! DEFINITION. Transactions on granules: the snoops, the home transitions of R223 to R229, and the steps a
transaction takes until it completes (chapters 06, 07, 12). -/

namespace Sys2Proof.Machine

/-! ### Home states -/

/-- The owner of a home state. -/
def HomeState.owner : HomeState → Option Agent
  | .excl o => some o
  | .owned o _ => some o
  | .ownedFlare o => some o
  | _ => none

/-- Whether a state is OWNED (R225). -/
def HomeState.isOwned : HomeState → Bool
  | .owned _ _ => true
  | .ownedFlare _ => true
  | _ => false

/-- A shared state of sharers: U for none, flare for more than four (R210). -/
def mkShared (l : List Agent) : Option HomeState :=
  let p := l.eraseDups
  if p.isEmpty then none else if 4 < p.length then some .flare else some (.shared p)

/-- An owned state: owned flare with more than three sharers (R210). -/
def mkOwned (o : Agent) (l : List Agent) : Option HomeState :=
  let p := (l.filter (fun a => a != o)).eraseDups
  if 3 < p.length then some (.ownedFlare o) else some (.owned o p)

/-! ### Snoops (R219, R223, R227, R229, R622) -/

def snpShared : BitVec 3 := 0
def snpUnique : BitVec 3 := 1
def snpClean : BitVec 3 := 2
def snpInv : BitVec 3 := 3
def snpOnce : BitVec 3 := 4

/-- The snoop that an operation sends to an owner (R223, R227, R229). -/
def ownerSnoop (op : Op) (shadowed : Bool) : Option (BitVec 3) :=
  match op with
  | .readShared => some snpShared
  | .readUnique => some snpUnique
  | .claim => some snpUnique
  | .readOnce => some snpOnce
  | .readOnceNofill => some snpOnce
  | .clean => some snpClean
  | .invalidate => some snpInv
  | .darken => some (if shadowed then snpUnique else snpInv)
  | .writeBack => none
  | _ => some snpUnique

/-- Whether an operation leaves sharers their copies. -/
def keepsSharers (op : Op) : Bool :=
  match op with
  | .readShared => true
  | .readOnce => true
  | .readOnceNofill => true
  | .clean => true
  | .writeBack => true
  | _ => false

/-- The snoops of READ_UNIQUE, and of a CLAIM of an agent that the entry does not list (R223). -/
def uniqueSnoops (st : HomeState) (r : Agent) (all : List Agent) : List (Agent × BitVec 3) :=
  match st with
  | .shared p => (p.filter (fun a => a != r)).map (fun a => (a, snpInv))
  | .flare => (all.filter (fun a => a != r)).map (fun a => (a, snpInv))
  | .excl o => if o == r then [] else [(o, snpUnique)]
  | .owned o p => (o, snpUnique) :: (p.filter (fun a => a != r)).map (fun a => (a, snpInv))
  | .ownedFlare o => (o, snpUnique) :: (all.filter (fun a => a != r && a != o)).map (fun a => (a, snpInv))

/-- The snoops of an operation of a requester on a home state (R223, R227, R229). -/
def snoopsFor (op : Op) (st : Option HomeState) (r : Agent) (shadowed : Bool) (all : List Agent) :
    List (Agent × BitVec 3) :=
  match st with
  | none => []
  | some h =>
    match op with
    | .readShared =>
      match h.owner with
      | some o => if h == .excl r then [] else [(o, snpShared)]
      | none => []
    | .readUnique => uniqueSnoops h r all
    | .claim =>
      match h with
      | .shared p => (p.filter (fun a => a != r)).map (fun a => (a, snpInv))
      | .owned o p =>
        if o == r then p.map (fun a => (a, snpInv))
        else if p.contains r then (o, snpInv) :: (p.filter (fun a => a != r)).map (fun a => (a, snpInv))
        else uniqueSnoops h r all
      | _ => uniqueSnoops h r all
    | _ =>
      match ownerSnoop op shadowed with
      | none => []
      | some c =>
        let own := h.owner.toList.map (fun o => (o, c))
        if keepsSharers op then own
        else
          let ps := match h with
            | .shared p => p
            | .owned _ p => p
            | .flare => all
            | .ownedFlare o => all.filter (fun a => a != o)
            | .excl _ => []
          own ++ ps.map (fun a => (a, snpInv))

/-! ### Decisions (R223 to R229) -/

/-- What a transaction's snoop replies decide. data: what the replies returned for the requester, or as the base of the
operation; home: the home's data is needed; dirtyIn: data to place dirty (R226); bad: the owner gave no data (R225). -/
structure Decision where
  after : Option HomeState := none
  home : Bool := false
  data : Option Sub := none
  dirtyIn : Option Sub := none
  grant : BitVec 2 := 0
  bad : Bool := false
deriving DecidableEq, Repr

/-- READ_UNIQUE's rows, and a CLAIM's that are as READ_UNIQUE (R223, R224). -/
def decideUnique (st : Option HomeState) (r : Agent) (rep : Reply) : Decision :=
  let home : Decision := { after := some (.excl r), home := true, grant := 2 }
  match st with
  | some h =>
    if h.owner.isNone || h == .excl r then home
    else match rep.data with
      | some x => { after := some (.excl r), data := some x, grant := 3 }
      | none => if h.isOwned then { bad := true } else home
  | none => home

/-- READ_SHARED's rows (R223). -/
def decideShared (st : Option HomeState) (r : Agent) (rep : Reply) : Decision :=
  let fresh : Decision := { after := some (.excl r), home := true, grant := 2 }
  let take := fun (x : Sub) (o : Agent) (p : List Agent) (flare : Bool) =>
    if 3 ≤ rep.final.toNat then
      ({ after := if flare then some (.ownedFlare o) else mkOwned o (p ++ [r]), data := some x, grant := 1 } : Decision)
    else
      let l := if rep.final == 0 then p ++ [r] else p ++ [o, r]
      { after := if flare then some .flare else mkShared l, data := some x, dirtyIn := some x, grant := 1 }
  match st with
  | none => fresh
  | some (.shared p) => { after := mkShared (p ++ [r]), home := true, grant := 1 }
  | some .flare => { after := some .flare, home := true, grant := 1 }
  | some (.excl o) =>
    if o == r then fresh
    else match rep.data with
      | some x => take x o [] false
      | none => if rep.notPresent || rep.final == 0 then fresh
        else { after := mkShared [o, r], home := true, grant := 1 }
  | some (.owned o p) =>
    match rep.data with
    | some x => take x o p false
    | none => { bad := true }
  | some (.ownedFlare o) =>
    match rep.data with
    | some x => take x o [] true
    | none => { bad := true }

/-- The rows of READ_ONCE and READ_ONCE_NOFILL (R227). -/
def decideOnce (st : Option HomeState) (rep : Reply) : Decision :=
  match st with
  | some (.excl o) =>
    match rep.data with
    | some x =>
      if 3 ≤ rep.final.toNat then { after := st, data := some x }
      else { after := if rep.final == 0 then none else if rep.final == 1 then mkShared [o] else st, data := some x,
             dirtyIn := some x }
    | none =>
      { after := if rep.notPresent || rep.final == 0 then none else if rep.final == 1 then mkShared [o] else st,
        home := true }
  | some (.owned o p) =>
    match rep.data with
    | some x =>
      if 3 ≤ rep.final.toNat then { after := st, data := some x }
      else { after := mkShared (if rep.final == 0 then p else p ++ [o]), data := some x, dirtyIn := some x }
    | none => { bad := true }
  | some (.ownedFlare _) =>
    match rep.data with
    | some x =>
      if 3 ≤ rep.final.toNat then { after := st, data := some x }
      else { after := some .flare, data := some x, dirtyIn := some x }
    | none => { bad := true }
  | _ => { after := st, home := true }

/-- CLEAN's rows (R229). -/
def decideClean (st : Option HomeState) (rep : Reply) : Decision :=
  match st with
  | some (.excl o) =>
    { after := if rep.notPresent || rep.final == 0 then none else if rep.final == 1 then mkShared [o] else st,
      dirtyIn := rep.data }
  | some (.owned o p) =>
    if rep.data.isNone then { bad := true }
    else { after := mkShared (if rep.final == 0 then p else p ++ [o]), dirtyIn := rep.data }
  | some (.ownedFlare _) => if rep.data.isNone then { bad := true } else { after := some .flare, dirtyIn := rep.data }
  | _ => { after := st }

/-- What an operation decides once every reply has arrived (R223 to R229). rep: the owner's reply. -/
def decide_ (op : Op) (st : Option HomeState) (r : Agent) (shadowed : Bool) (rep : Reply) : Decision :=
  let owned := (st.map HomeState.isOwned).getD false
  match op with
  | .readShared => decideShared st r rep
  | .readUnique => decideUnique st r rep
  | .claim =>
    match st with
    | some (.shared p) => if p.contains r then { after := some (.excl r), grant := 3 } else decideUnique st r rep
    | some (.owned o p) =>
      if o == r || p.contains r then { after := some (.excl r), grant := 3 } else decideUnique st r rep
    | _ => decideUnique st r rep
  | .readOnce => decideOnce st rep
  | .readOnceNofill => decideOnce st rep
  | .clean => decideClean st rep
  | .invalidate => {}
  | .darken => if !shadowed then {} else if owned && rep.data.isNone then { bad := true } else { dirtyIn := rep.data }
  | .cleanInvalidate => if owned && rep.data.isNone then { bad := true } else { dirtyIn := rep.data }
  | .writeBack =>
    match st with
    | some (.excl o) => if o == r then { data := some 0 } else { after := st }
    | some (.owned o p) => if o == r then { after := mkShared p, data := some 0 } else { after := st }
    | some (.ownedFlare o) => if o == r then { after := some .flare, data := some 0 } else { after := st }
    | _ => { after := st }
  | _ => if owned && rep.data.isNone then { bad := true } else { data := rep.data }

/-- A state without an agent. -/
def withoutAgent (r : Agent) (st : Option HomeState) : Option HomeState :=
  match st with
  | some (.shared p) => mkShared (p.filter (fun a => a != r))
  | some (.excl o) => if o == r then none else st
  | some (.owned o p) => if o == r then mkShared p else mkOwned o (p.filter (fun a => a != r))
  | some (.ownedFlare o) => if o == r then some .flare else st
  | _ => st

/-- The next state recast so that the requester holds the place it held before (R236). -/
def recast (before after : Option HomeState) (r : Agent) : Option HomeState :=
  let rest := withoutAgent r after
  let owner := (before.bind HomeState.owner) == some r
  let sharer := match before with
    | some (.shared p) => p.contains r
    | some (.owned _ p) => p.contains r
    | some .flare => true
    | some (.ownedFlare _) => !owner
    | _ => false
  if owner then
    match rest, before with
    | none, some (.owned _ _) => some (.owned r [])
    | none, some (.ownedFlare _) => some (.owned r [])
    | none, _ => some (.excl r)
    | some (.shared p), _ => mkOwned r p
    | some .flare, _ => some (.ownedFlare r)
    | st, _ => st
  else if sharer then
    match rest with
    | none => some (.shared [r])
    | some (.shared p) => mkShared (p ++ [r])
    | some (.excl o) => mkOwned o [r]
    | some (.owned o p) => mkOwned o (p ++ [r])
    | st => st
  else rest

/-! ### Transactions -/

/-- The transaction of an identity, changed, and without it. -/
def Dev.txn (s : Dev) (id : Nat) : Option Txn := s.cache.txns.find? (fun t => t.id == id)
def Dev.updTxn (s : Dev) (id : Nat) (f : Txn → Txn) : Dev :=
  { s with cache.txns := s.cache.txns.map (fun t => if t.id == id then f t else t) }
def Dev.dropTxn (s : Dev) (id : Nat) : Dev := { s with cache.txns := s.cache.txns.filter (fun t => t.id != id) }

/-- Whether a transaction belongs to a wide-VIEW request, or to a planned write, which is held as one (R315, R351). -/
def Dev.typedTxn (s : Dev) (t : Txn) : Bool :=
  match t.cause with
  | .request id _ => ((s.req id).map (fun e => e.r.view != 0)).getD false
  | .planned _ _ _ => true
  | _ => false

/-- The hue of the request that a transaction serves. -/
def Dev.txnHue (s : Dev) (t : Txn) : Option Hue :=
  match t.cause with
  | .request id _ => (s.req id).map (fun e => e.r.hue)
  | _ => none

/-- Sends a transaction's answer to whoever waits for it (R221, R222, R828); what a region stores is read as stored, padding too
(log entry 131). -/
def Dev.txnAnswer (s : Dev) (t : Txn) : Dev :=
  match t.cause with
  | .request id i =>
    let s1 := if t.op.grants then s.updReq id (fun e => { e with grant := if t.code == .ok then t.grant else 0 }) else s
    let data := match t.op with
      | .readShared => t.held
      | .readUnique => t.held
      | .claim => t.held
      | .readOnce => some (t.held.getD 0)
      | .readOnceNofill => some (t.held.getD 0)
      | .atomic => if t.code == .ok then t.held else none
      | .farAtomic => if t.code == .ok then t.held else none
      | _ => none
    s1.finish id i t.code data
  | .side a true => s.send (.sideData a.sender a.txid t.code (if t.code == .ok then t.held.getD 0 else 0))
  | _ => s

/-- Counts the poisoned granule of a death (R263, R265): per facet the count, the first offset, and the write's end. -/
def Dev.countPoisoned (s : Dev) (agent : Agent) (facet d : Nat) : Dev :=
  let l := s.cache.deathCount
  if l.any (fun e => e.1 == agent && e.2.1 == facet) then
    { s with cache.deathCount := l.map (fun e => if e.1 == agent && e.2.1 == facet then (e.1, e.2.1, e.2.2.1 + 1, e.2.2.2) else e) }
  else { s with cache.deathCount := l ++ [(agent, facet, 1, d)] }

/-- Whether the directory walk for a fenced agent has been made here (R260, R262). -/
def Dev.walked (s : Dev) (a : Agent) : Bool :=
  s.fenced a.toNat && (s.cache.deaths.find? (fun d => d.agent == a)).all (fun d => 1 ≤ d.walk)

/-- A home state without the sharers that a walk has passed (R262). -/
def Dev.withoutDead (s : Dev) (st : Option HomeState) : Option HomeState :=
  match st with
  | some (.shared p) => mkShared (p.filter (fun a => !s.walked a))
  | some (.owned o p) => mkOwned o (p.filter (fun a => !s.walked a))
  | _ => st

/-- Poisons the granule of a transaction whose owner, in a home state st, is dead: SNP_INV goes to the sharers of st that have
not been snooped, and the granule stays held until the write and every reply are in (R262, R263). -/
def Dev.poisonOwner (s : Dev) (t : Txn) (st : Option HomeState) (agent : Agent) : Dev :=
  let p := t.place
  let sharers := match st with
    | some (.owned _ l) => l
    | some (.ownedFlare _) => s.cachers.filter (fun a => a != agent)
    | _ => []
  let more := sharers.filter (fun a => !s.fenced a.toNat && !t.awaiting.contains a && !t.replies.any (fun r => r.agent == a))
  let s1 := s.updTxn t.id (fun _ =>
    { t with code := .poison, held := some 0, dirtyIn := none, grant := 0, after := none, stage := .owed,
             awaiting := t.awaiting ++ more, since := s.now })
  let src := sliceAgent (if p.shadowed then s.buddy else s.pos)
  let addr := if more.isEmpty then 0 else s.addressOf (s.homePos p) p.d
  let s2 := s1.each more (fun s a => (s.send (.snoop a src (BitVec.ofNat 12 t.id) snpInv addr)).event evSnoop p.facet)
  let all := (st.map HomeState.isFlare).getD false && !more.isEmpty && !t.broadcast
  let s3 := if all then (s2.bump (F.fctDirCount_BROADCASTS p.facet)).event evBroadcast p.facet else s2
  (s3.countPoisoned agent p.facet p.d).poisonGranule p (.poison agent t.id)

/-- Whether the response that carries an answer of a request has not left yet (R241, R467). -/
def Dev.unitOwed (s : Dev) (id i : Nat) : Bool := (s.req id).any (fun e => !e.sent.contains (e.unitOf i))

/-- A request's transaction, answered, sets the home state; its hold ends, or waits for COMP_ACK or for the response that carries
its answer to leave (R221, R241). -/
def Dev.txnLeave (s : Dev) (t : Txn) (id i : Nat) : Dev :=
  let s1 := s.setHome t.place t.after t.dirWay
  if t.op.grants && t.code == .ok && !t.answered && !s.walked t.src then
    s1.updTxn t.id (fun _ => { t with stage := .ack, dirWay := none, since := s.now })
  else if s1.unitOwed id i then s1.updTxn t.id (fun _ => { t with stage := .leave, dirWay := none })
  else s1.dropTxn t.id

/-- Ends a transaction: its answer, then the home state and the end of the hold (R221, R241). An owner that the walk for a dead
agent has passed makes its granule poisoned instead (R262, R263). A recall waits for its completion event (R214). -/
def Dev.txnEnd (s : Dev) (t : Txn) : Dev :=
  match t.cause with
  | .recall _ _ => s.updTxn t.id (fun t => { t with stage := .done })
  | .side _ _ => (s.txnAnswer t).dropTxn t.id
  | .zero _ _ => s.dropTxn t.id
  | .request id i =>
    let s1 := if t.answered then s else s.txnAnswer t
    let st := s.withoutDead t.after
    match st.bind HomeState.owner with
    | some o =>
      if t.place.kind == .own && s.walked o then s1.poisonOwner { t with answered := true } st o
      else s1.txnLeave { t with after := st } id i
    | none => s1.txnLeave { t with after := st } id i
  | _ =>
    let st := s.withoutDead t.after
    match st.bind HomeState.owner with
    | some o =>
      if t.place.kind == .own && s.walked o then s.poisonOwner t st o else (s.setHome t.place st t.dirWay).dropTxn t.id
    | none => (s.setHome t.place st t.dirWay).dropTxn t.id

/-- Whether a transaction still owes a mirror copy, a write-back or a poison write, or awaits a reply or a COMP_ACK beside it. -/
def Dev.owing (s : Dev) (t : Txn) : Bool :=
  s.shadow.puts.any (fun u => u.txn == t.id) ||
    s.cache.wbs.any (fun w => match w.why with
      | .txn id => id == t.id
      | .poison _ id => id == t.id
      | _ => false) ||
    (t.stage == .owed && (!t.awaiting.isEmpty || t.ackDue))

/-- Waits for what a transaction owes, then ends it (R230, R154, R263). -/
def Dev.txnOwed (s : Dev) (t : Txn) : Dev :=
  let t1 := { t with stage := Stage.owed }
  let s1 := s.updTxn t.id (fun _ => t1)
  if s1.owing t1 then s1 else s1.txnEnd t1

/-- After dirty data is placed: its mirror copy, or, with the buddy lost, its write-back (R604, R628). -/
def Dev.afterDirty (s : Dev) (t : Txn) (data : Sub) (record : Option AtomicRecord) : Dev :=
  if !t.place.shadowed then s
  else if s.mirrors && t.place.kind == .own then s.putMirror t.place data record t.id
  else s.writeBackSub t.place false (.txn t.id)

/-- The atomic record of an operation's mirror put (R608). -/
def txnRecord (t : Txn) (old : Nat) : Option AtomicRecord :=
  match t.op, t.cause with
  | .atomic, .request _ _ => some { src := t.src, txid := 0, old := BitVec.ofNat 64 old }
  | .reduceStore, .request _ _ => some { src := t.src, txid := 0, old := BitVec.ofNat 64 old }
  | _, _ => none

/-- The request's TXID in a transaction's record. -/
def Dev.recordOf (s : Dev) (t : Txn) : Option AtomicRecord :=
  (txnRecord t 0).map (fun r =>
    match t.cause with
    | .request id i =>
      match s.req id with
      | some e => { r with txid := e.r.txid, old := BitVec.ofNat 64 (bitsOf (e.data.getD i 0).toNat 63 0) }
      | none => r
    | _ => r)

/-- The allocation class of the agent that supplied a transaction's snooped dirty data, or its own (R226). -/
def Dev.supplierClass (s : Dev) (t : Txn) : Nat :=
  if t.place.adopted then allocMirror
  else match t.replies.find? (fun r => r.data.isSome) with
    | some r => s.agentClass r.agent.toNat
    | none => t.cls

/-- Places a transaction's result dirty in the cache, under the class of an agent whose data it was merged with (R226); at a bound
it
keeps the data and waits (R824). resp: what its response returns. -/
def Dev.txnStore (s : Dev) (t : Txn) (data : Sub) (resp : Option Sub) : Dev :=
  match s.placeDirty t.place (s.supplierClass t) t.filled data with
  | .error b =>
    let s1 := if b == .writeBack then s.earlyWb t.place else s
    s1.updTxn t.id (fun _ => { t with stage := .store, dirtyIn := some data, held := resp })
  | .ok s1 =>
    let t1 := { t with held := resp, dirtyIn := none }
    ((s1.updTxn t.id (fun _ => t1)).afterDirty t1 data (s1.recordOf t1)).txnOwed t1

/-- Ends a transaction that changes nothing, with a code. -/
def Dev.txnCode (s : Dev) (t : Txn) (c : Code) (data : Option Sub) : Dev := s.txnOwed { t with code := c, held := data }

/-- Poisons a transaction's destination and ends it (R413). -/
def Dev.txnPoison (s : Dev) (t : Txn) : Dev := (s.poisonGranule t.place (.txn t.id)).txnOwed { t with held := none }

/-- The pulled data and the byte mask of a write. -/
def Dev.writeInput (s : Dev) (t : Txn) : Sub × Nat :=
  match t.cause with
  | .request id i =>
    match s.req id with
    | some e =>
      (e.data.getD i 0, if e.op == .write && e.r.len == 0 then e.r.mask.toNat else fullMask.toNat)
    | none => (0, 0)
  | .side a _ =>
    match a.store with
    | some (m, x) => (x, m.toNat)
    | none => (0, 0)
  | .zero _ a =>
    match a.store with
    | some (m, x) => (x, m.toNat)
    | none => (0, 0)
  | .planned _ a _ =>
    match a.store with
    | some (m, x) => (x, m.toNat)
    | none => (0, 0)
  | _ => (0, 0)

/-- Whether a write-class transaction needs the resident data before its effect (R124, R401, R406, R419). -/
def Dev.needsBase (s : Dev) (t : Txn) : Bool :=
  match t.op with
  | .write => (s.writeInput t).2 != fullMask.toNat
  | .writeBack => false
  | .atomic => true
  | .farAtomic => true
  | .reduceStore =>
    match t.cause with
    | .flow _ _ mode _ => stepReads mode
    | _ => true
  | _ => false

/-- A line of a flow that stays or becomes poisoned at its destination sets POISON_OUT (R413). -/
def Dev.poisonOut (s : Dev) (t : Txn) : Dev :=
  match t.cause with
  | .flow _ _ _ _ => s.raise F.crdErr_POISON_OUT
  | .planned id _ _ => s.raiseIf (s.lens.jobs.any (fun j => j.id == id && 4 ≤ j.owner)) F.crdErr_POISON_OUT
  | _ => s

/-- The effect of a write-class transaction on its resident data, none where that is poisoned (R148, R229, R404, R406,
R412, R413, R419). -/
def Dev.txnApply (s : Dev) (t : Txn) (base : Option Sub) : Dev :=
  match t.cause with
  | .flow _ _ mode lines =>
    let s0 := s.event evChord t.place.facet
    match stepResult mode lines base with
    | none => (s0.raise F.crdErr_POISON_OUT).txnPoison t
    | some r => ((s0.bump F.crdCount_REDUCE_LINES (stepLines mode lines)).chordFlags r.2).txnStore t r.1 none
  | _ =>
    let inp := s.writeInput t
    match t.op with
    | .write =>
      if inp.2 == fullMask.toNat then s.txnStore t inp.1 none
      else match base with
        | some b => s.txnStore t (mergeMask inp.2 b inp.1) none
        | none => (s.poisonOut t).txnCode t .poison none
    | .atomic =>
      match t.cause, base with
      | .request id i, some b =>
        let e := s.req id
        let arg := (e.map (fun e => e.r.arg)).getD 0
        let r := atomicApply arg inp.1 b
        let s1 := ((s.chordFlags r.2.2).bump F.crdCount_ATOMICS).event evChord t.place.facet (s.txnHue t)
        let s2 := s1.updReq id (fun e => { e with data := e.data.set i r.2.1 })
        match r.1 with
        | some v => s2.txnStore t v (some r.2.1)
        | none => if t.dirtyIn.isSome then s2.txnStore t b (some r.2.1) else s2.txnCode t .ok (some r.2.1)
      | _, _ => (s.raise F.crdErr_POISON_RES).txnCode t .poison none
    | .reduceStore =>
      match t.cause, base with
      | .request id _, some b =>
        let op := ((s.req id).map (fun e => argOp e.r.arg)).getD 0
        let r := reduceApply op b inp.1
        (((s.chordFlags r.2).bump F.crdCount_REDUCE_LINES).event evChord t.place.facet (s.txnHue t)).txnStore t r.1 none
      | _, _ => (s.raise F.crdErr_POISON_RES).txnCode t .poison none
    | .writeBack => s.txnStore t inp.1 none
    | _ => s.txnOwed t

/-- The read of a far atomic has come back: its merged value is queued and it is answered (R405, R565 to R567). -/
def Dev.rmwRead (s : Dev) (id : Nat) (old : Option Sub) : Dev :=
  match s.txn id with
  | none => s
  | some t =>
    let s0 := { s with stack.rmw := s.stack.rmw.filter (fun r => r.txn != id) }
    match t.cause, old with
    | .request rid _, some o =>
      let arg := ((s0.req rid).map (fun e => e.r.arg)).getD 0
      let r := atomicApply arg (s0.writeInput t).1 o
      let s1 := (s0.chordFlags r.2.2).bump F.crdFar_FAR
      let s2 := match r.1 with
        | some v => (s1.issueWrite t.place.grp t.place.d v false .demand .rmw).2
        | none => s1
      s2.txnCode t .ok (some r.2.1)
    | _, _ => (s0.raise F.crdErr_POISON_RES).txnCode t .poison none

/-- A far atomic at its engine: eight entries per facet; it waits for one (R232, R565, R568). -/
def Dev.txnRmw (s : Dev) (t : Txn) : Dev :=
  let t1 := { t with stage := Stage.rmw, held := none, dirtyIn := none }
  let s1 := s.updTxn t.id (fun _ => t1)
  if 8 ≤ (s.stack.rmw.filter (fun r => r.facet == t.place.facet)).length then s1
  else
    let r : Rmw := { facet := t.place.facet, d := t.place.d, txn := t.id }
    let s2 := { s1 with stack.rmw := s1.stack.rmw ++ [r] }
    (s2.issueRead t.place.grp (t.place.d / 256 * 256) (BitVec.ofNat 4 (2 ^ t.place.sub)) false .demand (.rmw t.id)).2

/-- A read of a place that finds a darken marker (R147). -/
def Dev.markerRead (s : Dev) (p : Place) (hue : Option Hue) : Dev :=
  let f := p.facet
  match s.lookup p with
  | some (_, l) =>
    if l.isMarker p.sub then
      let s1 := (s.bump (F.fctDarken_COUNT f)).raise (F.fctErr_DARK_REREAD f)
      let s2 := s1.event evDarkRead f hue
      if s2.on (F.fctDarken_CAPTURED f) then s2
      else (s2.put (F.fctDarken_FIRST f) (p.d / 64)).raise (F.fctDarken_CAPTURED f)
    else s
  | none => s

/-- A read, or a CLAIM served with data, that found a darken marker (R147, R224). -/
def Dev.countMarker (s : Dev) (t : Txn) : Dev :=
  if t.op.isRead || t.op == .claim then s.markerRead t.place (s.txnHue t) else s

/-- A request for a grant is answered POISON: its entry keeps its state where no snoop was sent, and otherwise takes the next
state recast (R236). -/
def Dev.txnNoGrant (s : Dev) (t : Txn) : Dev :=
  let after := if t.replies.isEmpty then t.before else recast t.before t.after t.src
  s.txnOwed { t with code := .poison, held := some 0, grant := 0, after := after }

/-- A transaction has its base data or learns that it is poisoned. -/
def Dev.txnBase (s : Dev) (t : Txn) (v : Option Sub) : Dev :=
  match t.op with
  | .readShared =>
    match v with
    | some x => s.txnCode t .ok (some x)
    | none => s.txnNoGrant t
  | .readUnique =>
    match v with
    | some x => s.txnCode t .ok (some x)
    | none => s.txnNoGrant t
  | .claim =>
    match v with
    | some x => s.txnCode t .ok (some x)
    | none => s.txnNoGrant t
  | .readOnce =>
    let t1 := { t with code := if v.isSome then .ok else .poison, held := some (v.getD 0) }
    if s.typedTxn t then s.updTxn t.id (fun _ => { t1 with stage := .typed }) else s.txnOwed t1
  | .readOnceNofill =>
    let t1 := { t with code := if v.isSome then .ok else .poison, held := some (v.getD 0) }
    if s.typedTxn t then s.updTxn t.id (fun _ => { t1 with stage := .typed }) else s.txnOwed t1
  | _ => s.txnApply t v

/-- What the fetch of an operation serves: a whole sector for a read, the one sub-block for a read without fill or for an
operation that merges into it (R123, R124, R126). -/
def fetchFor (op : Op) : FetchFor :=
  match op with
  | .readOnceNofill => .noFill
  | .write => .merge
  | .atomic => .merge
  | .reduceStore => .merge
  | _ => .read

/-- Takes a transaction off its PLR, whose data it has from a write-back entry. -/
def Dev.leavePlr (s : Dev) (p : Place) (id : Nat) : Dev :=
  match s.plrAt p with
  | some x => (s.updPlr x.id (fun y => { y with waiters := y.waiters.erase (.txn id) })).freePlr x.id
  | none => s

/-- Gets the home's data for a transaction: from the cache, a write-back entry, or a fill it waits for (R123, R257). A read miss
whose sub-block a write-back entry holds goes on with it, and its sector's others are fetched. One that tries again after a bound
has been counted (R147). A read miss that takes a way prefetches (R127). -/
def Dev.txnFetch (s00 : Dev) (t : Txn) : Dev :=
  let again := t.stage == .base
  let s := s00.readCheck t.place
  match s.cached t.place with
  | some x =>
    let s0 := s.touch t.place
    (if again then s0 else s0.event evReadHit t.place.facet (s.txnHue t)).txnBase t (some x)
  | none =>
    let s0 := if again then s else (s.countMarker t).event evReadMiss t.place.facet (s.txnHue t)
    let why := fetchFor t.op
    match s0.captured t.place, why with
    | some v, .merge => s0.txnBase t v
    | v, _ =>
      let t1 := { t with stage := Stage.base }
      let s1 := s0.updTxn t.id (fun _ => t1)
      let age : BitVec 2 := if t.aged then 3 else 1
      let has := (s1.lookup t.place).isSome || (s1.plrAt t.place).any (fun x => x.way.isSome)
      match s1.fetch t.place t.cls age why (some (.txn t.id)) with
      | .error _ => s1
      | .ok s2 =>
        let s3 := if t.prefetch && why == .read && !has then s2.prefetchNext t.place t.cls else s2
        match v with
        | some x => (s3.leavePlr t.place t.id).txnBase { t1 with filled := true } x
        | none => s3

/-- A line with sub-block i left as a darken marker (R119, R146). -/
def Line.markSub (l : Line) (i : Nat) : Line :=
  { l.dropSub i with dirty := BitVec.ofNat 4 (withBits l.dirty.toNat i i 1) }

/-- Whether a fill of a place's sector is under way. -/
def Dev.filling (s : Dev) (p : Place) : Bool := (s.plrAt p).any (fun x => x.fetching != 0)

/-- Whether an operation acts only after a pending fill of its sector (R156, R232, R257). -/
def waitsFill (op : Op) : Bool :=
  match op with
  | .clean => true
  | .invalidate => true
  | .cleanInvalidate => true
  | .darken => true
  | .farAtomic => true
  | _ => false

/-- Serves the home's own part of a transaction once its snoops, pod and snooped dirty data are settled; one that waits for a
fill of its sector, begun meanwhile, goes on with it. -/
def Dev.txnServe (s : Dev) (t : Txn) : Dev :=
  if waitsFill t.op && s.filling t.place then s.updTxn t.id (fun _ => { t with stage := .fill })
  else match t.op with
  | .clean => (s.writeBackSub t.place false (.txn t.id)).txnOwed t
  | .cleanInvalidate => (s.writeBackSub t.place true (.txn t.id)).txnOwed t
  | .invalidate =>
    let d := s.dirtyAt t.place
    let s1 := s.updAt t.place (fun l => l.dropSub t.place.sub)
    (if d && t.place.shadowed then s1.releaseMirror t.place.grp (t.place.d / 256 * 256) [t.place.sub] else s1).txnOwed t
  | .darken =>
    if t.place.shadowed then (s.writeBackSub t.place true (.txn t.id)).txnOwed t
    else if t.strict then
      ((s.updAt t.place (fun l => l.dropSub t.place.sub)).startWb t.place 0 true (.txn t.id)).txnOwed t
    else (s.updAt t.place (fun l => if l.isValid t.place.sub then l.markSub t.place.sub else l)).txnOwed t
  | .farAtomic => (s.writeBackSub t.place true .early).txnRmw t
  | .writeBack => if t.held.isSome then s.txnApply { t with held := none } none else s.txnOwed t
  | .write =>
    if s.typedTxn t then s.updTxn t.id (fun _ => { t with stage := .typed })
    else if s.needsBase t then
      match t.dirtyIn with
      | some x => s.txnApply t (some x)
      | none => s.txnFetch t
    else s.txnApply t none
  | .atomic =>
    match t.dirtyIn with
    | some x => s.txnApply t (some x)
    | none => s.txnFetch t
  | .reduceStore =>
    if !s.needsBase t then s.txnApply t none
    else match t.dirtyIn with
      | some x => s.txnApply t (some x)
      | none => s.txnFetch t
  | _ =>
    match t.held with
    | some x => s.txnBase t (some x)
    | none => if t.op == .claim && t.grant == 3 then s.txnOwed t else s.txnFetch t

/-- Whether an operation takes snooped dirty data as its own base instead of placing it first. -/
def takesBase (op : Op) : Bool :=
  match op with
  | .write => true
  | .atomic => true
  | .reduceStore => true
  | .writeBack => true
  | _ => false

/-- Places snooped dirty data (R226), with AGE 1 in a new way (log entry 97), then serves. At a bound the transaction keeps the
data and waits (R824). -/
def Dev.txnPlace (s : Dev) (t : Txn) : Dev :=
  match t.dirtyIn with
  | none => s.txnServe t
  | some x =>
    if takesBase t.op then s.txnServe t
    else match s.placeDirty t.place (s.supplierClass t) false x with
      | .error b =>
        let s1 := if b == .writeBack then s.earlyWb t.place else s
        s1.updTxn t.id (fun _ => { t with stage := .place })
      | .ok s1 =>
        let t1 := { t with dirtyIn := none }
        ((s1.updTxn t.id (fun _ => t1)).afterDirty t1 x none).txnServe t1

/-- The reflection-path writes of an agent that this slice has posted and that are not done (R449). -/
def Dev.postedWrites (s : Dev) (src : Agent) : List Nat :=
  (s.rfl_.queue.filter (fun e => e.2.write && e.2.src == src)).map Prod.fst

/-- Sends POD_SYNC for a pod-scope operation of an agent to every live slice, and gives those whose POD_SYNC_DONE it awaits: this
one among them while it has posted writes that are not done (R449). -/
def Dev.podStart (s : Dev) (src : Agent) (id : Nat) : Dev × List Nat :=
  let others := s.livePositions.filter (fun p => p != s.pos)
  let mine := s.postedWrites src
  let s1 := s.each others (fun s p => s.send (.ctl p (.podSync src (BitVec.ofNat 12 id))))
  if mine.isEmpty then (s1, others)
  else ({ s1 with cache.pods := s1.cache.pods ++ [(s.pos, src.toNat, id % 4096, mine)] }, others ++ [s.pos])

/-- Whether every slice whose POD_SYNC_DONE is awaited is lost (log entry 112). -/
def Dev.podOver (s : Dev) (wait : List Nat) : Bool := wait.all s.isLost

/-- A pod-scope operation first sends POD_SYNC to every slice and waits for their POD_SYNC_DONE (R449). -/
def Dev.txnPod (s : Dev) (t : Txn) : Dev :=
  let scope := match t.cause with
    | .request id _ => if t.op == .atomic || t.op == .farAtomic || t.op == .reduceStore then
        ((s.req id).map (fun e => argScope e.r.arg)).getD 0 else 0
    | _ => 0
  if scope != 3 then s.txnPlace t
  else
    let w := s.podStart t.src t.id
    let t1 := { t with stage := Stage.pod, podWait := w.2 }
    let s1 := w.1.updTxn t.id (fun _ => t1)
    if w.2.isEmpty then s1.txnPlace t1 else s1

/-- The owner's reply of a transaction; on an adopted granule the reply that returned data, or one that was present
(R622). An owner that is fenced was not snooped and counts as not present. -/
def Dev.ownerReply (_s : Dev) (t : Txn) : Reply :=
  let none_ : Reply := { agent := 0, final := 0, data := none, notPresent := true }
  if t.place.adopted then
    match t.replies.find? (fun r => r.data.isSome) with
    | some r => r
    | none => (t.replies.find? (fun r => !r.notPresent)).getD none_
  else match t.before.bind HomeState.owner with
    | some o => (t.replies.find? (fun r => r.agent == o)).getD none_
    | none => none_

/-- The state that a transaction decides on: the directory's, or on an adopted granule one in which the snooped agent
that replied may own it (R622). -/
def Dev.decideState (s : Dev) (t : Txn) : Option HomeState :=
  if t.place.adopted then (if t.replies.isEmpty then none else some (.excl (s.ownerReply t).agent)) else t.before

/-- The fenced owner that a transaction would have snooped (R261, R262). -/
def Dev.deadOwnerOf (s : Dev) (t : Txn) : Option Agent :=
  if t.place.adopted then none
  else (t.before.bind HomeState.owner).filter (fun o => s.fenced o.toNat && !t.replies.any (fun r => r.agent == o) &&
    (snoopsFor t.op t.before t.src t.place.shadowed s.cachers).any (fun e => e.1 == o))

/-- A transaction whose owner is dead: its requester receives POISON and the granule is poisoned, but a WRITE of a whole
sub-block takes effect (R262, R263). -/
def Dev.deadOwner (s : Dev) (t : Txn) (agent : Agent) : Dev :=
  if t.op == .write && !s.needsBase t && !s.typedTxn t then
    let t1 := { t with before := none, after := none, dirtyIn := none }
    let s1 := s.updTxn t.id (fun _ => t1)
    if t1.awaiting.isEmpty then s1.txnPod t1 else s1
  else
    let s1 := s.poisonOwner t t.before agent
    match s1.txn t.id with
    | some t1 => (s1.poisonOut t1).txnOwed t1
    | none => s1

/-- Every snoop reply is there: the home decides (R223 to R229). -/
def Dev.txnDecide (s : Dev) (t : Txn) : Dev :=
  match s.deadOwnerOf t with
  | some o => s.deadOwner t o
  | none =>
  let op := if t.place.adopted && t.op == .claim then Op.readUnique else t.op
  let dec := decide_ op (s.decideState t) t.src t.place.shadowed (s.ownerReply t)
  let wbAdopted := t.place.adopted && t.op == .writeBack
  let t1 := { t with after := dec.after, grant := dec.grant }
  if dec.bad then
    let t2 := { t1 with code := .poison, held := some 0, grant := 0, after := none, answered := true, stage := .owed }
    let o := ((t.before.bind HomeState.owner).map BitVec.toNat).getD 0
    let s1 := (s.txnAnswer t2).errorRecord 0x04 t.place.facet t.place.d o
    (((s1.updTxn t.id (fun _ => t2)).poisonOut t).poisonGranule t.place (.txn t.id)).txnOwed t2
  else if takesBase t.op then s.txnPod { t1 with dirtyIn := if t.op == .writeBack then none else dec.data,
                                                 held := if wbAdopted then some 0 else if t.op == .writeBack then dec.data else t.held }
  else s.txnPod { t1 with held := dec.data, dirtyIn := if t.op == .farAtomic then dec.data else dec.dirtyIn }

/-- Takes a transaction as far as it can go (R241). -/
def Dev.advance (s : Dev) (id : Nat) : Dev :=
  match s.txn id with
  | none => s
  | some t =>
    match t.stage with
    | .snoop => if t.awaiting.isEmpty then s.txnDecide t else s
    | .pod => if s.podOver t.podWait then s.txnPlace t else s
    | .place => s.txnPlace t
    | .fill => if s.filling t.place then s else s.txnServe t
    | .base => if s.cache.plrs.any (fun x => x.waiters.contains (.txn id)) then s else s.txnFetch t
    | .typed => s
    | .store =>
      match t.dirtyIn with
      | some x => s.txnStore t x t.held
      | none => s.txnOwed t
    | .rmw => if s.stack.rmw.any (fun r => r.txn == id) then s else s.txnRmw t
    | .owed => s.txnOwed t
    | .leave => s
    | .ack => s
    | .done => s

/-- Whether a transaction waits for a resource that PARKED_PART_RESUME may find free. -/
def Dev.blocked (s : Dev) (t : Txn) : Bool :=
  match t.stage with
  | .place => true
  | .store => true
  | .base => !s.cache.plrs.any (fun x => x.waiters.contains (.txn t.id))
  | .rmw => !s.stack.rmw.any (fun r => r.txn == t.id)
  | _ => false

/-- Opens a transaction on a granule: the lookup's tag and directory reads are checked, its snoops leave, and it goes on as far
as it can (R134, R211, R219, R223, R605, R622). One that will need a new directory entry reserves a way for it (R214). -/
def Dev.openTxn (s00 : Dev) (cause : Cause) (op : Op) (src : Agent) (p : Place) (cls : Nat)
    (aged strict prefetch : Bool) : Dev :=
  let s := s00.readSets p
  if s.phase == .eclipse then s
  else
    let before := s.home p
    let others := s.cachers.filter (fun a => a != src)
    let sn := if p.adopted then
        (match ownerSnoop op p.shadowed with
         | some c => others.map (fun a => (a, c))
         | none => [])
      else (snoopsFor op before src p.shadowed s.cachers).filter (fun e => !s.fenced e.1.toNat)
    let id := s.nextId
    let ack := match cause with
      | .request r _ => ((s.req r).map (fun e => e.r.txid)).getD 0
      | _ => 0
    let way := if op.grants && p.kind == .own && before.isNone then (s.dirFrees p.facet (dirSet p.d)).head? else none
    let t : Txn :=
      { id := id, cause := cause, op := op, src := src, place := p, stage := .snoop, before := before, after := before,
        awaiting := sn.map Prod.fst, replies := [], held := none, dirtyIn := none, grant := 0,
        code := .ok, podWait := [], answered := false, cls := cls, aged := aged, strict := strict, prefetch := prefetch,
        filled := false, dirWay := way, since := s.now, suspect := [], ackTxid := ack
        broadcast := (p.adopted || (before.map HomeState.isFlare).getD false && !keepsSharers op) && !sn.isEmpty, ackDue := false }
    let s1 := { s with nextId := id + 1, cache.txns := s.cache.txns ++ [t] }
    let snSrc := sliceAgent (if p.shadowed then s.buddy else s.pos)
    let addr := if sn.isEmpty then 0 else s.addressOf (s.homePos p) p.d
    let s2 := s1.each sn (fun s e =>
      (s.send (.snoop e.1 snSrc (BitVec.ofNat 12 id) e.2 addr)).event evSnoop p.facet)
    let s3 := if t.broadcast then (s2.bump (F.fctDirCount_BROADCASTS p.facet)).event evBroadcast p.facet else s2
    s3.advance id

/-! ### Parts of requests (R107, R138 to R144, R242, R248 to R256, R441) -/

/-- The place of the 64 B of index i of a request. -/
def Dev.placeOf (s : Dev) (e : ReqEntry) (i : Nat) : Place :=
  let a := e.r.localAddr + 64 * i
  if e.rgn.reflection then (s.reflPlace e.rgn a e.region e.r.node s.setSize e.r.hue).2
  else
    let h := homeOf a e.rgn s.setSize
    let grp := facetGroup h.2 e.rgn.salt
    if h.1 != s.pos && s.adopting then s.adoptedPlaceAt grp h.2 e.rgn.shadowed else s.placeAt grp h.2 e.rgn.shadowed

/-- The allocation class of a request's fills (R113, R115, R311): MIRROR for adopted lines, the agent's class, and for
the slices' own requests PRISM in a typed region and A0 otherwise (DESIGN CHOICE, log entry 29). -/
def Dev.reqClass (s : Dev) (e : ReqEntry) (p : Place) : Nat :=
  if p.adopted then allocMirror
  else if e.r.src.toNat < 48 then s.agentClass e.r.src.toNat
  else if e.rgn.format != 0 then allocPrism
  else 0

/-- The operation that a request runs at its home: a far atomic of a shadowed region is an ATOMIC (R233). -/
def ReqEntry.runOp (e : ReqEntry) : Op :=
  if e.op == .farAtomic && e.rgn.shadowed then .atomic else e.op

/-- Whether index i of a request lies in the payload of a typed region, or in an untyped one (R311). -/
def ReqEntry.dataArea (e : ReqEntry) (i : Nat) : Bool :=
  e.rgn.format < 4 || e.r.localAddr + 64 * i < (e.rgn.first + e.rgn.dataLen) * 0x200000

/-- Whether a transaction of an operation takes a directory entry that a granule does not have, with every way of its set
taken or reserved for an earlier ticket (R214, R252). -/
def Dev.needsEntry (s : Dev) (op : Op) (p : Place) (own : Option (BitVec 16)) : Bool :=
  op.grants && p.kind == .own && (s.home p).isNone &&
    (s.dirFrees p.facet (dirSet p.d)).length ≤ s.rsv p.facet own .directory p.d

/-- Whether a waiter of a granule, which the end of its hold lets in before every new part, waits on its PLR (R243). -/
def Dev.granuleWaits (s : Dev) (p : Place) : Bool :=
  (s.plrAt p).any (fun x => x.waiters.any (fun w => match w with
    | .part id i => (s.req id).any (fun e => (s.placeOf e i).same p)
    | .txn _ => false))

/-- The places of the granules that an ingress list's entry stands for: its own, or all those of its part for a wide view. -/
def Dev.parkedPlaces (s : Dev) (k : Parked) : List Place :=
  match s.req k.reqId with
  | some e => (if e.viewed then e.granulesOf (e.partOf k.index) else [k.index]).map (s.placeOf e)
  | none => []

/-- Whether a waiter of a granule has met a bound when it re-entered, which keeps the others of the granule behind it (R243). -/
def Dev.reentered (s : Dev) (p : Place) : Bool :=
  s.cache.parked.any (fun k => k.reentered && (s.parkedPlaces k).any (fun q => q.same p))

/-- The first part of a sector that entered its ingress list before the part of index i of a request, of another request (R139). -/
def Dev.aheadOf (s : Dev) (e : ReqEntry) (i : Nat) (p : Place) : Option Parked :=
  (s.cache.parked.takeWhile (fun k => !(k.reqId == e.id && k.index == e.entryOf i))).find? (fun k =>
    k.reqId != e.id && (s.parkedPlaces k).any (fun q => q.sameSector p))

/-- A part that has just parked stands in its facet's urgent list when it is urgent and no part of its sector was in the ingress
list before it; one in the urgent list keeps its place there (R482). -/
def Dev.listUrgent (s0 s : Dev) (e : ReqEntry) (i : Nat) (p : Place) : Dev :=
  let own := fun (k : Parked) => k.reqId == e.id && k.index == e.entryOf i
  if !e.r.urgent || s0.cache.parked.any own ||
      s0.cache.parked.any (fun k => !k.urgent && (s.parkedPlaces k).any (fun q => q.sameSector p)) then s
  else { s with cache.parked := s.cache.parked.map (fun k => if own k then { k with urgent := true } else k) }

/-- The parked parts as a facet's pick takes them: the urgent list, then the ingress list, each oldest first (R138, R482). -/
def Dev.pickList (s : Dev) : List Parked :=
  s.cache.parked.filter (fun k => k.urgent) ++ s.cache.parked.filter (fun k => !k.urgent)

/-- A held waiter that met a bound when it re-entered stands ahead of every part of its sector in the ingress list, behind those
that re-entered before it (R243). -/
def Dev.putAhead (s : Dev) (e : ReqEntry) (i : Nat) (p : Place) : Dev :=
  let own := fun (k : Parked) => k.reqId == e.id && k.index == e.entryOf i
  let rest := s.cache.parked.filter (fun k => !own k)
  let first := fun (k : Parked) => k.reentered || !(s.parkedPlaces k).any (fun q => q.sameSector p)
  { s with cache.parked := rest.takeWhile first ++ (s.cache.parked.filter own).map (fun k => { k with reentered := true }) ++
      rest.dropWhile first }

/-- The earlier ticket of a request's agent for the sector, which the request waits behind: a resent part behind the tickets before
its own, any other behind those of requests that came before it (R441, R442). -/
def Dev.ticketAhead (s : Dev) (e : ReqEntry) (p : Place) : Option Ticket :=
  (s.ticketsOf p.facet).find? (fun t => t.agent == e.r.src && t.d / 256 == p.d / 256 &&
    match e.ticket with
    | some own => earlier t.ticket own
    | none => t.since < e.id)

/-- The bound that a part waits on behind an earlier ticket of its agent for the sector, or behind an earlier part of it, with the
granule that names the bound's instance (R139, R441). -/
def Dev.behind (s : Dev) (e : ReqEntry) (i : Nat) (p : Place) (reenter : Bool) : Option (Bound × Nat) :=
  let inst := fun (b : Bound) (d : Nat) => (b, if b == .directory then d else p.d)
  match s.ticketAhead e p with
  | some t => some (inst t.bound t.d)
  | none =>
    if reenter then none
    else (s.aheadOf e i p).map (fun k =>
      if k.bound == .data then (.order, p.d)
      else inst k.bound (((s.parkedPlaces k).head?.map (fun q => q.d)).getD p.d))

/-- Whether a part of a request re-enters: it was a held waiter that met a bound (R243). -/
def Dev.comesBack (s : Dev) (e : ReqEntry) (i : Nat) : Bool :=
  s.cache.parked.any (fun k => k.reqId == e.id && k.index == e.entryOf i && k.reentered)

/-- Whether the write data that a request carries is there. -/
def ReqEntry.loaded (e : ReqEntry) : Bool := !e.got.isEmpty && e.got.all (fun g => g)

/-- The bound that a granule's operation would meet of its own if it started now (R142, R143, R214). One whose data has been
pulled does not stop at the victim bound: it keeps the data, holds its granule and waits (R824). reenter: it was a held waiter,
which passes ahead of the parts in the ingress list (R243). -/
def Dev.ownBound (s : Dev) (e : ReqEntry) (i : Nat) (reenter : Bool) : Option Bound :=
  let p := s.placeOf e i
  let op := e.runOp
  let cls := s.reqClass e p
  let own := e.ticket
  let w := Waiter.part e.id i
  let pulled := fun (b : Option Bound) => if e.loaded && b == some .victim then none else b
  if s.held p || (!reenter && s.granuleWaits p) then s.plrBound p w own
  else if s.needsEntry op p own then some .directory
  else if waitsFill op && s.filling p then s.plrBound p w own
  else
    let snooped := !(snoopsFor op (s.home p) e.r.src p.shadowed s.cachers).isEmpty || p.adopted
    let hit := (s.cached p).isSome
    let based := hit || (s.captured p).isSome || snooped
    match op with
    | .clean => none
    | .invalidate => none
    | .cleanInvalidate => none
    | .darken => none
    | .farAtomic =>
      if 8 ≤ (s.stack.rmw.filter (fun r => r.facet == p.facet)).length + s.rsv p.facet own .engine p.d then some .engine
      else none
    | .writeBack => pulled (s.storeBound p cls own)
    | .write =>
      let full := e.r.len != 0 || e.r.mask == fullMask
      pulled (if full || based then s.storeBound p cls own else s.fetchBound p cls false w own)
    | .atomic => pulled (if based then s.storeBound p cls own else s.fetchBound p cls false w own)
    | .reduceStore => pulled (if based then s.storeBound p cls own else s.fetchBound p cls false w own)
    | _ => if hit || snooped then none else s.fetchBound p cls (op == .readOnceNofill) w own

/-- The bound that the part of a granule would meet if it started now, in the order of its sector (R139, R142, R143, R441). -/
def Dev.partBound (s : Dev) (e : ReqEntry) (i : Nat) (reenter : Bool) : Option Bound :=
  ((s.behind e i (s.placeOf e i) reenter).map Prod.fst).or (s.ownBound e i reenter)

/-- The granule that names the instance of the bound that a part meets (R250, R441). -/
def Dev.boundGranule (s : Dev) (e : ReqEntry) (i : Nat) (reenter : Bool) : Nat :=
  let p := s.placeOf e i
  ((s.behind e i p reenter).map Prod.snd).getD p.d

/-- The directory recalls under way in a set of a facet. -/
def Dev.recallsIn (s : Dev) (f set : Nat) : Nat :=
  (s.cache.txns.filter (fun t => t.place.facet == f && dirSet t.place.d == set &&
    (match t.cause with
     | .recall _ _ => true
     | _ => false))).length

/-- The parts and tickets that wait for a way of a directory set: parts that need one themselves, and one ticket of an agent for a
sector, behind which its others wait (R214, R441). -/
def Dev.dirWaiters (s : Dev) (f set : Nat) : Nat :=
  (s.cache.parked.filter (fun k => k.facet == f && k.bound == .directory && (s.req k.reqId).any (fun e =>
      let p := s.placeOf e k.index
      dirSet p.d == set && s.needsEntry e.runOp p e.ticket))).length +
    (((s.cache.tickets.filter (fun t => t.facet == f && t.bound == .directory && dirSet t.d == set)).map (fun t =>
      (t.agent, t.d / 256))).eraseDups).length

/-- Recalls a victim of a full directory set for each part that waits for a way of it (R214). -/
def Dev.recallFor (s : Dev) (id i : Nat) (f set : Nat) : Dev :=
  if s.dirWaiters f set ≤ s.recallsIn f set + (s.dirFrees f set).length then s
  else match s.dirVictim f set with
    | none => s
    | some v =>
      (s.bump (F.fctDirCount_RECALLS f)).openTxn (.recall id i) .cleanInvalidate (sliceAgent s.pos) (s.dirPlace v) 0 false false
        false

/-- A part meets a bound: the sector that its quota waits for is written back early (R608), it is answered NAK or parks, and stands
ahead of its sector's parts where it was a held waiter (R243). -/
def Dev.meetBound (s : Dev) (e : ReqEntry) (i : Nat) (b : Bound) (reenter : Bool) : Dev :=
  let p := s.placeOf e i
  let s1 := s.listUrgent ((if s.quotaFull p then s.earlyWb p else s).atBound p.facet e.id i (s.boundGranule e i reenter) b) e i p
  if reenter then s1.putAhead e i p else s1

/-- A part proceeds: it leaves the ingress list, and its ticket is done with once RETRY has been sent for it (R138, R253). -/
def Dev.leaveList (s : Dev) (e : ReqEntry) (i : Nat) : Dev :=
  let f := (s.placeOf e i).facet
  let s1 := s.unpark e.id (e.entryOf i)
  match e.ticket with
  | some t => if (s1.ticket f t).any Ticket.reserved then s1.dropTicket f t else s1
  | none => s1

/-- Whether a granule's operation waits on its PLR: it is held, its waiters come first, or its sector's fill is pending (R156, R242,
R243). -/
def Dev.joins (s : Dev) (e : ReqEntry) (p : Place) (reenter : Bool) : Bool :=
  s.held p || (!reenter && s.granuleWaits p) || (waitsFill e.runOp && s.filling p)

/-- Opens the transaction of a request's granule. -/
def Dev.openPart (s : Dev) (e : ReqEntry) (i : Nat) : Dev :=
  let p := s.placeOf e i
  s.openTxn (.request e.id i) e.runOp e.r.src p (s.reqClass e p) (e.r.stream || e.rgn.stream) e.rgn.strictDarken
    (!e.rgn.prefetchOff && e.dataArea i)

/-- Starts the operation on the granule of index i of a request: its lookup's reads are checked, and it joins a held granule's
waiters, meets a bound, waits for a pending fill, or opens its transaction (R134, R138, R242). -/
def Dev.startPart (s00 : Dev) (id i : Nat) (again : Bool) : Dev :=
  match s00.req id with
  | none => s00
  | some e =>
    let p := s00.placeOf e i
    let s := s00.readSets p
    let reenter := again || s.comesBack e i
    if s.phase == .eclipse then s
    else match s.partBound e i reenter with
    | some b =>
      let s0 := s.meetBound e i b reenter
      if b == .directory && (s.behind e i p reenter).isNone then s0.recallFor id i p.facet (dirSet p.d) else s0
    | none =>
      if s.joins e p reenter then
        match (s.leaveList e i).holdWait p (.part id i) with
        | .ok s2 => s2
        | .error b => s.meetBound e i b reenter
      else (s.leaveList e i).openPart e i

/-! ### Parts through a wide view (R308, R315) -/

/-- Opens a view request's record for one part (R308). -/
def Dev.openTyped (s : Dev) (e : ReqEntry) (u : Nat) : Dev :=
  let q : TypedReq := { id := s.nextId, reqId := e.id, unit := u, step := 0, have_ := [], wait := [], block := 0, enc := none,
                        claim := none, slot := none, stores := [], payload := List.replicate (e.r.len.toNat + 1) 0,
                        bad := [] }
  { s with nextId := s.nextId + 1, prism.typed := s.prism.typed ++ [q] }

/-- How the part of index i of a view request would start: with the wait of the first of its granules that is held, with every
granule's transaction opened, or with the granule and bound that it meets (R142, R242, R315; log entry 93). -/
def Dev.viewStart (s : Dev) (e : ReqEntry) (i : Nat) (reenter : Bool) : Except (Nat × Bound) Dev :=
  let ks := e.granulesOf (e.partOf i)
  let waits := ks.find? (fun k => s.joins e (s.placeOf e k) reenter)
  match ks.findSome? (fun k => (s.behind e k (s.placeOf e k) reenter).map (fun b => (k, b.1))), waits with
  | some b, _ => .error b
  | none, some k =>
    match s.ownBound e k reenter, (s.leaveList e k).holdWait (s.placeOf e k) (.part e.id k) with
    | some b, _ => .error (k, b)
    | none, .error b => .error (k, b)
    | none, .ok s1 => .ok s1
  | none, none =>
    ks.foldl (fun acc k => match acc with
      | .error b => .error b
      | .ok s1 => match s1.ownBound { e with ticket := none } k reenter with
        | some b => .error (k, b)
        | none => .ok (s1.openPart e k)) (.ok ((s.leaveList e i).openTyped e (e.partOf i)))

/-- Starts the part of index i of a request through a wide view. -/
def Dev.viewPart (s00 : Dev) (id i : Nat) (again : Bool) : Dev :=
  match s00.req id with
  | none => s00
  | some e =>
    let reenter := again || s00.comesBack e i
    let s := s00.each (e.granulesOf (e.partOf i)) (fun s k => if s.phase == .eclipse then s else s.readSets (s.placeOf e k))
    if s.phase == .eclipse then s
    else match s.viewStart e i reenter with
      | .ok s1 => s1
      | .error (k, b) => s.meetBound e k b reenter

/-! ### Fill completion (R123, R129, R140, R242 to R244) -/

/-- Serves one waiter of a PLR: a transaction with the sub-block that has come for it, or a part, which stays where its granule
is held. -/
def Dev.serveWaiter (s : Dev) (x : Plr) (w : Waiter) : Dev :=
  let leave := fun (s : Dev) => s.updPlr x.id (fun y => { y with waiters := y.waiters.erase w })
  match w with
  | .txn id =>
    match s.txn id with
    | some t =>
      let i := t.place.sub
      let t1 := { t with filled := true }
      ((leave s).updTxn id (fun _ => t1)).txnBase t1 (if bitAt x.bad.toNat i then none else
        match s.cached t.place with
        | some y => some y
        | none => some (Sector.sub x.data i))
    | none => leave s
  | .part id i =>
    match s.req id with
    | some e =>
      let p := s.placeOf e i
      if s.held p || s.reentered p then s
      else if e.viewed then (leave s).viewPart id i true
      else (leave s).startPart id i true
    | none => leave s

/-- Serves the transactions that wait on a PLR for one sub-block, which has come (R123). -/
def Dev.serveSub (s : Dev) (id i : Nat) : Dev :=
  match s.cache.plrs.find? (fun x => x.id == id) with
  | none => s
  | some x =>
    if bitAt x.fetching.toNat i then s
    else s.each (x.waiters.filter (fun w => match w with
      | .txn t => (s.txn t).any (fun t => t.place.sub == i)
      | .part _ _ => false)) (fun s w => s.serveWaiter x w)

/-- When a PLR's last fetch is done its way is no longer reserved, the transactions that waited for the fill go on, its waiters
are served in order, and it frees (R156, R243, R244). -/
def Dev.plrDone (s : Dev) (id : Nat) : Dev :=
  match s.cache.plrs.find? (fun x => x.id == id) with
  | none => s
  | some x =>
    if x.fetching != 0 then s
    else
      let s1 := s.updPlr id (fun y => { y with way := none })
      let s2 := s1.each (s1.cache.txns.filter (fun t => t.stage == .fill && t.place.sameSector x.place))
        (fun s t => s.advance t.id)
      (s2.each x.waiters (fun s w => s.serveWaiter x w)).freePlr id

/-- A sub-block arrives for a PLR: what waits for it goes on, and with the last one every waiter. -/
def Dev.fillArrive (s : Dev) (plr i : Nat) (v : Option Sub) : Dev := ((s.fillSub plr i v).serveSub plr i).plrDone plr

end Sys2Proof.Machine
end

