-- ==== Sys2Proof/Machine/Prism.lean ====
section
/-! DEFINITION. Typed regions: their three areas, views, and the steps of a wide-VIEW request (R299 to R317, R322). -/

namespace Sys2Proof.Machine

/-! ### Layout (R301 to R304) -/

/-- Offsets of the scale plane and the escape area (R302, R303). -/
def Region.scaleBase (g : Region) : Nat := g.dataLen * 0x200000
def Region.scaleEnd (g : Region) : Nat := g.scaleBase + g.dataLen * 2048 * unitBlocks g.format
def Region.escBase (g : Region) : Nat := divUp g.scaleEnd 0x10000 * 0x10000

/-- Offset of the escape group of a block, and the block's index in its data page (R303, R304). -/
def Region.escGroup (g : Region) (n : Nat) : Nat := g.escBase + n / unitBlocks g.format / 4 * g.escSlots * 64
def Region.escIndex (g : Region) (n : Nat) : Nat := n % (4 * unitBlocks g.format)

/-- Where a region offset lies: its home, facet group and sub-block (R98, R99). -/
def Dev.devOf (s : Dev) (g : Region) (x : Nat) : Nat × Nat × Nat :=
  let h := homeOf (g.first * 0x200000 + x) g s.setSize
  (h.1, facetGroup h.2 g.salt, h.2 / 64 * 64)

/-- The slice that serves a home's addresses: the new home of a lost one (R620). -/
def Dev.serverOf (s : Dev) (p : Nat) : Nat := if s.isLost p then p ^^^ 1 else p

/-- Palette of a region (R287, R289). -/
def Dev.regionPalette (s : Dev) (g : Region) : Palette := paletteOf s.img.force.formats g.palette

/-! ### Escape slots (R304, R314) -/

/-- VALID and BLOCK of a slot, its scale and elements. -/
def slotValid (x : Sub) : Bool := bitAt x.toNat 279
def slotBlock (x : Sub) : Nat := bitsOf x.toNat 272 264
def slotValues (x : Sub) : List Exact :=
  blockValues 4 ⟨[], 0⟩ (bitsOf x.toNat 255 0) (bitsOf x.toNat 263 256)

/-- The slot of an escaped block (R304). -/
def slotSub (payload xe block : Nat) : Sub :=
  BitVec.ofNat 512 (payload % 2 ^ 256 + xe % 256 * 2 ^ 256 + (2 ^ 15 + block % 512) * 2 ^ 264)

/-- What a read of escaped block n finds in its group's slots: none for no slot, and a poisoned slot as none inside
(R314). -/
def findSlot (slots : List (Option Sub)) (n : Nat) : Option (Option Sub) :=
  slots.find? (fun x => match x with
    | none => true
    | some v => slotValid v && slotBlock v == n)

/-- The slot that claim_slot(n) takes (R314). -/
def claimSlot (slots : List (Option Sub)) (n : Nat) : Option Nat :=
  slots.findIdx? (fun x => match x with
    | none => true
    | some v => !slotValid v || slotBlock v == n)

/-- Readable slots of block n from an index on, which a claim or a release zeroes (R314). -/
def staleSlots (slots : List (Option Sub)) (n start : Nat) : List Nat :=
  (List.range slots.length).filter (fun i => start ≤ i && match slots.getD i none with
    | none => false
    | some v => slotValid v && slotBlock v == n)

/-! ### Statistics (R322, R327) -/

/-- Adds to a statistics field of a region, saturating. -/
def Dev.prmAdd (s : Dev) (off hi lo n : Nat) : Dev := s.bump { off := off, hi := hi, lo := lo } n

/-- Counts a block that Prism wrote into a region (R322): its scale where it has one, its amax, its stored result's
saturations and dropped NaNs, whether it escaped, and whether it found its budget full. -/
def Dev.countBlock (s : Dev) (r facet : Nat) (x : Option Nat) (amax : Exact) (sats nans : Nat) (escaped full : Bool) :
    Dev :=
  let a := (fp32.round amax).1 % 2 ^ 31
  let s1 := ((((s.bump (F.prmBlocks_BLOCKS r)).peak (F.prmAbsmax_ABSMAX r) a).bump (F.prmLoss_SATURATED r) sats).bump
    (F.prmLoss_NAN_DROPPED r) nans).bump (F.prmEsc_ESCAPED r) (b2n escaped)
  let s2 := s1.bump (F.prmEsc_BUDGET_FULL r) (b2n full)
  let s3 := match x with
    | some v => s2.prmAdd (R.prmHist0 r + 8 * (v / 32)) (if v / 16 % 2 == 1 then 63 else 31) (if v / 16 % 2 == 1 then 32 else 0) 1
    | none => s2
  (((s3.raiseIf (sats != 0) F.prmErr_SAT).raiseIf (nans != 0) F.prmErr_NAN_DROP).raiseIf full F.prmErr_BUDGET_FULL).event
    evPrism facet

/-- Counts a widening's saturations (R298, R322, R324). -/
def Dev.countWide (s : Dev) (r n : Nat) : Dev :=
  if n == 0 then s else (s.bump (F.prmBlocks_WIDE_SAT r) n).raise F.prmErr_WIDE_SAT

/-! ### View requests -/

/-- The granule transactions of a request, by index of the stored span. -/
def Dev.granules (s : Dev) (reqId : Nat) : List (Nat × Txn) :=
  s.cache.txns.filterMap (fun t => match t.cause with
    | .request id i => if id == reqId then some (i, t) else none
    | _ => none)

/-- The granules of a view request's part, and its blocks with their numbers among the request's. -/
def Dev.unitGranules (s : Dev) (q : TypedReq) (e : ReqEntry) : List (Nat × Txn) :=
  (s.granules e.id).filter (fun t => e.partOf t.1 == q.unit)
def ReqEntry.blocksOf (e : ReqEntry) (u : Nat) : List (Nat × Nat) := e.blocks.zipIdx.filter (fun b => e.blockPart b.1 == u)

/-- Changes a view request, and removes it. -/
def Dev.updTyped (s : Dev) (id : Nat) (g : TypedReq → TypedReq) : Dev :=
  { s with prism.typed := s.prism.typed.map (fun q => if q.id == id then g q else q) }
def Dev.dropTyped (s : Dev) (id : Nat) : Dev := { s with prism.typed := s.prism.typed.filter (fun q => q.id != id) }

/-- Sends side reads of sub-blocks for a view request (R312, R828). -/
def Dev.sideReads (s : Dev) (q : TypedReq) (shadowed : Bool) (at_ : List (Nat × Nat × Nat)) : Dev :=
  s.each at_ (fun s a =>
    let id := s.nextId
    let s1 := { s with nextId := id + 1 }
    (s1.updTyped q.id (fun q => { q with wait := q.wait ++ [(id, a)] })).send
      (.side (s1.serverOf a.1) id a.1 a.2.1 a.2.2 shadowed none))

/-- What a side read returned of a sub-block: data, poison, or nothing yet. -/
def TypedReq.sub (q : TypedReq) (a : Nat × Nat × Nat) : Option (Option Sub) :=
  (q.have_.find? (fun h => h.1 == a)).map Prod.snd

/-- The scale of a block as read, none where its sub-block is poisoned. -/
def Dev.scaleOf (s : Dev) (q : TypedReq) (g : Region) (n : Nat) : Option Nat :=
  match q.sub (s.devOf g (g.scaleBase + n)) with
  | some (some x) =>
    let b := (g.scaleBase + n) % 64
    some (bitsOf x.toNat (8 * b + 7) (8 * b))
  | _ => none

/-- The slots of a block's escape group as read. -/
def Dev.slotsOf (s : Dev) (q : TypedReq) (g : Region) (n : Nat) : List (Option Sub) :=
  (List.range g.escSlots).map (fun i => (q.sub (s.devOf g (g.escGroup n + 64 * i))).getD none)

/-- The stored bytes of a span of a request, from its granule transactions, as a natural. -/
def spanBytes (subs : List (Nat × Txn)) (n : Nat) : Nat :=
  (List.range n).foldl (fun a i =>
    let x := ((subs.find? (fun e => e.1 == i)).bind (fun e => e.2.held)).getD 0
    a + x.toNat * 2 ^ (512 * i)) 0

/-- The exact values of block n read through a view, none for POISON, and whether it has no slot (R283, R310, R314).
payload: its stored bits. -/
def Dev.blockRead (s : Dev) (q : TypedReq) (g : Region) (n payload : Nat) : Option (List Exact) × Bool :=
  if isWide g.format then ((some (blockValues g.format ⟨[], 0⟩ payload 127)), false)
  else match s.scaleOf q g n with
    | none => (none, false)
    | some x =>
      if x != 0xFF then (some (blockValues g.format (s.regionPalette g) payload x), false)
      else match findSlot (s.slotsOf q g n) (g.escIndex n) with
        | none => (none, true)
        | some none => (none, false)
        | some (some v) => (some (slotValues v), false)

/-- Answers a part of a wide-VIEW read: every block of it expanded into the view (R294, R298, R310); one
without a block sends no message (log entry 116). -/
def Dev.typedAnswer (s : Dev) (q : TypedReq) (e : ReqEntry) : Dev :=
  let g := e.rgn
  let fmt := g.format
  let view := e.r.view.toNat
  let gs := s.unitGranules q e
  let bytes := spanBytes gs (e.r.len.toNat + 1)
  let badSub := fun (i : Nat) => ((gs.find? (fun t => t.1 == i)).map (fun t => t.2.code != .ok)).getD true
  let per := viewBytes view / 64
  let w := if view == 1 then 32 else 16
  let s1 := s.each (e.blocksOf q.unit) (fun s bk =>
    let n := bk.1
    let o := blockOffset fmt n - e.spanOffset
    let payload := bitsOf bytes (8 * (o + payloadBytes fmt) - 1) (8 * o)
    let r := s.blockRead q g n payload
    let out := encodeWide view false (r.1.getD []) 0
    let bits := if view == fmt then payload else packCodes w out.codes
    let s2 := (if r.2 then (s.raise F.prmErr_ESC_MISSING).alert alertPrm else s).countWide e.region out.sats
    let facet := (s.placeOf e (o / 64)).facet
    (s2.event evPrism facet (some e.r.hue)).each (List.range per) (fun s j =>
      let k0 := j * (32 / per)
      let lo := o + elemBits fmt * k0 / 8
      let hi := o + (elemBits fmt * (k0 + 32 / per) - 1) / 8
      let escaped := !isWide fmt && s.scaleOf q g n == some 0xFF
      let bad := r.1.isNone || (!escaped && (badSub (lo / 64) || badSub (hi / 64)))
      s.answer e.id (bk.2 * per + j) (if bad then .poison else .ok)
        (some (if bad then 0 else BitVec.ofNat 512 (bits >>> (512 * j))))))
  ((s1.each gs (fun s t => s.dropTxn t.2.id)).dropTyped q.id).flush e.id

/-- Distinct elements of a list, first ones kept. -/
def distinct (l : List (Nat × Nat × Nat)) : List (Nat × Nat × Nat) :=
  l.foldl (fun a x => if a.contains x then a else a ++ [x]) []

/-- The escaped blocks among a part's, by the scales read. -/
def Dev.escapedBlocks (s : Dev) (q : TypedReq) (e : ReqEntry) : List Nat :=
  ((e.blocksOf q.unit).map Prod.fst).filter (fun n => s.scaleOf q e.rgn n == some 0xFF)

/-- The next step of a part of a wide-VIEW read. -/
def Dev.typedRead (s : Dev) (q : TypedReq) (e : ReqEntry) : Dev :=
  let g := e.rgn
  match q.step with
  | 0 =>
    let gs := s.unitGranules q e
    if gs.length == (e.granulesOf q.unit).length && gs.all (fun t => t.2.stage == .typed) then
      if isWide g.format then s.typedAnswer q e
      else (s.updTyped q.id (fun q => { q with step := 1 })).sideReads q g.shadowed
        (distinct ((e.blocksOf q.unit).map (fun n => s.devOf g (g.scaleBase + n.1))))
    else s
  | 1 =>
    if !q.wait.isEmpty then s
    else
      let esc := s.escapedBlocks q e
      if esc.isEmpty || g.escSlots == 0 then s.typedAnswer q e
      else (s.updTyped q.id (fun q => { q with step := 2 })).sideReads q g.shadowed
        (distinct (esc.flatMap (fun n => (List.range g.escSlots).map (fun i => s.devOf g (g.escGroup n + 64 * i)))))
  | _ => if q.wait.isEmpty then s.typedAnswer q e else s

/-! ### Wide-VIEW writes (R313, R315, R316) -/

/-- The exact values of a block of pulled view data. -/
def ReqEntry.viewValues (e : ReqEntry) (k : Nat) : List Exact × Nat :=
  let view := e.r.view.toNat
  let w := if view == 1 then 32 else 16
  let bytes := e.data.zipIdx.foldl (fun a x => a + x.1.toNat * 2 ^ (512 * x.2)) 0
  let bits := bitsOf bytes (8 * viewBytes view * (k + 1) - 1) (8 * viewBytes view * k)
  ((unpackCodes w 32 bits).map (wideFmt view).decode, bits)

/-- Puts a block's payload bits into the stored sub-blocks of a request. -/
def putPayload (subs : List Sub) (o len v : Nat) : List Sub :=
  (subs.zipIdx).map (fun x =>
    BitVec.ofNat 512 ((List.range 64).foldl (fun a b =>
      let k := 64 * x.2 + b
      a + (if o ≤ k && k < o + len then bitsOf v (8 * (k - o) + 7) (8 * (k - o)) else bitsOf x.1.toNat (8 * b + 7) (8 * b))
        * 2 ^ (8 * b)) 0))

/-- Merges a masked store into a list of stores by sub-block. -/
def addStore (l : List ((Nat × Nat × Nat) × BitVec 64 × Sub)) (a : Nat × Nat × Nat) (m : BitVec 64) (x : Sub) :
    List ((Nat × Nat × Nat) × BitVec 64 × Sub) :=
  if l.any (fun e => e.1 == a) then l.map (fun e => if e.1 == a then (a, e.2.1 ||| m, mergeMask m.toNat e.2.2 x) else e)
  else l ++ [(a, m, x)]

/-- The store of one scale byte. -/
def Dev.scaleStore (s : Dev) (g : Region) (n v : Nat) : (Nat × Nat × Nat) × BitVec 64 × Sub :=
  let b := (g.scaleBase + n) % 64
  (s.devOf g (g.scaleBase + n), BitVec.ofNat 64 (2 ^ b), BitVec.ofNat 512 (v % 256 * 2 ^ (8 * b)))

/-- The demand LFSR of a facet (R292). -/
def Dev.demandLfsr (s : Dev) (f : Nat) : Nat := (tgetD s.prism.demand f 0).toNat
def Dev.setDemand (s : Dev) (f v : Nat) : Dev := { s with prism.demand := tput 0 s.prism.demand f (BitVec.ofNat 32 v) }

/-- A narrow block is stored: its payload, its scale byte and its counts (R313, R322). -/
def Dev.storeNarrow (s : Dev) (q : TypedReq) (e : ReqEntry) (n : Nat) (amax : Exact) (enc : Nat × Nat × Nat × Nat)
    (full : Bool) : Dev :=
  let g := e.rgn
  let o := blockOffset g.format n - e.spanOffset
  let st := s.scaleStore g n enc.1
  let s1 := s.updTyped q.id (fun q =>
    { q with
      payload := putPayload q.payload o (payloadBytes g.format) enc.2.1
      stores := addStore q.stores st.1 st.2.1 st.2.2
      block := q.block + 1
      enc := none
      slot := none })
  s1.countBlock e.region (s.placeOf e (o / 64)).facet (some enc.1) amax enc.2.2.1 enc.2.2.2 false full

/-- An escaped block is stored: its slot, a zero payload, and scale 0xFF (R285, R313). -/
def Dev.storeEscaped (s : Dev) (q : TypedReq) (e : ReqEntry) (n slot : Nat) (v : List Exact) (amax : Exact) : Dev :=
  let g := e.rgn
  let o := blockOffset g.format n - e.spanOffset
  let f := (s.placeOf e (o / 64)).facet
  let b := encodeBlock 4 ⟨[], 0⟩ (g.round == 1) v (s.demandLfsr f)
  let st := s.scaleStore g n 0xFF
  let at_ := s.devOf g (g.escGroup n + 64 * slot)
  let s1 := (s.setDemand f b.lfsr).updTyped q.id (fun q =>
    { q with
      stores := addStore (addStore q.stores at_ fullMask (slotSub b.payload b.x (g.escIndex n))) st.1 st.2.1 st.2.2
      block := q.block + 1
      enc := none
      slot := none })
  s1.countBlock e.region f (some b.x) amax b.sats b.nans true false

/-- One block of a part of a wide-VIEW write, and whether the next may follow at once: it waits for a claim or a release at the
escape group's facet where the region has slots (R313). -/
def Dev.typedBlock (s : Dev) (q : TypedReq) (e : ReqEntry) : Dev × Bool :=
  let g := e.rgn
  let k := q.block
  let b := (e.blocksOf q.unit).getD k (0, 0)
  let n := b.1
  let v := e.viewValues b.2
  let o := blockOffset g.format n - e.spanOffset
  let f := (s.placeOf e (o / 64)).facet
  let amax := amaxOf v.1
  if isWide g.format then
    let w := encodeWide g.format (g.round == 1) v.1 (s.demandLfsr f)
    let same := g.format == e.r.view.toNat
    let bits := if same then v.2 else packCodes (elemBits g.format) w.codes
    let s1 := (s.setDemand f w.lfsr).updTyped q.id (fun q =>
      { q with payload := putPayload q.payload o (payloadBytes g.format) bits, block := k + 1 })
    (s1.countBlock e.region f none amax (if same then 0 else w.sats) (if same then 0 else w.nans) false false, true)
  else
    let fresh := encodeBlock g.format (s.regionPalette g) (g.round == 1) v.1 (s.demandLfsr f)
    let s0 := if q.enc.isSome then s
      else (s.setDemand f fresh.lfsr).updTyped q.id (fun q => { q with enc := some (fresh.x, fresh.payload, fresh.sats, fresh.nans) })
    let enc := q.enc.getD (fresh.x, fresh.payload, fresh.sats, fresh.nans)
    let blk : Block := { x := enc.1, payload := enc.2.1, sats := enc.2.2.1, nans := enc.2.2.2, lfsr := 0 }
    let err := errOf g.format (s.regionPalette g) v.1 blk
    let cand := enc.2.2.1 != 0 || enc.2.2.2 != 0 ||
      (g.escThr != 0 && !Exact.le err (amax.scale (-(g.escThr : Int))))
    match q.slot with
    | some (some sl) => (s0.storeEscaped q e n sl v.1 amax, true)
    | some none => (s0.storeNarrow q e n amax enc cand, true)
    | none =>
      if g.escSlots == 0 then (s0.storeNarrow q e n amax enc false, true)
      else if q.claim.isSome then (s0, false)
      else
        let id := s0.nextId
        let a := s0.devOf g (g.escGroup n)
        (({ s0 with nextId := id + 1 }.updTyped q.id (fun q => { q with claim := some id })).send
          (.escape (s0.serverOf a.1) id cand a.1 a.2.1 a.2.2 g.escSlots (g.escIndex n)), false)

/-- Blocks of a wide-VIEW write, as far as they go. -/
def Dev.typedBlocks (fuel : Nat) (s : Dev) (id : Nat) (e : ReqEntry) : Dev :=
  match fuel with
  | 0 => s
  | fuel + 1 =>
    match s.prism.typed.find? (fun q => q.id == id) with
    | none => s
    | some q =>
      if (e.blocksOf q.unit).length ≤ q.block then s
      else
        let r := s.typedBlock q e
        if r.2 then r.1.typedBlocks fuel id e else r.1

/-- Whether a block holds a byte of the stored sub-block of index i. -/
def ReqEntry.blockIn (e : ReqEntry) (i n : Nat) : Bool :=
  let o := blockOffset e.rgn.format n - e.spanOffset
  o / 64 ≤ i && i ≤ (o + payloadBytes e.rgn.format - 1) / 64

/-- The payload goes into the granules, each of which then completes with its code (R315, R316). The last
sub-block of a unit is stored whole with its padding (log entry 132). -/
def Dev.typedFinish (s : Dev) (q : TypedReq) (e : ReqEntry) : Dev :=
  (s.unitGranules q e).foldl (fun s t =>
    let bad := q.bad.any (fun n => e.blockIn t.1 n)
    let t1 := { t.2 with code := if bad then .poison else .ok }
    if e.blocks.any (fun n => e.blockIn t.1 n) then s.txnStore t1 (q.payload.getD t.1 0) none
    else s.txnOwed t1) (s.dropTyped q.id)

/-- A wide-view write whose blocks are all encoded sends its scales and slots, and with none it finishes (R315, R316). -/
def Dev.typedEncoded (s1 : Dev) (id : Nat) (e : ReqEntry) : Dev :=
  match s1.prism.typed.find? (fun x => x.id == id) with
  | none => s1
  | some q1 =>
    if q1.block < (e.blocksOf q1.unit).length then s1
    else
      let s2 := s1.updTyped id (fun q => { q with step := 3 })
      let s3 := s2.each q1.stores (fun s st =>
        let n := s.nextId
        let s' := { s with nextId := n + 1 }
        (s'.updTyped id (fun q => { q with wait := q.wait ++ [(n, st.1)] })).send
          (.side (s'.serverOf st.1.1) n st.1.1 st.1.2.1 st.1.2.2 e.rgn.shadowed (some st.2)))
      if q1.stores.isEmpty then s3.typedFinish q1 e else s3

/-- The next step of a part of a wide-VIEW write. -/
def Dev.typedWrite (s : Dev) (q : TypedReq) (e : ReqEntry) : Dev :=
  let gs := s.unitGranules q e
  let started := q.step != 0 || (gs.length == (e.granulesOf q.unit).length && gs.all (fun t => t.2.stage == .typed))
  if !started then s
  else if q.step ≤ 1 then
    ((s.updTyped q.id (fun q => { q with step := 1 })).typedBlocks (e.blocks.length + 1) q.id e).typedEncoded q.id e
  else if q.wait.isEmpty then s.typedFinish q e
  else s

/-- The next step of a view request. -/
def Dev.typedRun (s : Dev) (id : Nat) : Dev :=
  match s.prism.typed.find? (fun q => q.id == id) with
  | none => s
  | some q =>
    match s.req q.reqId with
    | none => s.dropTyped id
    | some e => if e.op == .write then s.typedWrite q e else s.typedRead q e

/-- A side read's answer reaches the request that waits for it (R312). -/
def Dev.typedData (s : Dev) (txid : Nat) (v : Option Sub) : Dev :=
  match s.prism.typed.find? (fun q => q.wait.any (fun w => w.1 % 4096 == txid)) with
  | none => s
  | some q =>
    match q.wait.find? (fun w => w.1 % 4096 == txid) with
    | none => s
    | some w =>
      (s.updTyped q.id (fun q => { q with wait := q.wait.erase w, have_ := q.have_ ++ [(w.2, v)] })).typedRun q.id

/-- A side write's answer (R316): a poisoned scale or slot marks the blocks it holds. -/
def Dev.typedStored (s : Dev) (txid : Nat) (c : Code) : Dev :=
  match s.prism.typed.find? (fun q => q.wait.any (fun w => w.1 % 4096 == txid)) with
  | none => s
  | some q =>
    match q.wait.find? (fun w => w.1 % 4096 == txid), s.req q.reqId with
    | some w, some e =>
      let hit := if c == .ok then [] else e.blocks.filter (fun n =>
        s.devOf e.rgn (e.rgn.scaleBase + n) == w.2 ||
          (e.rgn.escSlots != 0 && (List.range e.rgn.escSlots).any (fun i => s.devOf e.rgn (e.rgn.escGroup n + 64 * i) == w.2)))
      (s.updTyped q.id (fun q => { q with wait := q.wait.erase w, bad := q.bad ++ hit })).typedRun q.id
    | _, _ => s

/-- The answer to a slot claim or release (R313, R314). -/
def Dev.typedSlot (s : Dev) (txid : Nat) (slot : Option Nat) : Dev :=
  match s.prism.typed.find? (fun q => (q.claim.map (fun c => c % 4096)) == some txid) with
  | none => s
  | some q => (s.updTyped q.id (fun q => { q with claim := none, slot := some slot })).typedRun q.id

/-- Whether a TXID belongs to a view request's claim, or to one of its side accesses. -/
def Dev.isClaim (s : Dev) (txid : Nat) : Bool :=
  s.prism.typed.any (fun q => (q.claim.map (fun c => c % 4096)) == some txid)

/-! ### The other side: side accesses and slots (R314, R828) -/

/-- The place a side access names. -/
def Dev.sidePlace (s : Dev) (home grp d : Nat) (shadowed : Bool) : Place :=
  if home != s.pos && s.adopting then s.adoptedPlaceAt grp d shadowed else s.placeAt grp d shadowed

/-- The block that a slot, handed out to a claim and not yet written, is taken for (R314; log entry 100). -/
def Dev.claimed (s : Dev) (grp d : Nat) : Option Nat :=
  (s.prism.claims.find? (fun c => c.1 == (grp, d / 64 * 64))).map Prod.snd

/-- A slot's claim is over: it is being written. -/
def Dev.endClaim (s : Dev) (grp d : Nat) : Dev :=
  { s with prism.claims := s.prism.claims.filter (fun c => c.1 != (grp, d / 64 * 64)) }

/-- A side access reaches its facet: it runs as a transaction of its own, under the PRISM mask (R311, R828). -/
def Dev.sideAccess (s00 : Dev) (a : SideAccess) : Dev :=
  let s := if a.store.isSome then s00.endClaim a.grp.toNat a.d.toNat else s00
  let p := s.sidePlace a.home.toNat a.grp.toNat a.d.toNat a.shadowed
  s.openTxn (.side a true) (if a.store.isSome then .write else .readOnce) a.sender p
    (if p.adopted then allocMirror else allocPrism) false false false

/-- What an open side write or zeroing leaves in its whole sub-block. -/
def Txn.sideValue (t : Txn) : Option Sub :=
  let whole := fun (a : SideAccess) => (a.store.filter (fun x => x.1 == fullMask)).map Prod.snd
  match t.cause with
  | .side a _ => if t.stage == .store then t.dirtyIn else whole a
  | .zero _ a => if t.stage == .store then t.dirtyIn else whole a
  | _ => none

/-- The newest value of a sub-block: a side write under way, the cache, a write-back, or the stack; none for poison (log
entry 30). -/
def Dev.peek (s : Dev) (p : Place) : Option Sub :=
  match (s.cache.txns.filterMap (fun t => if t.place.same p then t.sideValue else none)).getLast? with
  | some x => some x
  | none =>
    match s.cached p with
    | some x => some x
    | none =>
      match s.captured p with
      | some v => v
      | none => let w := s.dramWord p.d; if w.2 then none else some w.1

/-- The reads of an escape group's slots: their tag copies and data are checked before they are used (R133, R134). -/
def Dev.groupRead (s : Dev) (e : EscapeRef) : Dev :=
  s.each (List.range e.slots.toNat) (fun s i =>
    let p := s.sidePlace e.home.toNat e.grp.toNat (e.d.toNat + 64 * i) e.shadowed
    if s.phase == .eclipse then s
    else
      let s1 := s.readSets p
      if s1.phase == .eclipse then s1 else s1.readCheck p)

/-- Zeroes a slot for a run (R314), whose answer waits for it. -/
def Dev.zeroSlot (s : Dev) (e : EscapeRef) (run i : Nat) : Dev :=
  let d := e.d.toNat + 64 * i
  let a : SideAccess := { sender := e.sender, txid := e.txid, home := e.home, grp := e.grp, d := BitVec.ofNat 64 d,
                          shadowed := e.shadowed, store := some (fullMask, 0), upset := {} }
  (s.endClaim e.grp.toNat d).openTxn (.zero run a) .write e.sender (s.sidePlace e.home.toNat e.grp.toNat d e.shadowed) allocPrism
    false false false

/-- The slots of an escape group as they stand, with those that a claim has taken (R314). -/
def Dev.groupSlots (s : Dev) (e : EscapeRef) : List (Option Sub) :=
  (List.range e.slots.toNat).map (fun i =>
    let d := e.d.toNat + 64 * i
    match s.claimed e.grp.toNat d with
    | some b => some (slotSub 0 0 b)
    | none => s.peek (s.sidePlace e.home.toNat e.grp.toNat d e.shadowed))

/-- Answers the claims and releases whose every slot has been zeroed, mirror copies included (R314, R316). -/
def Dev.slotsRun (s : Dev) : Dev :=
  let busy := fun (r : SlotRun) => s.cache.txns.any (fun t => match t.cause with
    | .zero k _ => k == r.id
    | _ => false)
  let s1 : Dev := { s with prism.slots := s.prism.slots.filter busy }
  s1.each (s.prism.slots.filter (fun r => !busy r)) (fun s r =>
    match r.slot with
    | some i => s.send (.slot r.sender r.txid i)
    | none => s.send (.sideData r.sender r.txid .ok 0))

/-- Zeroes slots for a claim or a release, which is answered when all are done. -/
def Dev.startSlots (s : Dev) (e : EscapeRef) (l : List Nat) (slot : Option (Option Nat)) : Dev :=
  let id := s.nextId
  let r : SlotRun := { id := id, sender := e.sender, txid := e.txid, slot := slot }
  (({ s with nextId := id + 1, prism.slots := s.prism.slots ++ [r] }).each l (fun s k => s.zeroSlot e id k)).slotsRun

/-- claim_slot (R314): the slot is kept for the block until it is written. -/
def Dev.claimAt (s0 : Dev) (e : EscapeRef) : Dev :=
  let s := s0.groupRead e
  let slots := s.groupSlots e
  if s.phase == .eclipse then s
  else match claimSlot slots e.block.toNat with
  | none => s.send (.slot e.sender e.txid none)
  | some i =>
    let d := e.d.toNat + 64 * i
    let s1 := s.endClaim e.grp.toNat d
    let s2 : Dev := { s1 with prism.claims := s1.prism.claims ++ [((e.grp.toNat, d / 64 * 64), e.block.toNat)] }
    s2.startSlots e (staleSlots slots e.block.toNat (i + 1)) (some (some i))

/-- release_slot (R314). -/
def Dev.releaseAt (s0 : Dev) (e : EscapeRef) : Dev :=
  let s := s0.groupRead e
  if s.phase == .eclipse then s else s.startSlots e (staleSlots (s.groupSlots e) e.block.toNat 0) none

end Sys2Proof.Machine
end

