-- ==== Sys2Proof/Machine/Plan.lean ====
section
/-! DEFINITION. Reading the plan in force: the wave and flow descriptors of the frame plan body and the parts of the lattice
body (R39, R41, R345, R346, R414, R415, R516 to R519, R679, R827). -/

namespace Sys2Proof.Machine

/-! ### The wave descriptor (R346) -/

/-- A wave descriptor's fields. -/
structure Wave where
  wSpace : Nat
  wFormat : Nat
  keep : Bool
  high : Bool
  wPalette : Nat
  wAddr : Nat
  wNstride : Nat
  wScale : Nat
  aSpace : Nat
  aFormat : Nat
  batch : Nat
  aAddr : Nat
  aStride : Nat
  aScale : Nat
  nTiles : Nat
  kTiles : Nat
  accCol : Nat
  accInit : Bool
  accInt : Bool
  outMode : Nat
  oSpace : Nat
  flow : Nat
  oAddr : Nat
  oStride : Nat
  oScale : Nat
  outWord : Nat
deriving DecidableEq, Repr

def waveOf (b : List Byte) (i : Nat) : Wave :=
  let w := waveWord b i
  { wSpace := bitsOf (w 0) 63 62, wFormat := bitsOf (w 0) 61 58, keep := bitAt (w 0) 57, high := bitAt (w 0) 56
    wPalette := bitsOf (w 0) 55 52, wAddr := bitsOf (w 0) 47 0, wNstride := bitsOf (w 1) 63 48
    wScale := bitsOf (w 1) 47 0, aSpace := bitsOf (w 2) 63 62, aFormat := bitsOf (w 2) 61 58
    batch := bitsOf (w 2) 57 49, aAddr := bitsOf (w 2) 47 0, aStride := bitsOf (w 3) 63 48
    aScale := bitsOf (w 3) 47 0, nTiles := bitsOf (w 4) 63 55, kTiles := bitsOf (w 4) 54 39
    accCol := bitsOf (w 4) 38 31, accInit := bitAt (w 4) 30, accInt := bitAt (w 4) 29, outMode := bitsOf (w 4) 28 27
    oSpace := bitsOf (w 5) 63 62, flow := bitsOf (w 5) 59 48, oAddr := bitsOf (w 5) 47 0, oStride := bitsOf (w 6) 63 48
    oScale := bitsOf (w 6) 47 0, outWord := bitsOf (w 7) 15 0 }

/-- Whether a wave has a zero count, and so no effect (R350). -/
def Wave.empty (d : Wave) : Bool := d.nTiles == 0 || d.kTiles == 0 || d.batch == 0

/-! ### The reduce-flow descriptor (R415) -/

/-- A reduce-flow descriptor's fields. -/
structure Flow where
  op : Nat
  type : Nat
  root : Nat
  dstInit : Bool
  parts : Nat
  srcCount : Nat
  lines : Nat
  parent : Nat
  srcSpace : Nat
  srcOffset : Nat
  srcStride : Nat
  dstSpace : Nat
  dstAddr : Nat
  outWord : Nat
deriving DecidableEq, Repr

def flowOf (b : List Byte) (i : Nat) : Flow :=
  let w := flowWord b i
  { op := bitsOf (w 0) 63 62, type := bitsOf (w 0) 61 60, root := bitsOf (w 0) 59 57, dstInit := bitAt (w 0) 56
    parts := bitsOf (w 0) 55 48, srcCount := bitsOf (w 0) 47 45, lines := bitsOf (w 0) 44 32
    parent := bitsOf (w 0) 23 0, srcSpace := bitsOf (w 1) 63 62, srcOffset := bitsOf (w 1) 28 0
    srcStride := bitsOf (w 2) 28 0, dstSpace := bitsOf (w 3) 63 62, dstAddr := bitsOf (w 3) 47 0
    outWord := bitsOf (w 4) 15 0 }

/-- Whether a flow has a zero count, and so no effect (R424). -/
def Flow.empty (d : Flow) : Bool := d.lines == 0 || d.srcCount == 0 || d.parts == 0

/-! ### Trees (R416, R517) -/

/-- PARENT of a position. -/
def parentOf (parent p : Nat) : Nat := bitsOf parent (3 * p + 2) (3 * p)

/-- The positions on the PARENT path from p to the root. -/
def pathUp (parent root : Nat) : Nat → Nat → List Nat
  | 0, p => [p]
  | fuel + 1, p => if p == root then [p] else p :: pathUp parent root fuel (parentOf parent p)

/-- Tree members: the root, the leaves of a mask, and every position on their paths. -/
def treeMembers (parent root mask : Nat) : List Nat :=
  (List.range 8).filter (fun p => p == root || (onesOf 8 mask).any (fun q => (pathUp parent root 8 q).contains p))

/-- The children of a member, ascending. -/
def treeChildren (parent root mask p : Nat) : List Nat :=
  (treeMembers parent root mask).filter (fun q => q != root && q != p && parentOf parent q == p)

def Flow.members (d : Flow) : List Nat := treeMembers d.parent d.root d.parts
def Flow.children (d : Flow) (p : Nat) : List Nat := treeChildren d.parent d.root d.parts p

/-! ### The lattice body (R679) -/

/-- The part directory: KIND, INDEX, COUNT, OFFSET and LENGTH of each part. -/
def latticeParts (b : List Byte) : List (Nat × Nat × Nat × Nat × Nat) :=
  (List.range (byteAt b 0)).map (fun k =>
    let o := 8 + 16 * k
    (byteAt b o, byteAt b (o + 1), leAt b (o + 4) 4, leAt b (o + 8) 4, leAt b (o + 12) 4))

/-- The body of the part of a kind and index. -/
def latticePart (b : List Byte) (kind index : Nat) : Option (List Byte) :=
  ((latticeParts b).find? (fun p => p.1 == kind && p.2.1 == index)).map (fun p => sliceOf b p.2.2.2.1 p.2.2.2.2)

/-- The bodies of the parts of a kind. -/
def latticePartsOf (b : List Byte) (kind : Nat) : List (List Byte) :=
  ((latticeParts b).filter (fun p => p.1 == kind)).map (fun p => sliceOf b p.2.2.2.1 p.2.2.2.2)

/-- Transfers of the transfer list. -/
def transferCount (b : List Byte) : Nat :=
  (((latticeParts b).find? (fun p => p.1 == 1)).map (fun p => p.2.2.1)).getD 0

/-- A lattice transfer descriptor's fields (R516). -/
structure Transfer where
  root : Nat
  dests : Nat
  lines : Nat
  inFormat : Nat
  parent : Nat
  srcSpace : Nat
  srcOffset : Nat
  dstSpace : Nat
  dstOffset : Nat
  dstScale : Nat
  outWord : Nat
deriving DecidableEq, Repr

def transferOf (body : List Byte) (i : Nat) : Transfer :=
  let b := (latticePart body 1 0).getD (((latticePartsOf body 1).head?).getD [])
  let w := fun k => leAt b (64 * i + 8 * k) 8
  { root := bitsOf (w 0) 63 61, dests := bitsOf (w 0) 60 53, lines := bitsOf (w 0) 52 40
    inFormat := bitsOf (w 0) 39 36, parent := bitsOf (w 0) 23 0, srcSpace := bitsOf (w 1) 63 62
    srcOffset := bitsOf (w 1) 28 0, dstSpace := bitsOf (w 2) 63 62, dstOffset := bitsOf (w 2) 28 0
    dstScale := bitsOf (w 3) 28 0, outWord := bitsOf (w 4) 15 0 }

def Transfer.members (d : Transfer) : List Nat := treeMembers d.parent d.root d.dests
def Transfer.children (d : Transfer) (p : Nat) : List Nat := treeChildren d.parent d.root d.dests p

/-- Whether a transfer has no effect (R518). -/
def Transfer.empty (d : Transfer) : Bool := d.lines == 0 || d.dests == 0

/-- The issue list of a timetable for a position: slots and transfers (R519). A body without the part stands for the
empty timetable (R679). -/
def issueList (b : List Byte) (timetable p : Nat) : List (Nat × Nat) :=
  match latticePart b 2 timetable with
  | some part => Config.timetableIssues part p
  | none => []

/-- An entry of a link list (R519). -/
structure LinkEntry where
  port : Nat
  flow : Bool
  index : Nat
  line : Nat
  flits : Nat
  start : Nat
deriving DecidableEq, Repr

def linkEntryOf (w : Nat) : LinkEntry :=
  { port := bitsOf w 63 61, flow := bitAt w 60, index := bitsOf w 59 47, line := bitsOf w 46 30, flits := bitsOf w 29 20
    start := bitsOf w 19 6 }

/-- The words of the link list of a timetable for a position (R519). -/
def linkWords (b : List Byte) (timetable p : Nat) : List Nat :=
  match latticePart b 2 timetable with
  | some part => Config.timetableLinks part p
  | none => []

/-- The link list of a timetable for a position (R519). -/
def linkList (b : List Byte) (timetable p : Nat) : List LinkEntry := (linkWords b timetable p).map linkEntryOf

/-- Reserved CTL LCLK cycles, the multiples of 8, below n (R478). -/
def eighths (n : Nat) : Nat := (n + 7) / 8

/-- LCLK cycles below START that are not reserved: the place of an entry's first flit among them. -/
def LinkEntry.rank (e : LinkEntry) : Nat := e.start - eighths e.start

/-- The LCLK of a place among those that are not reserved (R478, R520). -/
def lclkAt (r : Nat) : Nat := r / 7 * 8 + r % 7 + 1

/-- The flit of a link entry that LCLK n of the frame carries: its place in the entry (R520). -/
def LinkEntry.flitAt (e : LinkEntry) (n : Nat) : Option Nat :=
  if n < e.start || n % 8 == 0 then none
  else
    let i := n - eighths n - e.rank
    if i < e.flits then some i else none

/-- The lines that flit i of an entry may carry (R520). -/
def LinkEntry.flitLines (e : LinkEntry) (i : Nat) : List Nat := (List.range 3).map (fun k => e.line + 3 * i + k)

/-- The detour plan for a link, and the loss plan for a position (R529, R620). -/
def detourFor (b : List Byte) (link : Nat) : Option (Nat × List Nat × List Nat) :=
  ((latticePartsOf b 3).map Config.detourPlan).find? (fun d => d.1 == link)
def lossFor (b : List Byte) (lost : Nat) : Option (Nat × List Nat × List Nat × List Nat) :=
  ((latticePartsOf b 4).map Config.lossPlan).find? (fun d => d.1 == lost)

/-! ### The plan in force on this slice -/

/-- The loss plan in force: the one for the position whose loss switched the plan (R620). -/
def Dev.lossPlan (s : Dev) : Option (Nat × List Nat × List Nat × List Nat) :=
  ((List.range 8).filter s.isLost).findSome? (lossFor s.img.force.lattice)

/-- Entries of the frame list in force. -/
def Dev.listLength (s : Dev) : Nat :=
  match s.frm.which with
  | .normal => planPeriod s.plan
  | .degraded => planDegPeriod s.plan
  | .loss => ((s.lossPlan).map (fun l => l.2.2.2.length)).getD 0

/-- Entry i of the frame list in force (R39, R41, R627). -/
def Dev.listEntry (s : Dev) (i : Nat) : Nat :=
  match s.frm.which with
  | .normal => normalEntry s.plan i
  | .degraded => degradedEntry s.plan i
  | .loss => ((s.lossPlan).map (fun l => l.2.2.2.getD i 0)).getD 0

/-- The timetable in force: the template's, through the map of a detour or loss plan in force (R529, R627). -/
def Dev.timetable (s : Dev) : Nat :=
  let t := templateTimetable s.plan s.template
  if s.frm.which == .loss then ((s.lossPlan).map (fun l => l.2.2.1.getD t t)).getD t
  else if s.get F.pwkDetour_MODE == 1 then
    match detourFor s.img.force.lattice (lowestBit 10 (s.get F.pwkDetour_LOST_LINKS)) with
    | some d => d.2.2.getD t t
    | none => t
  else t

/-- SCLK cycles by which FRAME_GO leads its boundary, by set size (R53). -/
def goLead (n : Nat) : Nat :=
  match n with
  | 2 => 24
  | 4 => 48
  | 6 => 72
  | 8 => 96
  | _ => 0

end Sys2Proof.Machine
end

