-- ==== Sys2Proof/Machine/Planned.lean ====
section
/-! DEFINITION. What planned items share: accumulator files, the sources they read, the conversion of the blocks they
write (R317 to R322), and planned writes to typed MEM (R313 to R316, R351, R420). -/

namespace Sys2Proof.Machine

/-- A logical engine's work. -/
def Dev.engine (s : Dev) (e : Nat) : Engine := tgetD s.lens.engines e { running := none, pending := [] }
def Dev.setEngine (s : Dev) (e : Nat) (x : Engine) : Dev :=
  { s with lens.engines := tput { running := none, pending := [] } s.lens.engines e x }

/-! ### Accumulator files (R358 to R361, R384, R386) -/

/-- Key of the entry that holds byte y of engine e's file: column y / 512, row y mod 512 / 4 (R384). -/
def accKey (e y : Nat) : Nat := e * 32768 + y / 4

/-- An entry's bits and its poison mark. -/
def Dev.accEntry (s : Dev) (k : Nat) : Nat := (tgetD s.lens.acc k 0).toNat
def Dev.accMarked (s : Dev) (k : Nat) : Bool := tgetD s.lens.marks k s.lens.markAll

/-- Sets an entry's bits, or its mark. -/
def Dev.setAcc (s : Dev) (k v : Nat) : Dev := { s with lens.acc := tput 0 s.lens.acc k (BitVec.ofNat 32 v) }
def Dev.setMark (s : Dev) (k : Nat) (m : Bool) : Dev :=
  { s with lens.marks := tput s.lens.markAll s.lens.marks k m }

/-- Marks the entries that a poisoned block written to a file covers (R360). -/
def Dev.accPoison (s : Dev) (e y mask : Nat) : Dev :=
  s.each ((List.range 16).filter (fun i => bitsOf mask (4 * i + 3) (4 * i) != 0)) (fun s i => s.setMark (accKey e y + i) true)

/-- The sub-block at byte y of engine e's file, none where it holds a marked entry (R360). -/
def Dev.accSub (s : Dev) (e y : Nat) : Option Sub :=
  let ks := (List.range 16).map (fun i => accKey e y + i)
  if ks.any s.accMarked then none else some (BitVec.ofNat 512 (packCodes 32 (ks.map s.accEntry)))

/-- Writes the masked bytes of a sub-block of a file; a whole one clears the marks it covers (R360), and a word written whole no
longer holds an upset bit. -/
def Dev.accWrite (s0 : Dev) (e y : Nat) (mask : Nat) (v : Sub) : Dev :=
  let s := { s0 with lens.accBad := s0.lens.accBad.filter (fun k =>
    !(k.1 / 16384 == e && k.1 % 16384 / 8 == y / 64 && bitsOf mask (8 * (k.1 % 8) + 7) (8 * (k.1 % 8)) == 255)) }
  s.each (List.range 16) (fun s i =>
    let k := accKey e y + i
    let m := bitsOf mask (4 * i + 3) (4 * i)
    let old := s.accEntry k
    let new := (List.range 4).foldl (fun a b =>
      a + (if bitAt m b then bitsOf v.toNat (32 * i + 8 * b + 7) (32 * i + 8 * b) else bitsOf old (8 * b + 7) (8 * b))
        * 2 ^ (8 * b)) 0
    let s1 := s.setAcc k new
    if mask == fullMask.toNat then s1.setMark k false else s1)

/-- Marks an entry poisoned for a wave (R358, R370). -/
def Dev.poisonEntry (s : Dev) (e k wave : Nat) : Dev :=
  if s.accMarked k then s
  else
    let s1 := (s.setMark k true).bump (F.lnsPoison_ENTRIES e)
    if s1.on (F.lnsPoison_VALID e) then s1 else (s1.put (F.lnsPoison_WAVE e) wave).raise (F.lnsPoison_VALID e)

/-- What a read of an 8-byte word of an accumulator file finds (R358, R359, R366, R367, R786): a corrected word is rewritten, an
uncorrectable one marks both its entries. -/
def Dev.accCheck (s : Dev) (e word : Nat) : Dev :=
  match tget s.lens.accBad (e * 16384 + word) with
  | none => s
  | some u =>
    let s0 := { s with lens.accBad := tdel s.lens.accBad (e * 16384 + word) }
    if u == .none then s0
    else if u == .single then s0.raise (F.lnsErr_ACC_CE e)
    else
      let w := s.get (F.lnsStatus_WAVE e)
      let s1 := (s0.poisonEntry e (e * 32768 + 2 * word) w).poisonEntry e (e * 32768 + 2 * word + 1) w
      ((s1.raise (F.lnsErr_ACC_UE e)).alert alertLns).errorRecord 0x0C e 0 w

/-- The checks of the words of a file that n bytes from byte y reach. -/
def Dev.accSpan (s : Dev) (e y n : Nat) : Dev :=
  s.each ((s.lens.accBad.map Prod.fst).filter (fun k => k / 16384 == e && y < 8 * (k % 16384) + 8 && 8 * (k % 16384) < y + n))
    (fun s k => s.accCheck e (k % 16384))

/-- The checks of the words of a file that a masked write of a sub-block reads: those that it writes in part. -/
def Dev.accPartial (s : Dev) (e y mask : Nat) : Dev :=
  if s.lens.accBad.isEmpty then s
  else s.each ((List.range 8).filter (fun i => bitsOf mask (8 * i + 7) (8 * i) != 0 && bitsOf mask (8 * i + 7) (8 * i) != 255))
    (fun s i => s.accCheck e (y / 8 + i))

/-! ### Sources -/

/-- A sub-block of this slice's SHADE (1) or TILE (2) window, none where it is poisoned or not built. -/
def Dev.windowRead (s : Dev) (space b : Nat) : Option Sub :=
  match s.windowOf (if space == 1 then .shade else .tile) b with
  | .store cls h x => s.storeSub cls h x
  | .acc e y => s.accSub e y
  | .outside => none

/-- n bytes at an offset of a source of sub-blocks, little-endian; none where one is poisoned. -/
def readBytes (src : Nat → Option Sub) (off n : Nat) : Option Nat :=
  if n == 0 then some 0
  else
    let bs := (List.range ((off + n - 1) / 64 + 1 - off / 64)).map (fun i => off / 64 + i)
    (bs.foldr (fun b acc =>
      match src (64 * b), acc with
      | some x, some v => some (x.toNat + v * 2 ^ 512)
      | _, _ => none) (some 0)).map (fun v => bitsOf v (8 * (off % 64 + n) - 1) (8 * (off % 64)))

/-- A sub-block of a local region of this slice as a planned read finds it; bad names those it finds poisoned or
unreadable (log entry 34). -/
def Dev.regionRead (s : Dev) (g : Region) (bad : List (Space × BitVec 64)) (x : Nat) : Option Sub :=
  let a := g.first * 0x200000 + x
  if bad.any (fun e => e.1 == .mem && e.2.toNat / 64 == a / 64) then none
  else
    let h := s.devOf g x
    s.peek (s.placeAt h.2.1 h.2.2 g.shadowed)

/-- A sub-block of a SHADE or TILE source, with the reads that found an uncorrectable error (log entry 34). -/
def Dev.bufferRead (s : Dev) (space : Nat) (bad : List (Space × BitVec 64)) (b : Nat) : Option Sub :=
  if bad.any (fun e => Space.code e.1 == space && e.2.toNat / 64 == b / 64) then none else s.windowRead space b

/-- The tag set that an access to a sub-block of a SHADE (1) or TILE (2) window reads on its way through the pipeline (R130, R134,
R180). -/
def Dev.windowTags (s : Dev) (space b : Nat) : Dev :=
  match s.windowOf (if space == 1 then .shade else .tile) b with
  | .store cls h x =>
    let p := s.storePlace cls h x
    s.readTags p.1 p.2.2.1
  | _ => s

/-- The check of a sub-block of this slice's SHADE (1) or TILE (2) window that is read, and of the tag set that the access reads
(R133, R134, R180, R186, R359). -/
def Dev.windowCheck (s : Dev) (space b : Nat) : Dev :=
  match s.windowOf (if space == 1 then .shade else .tile) b with
  | .store cls h x =>
    let s1 := s.windowTags space b
    if s1.phase == .eclipse then s1 else s1.storeCheck cls h x
  | .acc e y => s.accSpan e (y / 64 * 64) 64
  | .outside => s

/-- The checks of the sub-blocks of a span of this slice's SHADE or TILE window. -/
def Dev.spanCheck (s : Dev) (space off n : Nat) : Dev :=
  if (s.cache.dataBad.isEmpty && s.lens.accBad.isEmpty) || n == 0 then s
  else s.each ((List.range ((off + n - 1) / 64 + 1 - off / 64)).map (fun i => (off / 64 + i) * 64)) (fun s b => s.windowCheck space b)

/-! ### Bytes to write -/

/-- Sub-blocks by offset, with the bytes to write and whether the sub-block is poisoned. -/
abbrev Outs := List (Nat × BitVec 64 × Sub × Bool)

/-- Merges bytes of one sub-block into a list. -/
def addOut (l : Outs) (b : Nat) (m : BitVec 64) (x : Sub) (poison : Bool) : Outs :=
  if l.any (fun e => e.1 == b) then
    l.map (fun e => if e.1 == b then (b, e.2.1 ||| m, mergeMask m.toNat e.2.2.1 x, e.2.2.2 || poison) else e)
  else l ++ [(b, m, x, poison)]

/-- Adds n bytes at an offset. -/
def addBytes (l : Outs) (off n v : Nat) (poison : Bool) : Outs :=
  if n == 0 then l
  else (List.range ((off + n - 1) / 64 + 1 - off / 64)).foldl (fun l i =>
    let b := (off / 64 + i) * 64
    let lo := max off b
    let hi := min (off + n) (b + 64)
    let m := (2 ^ (hi - lo) - 1) * 2 ^ (lo - b)
    let x := bitsOf v (8 * (hi - off) - 1) (8 * (lo - off)) * 2 ^ (8 * (lo - b))
    addOut l b (BitVec.ofNat 64 m) (BitVec.ofNat 512 x) poison) l

/-- Writes sub-blocks of this slice's SHADE or TILE window: a poisoned one loses VALID, or has its entries marked in a file (R186,
R360,
R413); a partial write reads what it merges with and leaves a poisoned one poisoned (R187). -/
def Dev.windowWrite (s : Dev) (space : Nat) (l : Outs) : Dev :=
  s.each l (fun s e =>
    match s.windowOf (if space == 1 then .shade else .tile) e.1 with
    | .store cls h x =>
      if e.2.2.2 then s.setStoreSub cls h x none
      else if e.2.1 == fullMask then s.setStoreSub cls h x (some e.2.2.1)
      else
        let s1 := s.storeCheck cls h x
        match s1.storeSub cls h x with
        | some old => s1.setStoreSub cls h x (some (mergeMask e.2.1.toNat old e.2.2.1))
        | none => s1
    | .acc eng y => if e.2.2.2 then s.accPoison eng y e.2.1.toNat else s.accWrite eng y e.2.1.toNat e.2.2.1
    | .outside => s)

/-! ### Planned conversion (R292, R293, R318, R319, R322) -/

/-- Fields of an output word. -/
def outFormat (w : Nat) : Nat := bitsOf w 15 12
def outNoEscape (w : Nat) : Bool := bitAt w 9

/-- Whether an output word has its reserved bits 0 and no reserved code (R318, R319). -/
def outWordFields (w : Nat) : Bool := bitsOf w 8 0 == 0 && bitsOf w 11 10 != 2 && outFormat w ≤ 0xD

/-- Whether an output word rounds stochastically into a region. -/
def outStochastic (w : Nat) (g : Region) : Bool :=
  match bitsOf w 11 10 with
  | 1 => true
  | 3 => g.round == 1
  | _ => false

/-- The planned LFSR of a facet (R292). -/
def Dev.plannedLfsr (s : Dev) (f : Nat) : Nat := (tgetD s.prism.planned f 0).toNat
def Dev.setPlanned (s : Dev) (f v : Nat) : Dev :=
  { s with prism.planned := tput 0 s.prism.planned f (BitVec.ofNat 32 v) }

/-- The facet whose lane converts into an offset of a SHADE or TILE window. -/
def Dev.windowFacet (s : Dev) (space off : Nat) : Nat :=
  match s.windowOf (if space == 1 then .shade else .tile) off with
  | .store cls h x => (s.storePlace cls h x).1
  | _ => 0

/-- Seeds every facet's planned LFSR at a plan frame's start (R292). -/
def Dev.seedLanes (s : Dev) : Dev :=
  let seed := leAt s.img.force.formats 0 4
  let frames := s.get F.prmFrames_FRAMES
  s.each s.fuse.facets (fun s f => s.setPlanned f (seedPlanned seed f frames))

/-- Seeds every facet's demand LFSR at seal (R292). -/
def Dev.seedDemandLanes (s : Dev) : Dev :=
  let seed := leAt s.img.force.formats 0 4
  s.each s.fuse.facets (fun s f => s.setDemand f (seedDemand seed f))

/-- The region of an offset of this slice's SHADE or TILE window, and its statistics (R318, R322): none outside every region. -/
def Dev.bufferRegion (s : Dev) (space off : Nat) : Option Nat := s.regionOf space (off % 0x20000000) 64

/-- Counts a block that a planned item writes into SHADE or TILE, in its region (R322). -/
def Dev.countBuffer (s : Dev) (r : Option Nat) (f : Nat) (x : Option Nat) (amax : Exact) (sats nans : Nat) : Dev :=
  match r with
  | some k => s.countBlock k f x amax sats nans false false
  | none => s

/-- One block that a planned item writes into SHADE or TILE of region r under an output word (R292, R319, R347; log entries
127 and 128): payload at base + i × payload size, scale at sbase + i; a wide block may be the half of one that ends a transfer.
same: its bits when the formats agree, which is a conversion like any other (R294). -/
def Dev.bufferBlock (s : Dev) (space : Nat) (r : Option Nat) (w base sbase i : Nat) (v : List Exact) (same : Option Nat)
    (poison : Bool) (l : Outs) : Dev × Outs :=
  let g := (r.map s.region).getD Region.empty
  let fmt := outFormat w
  let n := payloadBytes fmt
  let off := base + i * n
  let len := if isWide fmt && !v.isEmpty then elemBits fmt * v.length / 8 else n
  if poison then (s, addBytes l off len 0 true)
  else
    let f := s.windowFacet space off
    let amax := amaxOf v
    if isWide fmt then
      let o := encodeWide fmt (outStochastic w g) v (s.plannedLfsr f)
      let s1 := s.setPlanned f o.lfsr
      match same with
      | some b => (s1.countBuffer r f none amax 0 0, addBytes l off len b false)
      | none => (s1.countBuffer r f none amax o.sats o.nans, addBytes l off len (packCodes (elemBits fmt) o.codes) false)
    else
      let b := encodeBlock fmt (s.regionPalette g) (outStochastic w g) v (s.plannedLfsr f)
      ((s.setPlanned f b.lfsr).countBuffer r f (some b.x) amax b.sats b.nans,
        addBytes (addBytes l off n b.payload false) (sbase + i) 1 b.x false)

/-- The escape group of a block, for its own slice (R303, R314). -/
def Dev.groupOf (s : Dev) (g : Region) (n : Nat) : EscapeRef :=
  let a := s.devOf g (g.escGroup n)
  { sender := sliceAgent s.pos, txid := 0, home := BitVec.ofNat 3 a.1, grp := BitVec.ofNat 6 a.2.1, d := BitVec.ofNat 64 a.2.2
    slots := BitVec.ofNat 3 g.escSlots, block := BitVec.ofNat 9 (g.escIndex n), shadowed := g.shadowed }

/-- The slots of a block's escape group as they stand (R314), through the writes that a planned item has gathered. -/
def Dev.plannedSlots (s : Dev) (g : Region) (n : Nat) (sides : Outs) : List (Option Sub) :=
  ((s.groupSlots (s.groupOf g n)).zipIdx).map (fun x =>
    match sides.find? (fun e => e.1 == g.escGroup n + 64 * x.2) with
    | some e => some e.2.2.1
    | none => x.1)

/-- One block that a planned item writes into typed MEM (R313, R318, R351): the payload and the scale and slot writes,
by region offset. A poisoned block is not converted (log entry 127). -/
def Dev.memBlock (s0 : Dev) (r w : Nat) (k : PlanBlock) (pay sides : Outs) : Dev × Outs × Outs :=
  let n := k.n
  let v := k.vals
  let g := s0.region r
  let fmt := g.format
  let off := blockOffset fmt n
  let len := payloadBytes fmt
  if k.poison then (s0, addBytes pay off len 0 true, sides)
  else
    let s := if isWide fmt then s0 else s0.groupRead (s0.groupOf g n)
    let f := s.fuse.owner (s.devOf g off).2.1
    let amax := amaxOf v
    if isWide fmt then
      let o := encodeWide fmt (outStochastic w g) v (s.plannedLfsr f)
      let s1 := s.setPlanned f o.lfsr
      match k.same with
      | some b => (s1.countBlock r f none amax 0 0 false false, addBytes pay off len b false, sides)
      | none =>
        (s1.countBlock r f none amax o.sats o.nans false false,
          addBytes pay off len (packCodes (elemBits fmt) o.codes) false, sides)
    else
      let pal := s.regionPalette g
      let b := encodeBlock fmt pal (outStochastic w g) v (s.plannedLfsr f)
      let s1 := s.setPlanned f b.lfsr
      let cand := b.sats != 0 || b.nans != 0 ||
        (g.escThr != 0 && !Exact.le (errOf fmt pal v b) (amax.scale (-(g.escThr : Int))))
      let slots := s1.plannedSlots g n sides
      let j := g.escIndex n
      let take := if cand && !outNoEscape w then claimSlot slots j else none
      match take with
      | some i =>
        let e := encodeBlock 4 ⟨[], 0⟩ (outStochastic w g) v (s1.plannedLfsr f)
        let sd := (staleSlots slots j (i + 1)).foldl (fun l m => addBytes l (g.escGroup n + 64 * m) 64 0 false) sides
        let sd1 := addBytes (addBytes sd (g.escGroup n + 64 * i) 64 (slotSub e.payload e.x j).toNat false) (g.scaleBase + n) 1
          0xFF false
        ((s1.setPlanned f e.lfsr).countBlock r f (some e.x) amax e.sats e.nans true false, addBytes pay off len 0 false, sd1)
      | none =>
        let sd := (staleSlots slots j 0).foldl (fun l m => addBytes l (g.escGroup n + 64 * m) 64 0 false) sides
        let full := cand && !outNoEscape w && g.escSlots != 0
        (s1.countBlock r f (some b.x) amax b.sats b.nans false full, addBytes pay off len b.payload false,
          addBytes sd (g.scaleBase + n) 1 b.x false)

/-! ### Planned writes to typed MEM (R313 to R316) -/

/-- Changes a job. -/
def Dev.updJob (s : Dev) (id : Nat) (f : PlanJob → PlanJob) : Dev :=
  { s with lens.jobs := s.lens.jobs.map (fun j => if j.id == id then f j else j) }

/-- The planned transactions of a job, and its open scale and slot writes. -/
def Dev.jobTxns (s : Dev) (id : Nat) : List Txn :=
  s.cache.txns.filter (fun t => match t.cause with
    | .planned j _ _ => j == id
    | _ => false)
def Dev.jobSides (s : Dev) (id : Nat) : Bool :=
  s.cache.txns.any (fun t => match t.cause with
    | .side a false => a.sender == sliceAgent s.pos && a.txid.toNat == id % 4096
    | _ => false)

/-- The write of a job's sub-block. -/
def Dev.jobAccess (s : Dev) (id : Nat) (k : Nat × Nat × Nat) (m : BitVec 64) (x : Sub) : SideAccess :=
  { sender := sliceAgent s.pos, txid := BitVec.ofNat 12 id, home := BitVec.ofNat 3 k.1, grp := BitVec.ofNat 6 k.2.1,
    d := BitVec.ofNat 64 k.2.2, shadowed := false, store := some (m, x), upset := {} }

/-- The place of a job's sub-block. -/
def Dev.jobPlace (s : Dev) (k : Nat × Nat × Nat) : Place := s.placeAt k.2.1 k.2.2 (s.shadowedChunk (k.2.2 / 0x200000))

/-- A payload sub-block takes effect once its scale and slots are written: poison, the whole sub-block, or its bytes. -/
def Dev.plannedApply (s : Dev) (t : Txn) : Dev :=
  match t.cause with
  | .planned _ _ true => s.txnPoison t
  | .planned _ a false =>
    match a.store, t.dirtyIn with
    | some (m, _), some x => if m == fullMask then s.txnApply t none else s.txnApply t (some x)
    | some (m, _), none => if m == fullMask then s.txnApply t none else s.txnFetch t
    | none, _ => s
  | _ => s

/-- A job that holds all its granules converts its blocks in order, claims and releases their slots with no other access to the
groups between, and sends the scale and slot writes; the payload waits in the granules' transactions (R293, R313 to R315). -/
def Dev.jobConvert (s : Dev) (j : PlanJob) : Dev :=
  let g := s.region j.rgn
  let o := j.todo.foldl (fun (a : Dev × Outs × Outs) k => a.1.memBlock j.rgn j.word k a.2.1 a.2.2) (s, [], [])
  let pay := o.2.1.map (fun e => (s.devOf g e.1, (e.2.1, e.2.2.1)))
  let fill := fun (t : Txn) => match t.cause with
    | .planned id a false =>
      if id == j.id then { t with cause := .planned id { a with
        store := (pay.find? (fun e => e.1 == (a.home.toNat, a.grp.toNat, a.d.toNat))).map Prod.snd } false } else t
    | _ => t
  let s1 : Dev := { o.1.updJob j.id (fun j => { j with todo := [] }) with cache.txns := o.1.cache.txns.map fill }
  s1.each o.2.2 (fun s e =>
    let at_ := s.devOf g e.1
    (s.endClaim at_.2.1 at_.2.2).openTxn (.side (s.jobAccess j.id at_ e.2.1 e.2.2.1) false) .write (sliceAgent s.pos)
      (s.jobPlace at_) allocPrism false false false)

/-- The next steps of a job: it takes hold of its payload granules as they come free, then converts its blocks and writes the scales
and slots, then the payload. -/
def Dev.jobRun (s : Dev) (id : Nat) : Dev :=
  match s.lens.jobs.find? (fun j => j.id == id) with
  | none => s
  | some j =>
    let s1 := s.each j.outs (fun s o =>
      let p := s.jobPlace o.1
      if s.held p then s
      else
        (s.updJob id (fun j => { j with outs := j.outs.filter (fun x => x.1 != o.1) })).openTxn
          (.planned id (s.jobAccess id o.1 o.2.1 o.2.2.1) o.2.2.2) .write (sliceAgent s.pos) p allocPrism false false false)
    match s1.lens.jobs.find? (fun j => j.id == id) with
    | none => s1
    | some j1 =>
      if j1.applied then
        if (s1.jobTxns id).isEmpty then { s1 with lens.jobs := s1.lens.jobs.filter (fun x => x.id != id) } else s1
      else if !j1.outs.isEmpty || (s1.jobTxns id).any (fun t => t.stage != .typed) then s1
      else
        let s2 := if j1.todo.isEmpty then s1 else s1.jobConvert j1
        if s2.jobSides id then s2
        else
          let s3 := (s2.updJob id (fun j => { j with applied := true })).each (s2.jobTxns id) Dev.plannedApply
          if (s3.jobTxns id).isEmpty then { s3 with lens.jobs := s3.lens.jobs.filter (fun x => x.id != id) } else s3

/-- Starts a job of an owner on sub-blocks of a region by offset, which wait for the blocks to convert under an output word, if
any. -/
def Dev.startJob (s : Dev) (owner rgn word : Nat) (pay : Outs) (todo : List PlanBlock) : Dev :=
  let id := s.nextId
  let g := s.region rgn
  let j : PlanJob :=
    { id := id, owner := owner, rgn := rgn, word := word
      outs := pay.map (fun e => (s.devOf g e.1, e.2.1, e.2.2.1, e.2.2.2)), todo := todo, applied := false }
  ({ s with nextId := id + 1, lens.jobs := s.lens.jobs ++ [j] }).jobRun id

/-- Starts a job of an owner that converts blocks into typed MEM (R351, R420). -/
def Dev.startBlocks (s : Dev) (owner rgn word : Nat) (todo : List PlanBlock) : Dev :=
  let fmt := (s.region rgn).format
  s.startJob owner rgn word (todo.foldl (fun l k => addBytes l (blockOffset fmt k.n) (payloadBytes fmt) 0 k.poison) []) todo

/-- Fetches the weight sectors that waves still need, by planned bulk: one that meets a bound waits (R142, R339). -/
def Dev.keepRun (s : Dev) : Dev :=
  let l := s.lens.keeps
  ({ s with lens.keeps := [] }).each l (fun s k =>
    let miss := (List.range 4).map (fun i => { k.place with d := k.place.d / 256 * 256 + 64 * i })
    match miss.find? (fun q => (s.cached q).isNone && (s.captured q).isNone) with
    | none => s
    | some q =>
      match s.fetch q allocLens k.age (if k.keep then .planned else .pass) none with
      | .ok s1 =>
        let x := s1.engine k.engine
        let ids := (s1.plrAt q).toList.map Plr.id
        s1.setEngine k.engine { x with running := x.running.map (fun (r : WaveRun) => { r with loads := r.loads ++ ids }) }
      | .error _ => { s with lens.keeps := s.lens.keeps ++ [k] })

/-- Whether an owner has a job whose blocks are not converted yet (R293). -/
def Dev.jobConverts (s : Dev) (owner : Nat) : Bool := s.lens.jobs.any (fun j => j.owner == owner && !j.todo.isEmpty)

/-- Whether an owner has a job that is not done. -/
def Dev.jobOpen (s : Dev) (owner : Nat) : Bool := s.lens.jobs.any (fun j => j.owner == owner)

end Sys2Proof.Machine
end

