-- ==== Sys2Proof/Machine/Lens.lean ====
section
/-! DEFINITION. Lens engines: weights, activations, promotion and output (chapters 10 and 11). A wave's passes, promotions
and output conversions are computed whole at its start (log entry 37). -/

namespace Sys2Proof.Machine

/-! ### Weights (R332 to R336) -/

/-- A decoded weight block: its integers, exponent offset and scale, whether it came from an escape slot, and whether it
is poisoned. -/
structure WBlock where
  w : List Int
  f : Int
  x : Int
  esc : Bool
  poison : Bool
deriving DecidableEq, Repr

def WBlock.bad (esc : Bool) : WBlock := { w := [], f := 0, x := 127, esc := esc, poison := true }

/-- Exponent offset of the weight formats that enter exactly (R332). -/
def weightFrac (fmt : Nat) (pal : Palette) : Option Int :=
  match fmt with
  | 0x6 => some 4
  | 0x7 => some 3
  | 0x8 => some 1
  | 0x9 => some 6
  | 0xA => some 0
  | 0xB => some 0
  | 0xC => some (-pal.texp)
  | 0xD => some (-pal.texp)
  | _ => none

/-- Slices per weight (R332). -/
def weightSlices (fmt : Nat) : Nat :=
  match fmt with
  | 0x2 => 4
  | 0x8 => 1
  | 0xA => 1
  | 0xB => 1
  | 0xC => 1
  | 0xD => 1
  | _ => 2

/-- A finite value to the nearest integer, ties to even. -/
def roundInt (x : Exact) : Int :=
  match x with
  | .fin neg m e =>
    let s := shiftFloor m e
    let r : Int := (roundUnit .rne s.1 s.2.1 s.2.2 : Nat)
    if neg then -r else r
  | _ => 0

/-- The exponent of the largest finite value of a block, 0 for a block of zeros (R334). -/
def blockTop (v : List Exact) : Int :=
  (v.foldl (fun (b : Option Int) x =>
    match x with
    | .fin _ m e =>
      if m == 0 then b
      else
        let t : Int := (log2f m : Int) + e
        some (match b with
          | none => t
          | some u => max t u)
    | _ => b) none).getD 0

/-- A block aligned to q binary places below its largest element (R334, R335). -/
def alignBlock (q : Int) (v : List Exact) (x : Int) (esc : Bool) : WBlock :=
  if v.all Exact.isFin then
    let p := blockTop v
    { w := v.map (fun e => roundInt (e.scale (q - p))), f := q - p, x := x, esc := esc, poison := false }
  else WBlock.bad esc

/-- A weight block from its payload and scale (R332, R334, R336). -/
def weightBlock (fmt : Nat) (pal : Palette) (payload x : Nat) : WBlock :=
  if fmt == 0x2 then alignBlock 19 ((unpackCodes 16 32 payload).map (decodeElem fmt pal)) 127 false
  else
    let v := (blockCodes fmt payload).map (decodeElem fmt pal)
    match weightFrac fmt pal with
    | some f => { w := v.map (fun e => e.atExp (-f)), f := f, x := x, esc := false, poison := false }
    | none => alignBlock 9 v x false

/-- The weight block of an escape slot (R335): its elements are E4M3 with the slot's scale. -/
def slotWeight (v : Sub) : WBlock :=
  let xe := bitsOf v.toNat 263 256
  if xe == 0xFF then WBlock.bad true
  else alignBlock 9 ((blockCodes 4 (bitsOf v.toNat 255 0)).map (decodeElem 4 ⟨[], 0⟩)) xe true

/-- Block number of the region block whose payload starts at an offset (R301). -/
def blockAt (fmt off : Nat) : Nat := off / 1024 * unitBlocks fmt + off % 1024 / payloadBytes fmt

/-- The region of a wave's MEM weights. -/
def Dev.weightRegion (s : Dev) (d : Wave) : Region :=
  match s.regionOf 0 d.wAddr 64 with
  | some n => s.region n
  | none => Region.empty

/-- Weight block j of a wave, counted from the block at W_ADDR (R337, R338). -/
def Dev.weightAt (s : Dev) (d : Wave) (bad : List (Space × BitVec 64)) (j : Nat) : WBlock :=
  let len := payloadBytes d.wFormat
  if d.wSpace == 0 then
    let g := s.weightRegion d
    let n := blockAt d.wFormat (d.wAddr - g.first * 0x200000) + j
    let pay := readBytes (s.regionRead g bad) (blockOffset d.wFormat n) len
    if isWide d.wFormat then (pay.map (fun v => weightBlock d.wFormat ⟨[], 0⟩ v 127)).getD (WBlock.bad false)
    else match readBytes (s.regionRead g bad) (g.scaleBase + n) 1 with
      | none => WBlock.bad false
      | some x =>
        if x != 0xFF then (pay.map (fun v => weightBlock d.wFormat (s.regionPalette g) v x)).getD (WBlock.bad false)
        else
          match findSlot ((List.range g.escSlots).map (fun i => s.regionRead g bad (g.escGroup n + 64 * i)))
            (g.escIndex n) with
          | some (some v) => slotWeight v
          | _ => WBlock.bad true
  else
    let src := s.bufferRead d.wSpace bad
    match readBytes src (bitsOf d.wAddr 28 0 + j * len) len with
    | none => WBlock.bad false
    | some v =>
      if isWide d.wFormat then weightBlock d.wFormat ⟨[], 0⟩ v 127
      else match readBytes src (bitsOf d.wScale 28 0 + j) 1 with
        | none => WBlock.bad false
        | some x =>
          if x == 0xFF then WBlock.bad false
          else weightBlock d.wFormat (paletteOf s.img.force.formats d.wPalette) v x

/-! ### Activations (R340 to R344) -/

/-- An activation block: its codes, its exponent, and whether it is poisoned. -/
structure ABlock where
  c : List Int
  x : Int
  poison : Bool
deriving DecidableEq, Repr

def ABlock.bad : ABlock := { c := [], x := 127, poison := true }

/-- An activation block in high precision: codes of 2^-14 (R341). -/
def highBlock (v : List Exact) : ABlock :=
  let x := scaleFor v (some (.fin false 16383 (-14))) (some (.fin true 1 0))
  { c := v.map (fun e => max (-16384) (min 16383 (roundInt (e.scale (141 - (x : Int)))))), x := x, poison := false }

/-- An activation block from its payload, and its scale for INT8 (R340, R341, R343, R344). -/
def activationBlock (fmt : Nat) (high : Bool) (payload x : Nat) : ABlock :=
  if fmt == 0x9 then
    if x == 0xFF then ABlock.bad
    else { c := (unpackCodes 8 32 payload).map (fun c => signed 8 c), x := x, poison := false }
  else
    let v := (unpackCodes (elemBits fmt) 32 payload).map (decodeElem fmt ⟨[], 0⟩)
    if !v.all Exact.isFin then ABlock.bad
    else if high then highBlock v
    else
      let b := encodeBlock 9 ⟨[], 0⟩ false v 0
      { c := (unpackCodes 8 32 b.payload).map (fun c => signed 8 c), x := b.x, poison := false }

/-- Activation block i of a wave (R347). -/
def Dev.activationAt (s : Dev) (d : Wave) (bad : List (Space × BitVec 64)) (i : Nat) : ABlock :=
  let len := payloadBytes d.aFormat
  let src := s.bufferRead d.aSpace bad
  match readBytes src (bitsOf d.aAddr 28 0 + i * len) len with
  | none => ABlock.bad
  | some v =>
    if d.aFormat != 0x9 then activationBlock d.aFormat d.high v 127
    else match readBytes src (bitsOf d.aScale 28 0 + i) 1 with
      | none => ABlock.bad
      | some x => activationBlock d.aFormat false v x

/-! ### Promotion (R371 to R380) -/

/-- The block integer (R371): the slices and halves of a product sum recombine to the product of the whole numbers. -/
def blockInt (w c : List Int) : Int := (w.zip c).foldl (fun a p => a + p.1 * p.2) 0

/-- rne32 of R374 and R375: FP32 bits, and whether the magnitude was clamped. -/
def rne32 (x : Exact) : Nat × Bool :=
  match x with
  | .nan => (fp32.nan, false)
  | .inf neg => (fp32.bits neg 0x7F7FFFFF, true)
  | .fin neg m e =>
    if m == 0 then (0, false)
    else
      let c := fp32.code .rne m e
      if fp32.infCode ≤ c then (fp32.bits neg 0x7F7FFFFF, true) else (fp32.bits neg c, false)

/-- The FP32 promotion of four block values into an entry (R374 to R376). -/
def promoteFp32 (acc : Nat) (v0 v1 v2 v3 : Exact) : Nat × Bool :=
  let s01 := rne32 (v0.add v1)
  let s23 := rne32 (v2.add v3)
  let t := rne32 ((fp32.decode s01.1).add (fp32.decode s23.1))
  let clamped := s01.2 || s23.2 || t.2
  match fp32.decode acc with
  | .nan => (fp32.nan, clamped)
  | .inf _ => (acc, clamped)
  | x =>
    let r := rne32 (x.add (fp32.decode t.1))
    (r.1, clamped || r.2)

/-- The integer promotion of block integers with their scales (R379). -/
def promoteInt (acc : Nat) (l : List (Int × Int × Int)) : Nat :=
  l.foldl (fun a b => wrapInt 32 ((a : Int) + roundInt (Exact.ofInt b.1 ((b.2.1 - 127) + (b.2.2 - 127))))) acc

/-- The promotion of one tile's four K blocks into the entry of a row and a column (R348, R358, R374, R379). -/
def Dev.promoteEntry (s : Dev) (e wave : Nat) (d : Wave) (key : Nat) (ws : List WBlock) (as : List ABlock) : Dev :=
  if ws.any WBlock.poison || as.any ABlock.poison then s.poisonEntry e key wave
  else
    let bs := (ws.zip as).map (fun p => (blockInt p.1.w p.2.c, p.1, p.2))
    if d.accInt then s.setAcc key (promoteInt (s.accEntry key) (bs.map (fun b => (b.1, b.2.1.x, b.2.2.x))))
    else
      let a : Int := if d.high then 14 else 6
      let v := fun k => match bs[k]? with
        | some b => Exact.ofInt b.1 ((b.2.1.x - 127 - b.2.1.f) + (b.2.2.x - 127 - a))
        | none => .fin false 0 0
      let r := promoteFp32 (s.accEntry key) (v 0) (v 1) (v 2) (v 3)
      let s1 := s.setAcc key r.1
      if r.2 then ((s1.bump (F.lnsAcc_SAT e)).raise (F.lnsAcc_SAT_SEEN e)).put (F.lnsAcc_SAT_WAVE e) wave else s1

/-- Tile (nt, kt) of a wave against every vector (R348). -/
def Dev.runTile (s : Dev) (e wave : Nat) (d : Wave) (bad : List (Space × BitVec 64)) (nt kt : Nat) : Dev :=
  let ws := (List.range 512).map (fun j => s.weightAt d bad ((nt * d.wNstride + kt) * 512 + j))
  let escTile := weightSlices d.wFormat == 1 && ws.any WBlock.esc
  let passes := d.batch * (if d.high then 2 else 1) * (if escTile then 2 else weightSlices d.wFormat)
  let s1 := (s.raiseIf (ws.any WBlock.poison) (F.lnsErr_W_POISON e)).event evLensPass e none passes
  let s2 := if escTile then (s1.bump (F.lnsCount_ESC_TILES e)).raise (F.lnsErr_ESC_TILE e) else s1
  s2.each (List.range d.batch) (fun s v =>
    let at_ := fun k => v * d.aStride + 4 * kt + k
    let as := (List.range 4).map (fun k => s.activationAt d bad (at_ k))
    let s3 := s.raiseIf (as.any ABlock.poison) (F.lnsErr_A_POISON e)
    let s4 := if d.aFormat == 0x9 then s3
      else s3.each (List.range 4) (fun s k =>
        s.event evPrism (s.windowFacet d.aSpace (bitsOf d.aAddr 28 0 + at_ k * payloadBytes d.aFormat)))
    s4.each (List.range 128) (fun s r =>
      s.promoteEntry e wave d (e * 32768 + (d.accCol + nt * d.batch + v) * 128 + r) (sliceOfBlocks ws r) as))
where
  /-- The four K blocks of a row. -/
  sliceOfBlocks (ws : List WBlock) (r : Nat) : List WBlock := (ws.drop (4 * r)).take 4

/-- Zeroes the wave's columns and clears their marks (R349). -/
def Dev.zeroColumns (s : Dev) (e : Nat) (d : Wave) : Dev :=
  s.each (List.range (d.nTiles * d.batch * 128)) (fun s i =>
    ({ s.setAcc (e * 32768 + d.accCol * 128 + i) 0 with
        lens.accBad := s.lens.accBad.filter (fun k => k.1 != e * 16384 + d.accCol * 64 + i / 2) }).setMark
      (e * 32768 + d.accCol * 128 + i) false)

/-- Words of an engine's accumulator file that are struck. -/
def Dev.strikeAcc (s : Dev) (e : Nat) (l : List (BitVec 14 × DataErr)) : Dev :=
  s.inject { acc := l.map (fun x => (BitVec.ofNat 2 e, x.1, x.2)) }

/-! ### Output (R351, R381) -/

/-- Output block i of vector v and its source: 32 entries of a column, none where one is marked. -/
def Dev.outputBlock (s : Dev) (e : Nat) (d : Wave) (v nb : Nat) : Option (List Nat) :=
  let key := e * 32768 + (d.accCol + nb / 4 * d.batch + v) * 128 + nb % 4 * 32
  if (List.range 32).any (fun i => s.accMarked (key + i)) then none
  else some ((List.range 32).map (fun i => s.accEntry (key + i)))

/-- The exact value of an entry as the wave reads it (R381). -/
def entryValue (d : Wave) (f : Int) (x : Nat) : Exact :=
  if d.accInt then Exact.ofInt (signed 32 x) (-f - 6) else fp32.decode x

/-- The palette and exponent offset of a wave's weights. -/
def Dev.waveFrac (s : Dev) (d : Wave) : Int :=
  (weightFrac d.wFormat (paletteOf s.img.force.formats d.wPalette)).getD 0

/-- The output blocks of a wave, by vector and block of n, in the order in which it sends them. -/
def Wave.outputs (d : Wave) : List (Nat × Nat) :=
  (List.range d.batch).flatMap (fun v => (List.range (4 * d.nTiles)).map (fun nb => (v, nb)))

/-- The output step of a mode-1 wave; its blocks into SHADE or TILE are merged before they are written (R347, R351, R360; log entry
125). -/
def Dev.waveOutput (s : Dev) (e : Nat) (d : Wave) : Dev :=
  let f := s.waveFrac d
  if d.oSpace == 0 then
    match s.regionOf 0 d.oAddr 64 with
    | none => s
    | some r =>
      let g := s.region r
      let n0 := blockAt g.format (d.oAddr - g.first * 0x200000)
      s.startBlocks e r d.outWord (d.outputs.map (fun vn =>
        let src := s.outputBlock e d vn.1 vn.2
        { n := n0 + vn.1 * d.oStride + vn.2, vals := (src.getD []).map (entryValue d f)
          same := if g.format == 1 && !d.accInt then src.map (packCodes 32) else none, poison := src.isNone }))
  else
    let base := bitsOf d.oAddr 28 0
    let r := s.bufferRegion d.oSpace base
    let o := d.outputs.foldl (fun (a : Dev × Outs) vn =>
      let src := a.1.outputBlock e d vn.1 vn.2
      let vals := (src.getD []).map (entryValue d f)
      let same := if outFormat d.outWord == 1 && !d.accInt then src.map (packCodes 32) else none
      a.1.bufferBlock d.oSpace r d.outWord base (bitsOf d.oScale 28 0) (vn.1 * d.oStride + vn.2) vals same src.isNone a.2)
      (s, [])
    o.1.windowWrite d.oSpace o.2

/-! ### Spans that planned items write (R354, R422) -/

/-- A span of this slice's SHADE or TILE window: space, first byte, bytes. -/
abbrev Span := Nat × Nat × Nat

/-- Whether two spans share a byte. -/
def Span.meets (a b : Span) : Bool := a.1 == b.1 && a.2.1 < b.2.1 + b.2.2 && b.2.1 < a.2.1 + a.2.2

/-- The columns of a wave in its engine's file (R79, R384). -/
def Wave.columns (d : Wave) (e : Nat) : Span := (2, 0x10000000 + e * 0x20000 + d.accCol * 512, d.nTiles * d.batch * 512)

/-- The SHADE and TILE spans that an item writes on this slice. -/
def Dev.itemSpans (s : Dev) (it : Item) : List Span :=
  match it with
  | .wave e i =>
    let d := waveOf s.plan i
    let fmt := outFormat d.outWord
    let n := 4 * d.nTiles
    d.columns e :: (if d.outMode == 1 && d.oSpace != 0 then
      (List.range d.batch).flatMap (fun v =>
        (d.oSpace, bitsOf d.oAddr 28 0 + v * d.oStride * payloadBytes fmt, n * payloadBytes fmt) ::
          (if isWide fmt then [] else [(d.oSpace, bitsOf d.oScale 28 0 + v * d.oStride, n)]))
      else [])
  | .flow i =>
    let d := flowOf s.plan i
    if d.root == s.pos && d.dstSpace != 0 then [(d.dstSpace, bitsOf d.dstAddr 28 0, 64 * d.lines)] else []
  | .transfer i =>
    let d := transferOf s.img.force.lattice i
    if !bitAt d.dests s.pos then []
    else if d.outWord == 0 then [(d.dstSpace, d.dstOffset, 64 * d.lines)]
    else
      let n := divUp (64 * d.lines) (payloadBytes d.inFormat)
      let fmt := outFormat d.outWord
      (d.dstSpace, d.dstOffset, 64 * d.lines * elemBits fmt / elemBits d.inFormat) ::
        (if isWide fmt then [] else [(d.dstSpace, d.dstScale, n)])
  | .background _ => []

/-- Whether an item issued in a slot before slot n and not complete writes a byte of a span. -/
def Dev.writerBefore (s : Dev) (n : Nat) (sp : List Span) (but : Item → Bool) : Bool :=
  s.frm.items.any (fun x => x.2 < n && !but x.1 && (s.itemSpans x.1).any (fun a => sp.any (Span.meets a)))

/-- The activation span of a wave (R347). -/
def Wave.activations (d : Wave) : List Span :=
  let n := (d.batch - 1) * d.aStride + 4 * d.kTiles
  (d.aSpace, bitsOf d.aAddr 28 0, n * payloadBytes d.aFormat) ::
    (if d.aFormat == 0x9 then [(d.aSpace, bitsOf d.aScale 28 0, n)] else [])

/-! ### Engines (R353, R354, R357, R365, R388) -/

/-- The number of enabled engines (R362). -/
def Dev.lensCount (s : Dev) : Nat := s.fuse.lenses.length

/-! ### The order of planned conversions (R292, R293) -/

/-- Whether an item's results are converted by the lanes of this slice on their way to their destination (R351, R420, R517). -/
def Dev.converts (s : Dev) (it : Item) : Bool :=
  match it with
  | .wave _ i => (waveOf s.plan i).outMode == 1
  | .flow i =>
    let d := flowOf s.plan i
    d.root == s.pos && d.dstSpace == 0 && (((s.regionOf 0 d.dstAddr 64).map s.region).getD Region.empty).format != 0
  | .transfer i =>
    let d := transferOf s.img.force.lattice i
    bitAt d.dests s.pos && d.outWord != 0
  | .background _ => false

/-- Lines of a flow or transfer that this member has handled. -/
def Dev.handledLines (s : Dev) (flow : Bool) (i : Nat) : List Nat :=
  ((s.lens.runs.find? (fun r => r.flow == flow && r.desc == i)).map LineRun.handled).getD []

/-- Whether an item has blocks still to convert on this slice. -/
def Dev.converting (s : Dev) (it : Item) : Bool :=
  s.converts it && match it with
  | .wave e i => !((s.engine e).running.any (fun r => r.desc == i && r.out)) || s.jobConverts e
  | .flow i => !(List.range (flowOf s.plan i).lines).all (s.handledLines true i).contains || s.jobConverts (4 + i)
  | .transfer i => !(List.range (transferOf s.img.force.lattice i).lines).all (s.handledLines false i).contains
  | .background _ => false

/-- Whether an item's conversions wait for those of an item that the plan issued before it: the lanes convert in issue order
(R293; log entry 101). -/
def Dev.convertsBefore (s : Dev) (it : Item) : Bool :=
  s.converts it && (s.frm.items.takeWhile (fun x => x.1 != it)).any (fun x => s.converting x.1)

/-- Shows what waits at an engine in LNS_STATUS (R365). -/
def Dev.showEngine (s : Dev) (e : Nat) : Dev :=
  let x := s.engine e
  let s1 := s.put (F.lnsStatus_PENDING e) (min 3 x.pending.length)
  if x.running.isSome then s1 else s1.put (F.lnsStatus_STATE e) (if x.pending.isEmpty then 0 else 1)

/-- Removes an item that has completed. -/
def Dev.endItem (s : Dev) (it : Item) : Dev := { s with frm.items := s.frm.items.eraseP (fun x => x.1 == it) }

/-- Issues a wave in a slot (R37, R350, R353). -/
def Dev.issueWave (s : Dev) (e i slot : Nat) : Dev :=
  if (waveOf s.plan i).empty then s.bump (F.lnsCount_WAVES e)
  else
    let x := s.engine e
    let s1 := s.setEngine e { x with pending := x.pending ++ [(i, s.now)] }
    ({ s1 with frm.items := s1.frm.items ++ [(Item.wave e i, slot)] }).showEngine e

/-- The issue slot of a planned item. -/
def Dev.itemSlot (s : Dev) (it : Item) : Nat := ((s.frm.items.find? (fun x => x.1 == it)).map Prod.snd).getD 0

/-- Weight tiles that a wave loads (R337). -/
def Wave.tiles (d : Wave) : List Nat :=
  (List.range d.nTiles).flatMap (fun nt => (List.range d.kTiles).map (fun kt => nt * d.wNstride + kt))

/-- First block of a wave's MEM weights in their region. -/
def Dev.weightStart (s : Dev) (d : Wave) : Nat := blockAt d.wFormat (d.wAddr - (s.weightRegion d).first * 0x200000)

/-- The indices of the 64 B pieces of a region that n bytes from an offset reach. -/
def piecesOf (off n : Nat) : List Nat := (List.range ((off + n - 1) / 64 + 1 - off / 64)).map (fun i => off / 64 + i)

/-- Blocks of a wave's MEM weights with scale 0xFF, as its reads find them (R283). -/
def Dev.escapedWeights (s : Dev) (d : Wave) (bad : List (Space × BitVec 64)) : List Nat :=
  let g := s.weightRegion d
  if d.wSpace != 0 || isWide d.wFormat then []
  else (d.tiles.flatMap (fun t => (List.range 512).map (fun j => s.weightStart d + 512 * t + j))).filter (fun n =>
    readBytes (s.regionRead g bad) (g.scaleBase + n) 1 == some 0xFF)

/-- The sub-blocks that a wave reads of its MEM weights: payloads, scales, and the escape groups of the blocks that need them (R302,
R303, R332, R335). -/
def Dev.weightPlaces (s : Dev) (d : Wave) (bad : List (Space × BitVec 64)) : List Place :=
  let g := s.weightRegion d
  let len := payloadBytes d.wFormat
  let subs := d.tiles.flatMap (fun t =>
      let n := s.weightStart d + 512 * t
      let o := blockOffset d.wFormat n
      piecesOf o (blockOffset d.wFormat (n + 511) + len - o) ++ (if isWide d.wFormat then [] else piecesOf (g.scaleBase + n) 512))
    ++ ((s.escapedWeights d bad).map g.escGroup).eraseDups.flatMap (fun o => if g.escSlots == 0 then [] else piecesOf o (64 * g.escSlots))
  if d.wSpace != 0 then []
  else subs.eraseDups.map (fun x =>
    let h := s.devOf g (64 * x)
    s.placeAt h.2.1 h.2.2 g.shadowed)

/-- What reading a MEM weight source does to the cache: its tag reads are checked, a darken marker counts, a hit sets AGE 0 and a
sector that misses is fetched by planned bulk, kept under the LENS mask with KEEP and passed on without allocation else (R120, R134,
R147, R339). -/
def Dev.weightReads (s : Dev) (e : Nat) (d : Wave) (bad : List (Space × BitVec 64)) : Dev :=
  let age : BitVec 2 := if (s.weightRegion d).stream then 3 else 1
  let places := s.weightPlaces d bad
  let s1 := s.each places (fun s p =>
    let s1 := (if s.phase == .eclipse then s else s.readTags p.facet p.set).markerRead p none
    if (s1.cached p).isSome then s1.touch p else s1)
  let miss := places.filter (fun p => (s1.cached p).isNone && (s1.captured p).isNone)
  let sectors := (miss.map (fun p => { p with d := p.d / 256 * 256 })).eraseDups
  let reads := sectors.map (fun p => ({ engine := e, place := p, keep := d.keep, age := age } : WeightRead))
  { s1 with lens.keeps := s1.lens.keeps ++ reads }.keepRun

/-- Whether a wave reads a MEM weight block with scale 0xFF that has no slot (R314, R324). -/
def Dev.escMissing (s : Dev) (d : Wave) (bad : List (Space × BitVec 64)) : Bool :=
  let g := s.weightRegion d
  (s.escapedWeights d bad).any (fun n =>
    (findSlot ((List.range g.escSlots).map (fun i => s.regionRead g bad (g.escGroup n + 64 * i))) (g.escIndex n)).isNone)

/-- The cached sub-block of MEM that an address of a read names: the place, where the cache holds it. -/
def Dev.cachedAt (s : Dev) (a : Nat) : Option Place :=
  match s.regionOf 0 a 64 with
  | none => none
  | some n =>
    let g := s.region n
    let h := s.devOf g (a / 64 * 64 - g.first * 0x200000)
    let p := s.placeAt h.2.1 h.2.2 g.shadowed
    if (s.cached p).isSome then some p else none

/-- The reads of a wave that find an uncorrectable error in the data array: what R133 and R186 do of each (log entry 34). -/
def Dev.findBad (s : Dev) (bad : List (Space × BitVec 64)) : Dev :=
  s.each bad (fun s e =>
    let mark := fun (s : Dev) (k : Nat) => { s with cache.dataBad := tset s.cache.dataBad k DataErr.uncorrectable }
    match e.1 with
    | .mem =>
      match s.cachedAt e.2.toNat with
      | some p =>
        match s.lookup p with
        | some (w, _) => (mark s (lineKey p.facet p.set w * 4 + p.sub)).readCheck p
        | none => s
      | none => s
    | sp =>
      match s.windowOf sp e.2.toNat with
      | .store cls h x =>
        let p := s.storePlace cls h x
        (mark s (lineKey p.1 p.2.2.1 p.2.1 * 4 + p.2.2.2 / 64)).storeCheck cls h x
      | _ => s)

/-- The checks of the sub-blocks that a wave reads, in the cache and in the stores (R133, R186). -/
def Dev.waveReads (s : Dev) (d : Wave) (bad : List (Space × BitVec 64)) : Dev :=
  if s.cache.dataBad.isEmpty && s.lens.accBad.isEmpty then s
  else
    let s1 := d.activations.foldl (fun s a => s.spanCheck a.1 a.2.1 a.2.2) s
    if d.wSpace == 0 then
      s1.each (s1.weightPlaces d bad) Dev.readCheck
    else
      let n := ((d.nTiles - 1) * d.wNstride + d.kTiles) * 512
      (s1.spanCheck d.wSpace (bitsOf d.wAddr 28 0) (n * payloadBytes d.wFormat)).spanCheck d.wSpace (bitsOf d.wScale 28 0)
        (if isWide d.wFormat then 0 else n)

/-! ### The course of a wave (R351, R354, R355, R365) -/

/-- Bytes of a weight tile: payloads and scales (R332). -/
def tileBytes (fmt : Nat) : Nat := 512 * payloadBytes fmt + (if isWide fmt then 0 else 512)

/-- Escape slots per data page of a wave's weights: MEM block regions only (R303, R335). -/
def Dev.weightEscapes (s : Dev) (d : Wave) : Nat := if d.wSpace == 0 then (s.weightRegion d).escSlots else 0

/-- First data page and number of data pages of a tile's payload (R303). -/
def Dev.tilePages (s : Dev) (d : Wave) (tile : Nat) : Nat × Nat :=
  let n := s.weightStart d + 512 * tile
  let per := 4 * unitBlocks d.wFormat
  (n / per, (n + 511) / per + 1 - n / per)

/-- The largest of a list of numbers, 0 for none. -/
def largest (l : List Nat) : Nat := l.foldl max 0

/-- L of R355: SCLK cycles to load a tile with the escape groups of the data pages it touches, the most over the wave's tiles
(log entry 105). -/
def Dev.loadTime (s : Dev) (d : Wave) : Nat :=
  let esc := s.weightEscapes d
  let pages := if esc == 0 then 0 else largest (d.tiles.map (fun t => (s.tilePages d t).2))
  divUp (tileBytes d.wFormat + pages * esc * 64) 1024

/-- S of R355: SCLK cycles per activation entry. -/
def Dev.entryTime (s : Dev) (d : Wave) : Nat :=
  let slices := weightSlices d.wFormat
  (if slices == 1 && s.weightEscapes d != 0 then 2 else slices) * (if d.high then 2 else 1)

/-- STATE and TILE of a wave that has run for a number of SCLK cycles at the times of R355 (R365; log entry 37): the first tile's
load, the streaming, the tree and promotion wait, and then its output or what it waits for. -/
def Dev.waveStage (s : Dev) (d : Wave) (ran : Nat) : Nat × Nat :=
  let l := s.loadTime d
  let sb := s.entryTime d * d.batch
  let p := max l sb
  let n := d.nTiles * d.kTiles
  let stream := l + (n - 1) * p + sb
  (if ran < l then 2 else if ran < stream then 3 else if d.outMode == 1 && stream + 12 ≤ ran then 5 else 4,
    if ran < l + sb + 12 then 0 else min n ((ran - (l + sb + 12)) / p + 1))

/-- Shows the course of an engine's running wave in LNS_STATUS (R365). -/
def Dev.showWave (s : Dev) (e : Nat) : Dev :=
  match (s.engine e).running with
  | none => s
  | some r =>
    let x := s.waveStage (waveOf s.plan r.desc) (s.now - r.begun)
    (s.put (F.lnsStatus_STATE e) x.1).put (F.lnsStatus_TILE e) x.2

/-- Takes the output step of an engine's running mode-1 wave, once the conversions before it are done (R293, R351). -/
def Dev.waveOut (s : Dev) (e : Nat) : Dev :=
  match (s.engine e).running with
  | none => s
  | some r =>
    let d := waveOf s.plan r.desc
    if d.outMode != 1 || r.out || s.convertsBefore (.wave e r.desc) then s
    else (s.setEngine e { s.engine e with running := some { r with out := true } }).waveOutput e d

/-- Starts the oldest pending wave of an engine when R354 lets it, and runs it to its last promotion and its output. struck: the
words of its accumulator file that are upset while it runs, which its promotions read (R359). -/
def Dev.startWave (s : Dev) (e : Nat) (found : List (Space × BitVec 64)) (struck : List (BitVec 14 × DataErr)) : Dev :=
  let x := s.engine e
  let bad := found.filter (fun b => b.1 == .mem && (s.cachedAt b.2.toNat).isNone)
  match x.running, x.pending with
  | none, (i, at_) :: rest =>
    let d := waveOf s.plan i
    let it : Item := .wave e i
    if s.lensCount ≤ e || s.writerBefore (s.itemSlot it) d.activations (fun y => y == it) then s
    else
      let run : WaveRun := { desc := i, taken := false, begun := s.now, out := false, loads := [] }
      let s1 := (s.setEngine e { running := some run, pending := rest }).put (F.lnsStatus_WAVE e) i
      let late := s.now - (at_ + s.slotLen)
      let s2 := if at_ + s.slotLen ≤ s.now then
          ((s1.bump (F.lnsLate_LATE_WAVES e)).peak (F.lnsLate_PEAK_SCLK e) late).raise (F.lnsErr_LATE e)
        else s1
      let s3 := if d.accInit then s2.zeroColumns e d else s2
      let tiles := (List.range d.nTiles).flatMap (fun nt => (List.range d.kTiles).map (fun kt => (nt, kt)))
      let s4 := (((s3.strikeAcc e struck).accSpan e (d.accCol * 512) (d.nTiles * d.batch * 512)).findBad found).waveReads d bad
      let s5 := if s4.escMissing d bad then (s4.raise F.prmErr_ESC_MISSING).alert alertPrm else s4
      let s6 := s5.each tiles (fun s t => s.runTile e i d bad t.1 t.2)
      (((s6.weightReads e d bad).showEngine e).showWave e).waveOut e
  | _, _ => s

/-- Whether a missing weight sector of an engine's running wave has not all come (R339). -/
def Dev.loading (s : Dev) (e : Nat) (r : WaveRun) : Bool :=
  s.lens.keeps.any (fun k => k.engine == e) || s.cache.plrs.any (fun x => r.loads.contains x.id && x.fetching != 0)

/-- Completes an engine's running wave when R357 lets it. -/
def Dev.endWave (s : Dev) (e : Nat) : Dev :=
  match (s.engine e).running with
  | none => s
  | some r =>
    let d := waveOf s.plan r.desc
    if s.loading e r || (d.outMode == 1 && (!r.out || s.jobOpen e)) || (d.outMode == 2 && !r.taken) then s
    else
      let s1 := (s.setEngine e { s.engine e with running := none }).bump (F.lnsCount_WAVES e)
      ((s1.put (F.lnsStatus_TILE e) (d.nTiles * d.kTiles)).endItem (.wave e r.desc)).showEngine e

/-- A block reset of an engine (R388, R64): the running wave's columns are marked poisoned, which LNS_POISON does not count (R370),
and its pending waves discarded. -/
def Dev.resetEngine (s : Dev) (e : Nat) : Dev :=
  let x := s.engine e
  let s1 := match x.running with
    | none => s
    | some r =>
      let d := waveOf s.plan r.desc
      s.each (List.range (d.nTiles * d.batch * 128)) (fun s i => s.setMark (e * 32768 + d.accCol * 128 + i) true)
  let s2 := s1.setEngine e { running := none, pending := [] }
  ({ s2 with
      lens.keeps := s2.lens.keeps.filter (fun k => k.engine != e)
      frm.items := s2.frm.items.filter (fun x => match x.1 with
      | .wave k _ => k != e
      | _ => true) }).showEngine e

end Sys2Proof.Machine
end

