-- ==== Sys2Proof/Machine/FlowRun.lean ====
section
/-! DEFINITION. Reduce flows and lattice transfers on this member: issue, take, the lines that arrive, the destination
steps and completion (R409 to R425, R517 to R525). -/

namespace Sys2Proof.Machine

/-! ### Die links to neighbours -/

/-- The die-link port joined to a position, if any (R491). -/
def Dev.linkPort (s : Dev) (q : Nat) : Option Nat :=
  (List.range 6).find? (fun k => s.get (F.pwkCfg_ROLE k) == 1 && s.get (F.pwkCfg_NEIGHBOUR k) == q)

/-- The port that carries lattice lines to a neighbour: the link itself, or the route while the link is lost (R531). -/
def Dev.latticePort (s : Dev) (q : Nat) : Nat :=
  match s.linkPort q with
  | some k => if s.get (F.pwkStatus_STATE k) == 2 then k else bitsOf (s.get F.pwkRoute_ROUTES) (4 * q + 2) (4 * q)
  | none => bitsOf (s.get F.pwkRoute_ROUTES) (4 * q + 2) (4 * q)

/-- Sends a lattice line that a tree member sent on, to a tree neighbour of it. -/
def Dev.sendLine (s : Dev) (q sender : Nat) (flow : Bool) (desc line : Nat) (x : Sub) (poison : Bool) : Dev :=
  s.send (.latticeLine (s.latticePort q) q (BitVec.ofNat 3 sender) flow desc line x poison)

/-! ### Runs -/

/-- The run of a flow or transfer on this slice. -/
def Dev.lineRun (s : Dev) (flow : Bool) (i : Nat) : Option LineRun :=
  s.lens.runs.find? (fun r => r.flow == flow && r.desc == i)

/-- Changes a run, opening it if there is none. -/
def Dev.updRun (s : Dev) (flow : Bool) (i : Nat) (g : LineRun → LineRun) : Dev :=
  match s.lineRun flow i with
  | some _ => { s with lens.runs := s.lens.runs.map (fun r => if r.flow == flow && r.desc == i then g r else r) }
  | none =>
    let r : LineRun := { flow := flow, desc := i, started := false, recv := [], handled := [], own := [], taken := [] }
    { s with lens.runs := s.lens.runs ++ [g r] }

/-- A line that came from a tree neighbour. -/
def LineRun.from_ (r : LineRun) (q line : Nat) : Option (Sub × Bool) :=
  (r.recv.find? (fun e => e.1 == q && e.2.1 == line)).map (fun e => e.2.2)

/-- An own line of a run. -/
def LineRun.mine (r : LineRun) (line : Nat) : Option (Sub × Bool) :=
  (r.own.find? (fun e => e.1 == line)).map Prod.snd

/-- Whether an item has issued in this plan frame and not completed. -/
def Dev.issued (s : Dev) (it : Item) : Bool := s.frm.items.any (fun x => x.1 == it)

/-- Whether an item issued before another and not complete writes a byte of a span (R422, R389, R390). -/
def Dev.writerAhead (s : Dev) (it : Item) (sp : List Span) (but : Item → Bool) : Bool :=
  (s.frm.items.takeWhile (fun x => x.1 != it)).any (fun x =>
    !but x.1 && (s.itemSpans x.1).any (fun a => sp.any (Span.meets a)))

/-! ### Node sums (R417, R418) -/

/-- Whether a position contributes to a flow. -/
def Flow.contributes (d : Flow) (p : Nat) : Bool := bitAt d.parts p

/-- Lines of a run in the order node_sum adds them, none while one is missing. -/
def Flow.inputs (d : Flow) (p : Nat) (r : LineRun) (line : Nat) : Option (List (Sub × Bool)) :=
  let own := if d.contributes p then [r.mine line] else []
  (own ++ (d.children p).map (fun c => r.from_ c line)).foldr (fun x acc =>
    match x, acc with
    | some v, some l => some (v :: l)
    | _, _ => none) (some [])

/-- The sum of a flow's lines at this node: its bits, whether an input is poisoned, and what its adds report. -/
def sumLines (type : Nat) (l : List (Sub × Bool)) : Sub × Bool × ArithFlags :=
  match foldLines (addLines type) (l.map Prod.fst) with
  | some r => (r.1, l.any Prod.snd, r.2)
  | none => (0, true, {})

/-- Positions in the order node_sum visits their sources (R417). -/
def Flow.visit (d : Flow) : Nat → Nat → List Nat
  | 0, p => if d.contributes p then [p] else []
  | fuel + 1, p => (if d.contributes p then [p] else []) ++ (d.children p).flatMap (d.visit fuel)

/-- Line number of record line l of source i of origin slice p (R520). -/
def Flow.recordLine (d : Flow) (p i l : Nat) : Nat := (4 * p + i) * d.lines + l

/-- The record lines that the moment combine of destination line l meets, in order (R418). -/
def Flow.records (d : Flow) (p l : Nat) : List Nat :=
  (d.visit 8 p).flatMap (fun q => (List.range d.srcCount).map (fun i => d.recordLine q i l))

/-- A record line held by this member, own or received. -/
def LineRun.anyLine (r : LineRun) (line : Nat) : Option (Sub × Bool) :=
  match r.mine line with
  | some x => some x
  | none => (r.recv.find? (fun e => e.2.1 == line)).map (fun e => e.2.2)

/-- Lines that a member handles: one per line, or in a MOMENT flow every record line of its subtree. -/
def Flow.handles (d : Flow) (p : Nat) : List Nat :=
  if d.op == 2 then (List.range d.lines).flatMap (fun l => d.records p l) else List.range d.lines

/-- Source k of a flow on a contributing slice, and every source. -/
def Flow.sourceSpan (d : Flow) (k : Nat) : Span := (d.srcSpace, d.srcOffset + k * d.srcStride, 64 * d.lines)
def Flow.sourceSpans (d : Flow) : List Span := (List.range d.srcCount).map d.sourceSpan

/-! ### Lattice buffer (R525, R539) -/

/-- Lines an issued item reserves on this slice. -/
def Dev.reservation (s : Dev) (it : Item) : Nat :=
  match it with
  | .flow i =>
    let d := flowOf s.plan i
    let inputs := (if d.contributes s.pos then (if d.op == 2 then 1 else d.srcCount) else 0) + (d.children s.pos).length
    let relays := d.root != s.pos && !(d.children s.pos).isEmpty
    let adds := d.op != 2 && 2 ≤ inputs
    if relays || adds then (d.handles s.pos).length else 0
  | .transfer i =>
    let d := transferOf s.img.force.lattice i
    if d.root == s.pos || !(d.children s.pos).isEmpty then d.lines else 0
  | _ => 0

/-- The SHADE and TILE spans that an item reads on this slice (R347, R417, R517). -/
def Dev.itemReads (s : Dev) (it : Item) : List Span :=
  match it with
  | .wave _ i => (waveOf s.plan i).activations
  | .flow i =>
    let d := flowOf s.plan i
    if d.contributes s.pos then d.sourceSpans else []
  | .transfer i =>
    let d := transferOf s.img.force.lattice i
    if d.root == s.pos then [(d.srcSpace, d.srcOffset, 64 * d.lines)] else []
  | .background _ => []

/-- Raises PEAK_LINES to the reservations in force. -/
def Dev.peakLines (s : Dev) : Dev :=
  s.peak F.pwkLattice_PEAK_LINES ((s.frm.items.map (fun x => s.reservation x.1)).foldl (· + ·) 0)

/-! ### Reduce flows -/

/-- Sends toward the root every line whose inputs are all here (R417, R418). -/
def Dev.flowForward (s : Dev) (i : Nat) : Dev :=
  let d := flowOf s.plan i
  if d.root == s.pos then s
  else
    let up := parentOf d.parent s.pos
    s.each (d.handles s.pos) (fun s l =>
      match s.lineRun true i with
      | none => s
      | some r =>
        if !r.started || r.handled.contains l then s
        else
          let out := if d.op == 2 then (r.anyLine l).map (fun x => (x.1, x.2, ({} : ArithFlags)))
            else (d.inputs s.pos r l).map (sumLines d.type)
          match out with
          | none => s
          | some x =>
            ((s.updRun true i (fun r => { r with handled := r.handled ++ [l] })).chordFlags x.2.2).sendLine up s.pos true i l x.1
              x.2.1)

/-- The lines of one source of this slice for a flow, with the flags of the take: squared where the flow squares (R417). -/
def Dev.sourceLines (s : Dev) (d : Flow) (k : Nat) : List (Sub × Bool × ArithFlags) :=
  (List.range d.lines).map (fun l =>
    match s.windowRead d.srcSpace (d.srcOffset + k * d.srcStride + 64 * l) with
    | some v =>
      let q := if d.op == 1 then squareLine v else (v, ({} : ArithFlags))
      (q.1, false, q.2)
    | none =>
      let q := if d.op == 1 then squareLine 0 else (0, ({} : ArithFlags))
      (q.1, true, q.2))

/-- This slice's own lines of a flow with their line numbers, and the flags of their adds, from its sources' lines by source: the
records of each source, or the sum of line l over the sources in order, once every source is there (R417, R418). -/
def Flow.ownLines (d : Flow) (p : Nat) (taken : List (Nat × List (Sub × Bool))) : List (Nat × Sub × Bool × ArithFlags) :=
  if d.op == 2 then
    taken.flatMap (fun t => t.2.zipIdx.map (fun x => (d.recordLine p t.1 x.2, x.1.1, x.1.2, ({} : ArithFlags))))
  else if taken.length < d.srcCount then []
  else
    (List.range d.lines).map (fun l =>
      (l, sumLines d.type ((List.range d.srcCount).map (fun k => ((tgetD taken k []).getD l (0, true))))))

/-- Whether this slice has a part in a flow: it is a tree member (R416, R422). -/
def Dev.flowHere (s : Dev) (i : Nat) : Bool :=
  let d := flowOf s.plan i
  !d.empty && d.members.contains s.pos

/-- Issues a flow in a slot on a tree member (R37, R422, R424, R525). -/
def Dev.issueFlow (s : Dev) (i slot : Nat) : Dev :=
  if !s.flowHere i then s
  else
    let fresh := match s.lineRun true i with
      | some r => if r.started then { s with lens.runs := s.lens.runs.filter (fun r => !(r.flow && r.desc == i)) } else s
      | none => s
    let s1 := fresh.updRun true i id
    ({ s1 with frm.items := s1.frm.items ++ [(Item.flow i, slot)] }).peakLines

/-- The running mode-2 wave that names a flow and holds its columns in a span, by engine and descriptor (R423). -/
def Dev.feeder (s : Dev) (i : Nat) (sp : Span) : Option (Nat × Nat) :=
  (List.range 4).findSome? (fun e => ((s.engine e).running.filter (fun r =>
    let d := waveOf s.plan r.desc
    d.outMode == 2 && d.flow == i && (d.columns e).meets sp)).map (fun r => (e, r.desc)))

/-- The accumulator file of an engine as a span (R79). -/
def engineFile (e : Nat) : Span := (2, 0x10000000 + e * 0x20000, 0x20000)

/-- Whether a drain waits for a wave, other than one that feeds it: one issued before it, and not complete, to an engine whose file
its span lies in (R390). -/
def Dev.drainAhead (s : Dev) (it : Item) (sp : Span) (but : Item → Bool) : Bool :=
  (s.frm.items.takeWhile (fun x => x.1 != it)).any (fun x => !but x.1 && match x.1 with
    | .wave e _ => sp.meets (engineFile e)
    | _ => false)

/-- Whether source k of a flow may be taken: what writes it has completed, and the waves before it in its engine's file, but that
the columns of a running mode-2 wave that names the flow are taken before that wave completes (R390, R422, R423). -/
def Dev.sourceReady (s : Dev) (i k : Nat) : Bool :=
  let sp := (flowOf s.plan i).sourceSpan k
  let feeds := fun (it : Item) => (s.feeder i sp).any (fun x => it == .wave x.1 x.2)
  !s.writerAhead (.flow i) [sp] feeds && !s.drainAhead (.flow i) sp feeds

/-- Takes source k of a flow, and with it the columns of the wave that feeds it (R417, R422, R423). -/
def Dev.takeSource (s00 : Dev) (i k : Nat) : Dev :=
  let d := flowOf s00.plan i
  match s00.lineRun true i with
  | none => s00
  | some r =>
    if r.taken.any (fun t => t.1 == k) || !s00.sourceReady i k then s00
    else
      let sp := d.sourceSpan k
      let s := s00.spanCheck sp.1 sp.2.1 sp.2.2
      let xs := s.sourceLines d k
      let taken := tset r.taken k (xs.map (fun x => (x.1, x.2.1)))
      let own := d.ownLines s.pos taken
      let fl := (xs.map (fun x => x.2.2) ++ own.map (fun x => x.2.2.2)).foldl ArithFlags.or {}
      let s1 := (s.updRun true i (fun r => { r with taken := taken, own := own.map (fun x => (x.1, x.2.1, x.2.2.1)) })).chordFlags fl
      match s1.feeder i sp with
      | some (e, _) =>
        s1.setEngine e { s1.engine e with running := (s1.engine e).running.map (fun r => { r with taken := true }) }
      | none => s1

/-- A flow that has started takes the sources that it may and has not taken, and sends on what it can. -/
def Dev.takeSources (s : Dev) (i : Nat) : Dev :=
  let d := flowOf s.plan i
  if !s.issued (.flow i) || !((s.lineRun true i).map LineRun.started).getD false then s
  else (if d.contributes s.pos then s.each (List.range d.srcCount) (fun s k => s.takeSource i k) else s).flowForward i

/-- A flow starts on this member (R422, R423). -/
def Dev.startFlow (s : Dev) (i : Nat) : Dev :=
  if !s.issued (.flow i) || ((s.lineRun true i).map LineRun.started).getD true then s
  else (s.updRun true i (fun r => { r with started := true })).takeSources i

/-- The flows that have started and wait for sources try again (R390, R422, R423). -/
def Dev.flowTakes (s : Dev) : Dev :=
  s.each s.frm.items (fun s x => match x.1 with
    | .flow i => s.takeSources i
    | _ => s)

/-- The value that reaches the root's destination for a line, with its flags: the sum, or the records in order. -/
def Dev.rootLine (s : Dev) (d : Flow) (r : LineRun) (l : Nat) : Option (List Sub × Bool × ArithFlags) :=
  if d.op == 2 then
    ((d.records s.pos l).foldr (fun k (acc : Option (List (Sub × Bool))) =>
      match r.anyLine k, acc with
      | some v, some t => some (v :: t)
      | _, _ => none) (some [])).map (fun t => (t.map Prod.fst, t.any Prod.snd, ({} : ArithFlags)))
  else (d.inputs s.pos r l).map (fun t =>
    let x := sumLines d.type t
    ([x.1], x.2.1, x.2.2))

/-- The destination mode of a flow's lines (R418, R419): 0 writes, 1 to 3 add, 4 combines records with the resident one, 6 combines
them from the first. -/
def Flow.mode (d : Flow) : Nat :=
  if d.op == 2 then (if d.dstInit then 6 else 4) else if d.dstInit then 0 else 1 + d.type

/-- Applies a line in SHADE or TILE, indivisibly (R410, R413, R419, R433). -/
def Dev.flowWindow (s : Dev) (d : Flow) (l : Nat) (mode : Nat) (lines : List Sub) : Dev :=
  let off := bitsOf d.dstAddr 28 0 + 64 * l
  let s1 := (if stepReads mode then s.windowCheck d.dstSpace off else s).event evChord (s.windowFacet d.dstSpace off)
  match stepResult mode lines (s1.windowRead d.dstSpace off) with
  | none => (s1.raise F.crdErr_POISON_OUT).windowWrite d.dstSpace [(off, fullMask, 0, true)]
  | some r =>
    ((s1.bump F.crdCount_REDUCE_LINES (stepLines mode lines)).chordFlags r.2).windowWrite d.dstSpace [(off, fullMask, r.1, false)]

/-- Lines per block of a wide format (R420, R517). -/
def blockLines (fmt : Nat) : Nat := if fmt == 1 then 2 else 1

/-- Writes the block of a typed destination that line l ends (R420): its lines' sums as one block of 32 elements. -/
def Dev.flowBlock (s : Dev) (i : Nat) (d : Flow) (rgn n : Nat) (lines : List (Sub × Bool)) : Dev :=
  let g := s.region rgn
  let fmt := if d.type == 1 then 2 else 1
  let bits := packCodes 512 (lines.map (fun x => x.1.toNat))
  let poison := lines.any Prod.snd
  (s.raiseIf poison F.crdErr_POISON_OUT).startBlocks (4 + i) rgn d.outWord
    [{ n := blockAt g.format (d.dstAddr - g.first * 0x200000) + n
       vals := (unpackCodes (elemBits fmt) 32 bits).map (decodeElem fmt ⟨[], 0⟩)
       same := if g.format == fmt then some bits else none, poison := poison }]

/-- A line reaches the root's destination facet and is written or added there (R418 to R421). -/
def Dev.applyFlow (s : Dev) (i l : Nat) : Dev :=
  let d := flowOf s.plan i
  match s.lineRun true i with
  | none => s
  | some r =>
    if d.root != s.pos || !s.issued (.flow i) || !r.started || d.lines ≤ l || r.handled.contains l then s
    else match s.rootLine d r l with
      | none => s
      | some x =>
        let mark := fun (s : Dev) => s.updRun true i (fun r => { r with handled := r.handled ++ [l] })
        let mode := if x.2.1 then 5 else d.mode
        if d.dstSpace != 0 then ((mark s).chordFlags x.2.2).flowWindow d l mode x.1
        else match s.regionOf 0 (d.dstAddr + 64 * l) 64 with
          | none => s
          | some n =>
            let g := s.region n
            if g.format == 0 then
              let h := s.devOf g (d.dstAddr + 64 * l - g.first * 0x200000)
              let p := s.placeAt h.2.1 h.2.2 g.shadowed
              if s.held p then s
              else ((mark s).chordFlags x.2.2).openTxn (.flow i l mode x.1) .reduceStore
                (sliceAgent s.pos) p 0 g.stream false false
            else
              let per := blockLines (if d.type == 1 then 2 else 1)
              let first := l / per * per
              let late := s.convertsBefore (.flow i) || s.jobConverts (4 + i) || !(List.range first).all r.handled.contains
              let others := ((List.range per).map (fun k => first + k)).filter (fun k => k != l)
              let s1 := ((mark s).chordFlags x.2.2)
              if late then s
              else if others.all r.handled.contains then
                let ls := (List.range per).map (fun k =>
                  ((s.rootLine d r (first + k)).map (fun y => (y.1.headD 0, y.2.1))).getD (0, true))
                s1.flowBlock i d n (l / per) ls
              else s1

/-- Whether a flow's destination transactions or planned writes are still open on this slice. -/
def Dev.flowOpen (s : Dev) (i : Nat) : Bool :=
  s.jobOpen (4 + i) || s.cache.txns.any (fun t => match t.cause with
    | .flow j _ _ _ => i == j
    | _ => false)

/-- A flow completes: at the root when every destination line is applied, at another member when it has sent every line
(R424, R430, R433; log entry 39). -/
def Dev.endFlow (s : Dev) (i : Nat) : Dev :=
  let d := flowOf s.plan i
  match s.lineRun true i with
  | none => s
  | some r =>
    let todo := if d.root == s.pos then List.range d.lines else d.handles s.pos
    if !s.issued (.flow i) || !r.started || !todo.all r.handled.contains || s.flowOpen i then s
    else
      let s1 := (s.endItem (.flow i)).put F.crdFlowStatus_LAST_FLOW i
      if d.root == s.pos then s1.bump F.crdFar_FLOWS else s1

/-! ### Lattice transfers (R517, R518) -/

/-- Whether a member's transfer lines go through Prism. -/
def Transfer.converts (d : Transfer) : Bool := d.outWord != 0

/-- Writes what a member of DESTS can write: raw lines as they come, converted blocks strictly in order and one
by one (R293, R517; log entry 125). -/
def Dev.transferWrite (fuel : Nat) (s : Dev) (i : Nat) : Dev :=
  match fuel with
  | 0 => s
  | fuel + 1 =>
    let d := transferOf s.img.force.lattice i
    match s.lineRun false i with
    | none => s
    | some r =>
      if !bitAt d.dests s.pos then s
      else if !d.converts then
        s.each (r.recv.filter (fun e => !r.handled.contains e.2.1)) (fun s e =>
          (s.windowWrite d.dstSpace [(d.dstOffset + 64 * e.2.1, fullMask, e.2.2.1, e.2.2.2)]).updRun false i
            (fun r => { r with handled := r.handled ++ [e.2.1] }))
      else
        let per := blockLines d.inFormat
        let n := (r.handled.length + per - 1) / per
        let ks := ((List.range per).map (fun k => n * per + k)).filter (fun k => k < d.lines)
        let xs := ks.filterMap r.anyLine
        if ks.isEmpty || xs.length != ks.length || s.convertsBefore (.transfer i) then s
        else
          let bits := packCodes 512 (xs.map (fun x => x.1.toNat))
          let vals := (unpackCodes (elemBits d.inFormat) (32 * xs.length / per) bits).map (decodeElem d.inFormat ⟨[], 0⟩)
          let rgn := s.bufferRegion d.dstSpace d.dstOffset
          let o := s.bufferBlock d.dstSpace rgn d.outWord d.dstOffset d.dstScale n vals
            (if outFormat d.outWord == d.inFormat then some bits else none) (xs.any Prod.snd) []
          Dev.transferWrite fuel ((o.1.windowWrite d.dstSpace o.2).updRun false i (fun r => { r with handled := r.handled ++ ks })) i

/-- Hands a line on to the children (R517). -/
def Dev.transferForward (s : Dev) (i l : Nat) (x : Sub) (poison : Bool) : Dev :=
  s.each ((transferOf s.img.force.lattice i).children s.pos) (fun s c => s.sendLine c s.pos false i l x poison)

/-- The root takes its source lines, when what writes them has completed (R390, R517). -/
def Dev.takeTransfer (s00 : Dev) (i : Nat) : Dev :=
  let d := transferOf s00.img.force.lattice i
  let it : Item := .transfer i
  if d.root != s00.pos || !s00.issued it || ((s00.lineRun false i).map LineRun.started).getD true ||
    s00.writerAhead it [(d.srcSpace, d.srcOffset, 64 * d.lines)] (fun _ => false) ||
    s00.drainAhead it (d.srcSpace, d.srcOffset, 64 * d.lines) (fun _ => false) then s00
  else
    let s := s00.spanCheck d.srcSpace d.srcOffset (64 * d.lines)
    let xs := (List.range d.lines).map (fun l =>
      match s.windowRead d.srcSpace (d.srcOffset + 64 * l) with
      | some v => (s.pos, l, v, false)
      | none => (s.pos, l, 0, true))
    let s1 := s.updRun false i (fun r => { r with started := true, recv := xs })
    (s1.each xs (fun s x => s.transferForward i x.2.1 x.2.2.1 x.2.2.2)).transferWrite (d.lines + 1) i

/-- Issues a transfer on this member (R518, R519, R525). -/
def Dev.issueTransfer (s : Dev) (i slot : Nat) : Dev :=
  let d := transferOf s.img.force.lattice i
  if d.empty || !d.members.contains s.pos then s
  else
    let fresh := match s.lineRun false i with
      | some r => if r.started then { s with lens.runs := s.lens.runs.filter (fun r => r.flow || r.desc != i) } else s
      | none => s
    let s1 := fresh.updRun false i id
    let s2 := ({ s1 with frm.items := s1.frm.items ++ [(Item.transfer i, slot)] }).peakLines
    if d.root == s.pos then s2.takeTransfer i
    else
      let held := ((s2.lineRun false i).map LineRun.recv).getD []
      ((s2.updRun false i (fun r => { r with started := true })).each held
        (fun s x => s.transferForward i x.2.1 x.2.2.1 x.2.2.2)).transferWrite (d.lines + 1) i

/-- A transfer's member completes (R518). -/
def Dev.endTransfer (s : Dev) (i : Nat) : Dev :=
  let d := transferOf s.img.force.lattice i
  match s.lineRun false i with
  | none => s
  | some r =>
    let all := List.range d.lines
    if !s.issued (.transfer i) || !r.started || !all.all (fun l => (r.anyLine l).isSome) ||
      (bitAt d.dests s.pos && !all.all r.handled.contains) then s
    else s.endItem (.transfer i)

/-! ### Lines that arrive (R522) -/

/-- A line of a flow or transfer comes from a tree member: a duplicate is discarded (R522; log entry 40), and an early one
is kept until the item issues. -/
def Dev.lineIn (s : Dev) (flow : Bool) (i l q : Nat) (x : Sub) (poison : Bool) : Dev :=
  if ((s.lineRun flow i).bind (fun r => r.from_ q l)).isSome then s
  else
    let s1 := s.updRun flow i (fun r => { r with recv := r.recv ++ [(q, l, x, poison)] })
    if flow then s1.flowForward i
    else if ((s1.lineRun false i).map LineRun.started).getD false then
      (s1.transferForward i l x poison).transferWrite ((transferOf s.img.force.lattice i).lines + 1) i
    else s1

/-! ### After a wave or flow completes -/

/-- The flows and transfers that wait for their sources, or for the conversions of earlier items, try again (R293, R390). -/
def Dev.retakes (s : Dev) : Dev :=
  s.each s.frm.items (fun s x => match x.1 with
    | .flow i => s.takeSources i
    | .transfer i => (s.takeTransfer i).transferWrite ((transferOf s.img.force.lattice i).lines + 1) i
    | _ => s)

/-- The conversions of planned items that those before them let go on: the output of waves and what transfers write (R293, R351,
R517). -/
def Dev.conversionsRun (s : Dev) : Dev :=
  s.each s.frm.items (fun s x => match x.1 with
    | .wave e _ => s.waveOut e
    | .transfer i => s.transferWrite ((transferOf s.img.force.lattice i).lines + 1) i
    | _ => s)

/-- What a slice owes a tree neighbour over a link that was lost: the lines already handed to it, again (R531). -/
def Dev.resendLines (s : Dev) (q : Nat) : Dev :=
  s.each s.lens.runs (fun s r =>
    if !r.started then s
    else if r.flow then
      let d := flowOf s.plan r.desc
      if d.root == s.pos || parentOf d.parent s.pos != q then s
      else s.each r.handled (fun s l =>
        let out := if d.op == 2 then r.anyLine l else (d.inputs s.pos r l).map (fun t => let y := sumLines d.type t; (y.1, y.2.1))
        match out with
        | some x => s.sendLine q s.pos true r.desc l x.1 x.2
        | none => s)
    else if ((transferOf s.img.force.lattice r.desc).children s.pos).contains q then
      s.each r.recv (fun s x => s.sendLine q s.pos false r.desc x.2.1 x.2.2.1 x.2.2.2)
    else s)

/-! ### Abandonment (R64) -/

/-- Whether a transaction has not yet applied what it holds. -/
def Txn.unapplied (t : Txn) : Bool := t.stage == .snoop || t.stage == .pod || t.stage == .place || t.stage == .base

/-- The planned writes of an abandoned item (R64): those not yet begun are dropped, or kept as poison, and nothing of them is
converted any more; the ones begun and not applied are answered POISON, and their sub-blocks poisoned (DESIGN CHOICE; log entry
87). -/
def Dev.cutJob (s : Dev) (owner : Nat) (keep : Bool) : Dev :=
  let mine := (s.lens.jobs.filter (fun j => j.owner == owner)).map PlanJob.id
  let jobs := s.lens.jobs.map (fun j =>
    if j.owner != owner then j
    else { j with todo := [], outs := if keep then j.outs.map (fun o => (o.1, o.2.1, o.2.2.1, true)) else [] })
  { s with
    lens.jobs := jobs
    cache.txns := s.cache.txns.map (fun t => match t.cause with
      | .planned id a false => if mine.contains id && t.unapplied then { t with cause := .planned id a true } else t
      | _ => t) }

/-- The planned writes of an abandoned wave. -/
def Dev.dropJob (s : Dev) (e : Nat) : Dev := s.cutJob e false

/-- Forgets a run: its lines in flight are discarded (R64). -/
def Dev.dropRun (s : Dev) (flow : Bool) (i : Nat) : Dev :=
  { s with lens.runs := s.lens.runs.filter (fun r => r.flow != flow || r.desc != i) }

/-- The destination steps of a flow that have not applied their line write it poisoned (R64, R413). -/
def Dev.poisonSteps (s : Dev) (i : Nat) : Dev :=
  { s with cache.txns := s.cache.txns.map (fun t => match t.cause with
      | .flow j l _ ls => if j == i && t.unapplied then { t with cause := .flow j l 5 ls } else t
      | _ => t) }

/-- A flow is abandoned: its root poisons every destination line it has not applied (R64, R413). -/
def Dev.dropFlow (s : Dev) (i : Nat) : Dev :=
  let d := flowOf s.plan i
  let done := ((s.lineRun true i).map LineRun.handled).getD []
  let left := (List.range d.lines).filter (fun l => !done.contains l)
  let s0 := (s.cutJob (4 + i) true).poisonSteps i
  let s1 := if d.root != s.pos || left.isEmpty then s0
    else if d.dstSpace != 0 then s0.each left (fun s l => s.flowWindow d l 5 [])
    else match s.regionOf 0 d.dstAddr 64 with
      | none => s0
      | some n =>
        let g := s.region n
        let off := d.dstAddr - g.first * 0x200000
        let pay : Outs := if g.format == 0 then left.map (fun l => (off + 64 * l, fullMask, 0, true))
          else
            let per := blockLines (if d.type == 1 then 2 else 1)
            (left.map (fun l => l / per)).foldl (fun o b =>
              addBytes o (blockOffset g.format (blockAt g.format off + b)) (payloadBytes g.format) 0 true) []
        (s0.raise F.crdErr_POISON_OUT).startJob (4 + i) n 0 pay []
  (s1.dropRun true i).endItem (.flow i)

/-- A transfer is abandoned: a member of DESTS clears VALID of every line not yet written (R64). -/
def Dev.dropTransfer (s : Dev) (i : Nat) : Dev :=
  let d := transferOf s.img.force.lattice i
  let done := ((s.lineRun false i).map LineRun.handled).getD []
  let left := (List.range d.lines).filter (fun l => !done.contains l)
  let s1 := if !bitAt d.dests s.pos then s
    else if !d.converts then
      s.windowWrite d.dstSpace (left.map (fun l => (d.dstOffset + 64 * l, (fullMask, (0, true)))))
    else
      let n := payloadBytes (outFormat d.outWord)
      let per := blockLines d.inFormat
      s.windowWrite d.dstSpace ((left.map (fun l => l / per)).foldl (fun o b => addBytes o (d.dstOffset + b * n) n 0 true) [])
  (s1.dropRun false i).endItem (.transfer i)

end Sys2Proof.Machine
end

