-- ==== Sys2Proof/Machine/Operands.lean ====
section
/-! DEFINITION. The operand forms of requests: the checks of a request's own fields (R7, R78, R102, R103, R201, R309,
R396 to R399, R645). -/

namespace Sys2Proof

/-- The window position and offset that a SHADE, TILE or CSR address names (R78). -/
def Request.position (r : Request) : Nat := Machine.bitsOf r.addr.toNat 31 29
def Request.offset (r : Request) : Nat := Machine.bitsOf r.addr.toNat 28 0

/-- Whether every byte enable of the span is off, a write that changes nothing (R105). -/
def Request.writesNothing (r : Request) : Bool := r.len == 0 && r.mask == 0

/-- Whether an address has the form of its space: bits [47:32] zero and a position of the set outside MEM, and a CSR
offset below 0x0100_0000 (check 2 of R103, R78). here: the position itself, which is of the set in any case. -/
def Request.addrForm (r : Request) (n here : Nat) : Bool :=
  r.space == .mem ||
    (Machine.bitsOf r.addr.toNat 47 32 == 0 && (r.position < n || r.position == here) &&
      (r.space != .csr || r.offset < 0x1000000))

/-- Whether a CSR request has the form of R7. -/
def Request.csrForm (r : Request) (op : Op) : Bool :=
  r.len == 0 && r.addr.toNat % 8 == 0 &&
    (op != .write || r.mask.toNat == 0xFF * 2 ^ (r.addr.toNat % 64))

/-- Whether a request is aligned and stays in its page, or has the CSR form (check 3 of R103). -/
def Request.aligned (r : Request) (op : Op) : Bool :=
  if r.space == .csr then r.csrForm op
  else r.addr.toNat % 64 == 0 && r.addr.toNat % 4096 + r.bytes ≤ 4096

/-- Whether a VIEW is a format code (check 4 of R103). -/
def Request.viewForm (r : Request) : Bool := r.view.toNat < 14

/-- Whether a Chord operation has a form that R399 admits. -/
def Request.argForm (r : Request) (op : Op) : Bool :=
  let a := r.arg
  r.view == 0 && !Machine.argReserved a &&
    match op with
    | .reduceStore => Machine.argOp a ≤ 4 && Machine.argSize a == 0 && Machine.argWord a == 0
    | _ => Machine.argOp a ≤ 12 && r.len == 0 && !(Machine.argSize a == 1 && Machine.argWord a % 2 == 1)

/-- Whether a READ_SHARED, READ_UNIQUE, CLAIM or WRITE_BACK has a form that R200 admits. -/
def Request.cohForm (r : Request) (caching : Bool) : Bool := r.view == 0 && r.len == 0 && caching

end Sys2Proof

namespace Sys2Proof.Machine

/-- Whether a wide-VIEW request has a form that R309 admits. -/
def wideForm (op : Op) (r : Request) (g : Region) : Bool :=
  let o := r.localAddr - g.first * 0x200000
  let blocks := (blocksIn g.format o r.bytes).length
  o + r.bytes ≤ g.dataLen * 0x200000 &&
    (!(elemBits g.format == 6 || elemBits g.format == 3) || (r.addr.toNat % 1024 == 0 && (r.len.toNat + 1) % 16 == 0)) &&
    !(op == .write && r.len == 0 && r.mask != fullMask) &&
    blocks * viewBytes r.view.toNat ≤ 16384

/-- The owning chapters' check of a request to SHADE, TILE or CSR (R201, R306, R396, R399). -/
def windowForm (op : Op) (r : Request) : Bool :=
  match op with
  | .readOnce => r.view == 0
  | .readOnceNofill => r.view == 0
  | .write => r.view == 0
  | .atomic => r.space != .csr && !(r.space == .tile && 0x10000000 ≤ r.offset) && r.argForm op
  | .reduceStore => r.space != .csr && !(r.space == .tile && 0x10000000 ≤ r.offset) && r.argForm op
  | _ => false

/-- The owning chapters' check of a request on the reflection path (R397, R645). -/
def reflForm (op : Op) (r : Request) : Bool :=
  r.view == 0 &&
    match op with
    | .readOnce => true
    | .readOnceNofill => true
    | .write => true
    | .clean => true
    | .invalidate => true
    | .cleanInvalidate => true
    | _ => false

/-- The owning chapters' check of a request to a region of this node's MEM (R145, R199, R200, R306, R309, R396, R399).
-/
def memForm (op : Op) (r : Request) (g : Region) (caching : Bool) : Bool :=
  let view := if r.view == 0 then true else g.format != 0 && r.view.toNat ≤ 3 && wideForm op r g
  match op with
  | .readShared => g.format == 0 && r.cohForm caching
  | .readUnique => g.format == 0 && r.cohForm caching
  | .claim => g.format == 0 && r.cohForm caching
  | .writeBack => g.format == 0 && r.cohForm caching
  | .atomic => g.format == 0 && r.argForm op
  | .farAtomic => g.format == 0 && r.argForm op
  | .reduceStore => g.format == 0 && r.argForm op
  | .darken => r.view == 0
  | .clean => r.view == 0
  | .invalidate => r.view == 0
  | .cleanInvalidate => r.view == 0
  | .readOnce => view
  | .readOnceNofill => view
  | .write => view

/-- Check 9 of R103. -/
def owningForm (op : Op) (r : Request) (g : Region) (caching : Bool) : Bool :=
  if r.space != .mem then windowForm op r
  else if g.reflection then reflForm op r
  else memForm op r g caching

end Sys2Proof.Machine
end

