-- ==== Sys2Proof/Machine/Reflection.lean ====
section
/-! DEFINITION. Reflections, the reflection queue, hues and their sweeps (chapter 18). -/

namespace Sys2Proof.Machine

/-! ### Area headers (R649, log entry 31) -/

/-- Frames of a reflection area: 511 for each of its chunks (R649). -/
def Dev.areaFrames (s : Dev) (g : Region) : Nat := if s.setSize == 0 then 0 else 511 * divUp g.size s.setSize

/-- Device offset of the header of the frame that a facet offset maps to, and of the sector's place in the area. -/
def Dev.areaHeader (s : Dev) (g : Region) (d : Nat) : Nat :=
  let fr := s.areaFrames g
  g.devBase * 0x200000 + fr * 4096 + 8 * ((d / 4096) % fr)
def Dev.areaSector (s : Dev) (g : Region) (d : Nat) : Nat :=
  g.devBase * 0x200000 + ((d / 4096) % s.areaFrames g) * 4096 + d % 4096 / 256 * 256

/-- A sub-block of an area as a read finds it, none where it is uncorrectable: poisoned or on a failed channel. -/
def Dev.areaRead (s : Dev) (g : Region) (d : Nat) : Option Sub :=
  let w := s.dramWord (d / 64 * 64)
  if w.2 || s.channelFailed (facetGroup d g.salt) then none else some w.1

/-- The 8 bytes at a device offset of an area. -/
def Dev.areaWord (s : Dev) (g : Region) (d : Nat) : Option Nat :=
  (s.areaRead g d).map (fun x => bitsOf x.toNat (8 * (d % 64) + 63) (8 * (d % 64)))

/-- Writes the 8 bytes at a device offset of an area. -/
def Dev.setAreaWord (s : Dev) (g : Region) (d v : Nat) : Dev :=
  let b := d / 64 * 64
  let old := ((s.areaRead g b).getD 0).toNat
  (s.issueWrite (facetGroup b g.salt) b (BitVec.ofNat 512 (withBits old (8 * (d % 64) + 63) (8 * (d % 64)) v)) false .demand .area).2

/-- Whether a header names a region, page and hue (R649). -/
def headerNames (h idx d : Nat) : Bool := bitsOf h 63 58 == idx && bitsOf h 46 16 == d / 4096 % 2 ^ 31
def headerHue (h : Nat) : Nat := bitsOf h 57 50

/-- Clears a sector's VALID in the frame header that names it; hue: only where the header has it (R645, R655). -/
def Dev.areaDrop (s : Dev) (g : Region) (idx d : Nat) (hue : Option Hue) : Dev :=
  if !g.reflDram || s.areaFrames g == 0 then s
  else
    let a := s.areaHeader g d
    match s.areaWord g a with
    | none => s
    | some h =>
      let i := (d / 256) % 16
      let mine := match hue with
        | some x => headerHue h == x.toNat
        | none => true
      if headerNames h idx d && mine && bitAt h i then s.setAreaWord g a (h - 2 ^ i) else s

/-- Writes a fetched sector into its frame (R651). -/
def Dev.areaFill (s : Dev) (g : Region) (idx d : Nat) (hue : Hue) (x : Sector) : Dev :=
  if !g.reflDram || s.areaFrames g == 0 then s
  else
    let a := s.areaHeader g d
    let h := (s.areaWord g a).getD 0
    let i := (d / 256) % 16
    let fresh := idx * 2 ^ 58 + hue.toNat * 2 ^ 50 + (d / 4096 % 2 ^ 31) * 2 ^ 16 + 2 ^ i
    let h1 := if headerNames h idx d && headerHue h == hue.toNat then h ||| 2 ^ i else fresh
    let s1 := s.setAreaWord g a h1
    let b := s.areaSector g d
    s1.each (List.range 4) (fun s k =>
      (s.issueWrite (facetGroup b g.salt) (b + 64 * k) (Sector.sub x k) false .demand .area).2)

/-- What the area holds of a sector for a hue (R650 step 2): the sector on a hit, and whether a read was uncorrectable.
-/
def Dev.areaLookup (s : Dev) (g : Region) (idx d : Nat) (hue : Hue) : Option Sector × Bool :=
  if !g.reflDram || s.areaFrames g == 0 then (none, false)
  else match s.areaWord g (s.areaHeader g d) with
    | none => (none, true)
    | some h =>
      if headerNames h idx d && headerHue h == hue.toNat && s.hueLive hue.toNat && bitAt h ((d / 256) % 16) then
        let b := s.areaSector g d
        let subs := (List.range 4).map (fun k => s.areaRead g (b + 64 * k))
        if subs.any Option.isNone then (none, true)
        else (some (subs.zipIdx.foldl (fun (x : Sector) e => Sector.put x e.2 (e.1.getD 0)) 0), false)
      else (none, false)

/-! ### Reflection lines in the cache (R647, R648) -/

/-- Changes the reflection lines of a place's sector, of one hue or of every hue. -/
def Dev.eachReflLine (s : Dev) (p : Place) (hue : Option Hue) (f : Line → Line) : Dev :=
  s.each (s.waysOf p.facet clsOrdinary) (fun s w => s.updLine p.facet p.set w (fun l =>
    let mine := match hue with
      | some h => l.hue == h
      | none => true
    if l.refl && l.tag == p.tag && l.group == p.group && mine then f l else l))

/-- Puts a whole sector in the cache as a reflection line; with no way free for it, nothing is filled (R648). -/
def Dev.reflFill (s : Dev) (p : Place) (way : Option Nat) (age : BitVec 2) (x : Sector) : Dev :=
  let full := { emptyLine p age with valid := 0xF, data := x }
  let put := fun (s : Dev) (w : Nat) =>
    (s.setLine p.facet p.set w full).each (List.range 4) (fun s i => s.heal p.facet p.set w i)
  match s.lookup p with
  | some (w, _) => put s w
  | none =>
    match way with
    | some w => put s w
    | none =>
      match s.allocWay p allocRefl true with
      | .ok (w, s1) => put s1 w
      | .error _ => s

/-! ### The queue (R652) -/

/-- Posts an entry in the lowest free place; none when the queue is full. -/
def Dev.rflPost (s : Dev) (e : RflEntry) : Option (Nat × Dev) :=
  match (List.range 256).find? (fun i => (tget s.rfl_.queue i).isNone) with
  | none => none
  | some i =>
    let s1 := { s with
      rfl_.queue := tset s.rfl_.queue i { e with seq := s.rfl_.nextSeq }
      rfl_.nextSeq := s.rfl_.nextSeq + 1 }
    let s2 := s1.bump (if e.write then F.rflCount_REMOTE_WRITES else F.rflCount_REMOTE_READS)
    some (i, s2.event evRflPost 0 (some e.hue))

/-- A sub-block of an entry's data window, and the window with it replaced. -/
def Dev.windowSub (s : Dev) (e i : Nat) : Sub :=
  BitVec.ofNat 512 ((List.range 8).foldl (fun a k => a + (tgetD s.rfl_.windows (32 * e + 8 * i + k) 0).toNat * 2 ^ (64 * k)) 0)
def Dev.setWindowSub (s : Dev) (e i : Nat) (v : Sub) : Dev :=
  s.each (List.range 8) (fun s k => { s with
    rfl_.windows := tput 0 s.rfl_.windows (32 * e + 8 * i + k) (BitVec.ofNat 64 (v.toNat >>> (64 * k))) })

/-- Word w of the descriptor of entry e (R652). -/
def Dev.rflDescriptor (s : Dev) (e w : Nat) : Nat :=
  match tget s.rfl_.queue e with
  | none => 0
  | some x =>
    match w with
    | 0 => 2 ^ 63 + b2n x.write * 2 ^ 62 + x.subs.toNat * 2 ^ 56 + x.hue.toNat * 2 ^ 48 + x.src.toNat * 2 ^ 42
        + x.seq.toNat * 2 ^ 16
    | 1 => x.addr.toNat
    | 2 => x.mask.toNat
    | _ => 0

/-- The indices of a request that lie in the sector of index i. -/
def Dev.sectorParts (s : Dev) (e : ReqEntry) (i : Nat) : List Nat :=
  let p := s.placeOf e i
  (List.range e.n).filter (fun k => (s.placeOf e k).sameSector p)

/-- The read entry in the queue that a read of a sector may share: its own hue's, and posted after the newest posted
write of the sector (R656). -/
def Dev.rflShared (s : Dev) (p : Place) (addr : BitVec 64) : Option Nat :=
  let writes := (s.rfl_.queue.filter (fun q => q.2.write && q.2.addr == addr)).map (fun q => q.2.seq)
  ((s.rfl_.queue.find? (fun q => !q.2.write && q.2.fills && q.2.place.sameSector p &&
    writes.all (fun w => earlier w q.2.seq))).map Prod.fst)

/-! ### Parts on the reflection path (R645, R650, R655, R656) -/

/-- The bound that a part on the reflection path would meet; parts to one sector keep their order (R139). -/
def Dev.rflBound (s : Dev) (e : ReqEntry) (i : Nat) : Option Bound :=
  let p := s.placeOf e i
  let full := 256 ≤ s.rfl_.queue.length
  let addr := BitVec.ofNat 64 ((e.r.addr.toNat + 64 * i) / 256 * 256)
  let w := Waiter.part e.id i
  match s.behind e i p false with
  | some b => some b.1
  | none =>
  match e.op with
  | .readOnce =>
    if (s.cached p).isSome then none
    else match s.rflShared p addr with
      | some _ => s.plrBound p w e.ticket
      | none =>
        if (s.areaLookup e.rgn e.region (p.d / 256 * 256) e.r.hue).1.isSome then
          (if (s.lookup p).isSome then none else s.wayBound p allocRefl e.ticket)
        else if full then some .writeBack
        else if (s.plrAt p).isSome then none
        else s.fetchBound p allocRefl false w e.ticket
  | .readOnceNofill => if full then some .writeBack else none
  | .write => if full then some .writeBack else none
  | op => if waitsFill op && s.filling p then s.plrBound p w e.ticket else none

/-- A read entry for the sector of a part. -/
def Dev.rflRead (s : Dev) (e : ReqEntry) (p : Place) (i : Nat) (subs : BitVec 4) (fills : Bool) (w : List (Nat × Nat)) :
    RflEntry :=
  { write := false, subs := subs, hue := e.r.hue, src := e.r.src, seq := s.rfl_.nextSeq
    addr := BitVec.ofNat 64 ((e.r.addr.toNat + 64 * i) / 256 * 256), mask := fullMask, fills := fills, place := p
    region := e.region, rgn := e.rgn, waiters := w }

/-- READ_ONCE of one sub-block that meets no bound (R133, R650). -/
def Dev.rflReadOnce (s00 : Dev) (e : ReqEntry) (i : Nat) : Dev :=
  let p := s00.placeOf e i
  let s := s00.readCheck p
  let addr := BitVec.ofNat 64 ((e.r.addr.toNat + 64 * i) / 256 * 256)
  match s.cached p with
  | some x => ((s.touch p).event evReadHit p.facet (some e.r.hue)).finish e.id i .ok (some x)
  | none =>
    let s1 := s.event evReadMiss p.facet (some e.r.hue)
    let age : BitVec 2 := if e.r.stream || e.rgn.stream then 3 else 1
    match s1.rflShared p addr with
    | some q =>
      let s2 := { s1 with rfl_.queue := s1.rfl_.queue.map (fun (x : Nat × RflEntry) =>
        if x.1 == q then (x.1, { x.2 with waiters := x.2.waiters ++ [(e.id, i)] }) else x) }
      match s2.plrAt p with
      | some x => s2.updPlr x.id (fun x => { x with waiters := x.waiters ++ [.part e.id i] })
      | none => s2
    | none =>
      let area := s1.areaLookup e.rgn e.region (p.d / 256 * 256) e.r.hue
      let s2 := s1.raiseIf area.2 F.rflErr_AREA_UE
      match area.1 with
      | some x => ((s2.bump F.rflCount2_AREA_HITS).reflFill p none age x).finish e.id i .ok (some (Sector.sub x p.sub))
      | none =>
        let s3 := match s2.plrAt p with
          | some _ => s2
          | none =>
            let mk := fun (s : Dev) (w : Nat) =>
              let x : Plr := { s.newPlr p (some w) age false (some (.part e.id i)) with fetching := 0xF }
              ({ s with nextId := s.nextId + 1, cache.plrs := s.cache.plrs ++ [x] }).filterMiss p
            match s2.lookup p with
            | some (w, _) => mk s2 w
            | none =>
              match s2.allocWay p allocRefl true with
              | .ok (w, s') => mk s' w
              | .error _ => s2
        match s3.rflPost (s3.rflRead e p i 0xF true [(e.id, i)]) with
        | some (_, s4) => s4
        | none => s3

/-- A write of one sector: its entry, its data in the window, and the copies it drops (R652, R655). -/
def Dev.rflWrite (s : Dev) (e : ReqEntry) (i : Nat) (idx : List Nat) : Dev :=
  let p := s.placeOf e i
  let subs := idx.map (fun k => (s.placeOf e k).sub)
  let x : RflEntry :=
    { s.rflRead e p i (BitVec.ofNat 4 (subs.foldl (fun a k => a + 2 ^ k) 0)) false [] with
      write := true
      mask := if e.r.len == 0 then e.r.mask else fullMask }
  match s.rflPost x with
  | none => s
  | some (q, s1) =>
    let s2 := s1.each idx (fun s k => s.setWindowSub q (s.placeOf e k).sub (e.data.getD k 0))
    let s3 := s2.eachReflLine p none (fun l => subs.foldl Line.dropSub l)
    let s4 := (s3.areaDrop e.rgn e.region (p.d / 256 * 256) none).each idx (fun s k => s.answer e.id k .ok none)
    match s4.req e.id with
    | some y => if (List.range y.n).all (fun k => !y.owes k) then s4.flush e.id else s4
    | none => s4

/-- A part at a bound on the reflection path (R656): a direct read's or a write's whole sector is answered NAK or parks
with its first part. -/
def Dev.rflAtBound (s : Dev) (e : ReqEntry) (i : Nat) (b : Bound) : Dev :=
  let p := s.placeOf e i
  let at_ := fun (s : Dev) (k : Nat) => s.atBound p.facet e.id k (s.boundGranule e k false) b
  let s1 := at_ s i
  if e.op == .readOnce || s1.cache.parked.any (fun k => k.reqId == e.id && k.index == i) then s1
  else s1.each ((s.sectorParts e i).filter (fun k => k != i)) at_

/-- Starts a part on the reflection path (R134, R645). For a direct read and a write, i is the first index of its sector; a
maintenance operation waits for a pending fill of its sector (R156). -/
def Dev.rflPart (s00 : Dev) (id i : Nat) : Dev :=
  match s00.req id with
  | none => s00
  | some e =>
    let p := s00.placeOf e i
    let s := s00.readTags p.facet p.set
    if s.phase == .eclipse then s
    else match s.rflBound e i with
    | some b => s.listUrgent (s.rflAtBound e i b) e i p
    | none =>
      let s1 := s.leaveList e i
      let idx := s.sectorParts e i
      if waitsFill e.op && s.filling p then
        match s1.holdWait p (.part id i) with
        | .ok s2 => s2
        | .error b => s1.atBound p.facet id i p.d b
      else match e.op with
      | .readOnce => s1.rflReadOnce e i
      | .readOnceNofill =>
        let subs := BitVec.ofNat 4 ((idx.map (fun k => (s.placeOf e k).sub)).foldl (fun a k => a + 2 ^ k) 0)
        match s1.rflPost (s1.rflRead e p i subs false (idx.map (fun k => (id, k)))) with
        | some (_, s2) => s2
        | none => s1
      | .write => s1.rflWrite e i idx
      | .invalidate =>
        ((s1.eachReflLine p (some e.r.hue) (fun l => { l with valid := 0, dirty := 0 })).areaDrop e.rgn e.region
          (p.d / 256 * 256) (some e.r.hue)).finish id i .ok none
      | .cleanInvalidate =>
        ((s1.eachReflLine p (some e.r.hue) (fun l => { l with valid := 0, dirty := 0 })).areaDrop e.rgn e.region
          (p.d / 256 * 256) (some e.r.hue)).finish id i .ok none
      | .clean => s1.finish id i .ok none
      | _ => s1.finish id i .deny none

/-- The indices at which the parts of a request start: each of its 64 B, but one per sector for a direct read or a write
on the reflection path, and one per 1 KiB unit through a wide view. -/
def Dev.startIndices (s : Dev) (e : ReqEntry) : List Nat :=
  if e.rgn.reflection && (e.op == .readOnceNofill || e.op == .write) then
    (List.range e.n).filter (fun i => i == 0 || !(s.placeOf e i).sameSector (s.placeOf e (i - 1)))
  else if e.viewed then (List.range (e.r.len.toNat + 1)).filter (fun i => e.entryOf i == i)
  else List.range e.n

/-- The bound that a part would meet, with the granule that meets it, and its start, on every path. -/
def Dev.anyBound (s : Dev) (e : ReqEntry) (i : Nat) : Option (Nat × Bound) :=
  if e.rgn.reflection then (s.rflBound e i).map (fun b => (i, b))
  else if e.viewed then match s.viewStart e i (s.comesBack e i) with
    | .ok _ => none
    | .error b => some b
  else (s.partBound e i (s.comesBack e i)).map (fun b => (i, b))
def Dev.anyPart (s : Dev) (id i : Nat) : Dev :=
  match s.req id with
  | some e =>
    if e.rgn.reflection then s.rflPart id i else if e.viewed then s.viewPart id i false else s.startPart id i false
  | none => s

/-- Whether a part in an ingress list may start: its write data is there and it meets no bound. -/
def Dev.partReady (s : Dev) (e : ReqEntry) (i : Nat) : Bool := (e.got.isEmpty || e.loaded) && (s.anyBound e i).isNone

/-! ### Completion (R651, R654, R657) -/

/-- POD_SYNC_DONE of a slice for an operation of this home's (R449): a transaction goes on once it holds every one, and a request
outside MEM executes then (Dev.podOpsRun). -/
def Dev.podDoneAt (s : Dev) (sender : Nat) (src : Agent) (txid : Nat) : Dev :=
  match s.cache.txns.find? (fun t => t.stage == .pod && t.src == src && t.id % 4096 == txid && t.podWait.contains sender) with
  | some t => (s.updTxn t.id (fun t => { t with podWait := t.podWait.erase sender })).advance t.id
  | none =>
    { s with cache.podOps := s.cache.podOps.map (fun k =>
        if k.1 % 4096 == txid && (s.req k.1).any (fun e => e.r.src == src) then (k.1, k.2.erase sender) else k) }

/-- Sends POD_SYNC_DONE for every POD_SYNC whose writes are done (R449, R658); the slice's own goes to its operation. -/
def Dev.podRun (s : Dev) : Dev :=
  let done := s.cache.pods.filter (fun p => p.2.2.2.isEmpty)
  let s0 : Dev := { s with cache.pods := s.cache.pods.filter (fun p => !p.2.2.2.isEmpty) }
  s0.each done (fun s p =>
    if p.1 == s.pos then s.podDoneAt s.pos (BitVec.ofNat 6 p.2.1) p.2.2.1
    else s.send (.ctl p.1 (.podSyncDone (BitVec.ofNat 6 p.2.1) (BitVec.ofNat 12 p.2.2.1))))

/-- Frees the hues whose two sweeps are over and that no entry carries (R663). -/
def Dev.freeHues (s : Dev) : Dev :=
  { s with rfl_.hues := (s.rfl_.hues.zipIdx).map (fun e =>
      if e.1.state == 2 && e.1.swept == 2 && !s.rfl_.queue.any (fun q => q.2.hue.toNat == e.2) then
        { e.1 with state := 0 } else e.1) }

/-- Frees a queue entry. -/
def Dev.rflFree (s : Dev) (i : Nat) : Dev :=
  { s with
    rfl_.queue := tdel s.rfl_.queue i
    cache.pods := s.cache.pods.map (fun p => (p.1, p.2.1, p.2.2.1, p.2.2.2.filter (fun k => k != i))) }

/-- Frees the PLR that a fill of a sector held, once no other entry fills it; the maintenance operations that waited there start
(R156). -/
def Dev.rflPlrFree (s : Dev) (p : Place) (ws : List (Nat × Nat)) : Dev :=
  let other := s.rfl_.queue.any (fun q => q.2.fills && q.2.place.sameSector p)
  let s1 := { s with cache.plrs := s.cache.plrs.map (fun (x : Plr) =>
    if x.place.sameSector p then { x with waiters := x.waiters.filter (fun w =>
      !(match w with | .part a b => ws.contains (a, b) | _ => false)) } else x) }
  if other then s1
  else
    let left := (s1.cache.plrs.filter (fun x => x.place.sameSector p)).flatMap (fun x => x.waiters)
    ({ s1 with cache.plrs := s1.cache.plrs.filter (fun x => !x.place.sameSector p) } : Dev).each left (fun s w =>
      match w with
      | .part a b => s.rflPart a b
      | .txn _ => s)

/-- Completes an entry with a code for its waiters (R654, R657): OK fills where the hue is LIVE (R651). -/
def Dev.rflEnd (s : Dev) (i : Nat) (c : Code) : Dev :=
  match tget s.rfl_.queue i with
  | none => s
  | some e =>
    let s1 := s.rflFree i
    let x := (List.range 4).foldl (fun (a : Sector) k => Sector.put a k (s.windowSub i k)) 0
    let s2 :=
      if e.fills then
        let plr := s1.plrAt e.place
        let s' := if c == .ok && s.hueLive e.hue.toNat then
            (s1.reflFill e.place (plr.bind (fun y => y.way)) ((plr.map (fun y => y.age)).getD 1) x).areaFill e.rgn e.region
              (e.place.d / 256 * 256) e.hue x
          else s1
        s'.rflPlrFree e.place e.waiters
      else s1
    let s3 := s2.each e.waiters (fun s w =>
      match s.req w.1 with
      | some r =>
        let sub := (s.placeOf r w.2).sub
        s.finish w.1 w.2 c (some (Sector.sub x sub))
      | none => s)
    s3.freeHues.podRun

/-- RFL_DONE with each STATUS (R654, R667): 0 OK, 2 DENY, others POISON. -/
def Dev.rflDone (s : Dev) (i status : Nat) : Dev :=
  if (tget s.rfl_.queue i).isNone then s
  else match status with
    | 0 => s.rflEnd i .ok
    | 2 => s.rflEnd i .deny
    | _ => (s.raise F.rflErr_REMOTE_POISON).rflEnd i .poison

/-- A posted entry is not done within TIMEOUT_US (R657, R672). -/
def Dev.rflTimeout (s : Dev) (i : Nat) : Dev :=
  match tget s.rfl_.queue i with
  | none => s
  | some e =>
    if e.write then
      (((s.raise F.rflErr_WRITE_LOST).alert alertRfl).errorRecord 0x0D s.pos e.addr.toNat i).rflEnd i .poison
    else (s.raise F.rflErr_READ_TIMEOUT).rflEnd i .poison

/-! ### POD_SYNC (R449, R658) -/

/-- POD_SYNC at a slice. -/
def Dev.podSyncIn (s : Dev) (sender : Nat) (src : Agent) (txid : BitVec 12) : Dev :=
  if !s.active || s.deaf sender then s
  else ({ s with cache.pods := s.cache.pods ++ [(sender, src.toNat, txid.toNat, s.postedWrites src)] }).podRun

/-- POD_SYNC_DONE at the home. -/
def Dev.podDoneIn (s : Dev) (sender : Nat) (src : Agent) (txid : BitVec 12) : Dev := s.podDoneAt sender src txid.toNat

/-! ### Hues and sweeps (R659 to R663) -/

/-- Entry h of the hue table of a region table section (R659). -/
def hueWord (regions : List Byte) (h : Nat) : Nat := leAt regions (4096 + 8 * h) 8

/-- The hue table of an image (R659, R663): every hue that it does not name LIVE is FREE; hue 0 is LIVE. -/
def imageHues (regions : List Byte) : List HueEntry :=
  (List.range 256).map (fun h =>
    let w := hueWord regions h
    let live := h == 0 || bitsOf w 63 62 == 1
    { state := if live then 1 else 0, mask := BitVec.ofNat 48 w, swept := 0, skip := false })

/-- A patch's hue changes (R661, R663): a hue that becomes RETIRED waits for two passes that begin later. -/
def Dev.patchHues (s : Dev) (regions : List Byte) : Dev :=
  { s with rfl_.hues := (s.rfl_.hues.zipIdx).map (fun e =>
      let w := hueWord regions e.2
      let st : BitVec 2 := if e.2 == 0 then 1 else BitVec.ofNat 2 (bitsOf w 63 62)
      if st == 2 && e.1.state == 0 then e.1
      else if st == 2 && e.1.state != 2 then
        { state := 2, mask := BitVec.ofNat 48 w, swept := 0, skip := s.rfl_.sweepSet != 0 || !s.rfl_.headersAt.isEmpty }
      else if st == 2 then e.1
      else { state := st, mask := BitVec.ofNat 48 w, swept := 0, skip := false }) }

/-- Drops every reflection line of a set of every enabled facet whose hue meets a condition. -/
def Dev.dropReflSet (s : Dev) (set : Nat) (gone : Nat → Bool) : Dev :=
  s.each s.fuse.facets (fun s f => s.each (s.waysOf f clsOrdinary) (fun s w =>
    match s.line f set w with
    | some l => if l.refl && gone l.hue.toNat then s.delLine f set w else s
    | none => s))

/-- Regions with a reflection area. -/
def Dev.areaRegions (s : Dev) : List Nat :=
  (List.range 64).filter (fun k => (s.region k).valid && (s.region k).reflection && (s.region k).reflDram)

/-- The sub-blocks of an area's headers, by region and device offset (R649). -/
def Dev.headerSubs (s : Dev) (k : Nat) : List (Nat × Nat) :=
  let g := s.region k
  let fr := s.areaFrames g
  (List.range (divUp (8 * fr) 64)).map (fun i => (k, g.devBase * 0x200000 + fr * 4096 + 64 * i))

/-- The sub-blocks of headers that lie on a pseudo-channel, in the order in which it reads them. -/
def Dev.headersOn (s : Dev) (pc : Nat) : List (Nat × Nat) :=
  (s.areaRegions.flatMap s.headerSubs).filter (fun x => pcNumber (facetGroup x.2 (s.region x.1).salt) x.2 == pc)

/-- Clears the headers in a sub-block whose hue meets a condition. -/
def Dev.clearHeaders (s : Dev) (x : Nat × Nat) (gone : Nat → Bool) : Dev :=
  let g := s.region x.1
  let last := g.devBase * 0x200000 + s.areaFrames g * 4096 + 8 * s.areaFrames g
  s.each (((List.range 8).map (fun j => x.2 + 8 * j)).filter (fun d => d < last)) (fun s d =>
    match s.areaWord g d with
    | some h => if h != 0 && gone (headerHue h) then s.setAreaWord g d 0 else s
    | none => s)

/-- Clears the headers of every area whose hue meets a condition. -/
def Dev.dropHeaders (s : Dev) (gone : Nat → Bool) : Dev :=
  s.each (s.areaRegions.flatMap s.headerSubs) (fun s x => s.clearHeaders x gone)

/-- A pseudo-channel's part of a sweep slot: as many sub-blocks of headers as its BACKGROUND share lets it read (R45, R662). -/
def Dev.sweepHeaders (s : Dev) (pc n : Nat) (gone : Nat → Bool) : Dev :=
  let at_ := tgetD s.rfl_.headersAt pc 0
  let l := ((s.headersOn pc).drop at_).take n
  let s1 := (s.each l (fun s x => s.clearHeaders x gone)).busUse pc .background l.length
  { s1 with rfl_.headersAt := tput 0 s1.rfl_.headersAt pc (at_ + l.length) }

/-- One sweep slot (R662, R669): 64 sets of every enabled facet, and headers within each pseudo-channel's BACKGROUND share. A
completed pass counts for the retired hues that it began after (R663). -/
def Dev.sweepSlot (s : Dev) : Dev :=
  let retired := fun (h : Nat) => s.hueState h == 2
  let a := s.rfl_.sweepSet
  let s1 := if a < 2048 then s.each (List.range 64) (fun s i => s.dropReflSet ((a + i) % 2048) retired) else s
  let s2 := if s1.areaRegions.isEmpty then s1
    else s1.each (List.range 128) (fun s pc => s.sweepHeaders pc (s.backgroundRoom pc) retired)
  let sets := min 2048 (a + 64)
  let heads := (s2.rfl_.headersAt.map Prod.snd).foldl (· + ·) 0
  let all := 2048 + ((s2.areaRegions.map (fun k => (s2.headerSubs k).length)).foldl (· + ·) 0)
  if sets + heads < all then
    { s2.put F.rflSweep_PROGRESS ((sets + heads) * 100 / all) with rfl_.sweepSet := sets }
  else
    let s3 := { (s2.put F.rflSweep_PROGRESS 0).bump F.rflSweep_PASSES with
      rfl_.sweepSet := 0
      rfl_.headersAt := []
      rfl_.hues := s2.rfl_.hues.map (fun (e : HueEntry) =>
        if e.state != 2 then e
        else if e.skip then { e with skip := false }
        else { e with swept := BitVec.ofNat 2 (min 2 (e.swept.toNat + 1)) }) }
    s3.freeHues

/-- An image load invalidates every reflection line (R663). -/
def Dev.dropReflections (s : Dev) : Dev :=
  { s with cache.lines := s.cache.lines.filter (fun e => !e.2.refl) }

end Sys2Proof.Machine
end

