-- ==== Sys2Proof/Machine/Serve.lean ====
section
/-! DEFINITION. The facet and stack-side commands: snoop replies, acknowledgements, DRAM completions, parked parts,
scrubs, maintenance by set and way, shadow messages, channel failures and row retirement (chapters 04, 06, 07, 16,
17). -/

namespace Sys2Proof.Machine

/-- The rebuilt sub-block goes to the copy's place at device offset d: a data page's as reconstructed, a parity page's as the XOR
of the row's data, and the poison code word where a member is unreadable (R612, R613, R631). -/
def Dev.rebuildWrite (s : Dev) (e : Recon) (d : Nat) : Dev :=
  let r := combineAnswers (if s.isLost (paritySlice e.d s.setSize) then e.answers.map (fun a => { a with pending := none })
    else e.answers)
  let v := r.getD (0, true)
  (s.issueWrite (facetGroup d 0) d v.1 v.2 .background .rebuilt).2

/-- Ends a reconstruction whose every answer is there (R612, R613, R823). -/
def Dev.reconEnd (s : Dev) (e : Recon) : Dev :=
  let s1 := s.dropRecon e.id
  match e.why with
  | .parity op => s1.parityRecomputed op e.answers
  | _ =>
    let r := combineAnswers e.answers
    let s2 := match r with
      | none => s1.doubleFault e.grp e.d
      | some x =>
        let t := (s1.raise F.shdErr_RECON).bump F.shdCount_RECON
        if e.writeBack then (t.issueWrite e.grp e.d x.1 x.2 .demand .rebuilt).2 else t
    let v := r.bind (fun x => if x.2 then none else some x.1)
    match e.why with
    | .rebuild d => s2.rebuildWrite e d
    | .fill plr i => s2.fillArrive plr i v
    | .oldData wb => s2.wbOld wb (v.getD 0) v.isNone
    | _ => s2

/-! ### Going on -/

/-- The effect of an accepted set-and-way operation: 1 clean, 2 invalidate, 3 both. -/
def Dev.maintRun (s : Dev) (m : Maint) : Dev :=
  match s.line m.facet m.set m.way with
  | none => s
  | some l =>
    let ps := (List.range 4).map (fun i => s.linePlace m.facet m.way l i)
    let s1 := if m.op == 2 then
        let sh := l.dirtySubs
        let s' := s.delLine m.facet m.set m.way
        if l.shd && !sh.isEmpty then s'.releaseMirror l.grp l.d sh else s'
      else s.each (ps.filter (fun p => l.isDirty p.sub)) (fun s p => s.writeBackSub p false (.maint m.facet))
    if m.op == 3 then s1.delLine m.facet m.set m.way else s1

/-- Set-and-way operations that waited for a fill that is now done (R156). -/
def Dev.maintWake (s : Dev) : Dev :=
  s.each (s.cache.maint.filter (fun m => m.waitsFill && !(s.reserved m.facet m.set).contains m.way)) (fun s m =>
    ({ s with cache.maint := s.cache.maint.map (fun x => if x == m then { x with waitsFill := false } else x) }).maintRun m)

/-- The end of a death's handling at this slice: its walk is over and its last poison write done. FCT_DEATH is written and ALERT_N
asserted (R265, R273; log entry 98). -/
def Dev.deathOver (s : Dev) (d : Death) : Dev :=
  let agent := d.agent
  let mine := s.cache.deathCount.filter (fun e => e.1 == agent)
  let sum := mine.foldl (fun a e => a + e.2.2.1) 0
  let us := (d.last.getD s.now - d.start) / 1600
  let v := 2 ^ 63 + agent.toNat * 2 ^ 50 + d.cause.toNat * 2 ^ 48 + min us 65535 * 2 ^ 32 + min sum (2 ^ 32 - 1)
  { (s.setReg R.fctDeath v).alert alertFct with
    cache.deaths := s.cache.deaths.filter (fun x => x.agent != agent)
    cache.deathCount := s.cache.deathCount.filter (fun x => x.1 != agent) }

/-- Whether an open transaction concerns a dead agent still: it awaits its reply, or may leave it the owner (R262). -/
def Dev.deathOpen (s : Dev) (agent : Agent) : Bool :=
  s.cache.txns.any (fun t => t.place.kind == .own && (t.awaiting.contains agent ||
    (t.after.bind HomeState.owner) == some agent || (t.stage == .snoop && t.op.grants && t.src == agent)))

/-- The walk of a death is over, its open transactions with it: each facet that poisoned writes its record (R262, R265). -/
def Dev.deathRecords (s : Dev) (d : Death) : Dev :=
  let s1 := s.each (s.cache.deathCount.filter (fun e => e.1 == d.agent)) (fun s e =>
    s.errorRecord 0x06 e.2.1 e.2.2.2 (d.agent.toNat + d.cause.toNat * 64) e.2.2.1)
  { s1 with cache.deaths := s1.cache.deaths.map (fun (x : Death) => if x.agent == d.agent then { x with walk := 3 } else x) }

/-- Writes the records of the deaths whose walk is over, and ends those whose poison writes are done. -/
def Dev.deathsRun (s : Dev) : Dev :=
  let s1 := s.each (s.cache.deaths.filter (fun d => d.walk == 2 && !s.deathOpen d.agent)) Dev.deathRecords
  s1.each (s1.cache.deaths.filter (fun d => d.walk == 3 && !s1.cache.wbs.any (fun w => match w.why with
    | .poison a _ => a == d.agent
    | _ => false))) Dev.deathOver

/-- An ATOMIC or REDUCE_STORE on a Shade or tile-store sub-block (R186, R396, R402 to R406, R412). -/
def Dev.windowChord (s : Dev) (id : Nat) (e : ReqEntry) : Dev :=
  let sp := Space.code e.r.space
  (s.each (List.range e.n) (fun s0 i =>
    let b := e.r.offset + 64 * i
    let s := s0.windowCheck (Space.code e.r.space) b
    if s.phase == .eclipse then s else
    let f := s.windowFacet sp b
    let put := fun (s : Dev) (x : Sub) => s.windowWrite sp [(b, fullMask, x, false)]
    match s.windowRead sp b with
    | none => (s.raise F.crdErr_POISON_RES).answer id i .poison none
    | some old =>
      let inp := e.data.getD i 0
      if e.op == .atomic then
        let r := atomicApply e.r.arg inp old
        let s1 := ((s.chordFlags r.2.2).bump F.crdCount_ATOMICS).event evChord f (some e.r.hue)
        (match r.1 with
         | some v => put s1 v
         | none => s1).answer id i .ok (some r.2.1)
      else
        let r := reduceApply (argOp e.r.arg) old inp
        (put (((s.chordFlags r.2).bump F.crdCount_REDUCE_LINES).event evChord f (some e.r.hue)) r.1).answer id i .ok
          none)).flush id

/-- The pod-scope operations outside MEM that hold every POD_SYNC_DONE execute (R449). -/
def Dev.podOpsRun (s : Dev) : Dev :=
  let due := s.cache.podOps.filter (fun k => s.podOver k.2)
  ({ s with cache.podOps := s.cache.podOps.filter (fun k => !s.podOver k.2) }).each due (fun s k =>
    match s.req k.1 with
    | some e => s.windowChord k.1 e
    | none => s)

/-- Goes on with whatever the last event let go on: transactions that owe nothing more, reconstructions with every
answer, set-and-way operations, view requests, planned writes, conversions and fetches, slot claims and deaths. -/
def Dev.settle (s : Dev) : Dev :=
  let s0 := s.each (s.shadow.recons.filter (fun e => e.waiting.isEmpty)) Dev.reconEnd
  let s1 := ((s0.each s0.prism.typed (fun s q => s.typedRun q.id)).each s0.lens.jobs (fun s j => s.jobRun j.id)).conversionsRun.keepRun
  let s2 := s1.each (s1.cache.txns.filter (fun t => t.stage == .owed || t.stage == .pod)) (fun s t => s.advance t.id)
  let s3 := s2.maintWake.deathsRun.slotsRun.podOpsRun
  s3.each (s3.cache.maint.filter (fun m => !m.waitsFill &&
      !s3.cache.wbs.any (fun w => w.why == .maint m.facet))) (fun s m =>
    { s.put (F.fctMaintStatus_BUSY m.facet) 0 with cache.maint := s.cache.maint.filter (fun x => x != m) })

/-! ### Snoop replies and COMP_ACK (R220, R221, R605) -/

/-- The tag copies of the set that a mirrored sector's lookup reads (R134, R606). -/
def Dev.mirrorTags (s : Dev) (grp sector : Nat) : Dev := s.readTags (s.fuse.owner grp) (s.placeAt grp sector true).set

/-- A snoop reply for a transaction of this slice. -/
def Dev.snoopReply (s : Dev) (r : SnoopReply) (data : Option Sub) : Dev :=
  match s.cache.txns.find? (fun t => t.id % 4096 == r.txid.toNat && t.awaiting.contains r.src) with
  | none => s
  | some t =>
    let rep : Reply := { agent := r.src, final := r.final, data := data, notPresent := r.notPresent }
    (s.updTxn t.id (fun t => { t with awaiting := t.awaiting.erase r.src, replies := t.replies ++ [rep] })).advance t.id

/-- SNP_REPLY and SNP_DATA: a reply to this slice's own snoop, or, at the buddy, one to be mirrored and passed on to the
home (R605). -/
def Dev.snoopArrive (s : Dev) (r : SnoopReply) (data : Option Sub) : Dev :=
  if !s.active || s.discards r.src.toNat then s
  else if r.home.toNat == s.pos then (s.snoopReply r data).settle
  else
    let s1 := match data with
      | some x =>
        let s0 := s.mirrorTags r.fgroup.toNat r.sector.toNat
        (s0.mirrorStore r.fgroup.toNat r.sector.toNat (BitVec.ofNat 4 (2 ^ r.subIndex.toNat)) [x] none).getD s0
      | none => s
    s1.send (.forwardReply r.home r data)

/-- COMP_ACK (R221, R241). -/
def Dev.compAck (s : Dev) (src : Agent) (txid : BitVec 12) : Dev :=
  if !s.active || s.discards src.toNat then s
  else match s.cache.txns.find? (fun t => (t.stage == .ack || t.ackDue) && t.src == src && t.ackTxid == txid) with
    | none => s
    | some t =>
      if t.stage == .ack then (s.dropTxn t.id).settle else (s.updTxn t.id (fun t => { t with ackDue := false })).settle

/-! ### DRAM completions (R549, R560 to R567, R571, R572) -/

/-- A sub-block of a DRAM read reaches the one who asked: data, or none for poison. -/
def Dev.deliver (s : Dev) (r : DramRead) (i : Nat) (v : Option Sub) : Dev :=
  match r.why with
  | .fill plr => s.fillArrive plr i v
  | .rmw t => s.rmwRead t v
  | .oldData wb => s.wbOld wb (v.getD 0) v.isNone
  | .parity op => s.parityOld op (v.getD 0) v.isNone
  | .recon dst txid u => s.reconAnswer dst txid (r.sector + 64 * i) true u
  | .scrub => s

/-- A valid copy that the facet holds of a sub-block of an unshadowed chunk, whose tags and data are checked as they are read (R133,
R134, R571). -/
def Dev.facetCopy (s : Dev) (grp d : Nat) : Dev × Option Sub :=
  let p := s.placeAt grp d false
  let s1 := s.readTags p.facet p.set
  let s2 := if s1.phase == .eclipse then s1 else s1.readCheck p
  (s2, s2.cached p)

/-- A sub-block whose channel has failed, or whose read and retry failed (R563, R571, R581, R611, R823). A scrub's write is
dropped where another has come since its read (R572). -/
def Dev.readFailed (s : Dev) (r : DramRead) (i : Nat) (addr : Bool) : Dev :=
  let d := r.sector + 64 * i
  let s1 := if r.dead then s else s.failedRead r.grp d addr
  match r.why with
  | .recon dst txid u => s1.reconAnswer dst txid d false u
  | .parity op => s1.parityLost op
  | .oldData wb => s1.startRecon s.pos r.grp d false (.oldData wb)
  | .rmw t =>
    (if r.dead then s1 else s1.poisonWrite r.grp d).rmwRead t none
  | .fill plr =>
    if r.shadowed then s1.startRecon s.pos r.grp d (!r.dead) (.fill plr i)
    else (if r.dead then s1 else s1.poisonWrite r.grp d).fillArrive plr i none
  | .scrub =>
    if r.dead then s1
    else if r.shadowed then
      if paritySlice d s.setSize == s.pos then (if bitAt r.stale.toNat i then s1 else s1.parityRepair d)
      else s1.startRecon s.pos r.grp d true .scrub
    else if bitAt r.stale.toNat i then s1
    else
      let c := s1.facetCopy r.grp d
      match c.2 with
      | some x => (c.1.issueWrite r.grp d x false .demand .correct).2
      | none => c.1.poisonWrite r.grp d

/-- One sub-block of a DRAM read that completes (R560 to R564): errs are the symbols read wrong. -/
def Dev.readSub (s : Dev) (r : DramRead) (i : Nat) (errs : List SymErr) : Dev :=
  let d := r.sector + 64 * i
  let stored := Sector.sub r.words i
  let bad := bitAt r.poison.toNat i
  if r.dead then s.readFailed r i false
  else
    let fresh := !bitAt r.stale.toNat i
    let out := decodeRead stored bad errs
    match out.1 with
    | .ok =>
      let s1 := if r.retry then (s.corrected r.grp d).stkErr F.stkErr_RETRY else s
      s1.deliver r i (some out.2)
    | .corrected =>
      let s1 := if r.retry then (s.corrected r.grp d).stkErr F.stkErr_RETRY else s.corrected r.grp d
      let s2 := if fresh then (s1.issueWrite r.grp d out.2 false .demand .correct).2 else s1
      s2.deliver r i (some out.2)
    | .poison => s.deliver r i none
    | o =>
      if r.retry then s.readFailed r i (o == .address)
      else
        let w := s.dramWord d
        let e : DramRead :=
          { r with
            id := s.nextId
            subs := BitVec.ofNat 4 (2 ^ i)
            words := Sector.put r.words i w.1
            poison := BitVec.ofNat 4 (withBits r.poison.toNat i i (b2n w.2))
            stale := 0
            retry := true
            issued := true }
        { s with nextId := s.nextId + 1, stack.reads := s.stack.reads ++ [e] }

/-- Whether a transaction waits on a read's PLR for one of its sub-blocks. -/
def Dev.requested (s : Dev) (r : DramRead) (i : Nat) : Bool :=
  match r.why with
  | .fill plr => s.cache.plrs.any (fun x => x.id == plr && x.waiters.any (fun w => match w with
      | .txn id => (s.txn id).any (fun t => t.place.sub == i)
      | .part _ _ => false))
  | _ => false

/-- DRAM_READ_COMPLETE: the sub-blocks of a read that the arbiter has let go come back, the requested ones first, lowest first
among each (R123), with what
was read wrong of each; errs names them lowest first. -/
def Dev.dramReadDone (s : Dev) (id : Nat) (errs : List (List SymErr)) : Dev :=
  match s.stack.reads.find? (fun r => r.id == id && r.issued) with
  | none => s
  | some r =>
    let s1 := { s with stack.reads := s.stack.reads.filter (fun x => x.id != id) }
    let l := (onesOf 4 r.subs.toNat).zipIdx
    let order := l.filter (fun x => s.requested r x.1) ++ l.filter (fun x => !s.requested r x.1)
    (s1.each order (fun s x => s.readSub r x.1 (errs.getD x.2 []))).settle

/-- DRAM_WRITE_COMPLETE: a write that the arbiter has let go, the oldest of its sub-block, reaches the stack (R549); on a failed
channel nothing
is stored (R581). -/
def Dev.dramWriteDone (s : Dev) (id : Nat) : Dev :=
  match s.stack.writes.find? (fun w => w.id == id && w.issued) with
  | none => s
  | some w =>
    if (s.stack.writes.find? (fun x => x.d == w.d)) != some w then s
    else
      let s1 := if s.channelFailed (s.groupAt w.d) then
          { s with stack.writes := s.stack.writes.filter (fun x => x.id != id) }
        else s.commitWrite w
      (match w.why with
       | .wb i => s1.wbWritten i
       | .parity op => s1.parityDone op
       | _ => s1).settle

/-! ### Parked parts, tickets and held waiters (R139, R142, R243, R252, R255) -/

/-- Whether a ticket's bound instance has room beyond its standing reservations (R250, R252). -/
def Dev.ticketRoom (s : Dev) (t : Ticket) : Bool :=
  let f := t.facet
  let own := some t.ticket
  let set := setIndex t.d
  match t.bound with
  | .plr => (s.plrsOf f).length + s.rsv f own .plr t.d < 16
  | .waiter =>
    match s.cache.plrs.find? (fun x => x.place.facet == f && x.place.d / 256 == t.d / 256) with
    | some x => (s.waitingParts x).length + s.rsv f own .waiter t.d < 4 || s.poolUsed + s.rsvPool f own < 2048
    | none => true
  | .victim =>
    let free := (s.waysOf f clsOrdinary).filter (fun w => !(s.reserved f set).contains w)
    s.rsv f own .victim t.d < free.length
  | .directory => s.rsv f own .directory t.d < (s.dirFrees f (dirSet t.d)).length
  | .writeBack => s.wbEntries f + s.rsv f own .writeBack t.d < 8
  | .engine => (s.stack.rmw.filter (fun r => r.facet == f)).length + s.rsv f own .engine t.d < 8
  | .blockReset => true
  | .data => true
  | .order => true

/-- The earliest unreserved ticket of a facet whose instance has room (R251, R252). -/
def Dev.nextTicket (s : Dev) (f : Nat) (ok : Ticket → Bool) : Option Ticket :=
  ((s.ticketsOf f).filter (fun t => !t.reserved && ok t && s.ticketRoom t)).foldl (fun b t =>
    match b with
    | none => some t
    | some x => if earlier t.ticket x.ticket then some t else some x) none

/-- Whether a block reset waits for a facet to go idle (R747). -/
def Dev.facetDraining (s : Dev) (f : Nat) : Bool := s.mgmt.blockRun.any (fun b => b.code.toNat == f)

/-- The directory sets of a facet that parked parts and tickets wait for, each with such a part. -/
def Dev.dirWaits (s : Dev) (f : Nat) : List (Nat × Nat × Nat) :=
  s.cache.parked.filterMap (fun k => if k.facet == f && k.bound == .directory then
    ((s.req k.reqId).filter (fun e => s.needsEntry e.runOp (s.placeOf e k.index) e.ticket)).map (fun e =>
      (k.reqId, k.index, dirSet (s.placeOf e k.index).d)) else none) ++
  ((s.ticketsOf f).filter (fun t => t.bound == .directory)).map (fun t => (0, 0, dirSet t.d))

/-- PARKED_PART_RESUME: a resource of a facet has freed. Its waiting transactions go on, a directory set that parts wait for
recalls a victim that is no longer held, then the earliest ticket whose instance has room gets RETRY, and else the oldest
parked part that meets no bound starts (R139, R142, R214, R252). -/
def Dev.parkedResume (s : Dev) (f : Nat) : Dev :=
  let s0 := s.each (s.cache.txns.filter (fun t => t.place.facet == f && s.blocked t)) (fun s t => s.advance t.id)
  let s1 := s0.each (s0.dirWaits f) (fun s k => s.recallFor k.1 k.2.1 f k.2.2)
  match s1.nextTicket f (fun _ => true) with
  | some t => (s1.retry t).settle
  | none =>
    match s1.pickList.find? (fun k => k.facet == f && !(k.bound == .blockReset && s1.facetDraining f) &&
      match s1.req k.reqId with
        | some e => s1.partReady e k.index
        | none => true) with
    | some k =>
      (match s1.req k.reqId with
       | some _ => s1.anyPart k.reqId k.index
       | none => s1.unpark k.reqId k.index).settle
    | none => s1.settle

/-- TICKET_HOLD_EXPIRY: a reserved ticket lapses and its reservation passes on (R255). -/
def Dev.ticketLapse (s : Dev) (f : Nat) (tk : BitVec 16) : Dev :=
  match s.ticket f tk with
  | none => s
  | some t =>
    if !t.reserved then s
    else
      let s1 := (s.dropTicket f tk).bump (F.fctTicket_LAPSED f)
      match s1.nextTicket f (fun x => x.sameInstance t) with
      | some n => s1.retry n
      | none => s1

/-- HELD_WAITER_REENTER: the first waiter of a granule whose hold has ended re-enters (R243, R244). -/
def Dev.heldReenter (s : Dev) (f d : Nat) : Dev :=
  let want := fun (w : Waiter) => match w with
    | .part id i =>
      match s.req id with
      | some e => let p := s.placeOf e i; p.facet == f && p.d == d / 64 * 64 && !s.held p && !s.reentered p
      | none => true
    | .txn _ => false
  match s.cache.plrs.find? (fun x => x.place.facet == f && x.fetching == 0 && x.waiters.any want) with
  | none => s
  | some x =>
    match x.waiters.find? want with
    | none => s
    | some w => (((s.serveWaiter x w)).freePlr x.id).settle

/-! ### Scrubs and recalls (R135, R213, R214) -/

/-- TAG_SCRUB: the facet checks every tag entry of its next set; upsets names the ways of it whose copies have been upset (R134,
R135). -/
def Dev.tagScrubRun (s : Dev) (f : Nat) (ups : List (BitVec 4 × BitVec 48 × BitVec 48)) : Dev :=
  if s.fuse.dead f || !s.active then s
  else
    let set := tgetD s.cache.tagScrub f 0
    let s1 := { s with cache.tagScrub := tput 0 s.cache.tagScrub f ((set + 1) % 2048) }
    (s1.inject { tags := ups.map (fun u => (BitVec.ofNat 6 f, BitVec.ofNat 11 set, u)) }).readTags f set

/-- DIR_SCRUB: the facet checks every entry of its next directory set (R213). -/
def Dev.dirScrubRun (s : Dev) (f : Nat) (ups : List (BitVec 4 × BitVec 50 × BitVec 50)) : Dev :=
  if s.fuse.dead f || !s.active then s
  else
    let set := tgetD s.cache.dirScrub f 0
    let s1 := { s with cache.dirScrub := tput 0 s.cache.dirScrub f ((set + 1) % 4096) }
    (s1.inject { dirs := ups.map (fun u => (BitVec.ofNat 6 f, BitVec.ofNat 12 set, u)) }).readDirs f set

/-- The way that a recall has freed goes to the earliest that waits for one: RETRY for a ticket, or the start of the oldest
parked part of its set that meets no other bound (R214, R252). -/
def Dev.dirFreed (s : Dev) (f set : Nat) : Dev :=
  match s.nextTicket f (fun t => t.bound == .directory && dirSet t.d == set) with
  | some t => s.retry t
  | none =>
    match s.pickList.find? (fun k => k.facet == f && k.bound == .directory && (s.req k.reqId).any (fun e =>
        dirSet (s.placeOf e k.index).d == set && s.partReady e k.index)) with
    | some k => s.anyPart k.reqId k.index
    | none => s

/-- DIR_RECALL_COMPLETE: the victim's entry frees, for the part that the recall was for (R214). -/
def Dev.recallDone (s : Dev) (txn : Nat) : Dev :=
  match s.txn txn with
  | none => s
  | some t =>
    if t.stage == .done then
      (((s.setHome t.place none none).dropTxn txn).dirFreed t.place.facet (dirSet t.place.d)).settle
    else s

/-! ### Maintenance by set and way (R153 to R156, R168, R169) -/

/-- A write of FCT_MAINT_SW (R155, R156, R168, R169). -/
def Dev.maintSw (s00 : Dev) (f op set way : Nat) : Dev :=
  if s00.fuse.dead f then s00
  else if s00.wayClass f way != clsOrdinary || s00.on (F.fctMaintStatus_BUSY f) then s00.raise (F.fctMaintStatus_REFUSED f)
  else
    let s := s00.readTags f set
    let s1 := s.put (F.fctMaintStatus_REFUSED f) 0
    if s.phase == .eclipse then s
    else if op == 0 then s1
    else
      let waits := (s.reserved f set).contains way
      let m : Maint := { facet := f, op := op, set := set, way := way, waitsFill := waits }
      let s2 := { s1.raise (F.fctMaintStatus_BUSY f) with cache.maint := s1.cache.maint ++ [m] }
      if waits then s2 else (s2.maintRun m).settle

/-! ### Shadow messages (R601 to R614) -/

/-- MIRROR_PUT at the buddy, with its data (R604, R606, R608). With no way to take it, it waits unanswered. pulled: its PULL has
been
sent. -/
def Dev.mirrorPutIn (s : Dev) (sender : Pos) (txid : BitVec 12) (sector : Nat) (subs : BitVec 4) (grp : Nat)
    (data : List Sub) (record : Option AtomicRecord) (pulled : Bool) : Dev :=
  let s0 := s.mirrorTags grp sector
  match if s0.phase == .eclipse then none else s0.mirrorStore grp sector subs data record with
  | none => s0
  | some s1 => (if pulled then s1 else s1.send (.pull (sliceAgent sender.toNat) txid)).send
      (.comp sender.toNat txid (List.replicate (popCount 4 subs.toNat) .ok))

/-- MIRROR_RELEASE at the buddy (R134, R609). -/
def Dev.mirrorReleaseIn (s : Dev) (grp sector : Nat) (subs : BitVec 4) : Dev :=
  let s1 := s.mirrorTags grp sector
  if s1.phase == .eclipse then s1 else s1.mirrorFree grp sector subs

/-- RECON_READ: the sub-block is read and answered (R612); one that serves an urgent request is read as urgent demand and its answer
is urgent (R481). -/
def Dev.reconRead (s : Dev) (sender : Pos) (txid : BitVec 12) (d : Nat) (urgent : Bool) : Dev :=
  let grp := s.groupAt d
  (s.issueRead grp (d / 256 * 256) (BitVec.ofNat 4 (2 ^ ((d / 64) % 4))) true (if urgent then .urgent else .demand)
    (.recon sender.toNat txid urgent)).2

/-- READ_DATA on VC2: an answer to RECON_READ, to a side read, or to a slot claim (R466, R612, R828). -/
def Dev.readDataIn (s : Dev) (a : ReconAnswer) : Dev :=
  let t := a.txid.toNat
  if s.isClaim t then
    (s.typedSlot t (if a.readable then some (bitsOf a.data.toNat 2 0) else none)).settle
  else match s.shadow.recons.find? (fun e => e.id % 4096 == t && e.waiting.contains a.sender.toNat) with
    | some e =>
      ({ s with shadow.recons := s.shadow.recons.map (fun (x : Recon) =>
        if x.id == e.id then { x with waiting := x.waiting.erase a.sender.toNat, answers := x.answers ++ [a] } else x) }).settle
    | none => (s.typedData t (if a.readable && !a.poison then some a.data else none)).settle

/-- COMP from another slice: of a mirror put, a delta, a side write or a slot release (R598, R604, R601). -/
def Dev.compIn (s : Dev) (sender : Nat) (txid : Nat) (code : Code) : Dev :=
  match s.shadow.puts.find? (fun u => u.txid % 4096 == txid && sender == s.buddy) with
  | some u =>
    let s1 := { s with shadow.puts := s.shadow.puts.filter (fun x => x.txid != u.txid) }
    ((s1.releaseMirror u.grp u.sector (onesOf 4 u.subs.toNat)).advance u.txn).settle
  | none =>
    if s.shadow.deltaOut.any (fun e => e.1 % 4096 == txid) then (s.deltaComp sender txid).settle
    else if s.isClaim txid then (s.typedSlot txid none).settle
    else (s.typedStored txid code).settle

/-- PULL: the data of this slice's mirror put or delta goes out (R468, R601). -/
def Dev.pullIn (s : Dev) (sender txid : Nat) : Dev :=
  match s.shadow.puts.find? (fun u => u.txid % 4096 == txid && sender == s.buddy) with
  | some u => s.send (.writeData sender (BitVec.ofNat 12 txid) 0 (u.data.map (fun _ => .ok)) u.data u.record)
  | none =>
    match s.shadow.deltaOut.find? (fun e => e.1 % 4096 == txid) with
    | some e =>
      match s.wb e.2.1 with
      | some w => s.send (.writeData sender (BitVec.ofNat 12 txid) 0 [if s.deltaPoison w then .poison else .ok] [s.deltaData w] none)
      | none => s
    | none => s

/-! ### Row retirement (R576, R577) -/

/-- RETIREMENT_COPY_DONE: the oldest row copy that has made its accesses switches to its spare; bad names the columns whose read
and retry failed, each counted as R563 says (R577). -/
def Dev.copyDone (s : Dev) (bad : List (BitVec 7)) : Dev :=
  match s.stack.copies.find? (fun c => 256 ≤ c.moved) with
  | none => s
  | some c =>
    let row := c.rowAddr.toNat
    let s0 := { s with stack.copies := s.stack.copies.erase c }
    let s1 := s0.each bad (fun s b =>
      let d := s.deviceOf row b.toNat
      let grp := bitsOf row 31 31 * 32 + bitsOf row 30 26
      let s1 := s.failedRead grp d false
      if s1.shadowedChunk (d / 0x200000) then s1.startRecon s1.pos grp d true .scrub else s1.poisonWrite grp d)
    let m : Remap := { stack := bitsOf row 31 31, channel := bitsOf row 30 26, pc := bitsOf row 25 25,
                       bank := bitsOf row 24 19, row := bitsOf row 18 7, spare := c.spare }
    let s2 := ({ s1 with stack.remaps := m :: s1.stack.remaps }).bump F.stkRows_RETIRED
    let s3 := s2.stkErr F.stkErr_ROW_RETIRED
    match s3.rowFind row with
    | some i => s3.setRowEntry i (2 * 2 ^ 62 + c.spare * 2 ^ 60 + row)
    | none => s3

end Sys2Proof.Machine
end

