-- ==== Sys2Proof/Machine/Death.lean ====
section
/-! DEFINITION. Dead agents: suspicion, the agreement over CTL, fencing, the directory walk, and poisoning (R259 to
R268). -/

namespace Sys2Proof.Machine

/-- Sends a CTL message to every live slice, this one included, whose copy comes back as its own command. -/
def Dev.ctlAll (s : Dev) (m : Ctl) : Dev := s.each s.livePositions (fun s p => s.send (.ctl p m))

/-- Sends a CTL message to every other live slice. -/
def Dev.ctlOthers (s : Dev) (m : Ctl) : Dev :=
  s.each (s.livePositions.filter (fun p => p != s.pos)) (fun s p => s.send (.ctl p m))

/-- Declares an agent suspect to the leader, with a cause coded as FCT_DEATH.CAUSE (R259, R260); start: when its detection
began (R273). -/
def Dev.suspect (s : Dev) (agent : Agent) (cause : BitVec 2) (start : Nat) : Dev :=
  if s.fenced agent.toNat then s
  else
    let s1 := if s.cache.suspected.any (fun e => e.1 == agent) then s
      else { s with cache.suspected := s.cache.suspected ++ [(agent, start)] }
    s1.send (.ctl s.leader (.agentSuspect agent cause))

/-- SNOOP_TIMEOUT: an awaited snoop reply or COMP_ACK has not come within the timeout (R259). -/
def Dev.snoopTimeout (s : Dev) (txn : Nat) (agent : Agent) : Dev :=
  match s.txn txn with
  | none => s
  | some t =>
    let ack := (t.stage == .ack || t.ackDue) && t.src == agent
    if s.active && !t.suspect.contains agent && (ack || t.awaiting.contains agent) then
      (s.updTxn txn (fun t => { t with suspect := t.suspect ++ [agent] })).suspect agent (if ack then 1 else 0) t.since
    else s

/-- The positions whose ports name an agent, lowest first (R513, R514). -/
def Dev.agentAt (s : Dev) (a : Nat) : List Nat :=
  (List.range s.setCount).filter (fun q => (List.range 6).any (fun k =>
    (cfgAgents (portRecord s.img.force.topology q k)).contains a))

/-- Whether every port of an agent is lost: its slice is, or has reported the loss of the port (R513; log entry 118). -/
def Dev.portless (s : Dev) (agent : Agent) : Bool :=
  (s.agentAt agent.toNat).all (fun q => s.isLost q || s.cache.portsLost.contains (agent, q))

/-- The leader declares the agents dead that are left without a port (R260, R513). -/
def Dev.portDeaths (s : Dev) : Dev :=
  let gone := ((s.cache.portsLost.map Prod.fst).eraseDups).filter s.portless
  ({ s with cache.portsLost := s.cache.portsLost.filter (fun e => !gone.contains e.1) }).each gone
    (fun s a => s.ctlAll (.agentDead a 2))

/-- AGENT_SUSPECT at the leader (R260): for the loss of a port the agent is dead once its last port is lost (R513); a repeated one
sends AGENT_DEAD again (log entry 119). -/
def Dev.agentSuspectIn (s : Dev) (sender : Nat) (agent : Agent) (cause : BitVec 2) : Dev :=
  if !s.active || !s.isLeader || s.deaf sender then s
  else if cause != 2 then s.ctlAll (.agentDead agent cause)
  else { s with cache.portsLost := s.cache.portsLost.filter (fun e => e != (agent, sender)) ++ [(agent, sender)] }.portDeaths

/-- A dead agent's forwarded requests are no longer recorded, and its urgent ones end with it (R261, R497). -/
def Dev.forgetPorts (s : Dev) (agent : Agent) : Dev :=
  let mine := s.shadow.ports.filter (fun p => p.r.src == agent)
  ({ s with shadow.ports := s.shadow.ports.filter (fun p => p.r.src != agent) }).each mine (fun s p => s.urgentDone p.r)

/-- AGENT_DEAD: the slice fences the agent and answers FENCED to the leader (R260, R261). Where it did not declare the
agent suspect itself, detection starts here (log entry 129). -/
def Dev.agentDeadIn (s : Dev) (agent : Agent) (cause : BitVec 2) : Dev :=
  if !s.active || 48 ≤ agent.toNat then s
  else
    let s1 := s.put F.fctFence_MASK (s.get F.fctFence_MASK ||| 2 ^ agent.toNat)
    let mine := (s1.cache.reqs.filter (fun e => e.r.src == agent)).map (fun e => e.id)
    let start := ((s1.cache.suspected.find? (fun e => e.1 == agent)).map Prod.snd).getD s1.now
    let gone := fun (w : Waiter) => match w with
      | .part id _ => mine.contains id
      | .txn _ => false
    let s2 := { s1 with
      cache.parked := s1.cache.parked.filter (fun k => !mine.contains k.reqId)
      cache.tickets := s1.cache.tickets.filter (fun t => t.agent != agent)
      cache.plrs := (s1.cache.plrs.map (fun (x : Plr) => { x with waiters := x.waiters.filter (fun w => !gone w) })).filter
        (fun x => !(x.waiters.isEmpty && x.fetching == 0))
      cache.suspected := s1.cache.suspected.filter (fun e => e.1 != agent)
      cache.deaths := s1.cache.deaths.filter (fun (d : Death) => d.agent != agent) ++
        [({ agent := agent, cause := cause, start := start, walk := 0, last := none } : Death)] }
    let s3 := s2.each mine (fun s id =>
      let open_ := (s.granules id).map Prod.fst
      match s.req id with
      | some e =>
        let past := fun (i : Nat) => if e.viewed then open_.any (fun k => e.partOf k == e.answerPart i) else open_.contains i
        (s.each ((List.range e.n).filter (fun i => e.owes i && !past i)) (fun s i => s.answer id i .poison none)).flush id
      | none => s)
    (s3.forgetPorts agent).send (.ctl s.leader (.fenced agent))

/-- FENCED at the leader: with every live slice's it sends RECLAIM (R260). -/
def Dev.fencedIn (s : Dev) (sender : Nat) (agent : Agent) : Dev :=
  if !s.active || !s.isLeader || s.deaf sender then s
  else
    let have_ := if s.cache.fencedBy.contains (agent, sender) then s.cache.fencedBy
      else s.cache.fencedBy ++ [(agent, sender)]
    let s1 := { s with cache.fencedBy := have_ }
    if s.livePositions.all (fun p => have_.contains (agent, p)) then
      { s1.ctlAll (.reclaim agent) with cache.fencedBy := have_.filter (fun e => e.1 != agent) }
    else s1

/-- Data that a transaction has from a dead agent stays dirty at the home, whose entry no longer names the agent (R226, R263): a
reply not yet decided on becomes one that invalidated it; after the decision, data that left the agent the owner is placed. -/
def Dev.keepReply (s : Dev) (t : Txn) (agent : Agent) (data : Sub) : Dev :=
  if t.stage == .snoop then
    s.updTxn t.id (fun t => { t with replies := t.replies.map (fun (r : Reply) => if r.agent == agent then { r with final := 0 } else r) })
  else if t.place.adopted || (t.after.bind HomeState.owner) != some agent then s
  else
    let t1 := { t with after := withoutAgent agent t.after }
    let s1 := (s.setHome t.place (withoutAgent agent (s.home t.place)) none).updTxn t.id (fun _ => t1)
    match s1.placeDirty t.place (s1.supplierClass t1) false data with
    | .ok s2 => s2.afterDirty t1 data none
    | .error _ => s1.updTxn t.id (fun _ => { t1 with
        stage := .store, dirtyIn := some data, answered := t.stage == .ack || t.stage == .leave || t.answered
        ackDue := t.stage == .ack })

/-- A transaction open when the walk meets its entry (R262). -/
def Dev.deadTxn (s : Dev) (id : Nat) (agent : Agent) : Dev :=
  match s.txn id with
  | none => s
  | some t =>
    if t.stage == .ack && t.src == agent then s.dropTxn id
    else if t.awaiting.contains agent then
      let t1 := { t with awaiting := t.awaiting.erase agent }
      let owner := !t.place.adopted && (t.before.bind HomeState.owner) == some agent
      if owner && t.stage == .snoop then (s.updTxn id (fun _ => t1)).deadOwner t1 agent
      else
        let np : Reply := { agent := agent, final := 0, data := none, notPresent := true }
        let t2 := { t1 with replies := t1.replies ++ [np] }
        (s.updTxn id (fun _ => t2)).advance id
    else match (t.replies.find? (fun r => r.agent == agent)).bind (fun r => r.data) with
      | some x => s.keepReply t agent x
      | none => s

/-- Poisons the granule of an entry that the dead agent owned, with SNP_INV to its sharers; the granule stays held until
the write and every reply are in (R262, R263). An open transaction on it poisons it at its own end; one that only waits for its
response to leave poisons it at once. -/
def Dev.deadEntry (s : Dev) (e : DirEntry) (agent : Agent) : Dev :=
  let p := s.dirPlace e
  match s.cache.txns.find? (fun t => t.place.same p && !t.isSide) with
  | some t =>
    if t.stage == .leave then
      let t1 := { t with answered := true }
      let s1 := (s.updTxn t.id (fun _ => t1)).poisonOwner t1 (some e.st) agent
      match s1.txn t.id with
      | some t2 => s1.txnOwed t2
      | none => s1
    else s
  | none =>
    let id := s.nextId
    let t : Txn :=
      { id := id, cause := .death agent, op := .invalidate, src := sliceAgent s.pos, place := p, stage := .owed,
        before := some e.st, after := none, awaiting := [], replies := [], held := none,
        dirtyIn := none, grant := 0, code := .ok, podWait := [], answered := true, cls := 0, aged := false,
        strict := false, prefetch := false, filled := false, dirWay := none, since := s.now, suspect := [], ackTxid := 0
        broadcast := false, ackDue := false }
    let s1 := ({ s with nextId := id + 1, cache.txns := s.cache.txns ++ [t] }).poisonOwner t (some e.st) agent
    match s1.txn id with
    | some t1 => s1.txnOwed t1
    | none => s1

/-- One directory entry in the walk, whose copies are read and checked (R211, R262). -/
def Dev.walkEntry (s : Dev) (e : DirEntry) (agent : Agent) : Dev :=
  match e.st with
  | .shared p => if p.contains agent then s.setHome (s.dirPlace e) (withoutAgent agent (some e.st)) none else s
  | .flare => s
  | .excl o => if o == agent then s.deadEntry e agent else s
  | .owned o p =>
    if o == agent then s.deadEntry e agent
    else if p.contains agent then s.setHome (s.dirPlace e) (withoutAgent agent (some e.st)) none else s
  | .ownedFlare o => if o == agent then s.deadEntry e agent else s

/-- The reads of every directory entry that a walk makes: each upset one is checked (R211, R212). -/
def Dev.walkReads (s : Dev) : Dev :=
  s.each (s.cache.dirUpset.map Prod.fst) (fun s k =>
    if s.phase == .eclipse then s else s.checkDirAt (k / 65536) (k / 16 % 4096) (k % 16))

/-- RECLAIM: every home facet walks its directory (R260, R262). -/
def Dev.reclaimIn (s0 : Dev) (agent : Agent) : Dev :=
  if !s0.active || !s0.fenced agent.toNat then s0
  else
    let s := s0.walkReads
    if s.phase == .eclipse then s
    else
      let s1 := s.each (s.cache.txns.map (fun t => t.id)) (fun s id => s.deadTxn id agent)
      let s2 := s1.each (s1.cache.dir.map Prod.snd) (fun s e => s.walkEntry e agent)
      ({ s2 with cache.deaths := s2.cache.deaths.map (fun (d : Death) =>
        if d.agent == agent then { d with walk := max 1 d.walk } else d) }).settle

/-- DEATH_WALK_END: each facet that poisoned writes its record once the open transactions that the walk met have ended (R262, R265);
FCT_DEATH and ALERT_N follow with the last poison write (R273; log entry 98). -/
def Dev.deathEnd (s : Dev) (agent : Agent) : Dev :=
  ({ s with cache.deaths := s.cache.deaths.map (fun (x : Death) =>
    if x.agent == agent then { x with walk := max 2 x.walk, last := x.last.or (some s.now) } else x) }).deathsRun

end Sys2Proof.Machine
end

