-- ==== Sys2Proof/Machine/Failover.lean ====
section
/-! DEFINITION. Lost slices and lost links: routes, the continuing component, HOME_MOVED, adoption and rebuild
(R512, R527 to R531, R616 to R632). -/

namespace Sys2Proof.Machine

/-! ### The grid (R20, R507) -/

/-- Whether two positions are grid neighbours. -/
def gridNext (p q : Nat) : Bool := q == p ^^^ 1 || q == p + 2 || p == q + 2

/-- Index of the link joining two grid neighbours, and its ends. -/
def linkIndex (p q : Nat) : Nat := if q == p ^^^ 1 then p / 2 else 4 + min p q
def linkEnds (i : Nat) : Nat × Nat := if i < 4 then (2 * i, 2 * i + 1) else (i - 4, i - 2)

/-- The other positions of the set that are not held lost. -/
def Dev.others (s : Dev) : List Nat := (List.range s.setCount).filter (fun p => p != s.pos && !s.isLost p)

/-- Sends a CTL message to every other slice of the set. -/
def Dev.ctlSet (s : Dev) (m : Ctl) : Dev := s.each s.others (fun s p => s.send (.ctl p m))

/-! ### Routes (R512, R530) -/

/-- The next position on the normal route from p to d (R512). -/
def normalHop (p d : Nat) : Nat := if p / 2 < d / 2 then p + 2 else if d / 2 < p / 2 then p - 2 else p ^^^ 1

/-- Grid neighbours of p in a set of n over links that are not lost. -/
def liveNext (n lost p : Nat) : List Nat :=
  (List.range n).filter (fun q => gridNext p q && !bitAt lost (linkIndex p q))

/-- Positions within k hops of the given ones. -/
def reachFrom (n lost : Nat) : Nat → List Nat → List Nat
  | 0, l => l
  | k + 1, l => reachFrom n lost k ((List.range n).filter (fun q => l.contains q || l.any (fun p => (liveNext n lost p).contains q)))

/-- Hops from r to q, 8 where it is not reached. -/
def hopCount (n lost r q : Nat) : Nat := ((List.range 8).find? (fun k => (reachFrom n lost k [r]).contains q)).getD 8

/-- Whether the step from a to b climbs (R530). -/
def climbs (n lost r a b : Nat) : Bool :=
  let la := hopCount n lost r a
  let lb := hopCount n lost r b
  lb < la || (lb == la && b < a)

/-- Hops of the shortest path from a to d that never climbs after it has gone down. -/
def upDown (n lost r : Nat) : Nat → Nat → Bool → Nat → Option Nat
  | 0, a, _, d => if a == d then some 0 else none
  | k + 1, a, down, d =>
    if a == d then some 0
    else
      ((liveNext n lost a).filterMap (fun b =>
        let up := climbs n lost r a b
        if up && down then none else (upDown n lost r k b (down || !up) d).map (· + 1))).foldl (fun (m : Option Nat) x =>
          match m with
          | none => some x
          | some y => some (min x y)) none

/-- The first hop of the computed route from p to d (R530). -/
def computedHop (n lost r p d : Nat) : Option Nat :=
  let steps := (liveNext n lost p).filterMap (fun b =>
    (upDown n lost r 7 b (!climbs n lost r p b) d).map (fun k => (k, b)))
  (steps.foldl (fun (m : Option (Nat × Nat)) x =>
    match m with
    | none => some x
    | some y => if x.1 < y.1 || (x.1 == y.1 && x.2 < y.2) then some x else some y) none).map Prod.snd

/-- The PWK_ROUTE value that a next-hop function gives this slice (R537). -/
def Dev.routesBy (s : Dev) (hop : Nat → Option Nat) : Nat :=
  ((List.range s.setCount).filter (fun d => d != s.pos)).foldl (fun w d =>
    match (hop d).bind s.linkPort with
    | some k => w + (8 + k) * 2 ^ (4 * d)
    | none => w) 0

/-- Fills PWK_ROUTE when discovery is STABLE (R512). -/
def Dev.normalRoutes (s : Dev) : Dev := s.put F.pwkRoute_ROUTES (s.routesBy (fun d => some (normalHop s.pos d)))

/-! ### Losing a slice (R617 to R619, R628) -/

/-- The boundary named when it must lie at least GO_LEAD SCLK cycles away (R52). -/
def Dev.namedBoundary (s : Dev) : Nat :=
  s.frameNo + (if s.frm.counter + goLead s.setCount ≤ s.frameLen then 1 else 2)

/-- The buddy is lost: its puts end, and every dirty shadowed sub-block is written back, the transactions that awaited a
put awaiting that write-back instead (R628). -/
def Dev.loseBuddy (s : Dev) : Dev :=
  let puts := s.shadow.puts
  let s1 := (({ s with shadow.puts := [], shadow.order := [] }).put F.shdStatus_WRITE_THROUGH 1)
  let s2 := s1.each puts (fun s u =>
    s.each (onesOf 4 u.subs.toNat) (fun s i =>
      let p := s.placeAt u.grp (u.sector + 64 * i) true
      if s.dirtyAt p then s.writeBackSub p false (if (s.txn u.txn).isSome then .txn u.txn else .lostBuddy) else s))
  s2.each s2.cache.lines (fun s e =>
    let f := e.1 / 16 / 2048
    let w := e.1 % 16
    if e.2.refl || s.wayClass f w != clsOrdinary then s
    else s.each e.2.dirtySubs (fun s i =>
      let p := s.linePlace f w e.2 i
      let open_ := s.cache.wbs.any (fun x => x.grp == p.grp && x.d == p.d && !x.adopted)
      if p.shadowed && s.dirtyAt p && !open_ then s.writeBackSub p false .lostBuddy else s))

/-- Work that waited for a lost slice goes on without it: reconstructions fail, and write-backs whose parity lay there
end (R613, R628). -/
def Dev.forgetSlice (s : Dev) (x : Nat) : Dev :=
  let s1 := { s with shadow.recons := s.shadow.recons.map (fun (r : Recon) =>
    if r.waiting.contains x then { r with waiting := [], answers := [] } else r) }
  let gone := s1.shadow.deltaOut.filter (fun e =>
    ((s1.wb e.2.1).map (fun w => paritySlice w.d s1.setSize == x)).getD false)
  let s2 := { s1 with shadow.deltaOut := s1.shadow.deltaOut.filter (fun e => !gone.contains e) }
  s2.each gone (fun s e =>
    match s.wb e.2.1 with
    | some w => if s.shadow.deltaOut.any (fun y => y.2.1 == e.2.1) then s else s.wbEnd w
    | none => s)

/-- Holds a slice lost (R617, R628, R637, R638). -/
def Dev.loseSlice (s : Dev) (x : Nat) : Dev :=
  if x == s.pos || s.setSize ≤ x || s.isLost x then s
  else
    let s1 := (s.put F.shdStatus_LOST (s.get F.shdStatus_LOST ||| 2 ^ x)).put F.shdStatus_STATE 1
    let s2 := ((s1.raise F.shdErr_SLICE_LOST).alert alertShd).errorRecord 0x0B x 0 0
    let s3 := (if x == s.buddy then s2.loseBuddy else s2).forgetSlice x
    s3.settle

/-- The acting leader (R618). -/
def Dev.actingLeader (s : Dev) : Nat := ((List.range 8).find? (fun p => !s.isLost p)).getD 0

/-- Holds a slice lost and, at the acting leader, sends HOME_MOVED (R618); before Dusk's COMMIT it also sends ABORT (R726). -/
def Dev.holdLost (s : Dev) (x : Nat) : Dev :=
  if x == s.pos || s.setSize ≤ x || s.isLost x then s
  else
    let s0 := s.loseSlice x
    let s1 := if s0.phase == .toDusk && s0.frm.commitAt.isNone && s0.actingLeader == s0.pos then s0.ctlAll (.mgmt 4 0x31 0) else s0
    if s1.actingLeader == s1.pos then
      s1.portDeaths.ctlAll (.homeMoved (BitVec.ofNat 3 x) (BitVec.ofNat 3 (x ^^^ 1)) false (BitVec.ofNat 48 s1.namedBoundary))
    else s1

/-! ### HOME_MOVED and the walk (R619 to R623) -/

/-- A port that has not trained. -/
def Port.down : Port :=
  { up0 := false, up1 := false, trained := false, dieLink := false, agentPort := false, sidebandOnly := false, barred := false,
    acked := 0, rxSeq := 0, rxLseq := 0, askReplay := false, lnak := [], resent := [], rxSlots := [], rxHeld := [] }

/-- The link layer of a port, and a change of it. -/
def Dev.port (s : Dev) (p : Nat) : Port := tgetD s.links.ports p Port.down
def Dev.updPort (s : Dev) (p : Nat) (g : Port → Port) : Dev :=
  { s with links.ports := tset s.links.ports p (g (s.port p)) }

/-- Takes the modules that face a lost slice out of service until the set is reset (R619). -/
def Dev.barPorts (s : Dev) (x : Nat) : Dev :=
  match s.linkPort x with
  | none => s
  | some k =>
    let s1 := s.updPort k (fun x => { x with up0 := false, up1 := false, barred := true })
    ((s1.put (F.pwkStatus_STATE k) 0).put (F.pwkStatus_MOD_UP k) 0).put (F.pwkStatus_LATTICE k) 0

/-- 64 B answers that a request owes: one per 64 B of its span, or of the view data of a typed read (R107, R467). -/
def Dev.answerCount (s : Dev) (op : Op) (r : Request) : Nat :=
  let plain := r.len.toNat + 1
  if op.isRead && r.view != 0 then
    match s.regionOf (Space.code r.space) r.localAddr r.bytes with
    | some k =>
      let g := s.region k
      if g.format == 0 then plain
      else (blocksIn g.format (r.localAddr - g.first * 0x200000) r.bytes).length * (viewBytes r.view.toNat / 64)
    | none => plain
  else plain

/-- The response messages of a request, as first answer and number of answers: 1 KiB units of the span, or of the view
data (R467). -/
def responseUnits (op : Op) (r : Request) (n : Nat) : List (Nat × Nat) :=
  let unit := fun i => if op.isRead && r.view != 0 then i / 16 else (r.localAddr % 1024 + 64 * i) / 1024
  let us := ((List.range n).map unit).eraseDups
  us.map (fun u =>
    let idx := (List.range n).filter (fun i => unit i == u)
    (idx.headD 0, idx.length))

/-- Answers every 64 B of a request with one code (R107, R467). -/
def Dev.answerAll (s : Dev) (op : Op) (r : Request) (c : Code) (ticket : BitVec 16) : Dev :=
  s.each (responseUnits op r (s.answerCount op r)) (fun s u =>
    (s.respond r.src r.txid u.1 (List.replicate u.2 c) 0 ticket
      (if op.isRead && (c == .ok || c == .poison) then List.replicate u.2 0 else [])).noteUrgent r)

/-- Answers NAK, with a ticket of the port slice, to a request of an agent whose home is lost (R623); a slice's own request
waits. -/
def Dev.portNak (s : Dev) (q : PortReq) : Dev :=
  if 48 ≤ q.r.src.toNat then { s with shadow.ports := s.shadow.ports ++ [{ q with ticket := none }] }
  else
    let t := tgetD s.cache.nextTicket 64 0
    let s1 := { s with
      cache.nextTicket := tput 0 s.cache.nextTicket 64 (t + 1)
      shadow.ports := s.shadow.ports ++ [{ q with ticket := some t }] }
    (s1.answerAll q.op q.r .nak t).urgentDone q.r

/-- HOME_MOVED from the acting leader (R619, R623). -/
def Dev.homeMovedIn (s : Dev) (lost newHome : Nat) (boundary : Frame) : Dev :=
  if !s.active || s.setSize ≤ lost || lost == s.pos then s
  else
    let s1 := (s.loseSlice lost).barPorts lost
    let s2 := { s1 with
      links.awaiting := s1.links.awaiting.filter (fun w => bitsOf w.head 9 4 != 56 + lost)
      frm.movedAt := some (boundary, BitVec.ofNat 3 lost, BitVec.ofNat 3 newHome)
      shadow.deltas := s1.shadow.deltas.filter (fun d => d.sender.toNat != lost) }
    let mine := s2.shadow.ports.filter (fun q => q.home == lost && q.ticket.isNone)
    let s3 := { s2 with shadow.ports := s2.shadow.ports.filter (fun q => !(q.home == lost && q.ticket.isNone)) }
    s3.parityRun.each mine (fun s q => s.portNak q)

/-- Whether requests to a home wait for its adoption (R623). -/
def Dev.moving (s : Dev) (home : Nat) : Bool := s.isLost home && s.get F.shdStatus_STATE == 1

/-- A response message for an agent passes back at the port slice that recorded its request: n answers of 64 B. With the
last one the record goes, and an urgent request ends (R497, R623). -/
def Dev.passBack (s : Dev) (dst txid n : Nat) : Dev :=
  let mine := fun (q : PortReq) => q.r.src.toNat == dst && q.r.txid.toNat == txid && q.ticket.isNone
  match s.shadow.ports.find? mine with
  | none => s
  | some q =>
    if s.answerCount q.op q.r ≤ q.got + n then
      ({ s with shadow.ports := s.shadow.ports.erase q }).urgentDone q.r
    else { s with shadow.ports := s.shadow.ports.map (fun x => if x == q then { q with got := q.got + n } else x) }

/-- The walk of the new home has ended: the port slice sends RETRY for its tickets and HOME_MOVED to its agents, and its
own waiting requests go out (R623, R640; log entry 41). -/
def Dev.walkEnded (s : Dev) (lost : Nat) : Dev :=
  let us := (s.now - tgetD s.shadow.lastBeat lost s.now) / 1600
  let at_ := (s.frm.movedAt.map (fun m => m.1.toNat)).getD s.frameNo
  let s1 := ((((s.put F.shdTakeover_VALID 1).put F.shdTakeover_LOST lost).put F.shdTakeover_DURATION_US (min us 65535)).put
    F.shdTakeover_FRAME at_).put F.shdStatus_STATE 2
  let own := s1.shadow.ports.filter (fun q => q.home == lost)
  let s2 := { s1 with shadow.ports := s1.shadow.ports.filter (fun q => q.home != lost) }
  let s3 := s2.each own (fun s q => match q.ticket with
    | some t => if s.fenced q.r.src.toNat then s else s.send (.retry q.r.src t q.r.txid)
    | none => s.send (.forwardReq (lost ^^^ 1) q.op q.r))
  let agents := ((List.range 6).flatMap (fun k => cfgAgents (s3.reg (R.pwkCfg k)))).eraseDups
  s3.each agents (fun s a =>
    s.send (.homeMovedNotice (BitVec.ofNat 6 a) (BitVec.ofNat 3 lost) (BitVec.ofNat 3 (lost ^^^ 1)) (BitVec.ofNat 48 at_)))

/-- HOME_MOVED as a slice receives it: the leader's order, or the new home's notice that its walk has ended. -/
def Dev.homeMoved (s : Dev) (lost newHome : Nat) (notice : Bool) (boundary : Frame) : Dev :=
  if !notice then s.homeMovedIn lost newHome boundary
  else if s.active && s.moving lost then s.walkEnded lost
  else s

/-- ADOPTION_WALK_END (R621, R623): every mirror line of the lost slice is now an adopted line. -/
def Dev.walkEnd (s : Dev) : Dev :=
  if !s.active || !s.shadow.walking then s
  else
    let lost := s.get F.shdStatus_ADOPTED
    let s1 := { s with shadow.walking := false }
    let at_ := (s1.frm.movedAt.map (fun m => m.1)).getD (BitVec.ofNat 48 s1.frameNo)
    (s1.ctlOthers (.homeMoved (BitVec.ofNat 3 lost) (BitVec.ofNat 3 s1.pos) true at_)).walkEnded lost

/-! ### Rebuild (R630 to R632) -/

/-- The lost slice that the set can rebuild: SPARE chunks are held, the failover is over, and every other slice lives. -/
def Dev.rebuilding (s : Dev) : Option Nat :=
  let lost := (List.range s.setSize).filter s.isLost
  if s.setSize ≤ 2 || s.get F.shdConfig_SPARE == 0 || s.get F.shdStatus_STATE ≤ 1 || lost.length != 1 then none else lost.head?

/-- The next chunk to rebuild: the lowest shadowed chunk above those rebuilt (R631). -/
def Dev.rebuildNext (s : Dev) : Option Nat :=
  let c := ((s.shadow.copies.getLast?).map (fun e => e.1 + 1)).getD 0
  if s.shadowedChunk c then some c
  else
    let starts := (List.range 64).flatMap (fun k => if (s.region k).shadowed then
      (List.range s.setSize).map (fun p => ((s.region k).footprint s.setSize p).1) else [])
    ((starts.filter (fun x => c < x && s.shadowedChunk x)).foldl (fun (m : Option Nat) x => some (min x (m.getD x))) none)

/-- The spare chunk that a survivor takes next: the lowest free one (R630, R631). -/
def Dev.spareNext (s : Dev) (p : Nat) : Nat :=
  91552 - s.get F.shdConfig_SPARE +
    (s.shadow.copies.filter (fun e => e.2.1.1.toNat == p || e.2.2.1.toNat == p)).length

/-- Where the copies of a chunk go: two survivors, with the spare chunk that each takes (R631). -/
def Dev.rebuildCopies (s : Dev) (c : Nat) : (Pos × BitVec 17) × (Pos × BitVec 17) :=
  let live := s.livePositions
  let at_ := fun (k : Nat) =>
    let p := live.getD (k % live.length) 0
    (BitVec.ofNat 3 p, BitVec.ofNat 17 (s.spareNext p))
  (at_ c, at_ (c + 1))

/-- The chunk of this slice that takes a copy of a chunk, where one does. -/
def Dev.rebuildHere (s : Dev) (c : Nat) : Option Nat :=
  let r := s.rebuildCopies c
  if r.1.1.toNat == s.pos then some r.1.2.toNat else if r.2.1.toNat == s.pos then some r.2.2.toNat else none

/-- Whether rebuilt sub-blocks are on their way to this slice's copy. -/
def Dev.rebuildOpen (s : Dev) : Bool :=
  s.shadow.recons.any (fun e => match e.why with | .rebuild _ => true | _ => false) ||
    s.stack.writes.any (fun w => w.why == .rebuilt && w.cls == .background)

/-- Whether a copy of row retirement holds the rebuild buffer of a facet (R66, R578). -/
def Dev.bufferHeld (s : Dev) (f : Nat) : Bool :=
  s.stack.copies.any (fun c => s.fuse.owner (bitsOf c.rowAddr.toNat 31 26) == f && 0 < c.moved && c.moved < 256)

/-- Begins up to n sub-blocks of this slice's copy of chunk c of slice x, in chunk t, on a pseudo-channel (R631). -/
def Dev.rebuildRun (c x t pc : Nat) : Nat → Dev → Dev
  | 0, s => s
  | n + 1, s =>
    let i := tgetD s.shadow.rebuildAt pc 0
    let f := s.fuse.owner (pc / 2)
    if 256 ≤ i then s
    else if s.bufferHeld f then { s with shadow.bufferWanted := f :: s.shadow.bufferWanted.erase f }
    else
      let d := chunkPlace t pc i
      let from_ := c * 0x200000 + d % 0x200000
      let s1 := { s with shadow.rebuildAt := tset s.shadow.rebuildAt pc (i + 1), shadow.bufferWanted := s.shadow.bufferWanted.erase f }
      Dev.rebuildRun c x t pc n (s1.startRecon x (s.groupOn x from_) from_ false (.rebuild d))

/-- A slot of background KIND 4: this slice's copy of the chunk under rebuild goes on (R631). -/
def Dev.rebuildSlot (s : Dev) : Dev :=
  match s.rebuilding, s.rebuildNext with
  | some x, some c =>
    let s1 := s.put F.shdStatus_STATE 3
    match s1.rebuildHere c with
    | some t => s1.each (List.range 128) (fun s pc => Dev.rebuildRun c x t pc (s.backgroundRoom pc) s)
    | none => s1
  | _, _ => s

/-- REBUILD_CHUNK_DONE (R630 to R632): both copies of the chunk under rebuild are written, this slice's own among them. -/
def Dev.rebuildDone (s : Dev) (chunk : Nat) (c0 c1 : Pos × BitVec 17) : Dev :=
  let all := s.get F.shdConfig_SHADOWED
  let own := (s.rebuildHere chunk).isNone ||
    ((List.range 128).all (fun pc => 256 ≤ tgetD s.shadow.rebuildAt pc 0) && !s.rebuildOpen)
  if !s.active || s.rebuilding.isNone || s.rebuildNext != some chunk || s.rebuildCopies chunk != (c0, c1) || !own then s
  else
    let s1 := { s with shadow.copies := tset s.shadow.copies chunk (c0, c1), shadow.rebuildAt := [], shadow.bufferWanted := [] }
    let n := s1.shadow.copies.length
    let s2 := s1.put F.shdStatus_REBUILD_PCT (n * 100 / all)
    if n == all then (s2.raise F.shdErr_REBUILD_DONE).put F.shdStatus_STATE 0 else s2.put F.shdStatus_STATE 3

/-! ### Lost links (R527 to R531) -/

/-- The positions of the continuing component, none when no component continues (R528). -/
def continuing (n lost : Nat) : Option (List Nat) :=
  ((List.range n).map (fun p => reachFrom n lost 8 [p])).find? (fun c =>
    n < 2 * c.length || (n == 2 * c.length && c.contains 0))

/-- The state of PWK_DETOUR.MODE changes; a change from 0 asserts ALERT_N (R540). -/
def Dev.setMode (s : Dev) (m : Nat) : Dev :=
  let s1 := s.put F.pwkDetour_MODE m
  if s.get F.pwkDetour_MODE == 0 && m != 0 then s1.alert alertPwk else s1

/-- The slice routes around the lost links (R529, R530). The one link of a set of two has no route around it, and position 0 runs
alone (R533). -/
def Dev.reroute (s : Dev) (lost : Nat) (comp : List Nat) : Dev :=
  let n := s.setCount
  let one := popCount 10 lost == 1
  let plan := if one then detourFor s.img.force.lattice (lowestBit 10 lost) else none
  let us := min ((s.now - (s.links.lossAt.getD s.now)) / 1600) 65535
  let s1 := s.put F.pwkDetour_SWITCH_US us
  match plan with
  | some d => (s1.setMode 1).put F.pwkRoute_ROUTES (d.2.1.getD s.pos 0)
  | none =>
    if one && comp.length < n then s1
    else
      let r := (comp.head?).getD 0
      let s2 := (s1.setMode 2).put F.pwkRoute_ROUTES (s1.routesBy (fun d =>
        if comp.contains d then computedHop n lost r s.pos d else none))
      { s2 with frm.haltRoute := true, frm.haltPending := true, frm.haltAlarm := true }

/-- LOST_LINKS gains bits (R527 to R530): a slice outside the continuing component enters Eclipse; the others hold the
slices outside it lost and route around. -/
def Dev.mergeLinks (s : Dev) (bits : Nat) : Dev :=
  let old := s.get F.pwkDetour_LOST_LINKS
  let new := old ||| bits
  if new == old then s
  else
    let s1 := (if s.links.lossAt.isNone then { s with links.lossAt := some s.now } else s).put F.pwkDetour_LOST_LINKS new
    let s2 := { s1 with frm.grace := s1.now + 19200 }
    match continuing s2.setCount new with
    | none => (s2.setMode 3).enterEclipse 6 s2.pos
    | some comp =>
      if !comp.contains s2.pos then (s2.setMode 3).enterEclipse 6 s2.pos
      else
        let s3 := s2.reroute new comp
        s3.each ((List.range s3.setSize).filter (fun p => !comp.contains p)) Dev.holdLost

/-- The out-of-turn HEARTBEAT on every die link that is up but one (R527). -/
def Dev.linkBeat (s : Dev) (but : Option Nat) (ackLink : Nat) (ackSeq : BitVec 12) : Dev :=
  let m : Ctl := .heartbeat (BitVec.ofNat 48 s.frameNo) (s.get F.frmStatus_HOLDOVER == 0)
    (BitVec.ofNat 10 (s.get F.pwkDetour_LOST_LINKS)) (BitVec.ofNat 4 ackLink) ackSeq
  s.each ((List.range s.setCount).filter (fun q => gridNext s.pos q && some q != but)) (fun s q =>
    match s.linkPort q with
    | some k => if s.get (F.pwkStatus_STATE k) == 2 || s.get (F.pwkStatus_STATE k) == 3 then s.send (.ctl q m) else s
    | none => s)

/-- A die link of this slice is lost: it reports it and routes around it (R527, R531). -/
def Dev.linkLost (s : Dev) (port : Nat) : Dev :=
  let q := s.get (F.pwkCfg_NEIGHBOUR port)
  let i := linkIndex s.pos q
  let seq := ((tget s.links.ports port).map Port.rxSeq).getD 0
  let s1 := s.put F.pwkDetour_LOST_LINKS (s.get F.pwkDetour_LOST_LINKS)
  let s2 := (s1.mergeLinks (2 ^ i)).linkBeat none i seq
  if s2.phase == .eclipse then s2 else s2.resendLines q

/-- A report of lost links in a HEARTBEAT (R527, R531). -/
def Dev.beatLinks (s : Dev) (sender bits ackLink : Nat) (ackSeq : BitVec 12) : Dev :=
  let old := s.get F.pwkDetour_LOST_LINKS
  let s1 := if bits ||| old == old then s else (s.mergeLinks bits).linkBeat (some sender) ackLink ackSeq
  if 10 ≤ ackLink then s1
  else
    let e := linkEnds ackLink
    if (e.1 == s1.pos && e.2 == sender) || (e.2 == s1.pos && e.1 == sender) then
      match s1.linkPort sender with
      | some k => s1.send (.resendFrom k ackSeq)
      | none => s1
    else s1

end Sys2Proof.Machine
end

