-- ==== Sys2Proof/Machine/Links.lean ====
section
/-! DEFINITION. Palwick ports: training, lanes and modules, flits received, sequences, credits, the loss of a link, and discovery
(chapters 14 and 15). -/

namespace Sys2Proof.Machine

/-! ### Ports -/

def Tx.idle : Tx :=
  { queue := [], seq := 0xFFF, unacked := [], replay := none, turn := 1, freed := [], kept := 0, room := [], lseq := 0xFFF,
    lsent := [], lresend := [], ready := [], deferred := [], detour := [], wait := 0 }
def Dev.tx (s : Dev) (p : Nat) : Tx := tgetD s.links.tx p Tx.idle
def Dev.updTx (s : Dev) (p : Nat) (g : Tx → Tx) : Dev := { s with links.tx := tset s.links.tx p (g (s.tx p)) }

/-- Whether a port carries flits: up, or a half port (R492). -/
def Dev.portUp (s : Dev) (p : Nat) : Bool := s.get (F.pwkStatus_STATE p) == 2 || s.get (F.pwkStatus_STATE p) == 3

/-- Whether a port is a die link: by its role, or by discovery before a role is given (R506). -/
def Dev.isDieLink (s : Dev) (p : Nat) : Bool := s.get (F.pwkCfg_ROLE p) == 1

/-- A field of the discovery word (R536). -/
def Dev.discField (s : Dev) (hi lo : Nat) : Nat := bitsOf s.links.disc.toNat hi lo

/-- Receive buffers per VC in slots (R475). -/
def rxBuffer (vc : Nat) : Nat :=
  match vc with
  | 0 => 32
  | 1 => 64
  | 2 => 512
  | 3 => 64
  | 4 => 128
  | _ => 0

/-- The modules of a port as PWK_STATUS shows them. -/
def Dev.showModules (s : Dev) (p : Nat) : Dev :=
  s.put (F.pwkStatus_MOD_UP p) (b2n (s.port p).up0 + 2 * b2n (s.port p).up1)

/-- A port is lost (R486, R487, R493, R494, R500, R786): causes 0 modules, 1 silence, 2 protocol error, 3 lattice resend
failed. Of an agent port every agent is declared suspect (R259). -/
def Dev.portLoss (s : Dev) (p cause : Nat) : Dev :=
  if !s.portUp p then s
  else
    let s1 := (s.updPort p (fun x => { x with up0 := false, up1 := false })).showModules p
    let s2 := (s1.put (F.pwkStatus_STATE p) 4).put (F.pwkStatus_LATTICE p) 0
    let s3 := ((s2.raise (F.pwkErr_LINK_LOST p)).raiseIf (cause == 2) (F.pwkErr_PROTOCOL p)).alert alertPwk
    let s4 := if s3.on F.pwkLoss_VALID then s3
      else s3.setReg R.pwkLoss (2 ^ 63 + p * 2 ^ 48 + cause * 2 ^ 44 + s3.frameNo % 2 ^ 32)
    let s5 := s4.errorRecord 0x09 p 0 cause
    if s5.isDieLink p then s5.linkLost p
    else s5.each (cfgAgents (s5.reg (R.pwkCfg p))) (fun s a => s.suspect (BitVec.ofNat 6 a) 2 s.now)

/-- Steps of the boot order that the ports wait for: the last port's training ends step 8 (R753). -/
def Dev.portsTrained (s : Dev) : Dev :=
  match s.phase with
  | .boot 8 =>
    if (List.range 6).all (fun p => (s.port p).trained) then
      let disc := s.pos * 2 ^ 21 + 2 ^ (24 + s.pos) + bitsOf s.links.disc.toNat 62 60 * 2 ^ 60
      { s with phase := .boot 9, links.disc := BitVec.ofNat 64 disc }
    else s
  | _ => s

/-- The spare lanes of an advanced-package module in UCIe 2.0: two for each 32 data lanes, one for clock and track, one for valid
(R453; PRESUMED: log entry 120). -/
def spareLanes : Nat × Nat × Nat × Nat := (2, 2, 1, 1)

/-- Whether a module trained, at the port's rate or above and with no more failed lanes than its spares repair (R454). -/
def moduleGood (m : ModuleTraining) (x : FailedLanes) (rate : Nat) : Bool :=
  m.trained && rate ≤ m.rate.toNat && x.dataLow.toNat ≤ spareLanes.1 && x.dataHigh.toNat ≤ spareLanes.2.1 &&
    x.clock.toNat ≤ spareLanes.2.2.1 && x.valid.toNat ≤ spareLanes.2.2.2

/-- Lanes that training repaired. -/
def moduleRepaired (x : FailedLanes) : Nat := x.dataLow.toNat + x.dataHigh.toNat + x.clock.toNat + x.valid.toNat

/-- The data rate of the ports in GT/s: 32, or 16 in boot profile 1 (R453). -/
def Dev.portRate (s : Dev) : Nat := if s.mgmt.profile1 then 16 else 32

/-- PORT_TRAINED: a port finishes UCIe training or fails it (R454, R475, R505). Its full receive buffers go back as credits over its
first flits. -/
def Dev.portTrainedIn (s : Dev) (p : Nat) (m0 m1 : ModuleTraining) (x0 x1 : FailedLanes) : Dev :=
  let up0 := moduleGood m0 x0 s.portRate
  let up1 := moduleGood m1 x1 s.portRate
  let may := match s.phase with
    | .boot k => 8 ≤ k
    | .lit => true
    | .dim => true
    | .waking => true
    | _ => false
  if !may || (s.port p).barred || s.get (F.pwkStatus_STATE p) != 1 then s
  else
    let s1 := (s.updPort p (fun x =>
      { x with up0 := up0, up1 := up1, trained := true, acked := 0xFFF, rxSeq := 0xFFF, rxLseq := 0xFFF
               askReplay := false, lnak := [], resent := [], rxSlots := [], rxHeld := [] })).showModules p
    let state := if (s.port p).sidebandOnly then 0 else if up0 && up1 then 2 else if up0 || up1 then 3 else 0
    let s2 := (((s1.put (F.pwkStatus_STATE p) state).put (F.pwkStatus_RATE p) (b2n s1.mgmt.profile1)).put
      (F.pwkStatus_REPAIRED0 p) (if up0 then moduleRepaired x0 else 0)).put (F.pwkStatus_REPAIRED1 p) (if up1 then moduleRepaired x1 else 0)
    let s3 := if state == 0 then s2 else ((s2.updTx p (fun x =>
        { Tx.idle with queue := x.queue.map (fun m => { m with sent := 0 }) })).setReg (R.pwkCredit p) 0).each
      (List.range 5) (fun s vc => s.send (.credit p vc (rxBuffer vc)))
    let s4 := s3.put (F.pwkStatus_LATTICE p) (b2n (state == 2 && s3.isDieLink p && s3.frm.frameRunning))
    s4.portsTrained

/-- LANE_FAIL: a lane fails in operation; its module retrains while the other carries every flit (R455). -/
def Dev.laneFail (s : Dev) (p m : Nat) : Dev :=
  let x := s.port p
  if !s.portUp p || !(if m == 0 then x.up0 else x.up1) then s
  else if !(if m == 0 then x.up1 else x.up0) then s.portLoss p 0
  else (s.updPort p (fun x => if m == 0 then { x with up0 := false } else { x with up1 := false })).showModules p

/-- MODULE_RETURN: the failed module returns with its lane repaired (R455). -/
def Dev.moduleReturn (s : Dev) (p m repaired : Nat) : Dev :=
  let x := s.port p
  if s.get (F.pwkStatus_STATE p) != 2 || (if m == 0 then x.up0 else x.up1) then s
  else
    let s1 := (s.updPort p (fun x => if m == 0 then { x with up0 := true } else { x with up1 := true })).showModules p
    ((s1.put (if m == 0 then F.pwkStatus_REPAIRED0 p else F.pwkStatus_REPAIRED1 p) repaired).raise
      (F.pwkErr_LANE_REPAIRED p)).bump (F.pwkCount_LANE_REPAIRS p)

/-- A die link has become a half port: it carries routed-mesh traffic only, and is reported lost for the lattice; no demand message
needs resending (R456, R527, R531; log entry 121). -/
def Dev.latticeLost (s : Dev) (p : Nat) : Dev :=
  let q := s.get (F.pwkCfg_NEIGHBOUR p)
  if !s.isDieLink p || s.discField 63 63 == 0 then s
  else
    let s1 := (s.mergeLinks (2 ^ linkIndex s.pos q)).linkBeat none 15 0
    if s1.phase == .eclipse then s1 else s1.resendLines q

/-- MODULE_FAIL: a failed module does not return; the port is a half port, or lost with its last module (R456, R486). -/
def Dev.moduleFail (s : Dev) (p m : Nat) : Dev :=
  if !s.portUp p then s
  else
    let s1 := (s.updPort p (fun x => if m == 0 then { x with up0 := false } else { x with up1 := false })).showModules p
    let s2 := (s1.raise (F.pwkErr_MODULE_LOST p)).alert alertPwk
    if (s2.port p).up0 || (s2.port p).up1 then
      let s3 := (s2.put (F.pwkStatus_STATE p) 3).put (F.pwkStatus_LATTICE p) 0
      if s.get (F.pwkStatus_STATE p) == 2 then s3.latticeLost p else s3
    else s2.portLoss p 0

/-! ### Flits (R457 to R477) -/

/-- Fields of the flit header. -/
def flitField (f : Flit) (hi lo : Nat) : Nat := bitsOf f.toNat hi lo
def flitOk (f : Flit) : Bool := flitField f 31 0 == flitCrc f

/-- A flit fails its CRC (R471, R493, R495). -/
def Dev.badFlit (s : Dev) (p : Nat) : Dev :=
  ((s.bump (F.pwkCount_CRC_ERRORS p)).raise (F.pwkErr_CRC p)).event evCrc p

/-- Adds the credits a flit returns (R458, R496). -/
def Dev.takeCredits (s : Dev) (p : Nat) (f : Flit) : Dev :=
  let fields := [F.pwkCredit_VC0 p, F.pwkCredit_VC1 p, F.pwkCredit_VC2 p, F.pwkCredit_VC3 p, F.pwkCredit_VC4 p]
  s.each fields.zipIdx (fun s e => s.bump e.1 (flitField f (107 + 8 * e.2) (100 + 8 * e.2)))

/-- The flits of a replay buffer that an ACK leaves unacknowledged (R472). -/
def unackedBy (ack : BitVec 12) (l : List FlitOut) : List FlitOut :=
  if l.any (fun f => f.seq == ack) then (l.dropWhile (fun f => f.seq != ack)).drop 1 else l

/-- An ACK frees the flits that it covers; a replay in progress goes on with the rest (R472, R473). -/
def Tx.acked (x : Tx) (ack : BitVec 12) : Tx :=
  let rest := unackedBy ack x.unacked
  let done := x.unacked.length - rest.length
  { x with unacked := rest, replay := if rest.isEmpty then none else x.replay.map (fun k => k - done) }

/-- What a good flit's header asks of this port: its ACK, its credits, a replay, a lattice resend (R458, R472, R474). -/
def Dev.flitHeader (s : Dev) (p : Nat) (f : Flit) : Dev :=
  let ack := BitVec.ofNat 12 (flitField f 55 44)
  let s1 := ((s.updPort p (fun x => { x with acked := ack })).takeCredits p f).updTx p (fun x => x.acked ack)
  let s2 := if flitField f 58 58 == 1 then
      (((s1.raise (F.pwkErr_REPLAY p)).bump (F.pwkCount_REPLAYS p)).send (.resendFrom p ack)).updTx p (fun x =>
        { x with replay := if x.unacked.isEmpty then none else some 0 })
    else s1
  let seq := BitVec.ofNat 12 (flitField f 71 60)
  if flitField f 59 59 == 1 then
    (((s2.raise (F.pwkErr_LRESEND p)).bump (F.pwkCount_REPLAYS p)).send (.resendLattice p seq)).updTx p (fun x =>
      { x with lresend := x.lresend ++ x.lsent.filter (fun l => l.seq == seq) })
  else s2

/-- The tag of body slot k (R458). -/
def slotTag (f : Flit) (k : Nat) : Nat := flitField f (75 + 4 * (k - 1)) (72 + 4 * (k - 1))

/-- Whether the request table is full, so that the credits of requests are withheld (R142). -/
def Dev.holds (s : Dev) : Bool := 8192 ≤ s.occupancy

/-- Demand's part of the estimated power of a slot, in mW: the DRAM use above the plan's shares (R739; log entry 45). -/
def Dev.demandEstimate (s : Dev) (slot : Nat) : Nat :=
  let planned := if s.frm.frameRunning then (List.range 128).foldl (fun a pc =>
      let e := dramEntry s.plan s.template slot pc
      a + bulkShare e + backgroundShare e) 0
    else 0
  4000 * 8 * s.mgmt.slotBus / (128 * max 1 s.slotLen) - 4000 * planned / 128

/-- Whether a port's request credits are withheld: while the request table is full (R142), and on an agent port under the DEMAND
throttle once demand has drawn DEMAND_W in the slot under way (R739). -/
def Dev.withholds (s : Dev) (p : Nat) : Bool :=
  s.holds || (s.on F.pwrThrottle_DEMAND && !s.isDieLink p &&
    s.get F.pwrClass_DEMAND_W * 1000 ≤ s.demandEstimate ((s.frm.slot + 63) % 64))

/-- Line i of a lattice flit: slots 1 to 6 (R460). -/
def latticeLineOf (f : Flit) (i : Nat) : Sub := BitVec.ofNat 512 (flitField f (256 + 512 * i + 511) (256 + 512 * i))

/-- A LATTICE_FLIT fails its CRC (R471, R474). Its number is that of the next lattice flit, or the one that its SEQ bits name where
that one's resend is awaited: a second failure (log entry 122). -/
def Dev.badLattice (s : Dev) (p : Nat) (f : Flit) : Dev :=
  let s1 := s.badFlit p
  let seq := BitVec.ofNat 12 (flitField f 43 32)
  if !s1.isDieLink p then s1
  else if (s1.port p).resent.contains seq then s1.portLoss p 3
  else s1.updPort p (fun x =>
    { x with rxLseq := x.rxLseq + 1, lnak := x.lnak ++ [x.rxLseq + 1], resent := x.resent ++ [x.rxLseq + 1] })

/-- The number of a good lattice flit: numbers that it skips are of flits that failed, and are named too (R474; log entry 122). -/
def Port.latticeSeq (x : Port) (seq : BitVec 12) : Port :=
  let ahead := (seq - x.rxLseq).toNat
  let y := { x with resent := x.resent.filter (fun q => q != seq) }
  if ahead == 0 || 2048 ≤ ahead then y
  else
    let skipped := (List.range (ahead - 1)).map (fun i => x.rxLseq + BitVec.ofNat 12 (i + 1))
    { y with rxLseq := seq, lnak := y.lnak ++ skipped, resent := y.resent ++ skipped }

/-- LATTICE_FLIT (R460, R471, R474, R477, R521, R522, R531). A half port carries no lattice traffic: the lines of a flit that
comes on
one are not taken (R456). A flit whose SLOT_TAG is not 0 is taken for a protocol error (log entry 122). -/
def Dev.latticeIn (s : Dev) (p : Nat) (f : Flit) : Dev :=
  if !s.portUp p then s
  else if !flitOk f then s.badLattice p f
  else if !s.isDieLink p then s.portLoss p 2
  else
    let s1 := (s.flitHeader p f).updPort p (fun x => x.latticeSeq (BitVec.ofNat 12 (flitField f 43 32)))
    let tag := fun (hi lo : Nat) => flitField f (1792 + hi) (1792 + lo)
    if s1.get (F.pwkStatus_STATE p) != 2 then s1
    else if flitField f 99 72 != 0 || tag 63 60 != s1.get F.prmFrames_FRAMES % 16 then s1.portLoss p 2
    else
      let n := tag 28 27
      let line := fun i => (tag 45 29 + i, latticeLineOf f i, bitAt (tag 19 0) i)
      if tag 23 23 == 1 && tag 22 20 != s1.pos then
        s1.each (List.range n) (fun s i =>
          s.sendLine (tag 22 20) (tag 26 24) (tag 59 59 == 1) (tag 58 46) (line i).1 (line i).2.1 (line i).2.2)
      else
        (s1.each (List.range n) (fun s i =>
          s.lineIn (tag 59 59 == 1) (tag 58 46) (line i).1 (tag 26 24) (line i).2.1 (line i).2.2)).settle

/-! ### Discovery (R505 to R512) -/

def Dev.setDisc (s : Dev) (hi lo v : Nat) : Dev :=
  { s with links.disc := BitVec.ofNat 64 (withBits s.links.disc.toNat hi lo v) }

/-- Sets ERR when it is 0 (R509, R540). -/
def Dev.discErr (s : Dev) (code : Nat) : Dev :=
  if s.discField 62 60 != 0 then s else (s.setDisc 62 60 code).alert alertPwk

/-- Whether a partner is a slice (R506), and its position. -/
def partnerSlice (r : PartnerRead) : Bool := r.trained && bitsOf r.ident.toNat 63 32 == 0xB12E0537
def partnerAt (r : PartnerRead) : Nat := bitsOf r.ident.toNat 2 0

/-- Classes the ports by their partners' identities (R506). -/
def Dev.classPorts (s : Dev) (ps : List (PartnerRead × Nat)) : Dev :=
  s.each ps (fun s e =>
    if !s.portUp e.2 then s.setReg (R.pwkCfg e.2) 0
    else if partnerSlice e.1 then
      ((s.setReg (R.pwkCfg e.2) (2 ^ 32 + partnerAt e.1 * 2 ^ 29))).updPort e.2 (fun x => { x with dieLink := true })
    else if e.1.trained then (s.setReg (R.pwkCfg e.2) (2 ^ 33)).updPort e.2 (fun x => { x with agentPort := true })
    else s.setReg (R.pwkCfg e.2) 0)

/-- The first error that a round's reads show (R509 codes 1 to 4). -/
def Dev.roundErr (s : Dev) (links : List PartnerRead) : Option Nat :=
  if links.any (fun r => partnerAt r == s.pos) then some 1
  else if links.any (fun r => !gridNext s.pos (partnerAt r)) then some 2
  else if (links.map partnerAt).eraseDups.length != links.length then some 3
  else if links.any (fun r => !bitAt (bitsOf r.disc.toNat 41 32) (linkIndex s.pos (partnerAt r))) then some 4
  else none

/-- The checks after STABLE (R509 codes 5 and 6), and the mesh (R510, R512). -/
def Dev.discStable (s : Dev) : Dev :=
  let s1 := s.setDisc 63 63 1
  let pres := s1.discField 31 24
  let n := popCount 8 pres
  if pres != 2 ^ n - 1 then s1.discErr 5
  else if !(n == 2 || n == 4 || n == 6 || n == 8) then s1.discErr 6
  else ({ s1 with phase := .boot 10 }).normalRoutes

/-- A round merges the words of the die links' partners into this slice's: PRESENT, LINKS and ERR are ORed (R507, R508), and an
ERR of
0 takes the first code that a cause of R509 gives. ROUND counts the rounds that change nothing. -/
def Dev.mergeWords (s : Dev) (links : List PartnerRead) : Dev :=
  let own := s.links.disc.toNat
  let mine := links.foldl (fun w r => if gridNext s.pos (partnerAt r) then w ||| 2 ^ (32 + linkIndex s.pos (partnerAt r)) else w) own
  let all := links.foldl (fun w r => w ||| (bitsOf r.disc.toNat 41 32 * 2 ^ 32) ||| (bitsOf r.disc.toNat 31 24 * 2 ^ 24)) mine
  let s1 := { s with links.disc := BitVec.ofNat 64 all }
  let s2 := match s1.roundErr links with
    | some c => s1.discErr c
    | none => s1
  let err := links.foldl (fun w r => w ||| bitsOf r.disc.toNat 62 60) (s2.discField 62 60)
  let s3 := if err == s2.discField 62 60 then s2 else (s2.setDisc 62 60 err).alert alertPwk
  s3.setDisc 59 48 (if s3.links.disc == s.links.disc then min 4095 (s3.discField 59 48 + 1) else 0)

/-- DISCOVERY_ROUND (R506 to R510): rounds go on after STABLE, when the ports keep their class. -/
def Dev.discoveryRound (s : Dev) (partners : List PartnerRead) : Dev :=
  let may := match s.phase with
    | .boot k => 9 ≤ k
    | .lit => true
    | .dim => true
    | _ => false
  if !may then s
  else
    let ps := (partners.take 6).zipIdx
    let stable := s.discField 63 63 == 1
    let s1 := if stable then s else s.classPorts ps
    let links := (ps.filter (fun e => s1.portUp e.2 && partnerSlice e.1 && (s1.port e.2).dieLink)).map Prod.fst
    let s2 := s1.mergeWords links
    if !stable && 8 ≤ s2.discField 59 48 && s2.discField 62 60 == 0 then s2.discStable else s2

/-- DISCOVERY_TIMEOUT (R509 code 7). -/
def Dev.discoveryTimeout (s : Dev) : Dev :=
  if s.phase == .boot 9 && s.discField 63 63 == 0 then s.discErr 7 else s

/-- Sends the glint on a port: the sideband message of R489; not where its set bars the port (R619), nor while the link trains,
which
has the sideband first (R66). -/
def Dev.sendGlint (s : Dev) (p : Nat) : Dev :=
  if (s.port p).barred || s.get (F.pwkStatus_STATE p) == 1 then s else s.send (.glint p 0xB12E 0x61170000)

/-- A write of PWK_GLINT (R489, R499). -/
def Dev.sendGlints (s : Dev) (ports : Nat) : Dev := s.each (onesOf 6 ports) (fun s p => s.sendGlint p)

/-- Whether a port's sideband serves its partner's reads, or its writes, of SET_IDENT and of that port's registers: not while the
link trains, not in Dusk or Night, not on a barred port, and in Eclipse only reads (R488, R490, R619, R634). -/
def Dev.sidebandServes (s : Dev) (p : Nat) (write : Bool) : Bool :=
  !(s.port p).barred && s.get (F.pwkStatus_STATE p) != 1 && match s.phase with
    | .held => false
    | .boot k => 8 ≤ k
    | .dusk => false
    | .night => false
    | .eclipse => !write
    | _ => true

/-- The registers that a partner reads and writes over a port's sideband (R488). -/
def sidebandReg (p off : Nat) : Bool :=
  off % 8 == 0 && (off == R.setIdent || (0xC0000 + p * 0x400 ≤ off && off < 0xC0000 + (p + 1) * 0x400))

end Sys2Proof.Machine
end

