-- ==== Sys2Proof/Machine/Checks.lean ====
section
/-! DEFINITION. The checks of an image or a patch at load: the section checks of chapters 02, 03, 04, 09, 10, 12, 15 to 18,
20 and 21, each with its refusal code (R699) and the offset in the section of the first failing field. Checks that a rule
makes on every slice are made by each slice for itself. The proofs that need the times of a plan frame are in PlanChecks. -/

namespace Sys2Proof.Machine

/-- A finding: refusal code and offset in the section's body, none where the check holds. -/
abbrev Finding := Option (Nat × Nat)

/-- A condition that must hold. -/
def need (b : Bool) (code off : Nat) : Finding := if b then none else some (code, off)

/-- The first finding of a list. -/
def firstOf (l : List Finding) : Finding := l.findSome? (fun f => f)

/-- Whether n bytes of a body are 0. -/
def zeroBytes (b : List Byte) (lo n : Nat) : Bool := (sliceOf b lo n).all (fun x => x == 0)

/-! ### Bin and topology (R18, R245, R515, R535) -/

/-- Whether this slice offers at least the resources of a bin (R14, R18). -/
def Fuse.offers (u : Fuse) (bin : Nat) : Bool :=
  (2 ≤ bin || u.facetCount == 64) && (bin % 2 == 1 || u.lensGood == 0xF) && 3 ≤ u.lenses.length

/-- One port record against what discovery found and the agent records. -/
def Dev.checkPortRecord (s : Dev) (b : List Byte) (n p k : Nat) : Finding :=
  let w := portRecord b p k
  let off := 64 + 48 * p + 8 * k
  let role := bitsOf w 33 32
  let ids := cfgAgents w
  let mine := p == s.pos
  let pt := s.port k
  let agents := bitsOf w 28 26
  firstOf [need (bitsOf w 63 34 == 0 && bitsOf w 25 24 == 0 && role != 3) 0x08 off,
    need (p < n || w == 0) 0x08 off, need (role != 0 || w == 0) 0x08 off,
    need (!mine || (role == 1) == pt.dieLink) 0x08 off,
    need (!mine || role != 1 || bitsOf w 31 29 == s.get (F.pwkCfg_NEIGHBOUR k)) 0x08 off,
    need (!mine || role != 2 || pt.agentPort) 0x08 off,
    need (role != 2 || (1 ≤ agents && agents ≤ 4 && ids.all (fun a => a < 48 && bitAt (byteAt b (448 + a)) 7) &&
      ids.eraseDups.length == ids.length)) 0x08 off]

/-- One agent record: a valid agent is on one port, or on two ports of different slices. -/
def checkAgentRecord (b : List Byte) (a : Nat) : Finding :=
  let on := ((List.range 8).map (fun p => ((List.range 6).filter (fun k =>
    let w := portRecord b p k
    bitsOf w 33 32 == 2 && (cfgAgents w).contains a)).length))
  let total := on.foldl (· + ·) 0
  let v := byteAt b (448 + a)
  need (bitsOf v 3 0 == 0 && (!bitAt v 7 || ((total == 1 || total == 2) && on.all (fun c => c ≤ 1)))) 0x08 (448 + a)

/-- The topology section (R514, R515, R245, R535). -/
def Dev.checkTopology (s : Dev) (b : List Byte) : Finding :=
  let n := byteAt b 0
  let ring := byteAt b 2 == 1
  firstOf ([need (n == s.setCount) 0x08 0, need (byteAt b 1 ≤ 1) 0x08 1, need (byteAt b 1 == 1 || n < 6) 0x09 1,
      need (byteAt b 2 ≤ 1) 0x08 2, need (zeroBytes b 3 61) 0x08 3]
    ++ (List.range 8).flatMap (fun p => (List.range 6).map (fun k => s.checkPortRecord b n p k))
    ++ (List.range 48).map (checkAgentRecord b)
    ++ (if ring then
        [need ((List.range 8).all (fun p => (List.range 6).all (fun k =>
            bitsOf (portRecord b p k) 33 32 != 2 || (p == 0 && k == 4)))) 0x08 2,
          need (portRecord b 0 0 == 0) 0x08 64,
          need (s.pos != 0 || (((s.port 0).up0 || (s.port 0).up1) && !(s.port 0).dieLink)) 0x08 2]
      else []))

/-! ### Regions in an image -/

/-- Entry n of a region table section (R89, R676). -/
def imageRegion (b : List Byte) (n : Nat) : Region :=
  let w := fun k => BitVec.ofNat 64 (leAt b (64 * n + 8 * k) 8)
  { base := w 0, attr := w 1, typed := w 2, refl := w 3, acc0 := w 4, acc1 := w 5, acc2 := w 6, acc3 := w 7 }
def imageRegions (b : List Byte) : List Region := (List.range 64).map (imageRegion b)

/-- SPARE, and the way mask of allocation class k (R677). -/
def imageSpare (b : List Byte) : Nat := leAt b 6144 4
def imageMask (b : List Byte) (k : Nat) : Nat := leAt b (6148 + 2 * k) 2

/-- Device chunks as intervals (first, end), empty ones left out: the footprints of some regions on every slice. -/
def footprints (n : Nat) (l : List Region) : List (Nat × Nat) :=
  (l.flatMap (fun g => (List.range n).map (fun p => g.footprint n p))).filter (fun f => f.1 < f.2)

/-- Inserts an interval in order of its first chunk. -/
def insInterval (x : Nat × Nat) : List (Nat × Nat) → List (Nat × Nat)
  | [] => [x]
  | y :: t => if x.1 ≤ y.1 then x :: y :: t else y :: insInterval x t

/-- Chunks of the union of intervals in order, at or above a bound. -/
def unionFrom : Nat → List (Nat × Nat) → Nat
  | _, [] => 0
  | b, x :: t => (max b x.2 - max b x.1) + unionFrom (max b x.2) t

/-- Shadowed chunks S of an image (R97, R635). -/
def shadowedCount (n : Nat) (regions : List Region) : Nat :=
  unionFrom 0 ((footprints n (regions.filter (fun g => g.valid && g.shadowed))).foldr insInterval [])

/-- Whether two intervals share a chunk. -/
def meetsChunk (a b : Nat × Nat) : Bool := a.1 < b.2 && b.1 < a.2

/-! ### Bank partition and masks (R114, R176, R610, R727) -/

/-- The retained way-banks that a leakage class allows (R727). -/
def retentionBudget (leak : Nat) : Nat := min 128 (1760 / (8 + leak))

/-- Retained way-banks of a partition (R176, R762). -/
def Dev.retained (s : Dev) (w : Nat) : Nat :=
  (List.range 2).foldl (fun a h => a + (s.fuse.half h).length * (partRetShade w h + partRetTile w h)) 0

/-- Whether a span lies within the built extent of one half of a store (R176, R178). -/
def Dev.inHalf (s : Dev) (w : Nat) (shade : Bool) (first len : Nat) : Bool :=
  let step := if shade then 0x10000000 else 0x8000000
  (List.range 2).any (fun h =>
    let ext := (s.fuse.half h).length * (if shade then partShade w h else partTile w h) * 0x80000
    h * step ≤ first && first + len ≤ h * step + ext)

/-- Whether a span lies within one accumulator file (R79). -/
def inFile (first len : Nat) : Bool :=
  (List.range 4).any (fun e => 0x10000000 + e * 0x20000 ≤ first && first + len ≤ 0x10000000 + (e + 1) * 0x20000)

/-- The bank partition section and the way masks (R114, R176, R610). -/
def Dev.checkPartition (s : Dev) (w : Nat) (table : List Byte) : Finding :=
  let rs := (imageRegions table).filter Region.valid
  let anyShadowed := rs.any Region.shadowed
  let mirror := partMirror w
  let halves := List.range 2
  let ordinary := (List.range 16).filter (fun v => halves.all (fun h => wayClassOf w h v == clsOrdinary))
  let at_ := fun (g : Region) => (g.first * 0x10000, g.size * 0x10000)
  firstOf ([need (bitsOf w 63 36 == 0) 0x0A 0,
      need (halves.all (fun h => partShade w h + partTile w h + mirror ≤ 12)) 0x0A 0,
      need (mirror ≤ 4) 0x0A 0,
      need (halves.all (fun h => partTile w h ≤ 8)) 0x0A 0,
      need (halves.all (fun h => partRetShade w h ≤ partShade w h && partRetTile w h ≤ partTile w h)) 0x0A 0,
      need (s.retained w ≤ 128 && s.retained w ≤ retentionBudget s.fuse.leakClass.toNat) 0x0A 0,
      need (1 ≤ mirror || !anyShadowed) 0x0A 0,
      need (mirror != 1 || !anyShadowed || s.fuse.facetCount == 64) 0x0A 0,
      need (rs.all (fun g => g.space != 1 || s.inHalf w true (at_ g).1 (at_ g).2)) 0x0A 0,
      need (rs.all (fun g => g.space != 2 || s.inHalf w false (at_ g).1 (at_ g).2 || inFile (at_ g).1 (at_ g).2)) 0x0A 0]
    ++ (List.range 7).map (fun k =>
      let m := imageMask table k
      need (m != 0 && (onesOf 16 m).all (fun v => ordinary.contains v)) 0x0A 0)
    ++ [need (imageMask table allocMirror == (2 ^ mirror - 1) * 2 ^ (16 - mirror)) 0x0A 0])

/-! ### Region and hue tables (R91, R92, R305, R385, R630, R644, R659, R661) -/

/-- The checks of one entry. Those that R91 does not give to valid entries alone hold for every entry, but a SIZE of at least
one unit, which an entry that holds nothing cannot have (log entry 107). -/
def Dev.checkRegion (s : Dev) (b : List Byte) (n i : Nat) : Finding :=
  let g := imageRegion b i
  let off := 64 * i
  let limit := if g.space == 0 then 2 ^ 27 else if g.space == 3 then 256 else 8192
  let node := s.reg R.setNode % 65536
  firstOf [
    need ((1 ≤ g.size || !g.valid) && g.first + g.size ≤ limit) 0x0B off,
    need (Region.field g.base 6 0 == 0) 0x0B off,
    need (g.space == 0 || (g.attr == 0 && g.typed == 0)) 0x0B (off + 8),
    need (g.interleave ≤ 1 && g.format < 14 && Region.field g.attr 36 17 == 0) 0x0B (off + 8),
    need (g.interleave == 0 || g.home < n) 0x0B (off + 8),
    need (Region.field g.refl 31 0 == 0) 0x0B (off + 24),
    need (g.accesses.all (fun a => bitsOf a 54 53 == 0)) 0x0B (off + 32),
    need (!g.reflection || (!g.shadowed && g.nodeFirst ≤ g.nodeLast && !(g.nodeFirst ≤ node && node ≤ g.nodeLast) &&
      (g.reflDram || g.devBase == 0))) 0x0B (off + 8),
    need (!g.reflection || (g.format == 0 && (g.nodeLast + 1 - g.nodeFirst) * g.size ≤ 2 ^ 22)) 0x0B (off + 8)]

/-- Whether two valid entries of one space may not share addresses, and do (R89, R91). -/
def Region.overlaps (g h : Region) : Bool :=
  g.space == h.space && g.first < h.first + h.size && h.first < g.first + g.size &&
    (if g.space == 0 && (g.reflection || h.reflection) then
      g.reflection && h.reflection && g.nodeFirst ≤ h.nodeLast && h.nodeFirst ≤ g.nodeLast
    else true)

/-- The checks between entries: overlap, footprints, shadow classes and SPARE. -/
def checkRegionPairs (b : List Byte) (n : Nat) : Finding :=
  let l := (List.range 64).filter (fun i => (imageRegion b i).valid)
  let spare := imageSpare b
  let pairs := l.flatMap (fun i => (l.filter (fun j => i < j)).map (fun j => (i, j)))
  let shadow := footprints n ((imageRegions b).filter (fun g => g.valid && g.shadowed))
  let plain := footprints n ((imageRegions b).filter (fun g => g.valid && !g.shadowed))
  firstOf (
    pairs.map (fun k => need (!(imageRegion b k.1).overlaps (imageRegion b k.2)) 0x0B (64 * k.2))
    ++ l.map (fun i => need ((List.range n).all (fun p => ((imageRegion b i).footprint n p).2 ≤ 91552 - spare)) 0x0B (64 * i))
    ++ pairs.map (fun k => need ((List.range n).all (fun p =>
      !meetsChunk ((imageRegion b k.1).footprint n p) ((imageRegion b k.2).footprint n p))) 0x0B (64 * k.2))
    ++ [need (plain.all (fun f => shadow.all (fun h => !meetsChunk f h))) 0x0B 0,
      need (spare == 0 || (2 ≤ n && 2 * divUp (shadowedCount n (imageRegions b)) (n - 1) ≤ spare)) 0x0B 6144])

/-- A TILE region covers no accumulator file of an engine that a slice lacks (R385). -/
def Dev.checkFiles (s : Dev) (b : List Byte) : Finding :=
  firstOf ((List.range 64).map (fun i =>
    let g := imageRegion b i
    need (!g.valid || g.space != 2 || (List.range 4).all (fun e => e < s.lensCount ||
      g.first * 0x10000 + g.size * 0x10000 ≤ 0x10000000 + e * 0x20000 || 0x10000000 + (e + 1) * 0x20000 ≤ g.first * 0x10000))
      0x0B (64 * i)))

/-- The typed checks of an entry (R305). -/
def checkTyped (b : List Byte) (i : Nat) : Finding :=
  let g := imageRegion b i
  let off := 64 * i + 16
  let wide := isWide g.format
  let pages := g.dataLen * 512
  if g.space != 0 then none
  else if g.format == 0 then need (g.typed == 0) 0x0C off
  else firstOf [
    need (!wide || (g.dataLen == g.size && Region.field g.typed 39 38 == 0 && g.escThr == 0 && g.palette == 0)) 0x0C off,
    need (wide || (1 ≤ g.dataLen && g.scaleEnd ≤ g.size * 0x200000 &&
      (g.escSlots == 0 || g.escBase + pages * g.escSlots * 64 ≤ g.size * 0x200000))) 0x0C off,
    need (g.round ≤ 1) 0x0C off,
    need (g.palette == 0 || g.format == 0xC || g.format == 0xD) 0x0C off,
    need (Region.field g.typed 26 0 == 0) 0x0C off]

/-- The format of the hue table, and the section's reserved tail (R659, R661, R677). -/
def checkHueTable (topology b : List Byte) : Finding :=
  firstOf ((List.range 256).map (fun h =>
      let w := hueWord b h
      need (bitsOf w 61 48 == 0 && bitsOf w 63 62 != 3 && (onesOf 48 w).all (fun a => bitAt (byteAt topology (448 + a)) 7))
        0x0B (4096 + 8 * h))
    ++ [need (zeroBytes b 6164 44) 0x0B 6164])

/-- The hue changes of a patch (R661). -/
def Dev.checkHueChanges (s : Dev) (b : List Byte) : Finding :=
  firstOf ((List.range 256).map (fun h =>
    let w := hueWord b h
    let st := bitsOf w 63 62
    let old := s.hueState h
    need (w == hueWord s.img.force.regions h || (h != 0 &&
      ((old == 0 && st ≤ 1) || (old == 1 && (st == 1 || st == 2))))) 0x2B (4096 + 8 * h)))

/-- The region table section. -/
def Dev.checkRegions (s : Dev) (topology b : List Byte) : Finding :=
  let n := byteAt topology 0
  firstOf ((List.range 64).map (s.checkRegion b n)
    ++ [checkRegionPairs b n, s.checkFiles b] ++ (List.range 64).map (checkTyped b) ++ [checkHueTable topology b])

/-! ### Format tables (R287 to R289) -/

/-- Kind of palette p of a format tables body. -/
def paletteKind (b : List Byte) (p : Nat) : Nat := byteAt b (8 + 32 * p + 16)

/-- The checks of one palette record. -/
def checkPalette (b : List Byte) (p : Nat) : Finding :=
  let o := 8 + 32 * p
  let kind := paletteKind b p
  let texp := signed 8 (byteAt b (o + 17))
  let used := if kind == 0xD then 8 else 16
  firstOf [need ((List.range 16).all (fun j => byteAt b (o + j) < 64)) 0x0D o,
    need (kind == 0xC || kind == 0xD) 0x0D (o + 16),
    need (-16 ≤ texp && texp ≤ 15) 0x0D (o + 17),
    need (kind != 0xD || zeroBytes b (o + 8) 8) 0x0D (o + 8),
    need (!zeroBytes b o used) 0x0D o,
    need (zeroBytes b (o + 18) 14) 0x0D (o + 18)]

/-- The format tables section, the palettes that typed regions name with it (R289; log entry 130). -/
def checkFormats (b table : List Byte) : Finding :=
  let n := byteAt b 4
  firstOf ([need (n ≤ 16 && b.length == 8 + 32 * n) 0x0D 4, need (zeroBytes b 5 3) 0x0D 5]
    ++ (List.range n).map (checkPalette b)
    ++ (imageRegions table).map (fun g => need (!g.valid || g.space != 0 || (g.format != 0xC && g.format != 0xD) ||
      (g.palette < n && paletteKind b g.palette == g.format)) 0x0D 4))

/-! ### The frame plan (R39 to R43, R48, R331, R352, R426, R554, R573, R827) -/

/-- Slots and templates of a plan. -/
def slots64 : List Nat := List.range 64
def planTemplateList (b : List Byte) : List Nat := List.range (planTemplates b)

/-- Every entry of both frame lists. -/
def frameEntries (b : List Byte) : List Nat :=
  (List.range (planPeriod b)).map (normalEntry b) ++ (List.range (planDegPeriod b)).map (degradedEntry b)

/-- Sizes, reserved bytes and frame list entries (R39 to R41). -/
def checkPlanSizes (b : List Byte) : Finding :=
  let t := planTemplates b
  firstOf [need (1 ≤ t && t ≤ 40) 0x11 1, need (1 ≤ planPeriod b && planPeriod b ≤ 4096) 0x11 2,
    need (1 ≤ planDegPeriod b && planDegPeriod b ≤ 256) 0x11 4, need (planRows b ≤ 4096) 0x11 6,
    need (1 ≤ planWaves b && planWaves b ≤ 8192) 0x11 8, need (planFlows b ≤ 4096) 0x11 10,
    need (zeroBytes b 12 52) 0x11 12, need (offWaves b ≤ 0x100000) 0x11 0,
    need ((frameEntries b).all (fun e => bitsOf e 13 6 == 0 && bitsOf e 5 0 < t)) 0x11 64]

/-- Valid wave and flow entries, and background entries with a kind, of a template. -/
def templateWaves (b : List Byte) (t : Nat) : List (Nat × Nat × Nat) :=
  slots64.flatMap (fun s => ((List.range 4).filter (fun e => bitAt (waveEntry b t s e) 31)).map
    (fun e => (s, e, bitsOf (waveEntry b t s e) 12 0)))
def templateFlows (b : List Byte) (t : Nat) : List (Nat × Nat) :=
  slots64.flatMap (fun s => ((List.range 8).filter (fun k => bitAt (flowEntry b t s k) 31)).map
    (fun k => (s, bitsOf (flowEntry b t s k) 11 0)))
def backgroundKind (b : List Byte) (t slot : Nat) : Nat := bitsOf (backgroundEntry b t slot) 15 12

/-- A template's header (R827). -/
def checkTemplateHeader (b : List Byte) (t : Nat) : Finding :=
  let o := offTemplate b t
  firstOf [need (byteAt b (o + 1) == 0 && zeroBytes b (o + 8) 56) 0x11 o,
    need (leAt b (o + 2) 2 == (templateWaves b t).length) 0x11 (o + 2),
    need (leAt b (o + 4) 2 == (templateFlows b t).length) 0x11 (o + 4),
    need (leAt b (o + 6) 2 == (slots64.filter (fun s => backgroundKind b t s != 0)).length) 0x11 (o + 6)]

/-- A template's entries: reserved fields, shares, kinds and the guard band (R43, R48, R50). -/
def checkTemplateEntries (b : List Byte) (t : Nat) : Finding :=
  let o := offTemplate b t
  firstOf (slots64.flatMap (fun s =>
    [need ((List.range 128).all (fun pc =>
        let e := dramEntry b t s pc
        e < 64 && bulkShare e ≤ 6 && backgroundShare e ≤ 6)) 0x12 (o + 64 + 256 * s),
      need ((List.range 64).all (fun f => portEntry b t s f ≤ 6)) 0x12 (o + 16448 + 64 * s),
      need ((List.range 4).all (fun e => bitsOf (waveEntry b t s e) 30 13 == 0)) 0x12 (o + 20544 + 16 * s),
      need ((List.range 8).all (fun k => bitsOf (flowEntry b t s k) 30 12 == 0)) 0x12 (o + 21568 + 32 * s),
      need (bitsOf (backgroundEntry b t s) 11 0 == 0 && backgroundKind b t s ≤ 5) 0x12 (o + 23616 + 2 * s),
      need ((List.range 128).all (fun pc =>
        let e := dramEntry b t s pc
        bulkShare e + backgroundShare e ≤ 6)) 0x13 (o + 64 + 256 * s),
      need (s < 60 || (zeroBytes b (o + 64 + 256 * s) 256 && zeroBytes b (o + 16448 + 64 * s) 64 &&
        zeroBytes b (o + 20544 + 16 * s) 16 && zeroBytes b (o + 21568 + 32 * s) 32 &&
        zeroBytes b (o + 23616 + 2 * s) 2)) 0x15 (o + 64 + 256 * s)]))

/-- The row list (R553, R554). -/
def checkRows (b : List Byte) (n : Nat) : Finding :=
  let rows := List.range (planRows b)
  let row := fun i => bitsOf (rowWord b i) 31 29 * 2 ^ 25 + bitsOf (rowWord b i) 24 0
  let spare := fun i => (bitsOf (rowWord b i) 31 29, bitsOf (rowWord b i) 24 12, bitsOf (rowWord b i) 26 25)
  let remaps := rows.filter (fun i => bitsOf (rowWord b i) 28 27 == 1)
  let weak := rows.filter (fun i => bitsOf (rowWord b i) 28 27 == 0)
  let pc := fun i => (bitsOf (rowWord b i) 31 29, bitsOf (rowWord b i) 24 18)
  firstOf (rows.map (fun i =>
      let w := rowWord b i
      let kind := bitsOf w 28 27
      need (kind != 3 && bitsOf w 11 0 ≤ 2860 && bitsOf w 26 25 ≤ 2 && (kind == 1 || bitsOf w 26 25 == 0) &&
        bitsOf w 31 29 < n) 0x16 (offRows b + 4 * i))
    ++ [need ((rows.map row).eraseDups.length == rows.length) 0x16 (offRows b),
      need ((remaps.map spare).eraseDups.length == remaps.length) 0x16 (offRows b),
      need (weak.all (fun i => (weak.filter (fun j => pc j == pc i)).length ≤ 64)) 0x16 (offRows b)])

/-- Scrub coverage of a frame list: every pseudo-channel, in every 64 consecutive entries (R573). -/
def scrubCovered (b : List Byte) (period : Nat) (entry : Nat → Nat) : Bool :=
  let scrubbed := fun (t pc : Nat) => slots64.any (fun sl => backgroundKind b t sl == 1 && backgroundShare (dramEntry b t sl pc) != 0)
  (List.range period).all (fun i => (List.range 128).all (fun pc =>
    (List.range (min 64 period)).any (fun k => scrubbed (bitsOf (entry ((i + k) % period)) 5 0) pc)))

/-- Refresh coverage on this slice's stacks (R48, R552) and scrub coverage (R573). -/
def Dev.checkRefresh (s : Dev) (b : List Byte) : Finding :=
  let frame := 2048 * 2 ^ planLenCode b
  let weak := (List.range (planRows b)).filter (fun i =>
    bitsOf (rowWord b i) 28 27 == 0 && bitsOf (rowWord b i) 31 29 == s.pos)
  firstOf ((List.range 128).map (fun pc =>
      let id := s.reg (if pc < 64 then R.stkId0 else R.stkId1)
      let per := slots64.foldl (fun a sl => a + refreshEntry b sl pc) 0
      let w := (weak.filter (fun i => bitsOf (rowWord b i) 24 18 == pc)).length
      need ((64 * bitsOf id 31 16 + w) * frame ≤ per * bitsOf id 39 32 * 1600000) 0x16 (offRefresh b))
    ++ [need (scrubCovered b (planPeriod b) (normalEntry b) && scrubCovered b (planDegPeriod b) (degradedEntry b)) 0x16 (offTemplates b)])

/-- Whether a span of a SHADE or TILE window lies in one valid region of a table. -/
def inWindowRegion (table : List Byte) (space first len : Nat) : Bool :=
  (imageRegions table).any (fun g => g.valid && g.space == space && g.first * 0x10000 ≤ first &&
    first + len ≤ (g.first + g.size) * 0x10000)

/-- A wave descriptor that a valid entry names (R352; the rest in Dev.checkWaveUse). Accumulator footprints have the code
of R48 (log entry 134). -/
def checkWave (b table : List Byte) (i : Nat) : Finding :=
  let o := offWaves b + 64 * i
  if planWaves b ≤ i then some (0x19, offWaves b)
  else
    let d := waveOf b i
    let w := waveWord b i
    let intFormat := [0x9, 0xA, 0xB, 0xC, 0xD].contains d.wFormat
    let aLen := payloadBytes d.aFormat
    let blocks := (d.batch - 1) * d.aStride + 4 * d.kTiles
    let spaceOk := d.wSpace != 3 && (d.aSpace == 1 || d.aSpace == 2) && d.oSpace != 3 && d.outMode != 3
    firstOf ([need (bitsOf (w 0) 51 48 == 0 && !bitAt (w 2) 48 && bitsOf (w 4) 26 0 == 0 && bitsOf (w 5) 61 60 == 0 &&
        bitsOf (w 7) 63 16 == 0 && outWordFields d.outWord) 0x19 o]
      ++ if d.empty then []
      else [
        need spaceOk 0x19 o, need (d.batch ≤ 256 && d.nTiles ≤ 256) 0x19 o,
        need (d.wFormat == 2 || (4 ≤ d.wFormat && d.wFormat ≤ 0xD)) 0x19 o,
        need ((1 ≤ d.aFormat && d.aFormat ≤ 3) || d.aFormat == 9) 0x19 (o + 16),
        need (!d.high || d.aFormat != 9) 0x19 o,
        need (!d.accInt || (intFormat && d.aFormat == 9 && !d.high)) 0x19 (o + 32),
        need (d.accCol + d.nTiles * d.batch ≤ 256) 0x18 (o + 32),
        need (4 * d.kTiles ≤ d.aStride) 0x19 (o + 24),
        need (inWindowRegion table d.aSpace (bitsOf d.aAddr 28 0) (blocks * aLen)) 0x19 (o + 16),
        need (if d.aFormat == 9 then inWindowRegion table d.aSpace (bitsOf d.aScale 28 0) blocks else d.aScale == 0) 0x19 (o + 24),
        need (d.outMode != 0 || (w 5 == 0 && w 6 == 0 && w 7 == 0)) 0x19 (o + 40),
        need (d.outMode != 1 || 4 * d.nTiles ≤ d.oStride) 0x19 (o + 48),
        need (d.outMode != 2 || (d.flow < planFlows b && d.oSpace == 0 && d.oAddr == 0 && w 6 == 0 && w 7 == 0)) 0x19 (o + 40)])

/-- Whether PARENT is a tree toward a root over members of a set of n (R426, R526). The positions past the set are no slices: the
worked PARENT values leave them 0. -/
def treeOk (n root parent mask : Nat) : Bool :=
  let ms := treeMembers parent root mask
  root < n && (onesOf 8 mask).all (fun p => p < n) && ms.all (fun p => p < n) && parentOf parent root == root &&
    (List.range n).all (fun p =>
      if ms.contains p && p != root then gridNext p (parentOf parent p) && (pathUp parent root 8 p).contains root
      else parentOf parent p == p)

/-- A flow descriptor that a valid entry names (R426; the rest in Dev.checkFlowUse). -/
def checkFlow (b table : List Byte) (n i : Nat) : Finding :=
  let o := offFlows b + 64 * i
  if planFlows b ≤ i then some (0x19, offFlows b)
  else
    let d := flowOf b i
    let w := flowWord b i
    let span := d.lines * 64
    let dst := bitsOf d.dstAddr 28 0
    let overlap := (List.range d.srcCount).any (fun k =>
      bitAt d.parts d.root && d.dstSpace == d.srcSpace && dst < d.srcOffset + k * d.srcStride + span && d.srcOffset + k * d.srcStride < dst + span)
    firstOf ([need (bitsOf (w 0) 31 24 == 0 && bitsOf (w 1) 61 29 == 0 && bitsOf (w 2) 63 29 == 0 && bitsOf (w 3) 61 48 == 0 &&
        bitsOf (w 4) 63 16 == 0 && w 5 == 0 && w 6 == 0 && w 7 == 0 && outWordFields d.outWord) 0x19 o]
      ++ if d.empty then []
      else [
        need (d.op != 3 && d.type != 3 && (d.op == 0 || d.type == 0)) 0x19 o,
        need (d.srcCount ≤ 4 && d.lines ≤ 4096) 0x19 o,
        need (treeOk n d.root d.parent d.parts) 0x19 o,
        need (d.srcSpace == 1 || d.srcSpace == 2) 0x19 (o + 8),
        need (d.srcOffset % 64 == 0 && d.srcStride % 64 == 0) 0x19 (o + 8),
        need ((List.range d.srcCount).all (fun k => inWindowRegion table d.srcSpace (d.srcOffset + k * d.srcStride) span)) 0x19 (o + 8),
        need (d.dstSpace != 3) 0x19 (o + 24),
        need (d.dstSpace == 0 || (d.outWord == 0 && inWindowRegion table d.dstSpace dst span)) 0x19 (o + 24),
        need (!overlap) 0x19 (o + 24)])

/-- The Lens activity of a template, as HEAVY_NEXT codes it (R41). -/
def templateActivity (b : List Byte) (t : Nat) : Nat :=
  min 3 (((templateWaves b t).map (fun w => w.2.1)).eraseDups.length)

/-- Heavy hints of a frame list (R48). -/
def heavyOk (b : List Byte) (period : Nat) (entry : Nat → Nat) : Bool :=
  (List.range period).all (fun i => templateActivity b (bitsOf (entry ((i + 1) % period)) 5 0) ≤ bitsOf (entry i) 15 14)

/-- The frame plan section, on a set of n slices under a region table (R48). -/
def Dev.checkPlan (s : Dev) (b table : List Byte) (n : Nat) : Finding :=
  let ts := planTemplateList b
  let waves := ts.flatMap (fun t => (templateWaves b t).map (fun w => w.2.2))
  let flows := ts.flatMap (fun t => (templateFlows b t).map Prod.snd)
  match firstOf [need (planLenCode b ≤ 2 && (planLenCode b != 0 || n ≤ 4)) 0x10 0, checkPlanSizes b] with
  | some f => some f
  | none =>
    firstOf (ts.map (checkTemplateHeader b) ++ ts.map (checkTemplateEntries b)
      ++ [need (ts.all (fun t => (templateWaves b t).all (fun w => w.2.1 < s.lensCount))) 0x06 (offTemplates b),
        checkRows b n, s.checkRefresh b]
      ++ waves.map (checkWave b table) ++ flows.map (checkFlow b table n)
      ++ [need (heavyOk b (planPeriod b) (normalEntry b) && heavyOk b (planDegPeriod b) (degradedEntry b)) 0x1A 64])

/-! ### Lattice, counters, power class, firmware, initialisation order -/

/-- Timetables of a lattice section, the empty one counted (R679). -/
def timetables (b : List Byte) : List Nat :=
  let l := ((latticeParts b).filter (fun p => p.1 == 2)).map (fun p => p.2.1)
  if l.isEmpty then [0] else l

/-- A transfer descriptor (R516, R526; the rest in Dev.transferOk). -/
def checkTransfer (b : List Byte) (n i : Nat) : Finding :=
  let d := transferOf b i
  let body := (latticePartsOf b 1).headD []
  let w := fun k => leAt body (64 * i + 8 * k) 8
  need (bitsOf (w 0) 35 24 == 0 && bitsOf (w 1) 61 29 == 0 && bitsOf (w 2) 61 29 == 0 && bitsOf (w 3) 63 29 == 0 &&
    bitsOf (w 4) 63 16 == 0 && w 5 == 0 && w 6 == 0 && w 7 == 0 && outWordFields d.outWord && d.lines ≤ 4096 && d.inFormat ≤ 3 &&
    (d.inFormat != 0 || d.outWord == 0) && (d.empty || (treeOk n d.root d.parent d.dests &&
      (d.srcSpace == 1 || d.srcSpace == 2) && (d.dstSpace == 1 || d.dstSpace == 2)))) 0x1C 0

/-- The lattice section (R526, R532, R627, R679, R827). -/
def checkLattice (b plan : List Byte) (n : Nat) : Finding :=
  let ps := latticeParts b
  let count := fun k => (ps.filter (fun p => p.1 == k)).length
  let detours := ((latticePartsOf b 3).map Config.detourPlan).map (fun d => d.1)
  firstOf ([need (zeroBytes b 1 7 && ps.all (fun p => 1 ≤ p.1 && p.1 ≤ 4)) 0x1C 0,
      need (count 1 ≤ 1 && count 2 ≤ 64 && count 3 ≤ 10 && count 4 ≤ 8 && transferCount b ≤ 4096) 0x1C 0,
      need ((ps.map (fun p => (p.1, p.2.1))).eraseDups.length == ps.length) 0x1C 8,
      need ((planTemplateList plan).all (fun t => (timetables b).contains (templateTimetable plan t))) 0x1C 0,
      need (detours.eraseDups.length == detours.length) 0x1C 0]
    ++ (List.range (transferCount b)).map (checkTransfer b n))

/-- The event codes of R775: occurrence, unit count, and whether HF is allowed. -/
def eventOf (code : Nat) : Option (Bool × Nat × Bool) :=
  match code with
  | 0x001 => some (true, 1, false)
  | 0x010 => some (true, 64, true)
  | 0x011 => some (true, 64, true)
  | 0x012 => some (true, 64, false)
  | 0x013 => some (true, 64, false)
  | 0x014 => some (true, 64, false)
  | 0x015 => some (true, 64, true)
  | 0x016 => some (false, 64, false)
  | 0x017 => some (false, 64, false)
  | 0x018 => some (false, 1, false)
  | 0x019 => some (false, 1, false)
  | 0x020 => some (true, 64, true)
  | 0x021 => some (true, 64, true)
  | 0x022 => some (true, 64, true)
  | 0x030 => some (true, 4, false)
  | 0x031 => some (false, 4, false)
  | 0x040 => some (true, 64, true)
  | 0x041 => some (true, 64, true)
  | 0x050 => some (true, 128, false)
  | 0x051 => some (true, 128, false)
  | 0x052 => some (true, 128, false)
  | 0x060 => some (true, 6, false)
  | 0x061 => some (true, 6, false)
  | 0x062 => some (true, 6, false)
  | 0x070 => some (true, 1, true)
  | 0x071 => some (false, 1, false)
  | 0x072 => some (true, 1, true)
  | 0x080 => some (true, 1, false)
  | 0x081 => some (false, 1, false)
  | _ => none

/-- A counter selection word (R771, R777). -/
def selectionOk (w : Nat) : Bool :=
  let mode := bitsOf w 63 62
  let unit := bitsOf w 23 16
  let hf := bitAt w 60
  if mode == 0 then w == 0
  else match eventOf (bitsOf w 9 0) with
    | none => false
    | some e => (mode == 1) == e.1 && (unit == 255 || unit < e.2.1) && (!hf || (mode == 1 && e.2.2)) &&
        (hf || bitsOf w 31 24 == 0) && !bitAt w 61 && bitsOf w 59 48 == 0 && bitsOf w 15 10 == 0

/-- The counter configuration section (R776, R777). -/
def checkCounters (b : List Byte) : Finding :=
  firstOf ([need (b.length == 864) 0x20 0]
    ++ (List.range 12).flatMap (fun g =>
      let cfg := leAt b (72 * g) 8
      need ((!bitAt cfg 63 || bitsOf cfg 55 48 != 0) && bitsOf cfg 62 56 == 0 && bitsOf cfg 47 0 == 0) 0x20 (72 * g)
        :: (List.range 8).map (fun k => need (selectionOk (leAt b (72 * g + 8 + 8 * k) 8)) 0x20 (72 * g + 8 + 8 * k))))

/-- Watts of a power class, and CAP_W as it acts (R735, R756). -/
def classWatts (c : Nat) : Nat := 240 - 20 * c
def Dev.capWatts (s : Dev) : Nat := max 100 (min 240 (s.get F.pwrCap_CAP_W))

/-- Planned power of a slot without its engines and its lattice, in W × 1000 × 128 × enabled facets (R736). -/
def Dev.slotPower (s : Dev) (b : List Byte) (t slot : Nat) : Nat :=
  let nf := s.fuse.facets.length
  let d := (List.range 128).foldl (fun a pc =>
    let e := dramEntry b t slot pc
    a + bulkShare e + backgroundShare e) 0
  let f := s.fuse.facets.foldl (fun a k => a + portEntry b t slot k) 0
  60000 * 128 * nf + 4000 * d * nf + 8375 * f * 128

/-- The power class section (R735 to R737; planned power in Dev.powerProof). -/
def Dev.checkPower (s : Dev) (b : List Byte) : Finding :=
  let c := byteAt b 0
  let demand := byteAt b 1
  firstOf [need (c ≤ 7) 0x1B 0, need (31 ≤ demand && demand ≤ 240) 0x1B 1, need (85 ≤ byteAt b 2 && byteAt b 2 ≤ 115) 0x1B 2,
    need (byteAt b 2 < byteAt b 3 && byteAt b 3 ≤ 125) 0x1B 3, need (zeroBytes b 4 12) 0x1B 4,
    need (classWatts c ≤ s.capWatts) 0x1B 0]

/-- Offset, entry point and length of each core image (R680). -/
def coreImages (b : List Byte) : Nat → Nat → List (Nat × Nat × Nat)
  | 0, _ => []
  | n + 1, o =>
    let len := leAt b (o + 8) 4
    (o, leAt b o 8, len) :: coreImages b n (o + 16 + up8 len)

/-- The firmware section (R680). -/
def checkFirmware (b : List Byte) : Finding :=
  firstOf ((coreImages b 4 0).map (fun c => need (c.2.2 ≤ 0x40000 && zeroBytes b (c.1 + 12) 4) 0x21 (c.1 + 8)))

/-- First and last device chunk of entry k of an initialisation order (R681). -/
def orderEntry (b : List Byte) (k : Nat) : Nat × Nat := (bitsOf (leAt b (8 * k) 8) 16 0, bitsOf (leAt b (8 * k) 8) 48 32)

/-- The initialisation order section (R681). -/
def checkOrder (b table : List Byte) (n : Nat) : Finding :=
  let used := footprints n ((imageRegions table).filter Region.valid)
  firstOf ((List.range (b.length / 8)).map (fun k =>
    let e := orderEntry b k
    need (e.1 ≤ e.2 && e.2 < 91552 && used.all (fun f => !meetsChunk f (e.1, e.2 + 1))) 0x2A (8 * k)))

/-! ### The length walk (R673 to R683) -/

/-- A section of a staged image: TYPE, offset of its header, body length. -/
abbrev Sec := Nat × Nat × Nat

/-- The sections between two offsets, in ascending TYPE; an offset where the walk fails otherwise (R683). -/
def walkSections (m : Memory) (stop : Nat) : Nat → Nat → Nat → Except Nat (List Sec)
  | 0, off, _ => .error off
  | fuel + 1, off, last =>
    if off == stop then .ok []
    else if stop < off + 16 then .error off
    else
      let type := memRead m off 1
      let len := memRead m (off + 4) 4
      if type ≤ last || 10 < type || len % 8 != 0 || stop < off + 16 + len then .error off
      else match walkSections m stop fuel (off + 16 + len) type with
        | .ok l => .ok ((type, off, len) :: l)
        | .error e => .error e

/-- Parts that tile a body from an offset to its end, each on an 8-byte boundary. -/
def tiles (stop : Nat) : Nat → List (Nat × Nat) → Bool
  | off, [] => off == stop
  | off, p :: t => p.1 == off && tiles stop (up8 (off + p.2)) t

/-- Whether the parts of a body fill it exactly (R676, R678 to R681). -/
def partsFit (type : Nat) (b : List Byte) : Bool :=
  match type with
  | 1 => b.length == 496
  | 2 => b.length == 8
  | 3 => b.length == 6208
  | 5 => 64 ≤ b.length && planEnd b == b.length
  | 6 => 8 + 16 * byteAt b 0 ≤ b.length &&
      tiles b.length (8 + 16 * byteAt b 0) ((latticeParts b).map (fun p => (p.2.2.2.1, p.2.2.2.2))) &&
      (latticeParts b).all (fun p => p.1 != 1 || p.2.2.2.2 == 64 * p.2.2.1)
  | 8 => b.length == 16
  | 9 => tiles b.length 0 ((coreImages b 4 0).map (fun c => (c.1, 16 + c.2.2)))
  | 10 => 8 ≤ b.length && b.length ≤ 512
  | _ => true

/-- What the loader finds wrong in a staged image before it trusts it: code, section TYPE and image offset (R674, R683).
patch: MAGIC must be a patch's. -/
def walkImage (m : Memory) (staged : Nat) (patch : Bool) : Except (Nat × Nat × Nat) (List Sec) :=
  let len := memRead m 16 4
  let magic := if patch then 0x50525041 else 0x4B525041
  if memRead m 0 4 != magic then .error (1, 0, 0)
  else if memRead m 4 2 != 1 then .error (1, 0, 4)
  else if len % 8 != 0 || len < 288 || 0x1800000 < len || staged < len then .error (1, 0, 16)
  else match walkSections m (len - 192) 11 64 0 with
    | .error off => .error (2, 0, off)
    | .ok l =>
      let types := l.map (fun x => x.1)
      if (patch && types.isEmpty) || (!patch && types != [1, 2, 3, 4, 5, 6, 7, 8, 9]) then .error (2, 0, 64)
      else match l.find? (fun x => !partsFit x.1 (memBytes m (x.2.1 + 16) x.2.2)) with
        | some x => .error (2, x.1, x.2.1 + 16)
        | none => .ok l

end Sys2Proof.Machine
end

