-- ==== Sys2Proof/Machine/PlanTime.lean ====
section
/-! DEFINITION. The times of a plan frame's items as the loader proves them at load: waves, flows and transfers run fault-free
at their shares, with the DRAM bytes, the Prism lanes, the Chord units and the half-to-half link that they use (R48, R50, R185,
R320, R321, R355, R356, R425, R427, R523). Every function reads the tables in force on the machine it is given, which the loader
takes with the staged sections laid over (Dev.under). -/

namespace Sys2Proof.Machine

/-! ### Items of a plan frame -/

/-- An item of a plan frame as the loader times it: its issue slot, and the SCLK cycles of the frame at which it starts and
has ended. -/
structure Timed where
  item : Item
  slot : Nat
  start : Nat
  stop : Nat
deriving DecidableEq, Repr

/-- The items with an effect that a template under a timetable issues on this slice, in issue order (R37, R389). -/
def Dev.planItems (s : Dev) (t tt : Nat) : List (Item × Nat) :=
  let ws := (templateWaves s.plan t).filter (fun w => !(waveOf s.plan w.2.2).empty)
  let fs := (templateFlows s.plan t).filter (fun f => !(flowOf s.plan f.2).empty && (flowOf s.plan f.2).members.contains s.pos)
  let ts := (issueList s.img.force.lattice tt s.pos).filter (fun x =>
    let d := transferOf s.img.force.lattice x.2
    !d.empty && d.members.contains s.pos)
  slots64.flatMap (fun sl =>
    (ws.filter (fun w => w.1 == sl)).map (fun w => (Item.wave w.2.1 w.2.2, sl))
      ++ (fs.filter (fun f => f.1 == sl)).map (fun f => (Item.flow f.2, sl))
      ++ (ts.filter (fun x => x.1 == sl)).map (fun x => (Item.transfer x.2, sl)))

/-- The sum of a list of numbers. -/
def total (l : List Nat) : Nat := l.foldl (· + ·) 0

/-! ### Waves (R332, R355, R356) -/

/-- Weight tiles that a wave names, from tile 0 to its last (R337, R352). -/
def Wave.tileSpan (d : Wave) : Nat := (d.nTiles - 1) * d.wNstride + d.kTiles

/-- T of a wave (R355). -/
def Dev.waveTime (s : Dev) (d : Wave) : Nat :=
  let l := s.loadTime d
  let sb := s.entryTime d * d.batch
  l + (d.nTiles * d.kTiles - 1) * max l sb + sb + 12 + (if d.outMode == 1 then 4 * d.nTiles * d.batch else 0)

/-- The pseudo-channels of a span of a local region's bytes, with their bytes (R98 to R100). -/
def Dev.pcBytes (s : Dev) (g : Region) (off len : Nat) : List (Nat × Nat) :=
  if len == 0 then []
  else (List.range ((off + len - 1) / 512 + 1 - off / 512)).map (fun i =>
    let lo := max off ((off / 512 + i) * 512)
    let hi := min (off + len) ((off / 512 + i + 1) * 512)
    let h := s.devOf g lo
    (pcNumber h.2.1 h.2.2, hi - lo))

/-- The pseudo-channels of every MEM weight byte that a wave loads: payloads, scales and escape groups (R356). -/
def Dev.waveBytes (s : Dev) (d : Wave) : List (Nat × Nat) :=
  if d.wSpace != 0 then []
  else
    let g := s.weightRegion d
    d.tiles.flatMap (fun t =>
      let n := s.weightStart d + 512 * t
      let pages := s.tilePages d t
      (List.range 512).flatMap (fun j => s.pcBytes g (blockOffset d.wFormat (n + j)) (payloadBytes d.wFormat))
        ++ (if isWide d.wFormat then [] else s.pcBytes g (g.scaleBase + n) 512)
        ++ (if g.escSlots == 0 then [] else
          s.pcBytes g (g.escBase + pages.1 * g.escSlots * 64) (pages.2 * g.escSlots * 64)))

/-- Bytes that the BULK share of a slot carries on a pseudo-channel, at the trained rate (R50, R541, R543). -/
def Dev.bulkBytes (s : Dev) (t sl pc : Nat) : Nat :=
  bulkShare (dramEntry s.plan t sl pc) * s.slotLen * s.get F.stkConfig_TRAINED / 3200

/-- Carries bytes of a pseudo-channel in the BULK shares of some slots, over what earlier waves took: the slot after the last
that carries any, 64 where they do not suffice, and what is taken then. -/
def Dev.carry (s : Dev) (t pc : Nat) : List Nat → Nat → SMap Nat → Nat × SMap Nat
  | [], left, used => (if left == 0 then 0 else 64, used)
  | sl :: rest, left, used =>
    let old := tgetD used (64 * pc + sl) 0
    let k := min (s.bulkBytes t sl pc - old) left
    let r := s.carry t pc rest (left - k) (tput 0 used (64 * pc + sl) (old + k))
    (if k == 0 then r.1 else max r.1 (sl + 1), r.2)

/-- Carries a wave's MEM weight bytes from its issue slot on (R356). -/
def Dev.carryWave (s : Dev) (t slot : Nat) (d : Wave) (used : SMap Nat) : Nat × SMap Nat :=
  let l := s.waveBytes d
  (List.range 128).foldl (fun (a : Nat × SMap Nat) pc =>
    let n := total ((l.filter (fun x => x.1 == pc)).map Prod.snd)
    let r := s.carry t pc ((List.range 60).drop slot) n a.2
    (max a.1 r.1, r.2)) (0, used)

/-! ### Flows and transfers (R425, R520, R523) -/

/-- A of R425: the take. -/
def Flow.take (d : Flow) : Nat := d.srcCount * divUp d.lines 2

/-- H of R425: the most hops from a tree member to ROOT. -/
def Flow.hops (d : Flow) : Nat := largest (d.members.map (fun p => (pathUp d.parent d.root 8 p).length - 1))

/-- N of R425, and C of R427 for the destination step. -/
def Flow.count (d : Flow) : Nat := if d.op == 2 then d.lines * d.srcCount * popCount 8 d.parts else d.lines
def Flow.cost (d : Flow) : Nat := if d.op == 2 then 4 else 1

/-- Facet of an offset of a local MEM region (R99). -/
def Dev.memFacet (s : Dev) (g : Region) (off : Nat) : Nat := s.fuse.owner (s.devOf g off).2.1

/-- The destination region of a flow in MEM. -/
def Dev.flowRegion (s : Dev) (d : Flow) : Region := ((s.regionOf 0 d.dstAddr 64).map s.region).getD Region.empty

/-- Whether a flow's destination is typed. -/
def Dev.flowTyped (s : Dev) (d : Flow) : Bool := d.dstSpace == 0 && (s.flowRegion d).format != 0

/-- The blocks that a typed flow writes (R420). -/
def Dev.flowBlocks (s : Dev) (d : Flow) : List Nat :=
  let g := s.flowRegion d
  let n0 := blockAt g.format (d.dstAddr - g.first * 0x200000)
  (List.range (d.lines / blockLines (if d.type == 1 then 2 else 1))).map (fun k => n0 + k)

/-- The facet that each destination line of a flow reaches, on ROOT. -/
def Dev.flowFacets (s : Dev) (d : Flow) : List Nat :=
  let g := s.flowRegion d
  if s.flowTyped d then (s.flowBlocks d).map (fun n => s.memFacet g (blockOffset g.format n))
  else (List.range d.lines).map (fun l =>
    if d.dstSpace == 0 then s.memFacet g (d.dstAddr + 64 * l - g.first * 0x200000)
    else s.windowFacet d.dstSpace (bitsOf d.dstAddr 28 0 + 64 * l))

/-- T of a flow (R425). F is that of ROOT's own facets, so only ROOT takes the term that divides by it (log entry 105). -/
def Dev.flowTime (s : Dev) (d : Flow) : Nat :=
  let f := (s.flowFacets d).eraseDups.length
  let spread := if d.root == s.pos && f != 0 then divUp (d.count * d.cost) f else 0
  max d.take (max (divUp d.count 2) spread) + 24 * d.hops + 14

/-- The port of position p that the topology joins to position q (R491, R514). -/
def portTo (topology : List Byte) (p q : Nat) : Option Nat :=
  (List.range 6).find? (fun k =>
    let w := portRecord topology p k
    bitsOf w 33 32 == 1 && bitsOf w 31 29 == q)

/-- The entries of a position's link list for an item on the port joined to a neighbour. -/
def Dev.edgeEntries (s : Dev) (tt p q : Nat) (flow : Bool) (i : Nat) : List LinkEntry :=
  match portTo s.img.force.topology p q with
  | some k => (linkList s.img.force.lattice tt p).filter (fun e => e.flow == flow && e.index == i && e.port == k)
  | none => []

/-- LCLK of an entry's last flit. -/
def LinkEntry.last (e : LinkEntry) : Nat := lclkAt (e.rank + e.flits - 1)

/-- SCLK cycles until an LCLK of the frame starts: five LCLK in four SCLK (R23, R478). -/
def sclkAt (n : Nat) : Nat := divUp (4 * n) 5

/-- When the links have done with an item on this slice: its last flit has left, and the last that comes has become usable
(R523). -/
def Dev.linksDone (s : Dev) (tt : Nat) (flow : Bool) (i : Nat) : Nat :=
  let all := List.range (byteAt s.img.force.topology 0)
  sclkAt (max (largest (all.flatMap (fun q => (s.edgeEntries tt s.pos q flow i).map (fun e => e.last + 1))))
    (largest (all.flatMap (fun q => (s.edgeEntries tt q s.pos flow i).map (fun e => e.last + 30)))))

/-! ### The timeline of a plan frame (R48, R353, R354, R390, R422) -/

/-- When the items issued earlier that write a byte of some spans have ended. -/
def Dev.writersEnd (s : Dev) (l : List Timed) (sp : List Span) : Nat :=
  largest ((l.filter (fun u => (s.itemSpans u.item).any (fun a => sp.any (Span.meets a)))).map Timed.stop)

/-- Whether a timed item is a mode-2 wave of a flow. -/
def Dev.feedsFlow (s : Dev) (i : Nat) (u : Timed) : Bool :=
  match u.item with
  | .wave _ w => (waveOf s.plan w).outMode == 2 && (waveOf s.plan w).flow == i
  | _ => false

/-- When the waves issued earlier to the engines whose files some spans lie in have ended, a flow's own feeders apart (R390,
R423). -/
def drainedBy (l : List Timed) (sp : List Span) : Nat :=
  largest ((l.filter (fun u => match u.item with
    | .wave e _ => sp.any (Span.meets (engineFile e))
    | _ => false)).map Timed.stop)

/-- Whether a timed item is a wave of an engine. -/
def Timed.onEngine (u : Timed) (e : Nat) : Bool :=
  match u.item with
  | .wave k _ => k == e
  | _ => false

/-- The end of a mode-2 wave: the flow that it names has taken its columns (R357, R423). -/
def Dev.takenBy (s : Dev) (items : List (Item × Nat)) (slot i stop : Nat) : Nat :=
  match items.find? (fun x => x.1 == Item.flow i && slot ≤ x.2) with
  | some x => max stop (x.2 * s.slotLen) + (flowOf s.plan i).take
  | none => stop

/-- Times one more item of a plan frame after those issued before it. -/
def Dev.timeItem (s : Dev) (t tt : Nat) (items : List (Item × Nat)) (a : List Timed × SMap Nat) (x : Item × Nat) :
    List Timed × SMap Nat :=
  let issue := x.2 * s.slotLen
  match x.1 with
  | .wave e i =>
    let d := waveOf s.plan i
    let start := max issue (max (largest ((a.1.filter (fun u => u.onEngine e)).map Timed.stop))
      (s.writersEnd (a.1.filter (fun u => u.slot < x.2)) d.activations))
    let c := s.carryWave t x.2 d a.2
    let stop := max (start + s.waveTime d) (c.1 * s.slotLen)
    let stop' := if d.outMode == 2 then s.takenBy items x.2 d.flow stop else stop
    (a.1 ++ [{ item := x.1, slot := x.2, start := start, stop := stop' }], c.2)
  | .flow i =>
    let d := flowOf s.plan i
    let fed := largest ((a.1.filter (s.feedsFlow i)).map (fun u => u.stop - d.take))
    let others := a.1.filter (fun u => !s.feedsFlow i u)
    let start := max issue (max fed (max (drainedBy others (s.itemReads x.1)) (s.writersEnd others (s.itemReads x.1))))
    let stop := if d.root == s.pos then max (start + s.flowTime d) (s.linksDone tt true i)
      else max (start + d.take) (s.linksDone tt true i)
    (a.1 ++ [{ item := x.1, slot := x.2, start := start, stop := stop }], a.2)
  | .transfer i =>
    let d := transferOf s.img.force.lattice i
    let start := max issue (max (drainedBy a.1 (s.itemReads x.1)) (s.writersEnd a.1 (s.itemReads x.1)))
    let own := if d.root == s.pos && bitAt d.dests s.pos then divUp d.lines 2 else 0
    (a.1 ++ [{ item := x.1, slot := x.2, start := start, stop := max (start + own) (s.linksDone tt false i) }], a.2)
  | .background _ => a

/-- The times of every item that a template under a timetable issues on this slice. -/
def Dev.timeline (s : Dev) (t tt : Nat) : List Timed :=
  let items := s.planItems t tt
  (items.foldl (s.timeItem t tt items) ([], [])).1

/-- The last slot in which a timed item is active, with slots of a length. -/
def Timed.lastSlot (u : Timed) (len : Nat) : Nat := max u.slot ((u.stop - 1) / len)

/-- Whether an item is active in a slot: from its issue slot to its planned end. -/
def Timed.activeIn (u : Timed) (len sl : Nat) : Bool := u.slot ≤ sl && sl ≤ u.lastSlot len

/-! ### Prism lanes, Chord units and the half-to-half link (R50, R184, R185, R320, R321, R342, R427) -/

/-- Half SCLK cycles of a lane for one block from one format to another (R320). -/
def convertCost (a b : Nat) : Nat := if a == 1 || b == 1 then 2 else 1

/-- Lane work of blocks written to typed MEM: the conversions, and the full escape budget of each data page touched, on every
lane that converts a block of it (R321; log entry 105). -/
def Dev.typedWork (s : Dev) (g : Region) (src w : Nat) (ns : List Nat) : List (Nat × Nat) :=
  let at_ := fun (n : Nat) => s.memFacet g (blockOffset g.format n)
  ns.map (fun n => (at_ n, convertCost src g.format))
    ++ (if g.escSlots == 0 || outNoEscape w then []
      else (ns.map (fun n => (n / (4 * unitBlocks g.format), at_ n))).eraseDups.map (fun x => (x.2, 2 * g.escSlots)))

/-- Lane work of blocks read or written in a SHADE or TILE window, from a base. -/
def Dev.windowWork (s : Dev) (space base src dst len : Nat) (ns : List Nat) : List (Nat × Nat) :=
  ns.map (fun i => (s.windowFacet space (base + i * len), convertCost src dst))

/-- Block indices of a wave's activations and of its outputs (R347). -/
def Wave.inputBlocks (d : Wave) : List Nat :=
  (List.range d.batch).flatMap (fun v => (List.range (4 * d.kTiles)).map (fun k => v * d.aStride + k))
def Wave.outputBlocks (d : Wave) : List Nat :=
  (List.range d.batch).flatMap (fun v => (List.range (4 * d.nTiles)).map (fun k => v * d.oStride + k))

/-- Half SCLK cycles that an item takes of each facet's Prism lane on this slice. A wave converts its activations once for each
row of tiles (log entry 105); INT8 passes unchanged (R343). -/
def Dev.laneWork (s : Dev) (it : Item) : List (Nat × Nat) :=
  match it with
  | .wave _ i =>
    let d := waveOf s.plan i
    let ins := if d.aFormat == 9 then []
      else (s.windowWork d.aSpace (bitsOf d.aAddr 28 0) d.aFormat 9 (payloadBytes d.aFormat) d.inputBlocks).map (fun x =>
        (x.1, x.2 * d.nTiles))
    ins ++ (if d.outMode != 1 then []
      else if d.oSpace == 0 then
        let g := ((s.regionOf 0 d.oAddr 64).map s.region).getD Region.empty
        let n0 := blockAt g.format (d.oAddr - g.first * 0x200000)
        s.typedWork g 1 d.outWord (d.outputBlocks.map (fun n => n0 + n))
      else s.windowWork d.oSpace (bitsOf d.oAddr 28 0) 1 (outFormat d.outWord) (payloadBytes (outFormat d.outWord))
        d.outputBlocks)
  | .flow i =>
    let d := flowOf s.plan i
    if d.root != s.pos || !s.flowTyped d then []
    else s.typedWork (s.flowRegion d) (if d.type == 1 then 2 else 1) d.outWord (s.flowBlocks d)
  | .transfer i =>
    let d := transferOf s.img.force.lattice i
    if !bitAt d.dests s.pos || d.outWord == 0 then []
    else s.windowWork d.dstSpace d.dstOffset d.inFormat (outFormat d.outWord) (payloadBytes (outFormat d.outWord))
      (List.range (divUp (64 * d.lines) (payloadBytes d.inFormat)))
  | .background _ => []

/-- SCLK cycles that a flow takes of each facet's Chord unit on ROOT (R427). -/
def Dev.unitWork (s : Dev) (it : Item) : List (Nat × Nat) :=
  match it with
  | .flow i =>
    let d := flowOf s.plan i
    if d.root != s.pos || s.flowTyped d then []
    else
      let per := d.cost * (if d.op == 2 then d.srcCount * popCount 8 d.parts else 1)
      (s.flowFacets d).map (fun f => (f, per))
  | _ => []

/-- The die half of an offset of a SHADE or TILE window, none in an accumulator file (R79, R178). -/
def halfOf (space off : Nat) : Option Nat :=
  if space == 1 then some (off / 0x10000000) else if off < 0x10000000 then some (off / 0x8000000) else none

/-- Bytes that an item moves from one half to the other, by the half they leave: what an engine reads of the far half's Shade
or tile store, and a transfer's copy between halves of this slice (R184; log entry 105). -/
def Dev.halfWork (s : Dev) (it : Item) : List (Nat × Nat) :=
  let far := fun (at_ : Option Nat) (h n : Nat) => match at_ with
    | some k => if k == h then [] else [(k, n)]
    | none => []
  match it with
  | .wave e i =>
    let d := waveOf s.plan i
    let h := (s.fuse.lenses.getD e 0) / 2
    (if d.wSpace == 0 then [] else
        far (halfOf d.wSpace (bitsOf d.wAddr 28 0)) h (d.nTiles * d.kTiles * tileBytes d.wFormat))
      ++ far (halfOf d.aSpace (bitsOf d.aAddr 28 0)) h
        (d.nTiles * d.batch * 4 * d.kTiles * (payloadBytes d.aFormat + (if d.aFormat == 9 then 1 else 0)))
  | .transfer i =>
    let d := transferOf s.img.force.lattice i
    if d.root != s.pos || !bitAt d.dests s.pos then []
    else match halfOf d.dstSpace d.dstOffset with
      | some h => far (halfOf d.srcSpace d.srcOffset) h (64 * d.lines)
      | none => []
  | _ => []

/-- A unit in which a share of any number of slots up to 64 is whole. -/
def slotUnit : Nat := (List.range 64).foldl (fun a k => Nat.lcm a (k + 1)) 1

/-- Whether what the items of a timeline take of some resources, each item's spread evenly over the slots in which it is active
(R427; log entry 105), stays within a limit in every slot. -/
def sharesFit (len keys limit : Nat) (l : List Timed) (work : Item → List (Nat × Nat)) : Bool :=
  let use := l.map (fun u => (u, work u.item))
  slots64.all (fun sl =>
    let now := use.filter (fun x => x.1.activeIn len sl)
    (List.range keys).all (fun k =>
      total (now.map (fun x =>
        total ((x.2.filter (fun y => y.1 == k)).map Prod.snd) * slotUnit / (x.1.lastSlot len + 1 - x.1.slot)))
        ≤ limit * slotUnit))

end Sys2Proof.Machine
end

