-- ==== Sys2Proof/Machine/PlanChecks.lean ====
section
/-! DEFINITION. The proofs at load that need the times of a plan frame or the whole set of tables: descriptors against their
buffers, slot occupancy, completion, overlapping writes, drains, the lattice with its detour and loss plans, and planned power
(R48, R50, R185, R338, R352, R356, R392, R426, R526, R532, R627, R736 to R738). -/

namespace Sys2Proof.Machine

/-! ### Descriptors against their buffers (R319, R338, R352, R426, R526) -/

/-- Whether a local address in SHADE or TILE names a slice's window (R78). -/
def inWindowOf (p a : Nat) : Bool := a / 0x20000000 == p

/-- Whether one valid region of a SHADE or TILE window holds every span of a list. -/
def Dev.inOneRegion (s : Dev) (space : Nat) (l : List (Nat × Nat)) : Bool :=
  (space == 1 || space == 2) && s.regions.any (fun g => l.all (fun x => g.contains space x.1 x.2))

/-- The typed local region of this slice that a planned MEM address lies in (R338, R352). -/
def Dev.ownTyped (s : Dev) (a : Nat) : Option Region :=
  match s.regionOf 0 a 64 with
  | some n =>
    let g := s.region n
    if g.interleave == 1 && g.home == s.pos && g.format != 0 then some g else none
  | none => none

/-- Whether n blocks from an address start at a block and lie in a typed region's data area, and so their scales and escape
groups in the region (R301 to R303). -/
def Region.holdsBlocks (g : Region) (a n : Nat) : Bool :=
  let off := a - g.first * 0x200000
  let n0 := blockAt g.format off
  blockOffset g.format n0 == off && n0 + n ≤ g.dataLen * 2048 * unitBlocks g.format

/-- Whether an output word passes R319 for MEM of a region's format, and for SHADE or TILE. -/
def outWordMem (w fmt : Nat) : Bool := outWordFields w && w < 65536 && (outFormat w == 0 || outFormat w == fmt)
def outWordWindow (w : Nat) : Bool := outWordFields w && 1 ≤ outFormat w && outFormat w ≤ 0xD

/-- Whether a palette of the format tables is of the kind that a weight format needs; other formats need none (R289, R338). -/
def paletteFits (formats : List Byte) (fmt p : Nat) : Bool :=
  (fmt != 0xC && fmt != 0xD) || (p < byteAt formats 4 && paletteKind formats p == fmt)

/-- Whether a wave's weight source is one of R338, with every payload byte, scale and escape group in its region (R352). -/
def Dev.weightsOk (s : Dev) (d : Wave) : Bool :=
  let n := 512 * d.tileSpan
  if d.wSpace == 0 then
    match s.ownTyped d.wAddr with
    | some g => g.format == d.wFormat && ((d.wFormat != 0xC && d.wFormat != 0xD) || g.palette == d.wPalette) &&
        d.wScale == 0 && g.holdsBlocks d.wAddr n
    | none => false
  else
    paletteFits s.img.force.formats d.wFormat d.wPalette && inWindowOf s.pos d.wAddr &&
      (isWide d.wFormat || inWindowOf s.pos d.wScale) && s.inOneRegion d.wSpace ((bitsOf d.wAddr 28 0, n * payloadBytes d.wFormat) ::
        (if isWide d.wFormat then [] else [(bitsOf d.wScale 28 0, n)]))

/-- Whether a wave's activations lie in one region with their scales (R352). -/
def Dev.inputsOk (s : Dev) (d : Wave) : Bool :=
  inWindowOf s.pos d.aAddr && (d.aFormat != 9 || inWindowOf s.pos d.aScale) && s.inOneRegion d.aSpace (d.activations.map Prod.snd)

/-- Blocks from a mode-1 wave's first output block to its last. -/
def Wave.outputSpan (d : Wave) : Nat := (d.batch - 1) * d.oStride + 4 * d.nTiles

/-- Whether a mode-1 wave's destination is as R352 asks. -/
def Dev.outputOk (s : Dev) (d : Wave) : Bool :=
  let fmt := outFormat d.outWord
  if d.oSpace == 0 then
    match s.ownTyped d.oAddr with
    | some g => outWordMem d.outWord g.format && d.oScale == 0 && g.holdsBlocks d.oAddr d.outputSpan
    | none => false
  else
    outWordWindow d.outWord && inWindowOf s.pos d.oAddr && (if isWide fmt then d.oScale == 0 else inWindowOf s.pos d.oScale) &&
      s.inOneRegion d.oSpace ((bitsOf d.oAddr 28 0, d.outputSpan * payloadBytes fmt) ::
        (if isWide fmt then [] else [(bitsOf d.oScale 28 0, d.outputSpan)]))

/-- The span of n MEM blocks from an address, payload and scales, as spans of local addresses. -/
def Region.blockSpans (g : Region) (a n : Nat) : List Span :=
  let base := g.first * 0x200000
  let n0 := blockAt g.format (a - base)
  (0, a, blockOffset g.format (n0 + n - 1) + payloadBytes g.format - blockOffset g.format n0) ::
    (if isWide g.format then [] else [(0, base + g.scaleBase + n0, n)])

/-- The spans that a wave's weights and its mode-1 output take. -/
def Dev.weightSpans (s : Dev) (d : Wave) : List Span :=
  let n := 512 * d.tileSpan
  if d.wSpace == 0 then (s.weightRegion d).blockSpans d.wAddr n
  else (d.wSpace, bitsOf d.wAddr 28 0, n * payloadBytes d.wFormat) ::
    (if isWide d.wFormat then [] else [(d.wSpace, bitsOf d.wScale 28 0, n)])
def Dev.outputSpans (s : Dev) (d : Wave) : List Span :=
  let fmt := outFormat d.outWord
  if d.oSpace == 0 then (((s.regionOf 0 d.oAddr 64).map s.region).getD Region.empty).blockSpans d.oAddr d.outputSpan
  else (d.oSpace, bitsOf d.oAddr 28 0, d.outputSpan * payloadBytes fmt) ::
    (if isWide fmt then [] else [(d.oSpace, bitsOf d.oScale 28 0, d.outputSpan)])

/-- A wave that a valid entry of engine e names: the rest of R352. -/
def Dev.checkWaveUse (s : Dev) (e i : Nat) : Finding :=
  let b := s.plan
  let d := waveOf b i
  let o := offWaves b + 64 * i
  if d.empty then none
  else firstOf [need (s.weightsOk d) 0x19 o, need (s.inputsOk d) 0x19 (o + 16),
    need (d.outMode != 1 || s.outputOk d) 0x19 (o + 40),
    need (d.outMode != 1 || (s.outputSpans d).all (fun x =>
      (s.weightSpans d ++ d.activations).all (fun y => !Span.meets x y))) 0x19 (o + 40),
    need (d.outMode != 2 || (flowOf b d.flow).sourceSpans.contains (d.columns e)) 0x19 (o + 40)]

/-- Whether a flow's destination is one region as R426 asks: RAW on ROOT, or typed. -/
def Dev.flowDestOk (s : Dev) (d : Flow) : Bool :=
  if d.dstSpace == 0 then
    match s.regionOf 0 d.dstAddr 64 with
    | none => false
    | some n =>
      let g := s.region n
      let per := blockLines (if d.type == 1 then 2 else 1)
      g.interleave == 1 && g.home == d.root &&
        (if g.format == 0 then d.outWord == 0 && g.contains 0 d.dstAddr (64 * d.lines)
        else d.dstInit && d.op == 0 && d.type ≤ 1 && d.lines % per == 0 && outWordMem d.outWord g.format &&
          g.holdsBlocks d.dstAddr (d.lines / per))
  else
    let off := bitsOf d.dstAddr 28 0
    d.outWord == 0 && inWindowOf d.root d.dstAddr && (d.dstSpace == 1 || off < 0x10000000) &&
      s.inOneRegion d.dstSpace [(off, 64 * d.lines)]

/-- Whether a flow's sources in accumulator files are the columns of mode-2 waves of a template that name it, of its TYPE. -/
def Dev.flowTakesOk (s : Dev) (t i : Nat) (d : Flow) : Bool :=
  d.sourceSpans.all (fun x => x.1 != 2 || x.2.1 + x.2.2 ≤ 0x10000000 ||
    (templateWaves s.plan t).any (fun w =>
      let v := waveOf s.plan w.2.2
      !v.empty && v.outMode == 2 && v.flow == i && v.columns w.2.1 == x && d.type == (if v.accInt then 2 else 0)))

/-- A flow that a valid entry of a template names: the rest of R426. -/
def Dev.checkFlowUse (s : Dev) (t i : Nat) : Finding :=
  let d := flowOf s.plan i
  let o := offFlows s.plan + 64 * i
  if d.empty then none
  else firstOf [need (s.flowTakesOk t i d) 0x19 (o + 8), need (s.flowDestOk d) 0x19 (o + 24)]

/-- The Transfers row of R526: spans, LINES and OUT_WORD. -/
def Dev.transferOk (s : Dev) (i : Nat) : Bool :=
  let d := transferOf s.img.force.lattice i
  let fmt := outFormat d.outWord
  let blocks := divUp (64 * d.lines) (payloadBytes d.inFormat)
  d.empty || (s.inOneRegion d.srcSpace [(d.srcOffset, 64 * d.lines)] &&
    (if d.inFormat == 0 then d.outWord == 0 && d.dstScale == 0 && s.inOneRegion d.dstSpace [(d.dstOffset, 64 * d.lines)]
    else outWordWindow d.outWord && (isWide fmt || d.inFormat != 1 || d.lines % 2 == 0) && (!isWide fmt || d.dstScale == 0) &&
      s.inOneRegion d.dstSpace ((d.dstOffset, blocks * payloadBytes fmt) ::
        (if isWide fmt then [] else [(d.dstScale, blocks)]))))

/-! ### Occupancy, completion, overlaps and drains (R48, R50, R185, R356, R392) -/

/-- The spans of Shade and tile store that an item writes: not the columns that a wave promotes into. -/
def Dev.bufferSpans (s : Dev) (it : Item) : List Span :=
  match it with
  | .wave _ _ => (s.itemSpans it).drop 1
  | _ => s.itemSpans it

/-- The entries that a drain reads, and when its fault-free run ends (R390, R392). -/
def Dev.drainOf (s : Dev) (u : Timed) : List Span × Nat :=
  match u.item with
  | .wave e i => (if (waveOf s.plan i).outMode == 1 then [(waveOf s.plan i).columns e] else [], u.stop)
  | .flow i => (s.itemReads u.item, u.start + (flowOf s.plan i).take)
  | it => (s.itemReads it, u.stop)

/-- Whether no wave promotes into entries that an earlier drain still reads in the wave's issue slot (R392). -/
def Dev.drainsClear (s : Dev) : List Timed → Bool
  | [] => true
  | u :: rest =>
    let d := s.drainOf u
    rest.all (fun v => match v.item with
      | .wave e i => !d.1.any (Span.meets ((waveOf s.plan i).columns e)) || (d.2 - 1) / s.slotLen < v.slot
      | _ => true) && s.drainsClear rest

/-- Whether no two items active in one slot write overlapping bytes of Shade or tile store (R48). -/
def Dev.writesApart (s : Dev) : List Timed → Bool
  | [] => true
  | u :: rest =>
    rest.all (fun v =>
      v.lastSlot s.slotLen < u.slot || u.lastSlot s.slotLen < v.slot ||
        (s.bufferSpans u.item).all (fun x => (s.bufferSpans v.item).all (fun y => !Span.meets x y))) && s.writesApart rest

/-- The proofs of a template under a timetable on this slice, from its timeline: occupancy of lanes, units and the half-to-half
link, completion before slot 60, overlapping writes and drains. -/
def Dev.checkTimeline (s : Dev) (t : Nat) (l : List Timed) : Finding :=
  let o := offTemplate s.plan t
  let len := s.slotLen
  firstOf [need (sharesFit len 64 (12 * len / 8) l s.laneWork) 0x12 o,
    need (sharesFit len 64 (6 * len / 8) l s.unitWork) 0x12 o,
    need (sharesFit len 2 (1024 * len) l s.halfWork) 0x12 o,
    need (l.all (fun u => u.stop ≤ 60 * len && (match u.item with
      | .flow i => u.slot * len + s.flowTime (flowOf s.plan i) ≤ 60 * len
      | _ => true))) 0x14 o,
    need (s.writesApart l) 0x17 o, need (s.drainsClear l) 0x19 o]

/-! ### The lattice (R526) -/

/-- LCLK cycles of a slot (R23). -/
def Dev.slotLclk (s : Dev) : Nat := 5 * s.slotLen / 4

/-- Whether two entries of a port share an LCLK. -/
def LinkEntry.meets (a b : LinkEntry) : Bool := a.rank < b.rank + b.flits && b.rank < a.rank + a.flits

/-- Whether the entries of a list are pairwise apart. -/
def entriesApart : List LinkEntry → Bool
  | [] => true
  | e :: rest => rest.all (fun f => !e.meets f) && entriesApart rest

/-- Lattice LCLK cycles of a port in a slot. -/
def Dev.lclkIn (s : Dev) (l : List LinkEntry) (sl : Nat) : Nat :=
  total (l.map (fun e => ((List.range e.flits).filter (fun i => lclkAt (e.rank + i) / s.slotLclk == sl)).length))

/-- Ports and Share: every entry on a die link, with its fields in range, at most 5 eighths of a slot, and no LCLK shared. -/
def Dev.linksOk (s : Dev) (tt : Nat) : Bool :=
  let lat := s.img.force.lattice
  (List.range (byteAt s.img.force.topology 0)).all (fun p =>
    let es := linkList lat tt p
    (linkWords lat tt p).all (fun w => bitsOf w 5 0 == 0) &&
      es.all (fun e => e.port < 6 && bitsOf (portRecord s.img.force.topology p e.port) 33 32 == 1 && e.flits != 0 &&
        e.index < (if e.flow then planFlows s.plan else transferCount lat)) &&
      (List.range 6).all (fun k =>
        let l := es.filter (fun e => e.port == k)
        entriesApart l && slots64.all (fun sl => 8 * s.lclkIn l sl ≤ 5 * s.slotLclk)))

/-- Coverage of one tree edge: every line exactly once. -/
def Dev.edgeCovered (s : Dev) (tt p q : Nat) (flow : Bool) (i : Nat) (lines : List Nat) : Bool :=
  let carried := ((s.edgeEntries tt p q flow i).flatMap (fun e => (List.range e.flits).flatMap e.flitLines)).filter lines.contains
  carried.length == lines.length && lines.all carried.contains

/-- The LCLK in which an edge carries a line (R520). -/
def Dev.lclkOf (s : Dev) (tt p q : Nat) (flow : Bool) (i line : Nat) : Nat :=
  ((s.edgeEntries tt p q flow i).findSome? (fun e =>
    if e.line ≤ line && line < e.line + 3 * e.flits then some (lclkAt (e.rank + (line - e.line) / 3)) else none)).getD 0

/-- Whether no other port of the members carries lines of an item: its entries are all on edges of the tree. -/
def Dev.onTree (s : Dev) (tt : Nat) (flow : Bool) (i : Nat) (edges : List (Nat × Nat)) : Bool :=
  (List.range (byteAt s.img.force.topology 0)).all (fun p =>
    (linkList s.img.force.lattice tt p).all (fun e => e.flow != flow || e.index != i ||
      edges.any (fun x => x.1 == p && portTo s.img.force.topology p x.2 == some e.port)))

/-- Transfer i issued in slot sl: coverage and readiness on every edge, lines moving away from ROOT (R517, R523). -/
def Dev.transferLinksOk (s : Dev) (tt sl i : Nat) : Bool :=
  let d := transferOf s.img.force.lattice i
  let edges := d.members.flatMap (fun p => (d.children p).map (fun c => (p, c)))
  let lines := List.range d.lines
  d.empty || (s.onTree tt false i edges && edges.all (fun x =>
    s.edgeCovered tt x.1 x.2 false i lines && lines.all (fun l =>
      let ready := if x.1 == d.root then sl * s.slotLclk else s.lclkOf tt (parentOf d.parent x.1) x.1 false i l + 30
      ready ≤ s.lclkOf tt x.1 x.2 false i l)))

/-- SCLK cycles after its start at which a member has taken what an own line needs (R425). -/
def Flow.takenAfter (d : Flow) (p line : Nat) : Nat :=
  let half := divUp d.lines 2
  if d.op == 2 then (line / d.lines - 4 * p) * half + line % d.lines / 2 + 1 else (d.srcCount - 1) * half + line / 2 + 1

/-- Whether a member takes a line from its own sources. -/
def Flow.ownLine (d : Flow) (p line : Nat) : Bool := d.contributes p && (d.op != 2 || line / (4 * d.lines) == p)

/-- Flow i issued in slot sl: coverage and readiness on every edge, lines moving toward ROOT (R417, R425, R523). from_: the SCLK
cycle at which this slice starts it. -/
def Dev.flowLinksOk (s : Dev) (tt sl i from_ : Nat) : Bool :=
  let d := flowOf s.plan i
  let below := d.members.filter (fun p => p != d.root)
  d.empty || (s.onTree tt true i (below.map (fun p => (p, parentOf d.parent p))) && below.all (fun p =>
    let up := parentOf d.parent p
    let lines := d.handles p
    let start := if p == s.pos then max (sl * s.slotLen) from_ else sl * s.slotLen
    s.edgeCovered tt p up true i lines && lines.all (fun l =>
      let n := s.lclkOf tt p up true i l
      (!d.ownLine p l || 5 * (start + d.takenAfter p l) ≤ 4 * n) &&
        (d.children p).all (fun c => !(d.handles c).contains l || s.lclkOf tt c p true i l + 30 ≤ n))))

/-- Lines that the items of a timeline reserve of this slice's lattice buffer in a slot (R525). -/
def Dev.reservedIn (s : Dev) (l : List Timed) (sl : Nat) : Nat :=
  total ((l.filter (fun u => u.activeIn s.slotLen sl)).map (fun u => s.reservation u.item))

/-- The conditions of R526 on a timetable, apart from flows. -/
def Dev.timetableOk (s : Dev) (tt : Nat) : Bool :=
  let lat := s.img.force.lattice
  let all := List.range (byteAt s.img.force.topology 0)
  s.linksOk tt && all.all (fun p => (issueList lat tt p).all (fun x =>
    let d := transferOf lat x.2
    x.1 < 64 && x.2 < transferCount lat && (d.empty || (all.filter d.members.contains).all (fun q =>
      (issueList lat tt q).contains x)) && s.transferLinksOk tt x.1 x.2))

/-- The conditions of R526 on the frames of a template under a timetable, from its timeline. -/
def Dev.frameLatticeOk (s : Dev) (t tt : Nat) (l : List Timed) : Bool :=
  (templateFlows s.plan t).all (fun f =>
      s.flowLinksOk tt f.1 f.2 (((l.find? (fun u => u.item == .flow f.2 && u.slot == f.1)).map Timed.start).getD 0)) &&
    slots64.all (fun sl => s.reservedIn l sl ≤ 16384) && l.all (fun u => u.stop ≤ 60 * s.slotLen)

/-! ### Detour and loss plans (R532, R627) -/

/-- The next position that the PWK_ROUTE values of the positions give from p to d (R537). -/
def Dev.routeHop (s : Dev) (vals : List Nat) (p d : Nat) : Option Nat :=
  let w := bitsOf (vals.getD p 0) (4 * d + 3) (4 * d)
  let r := portRecord s.img.force.topology p (w % 8)
  if 8 ≤ w && w % 8 < 6 && bitsOf r 33 32 == 1 then some (bitsOf r 31 29) else none

/-- Whether the routes lead from p to d within a number of hops, on none of which a test fails. -/
def Dev.routeReaches (s : Dev) (vals : List Nat) (ok : Nat → Nat → Bool) (d : Nat) : Nat → Nat → Bool
  | 0, p => p == d
  | k + 1, p => p == d || (match s.routeHop vals p d with
    | some q => ok p q && s.routeReaches vals ok d k q
    | none => false)

/-- The hops that wait on a hop from a to b: where its traffic goes on. -/
def Dev.waitsOn (s : Dev) (vals : List Nat) (live : List Nat) (a b : Nat) : List (Nat × Nat) :=
  (live.filter (fun d => d != b && s.routeHop vals a d == some b)).filterMap (fun d =>
    (s.routeHop vals b d).map (fun c => (b, c)))

/-- Drops, a number of times, the hops whose traffic waits on no hop that is left. -/
def Dev.waitCore (s : Dev) (vals : List Nat) (live : List Nat) : Nat → List (Nat × Nat) → List (Nat × Nat)
  | 0, l => l
  | k + 1, l => s.waitCore vals live k (l.filter (fun x => (s.waitsOn vals live x.1 x.2).any l.contains))

/-- Whether some routes over live positions reach every destination, keep to a test, and form no cycle of link waits: every VC
takes the same routes. -/
def Dev.routesOk (s : Dev) (vals : List Nat) (live : List Nat) (ok : Nat → Nat → Bool) : Bool :=
  let hops := live.flatMap (fun a => live.map (fun b => (a, b)))
  live.all (fun p => live.all (fun d => s.routeReaches vals ok d 8 p)) && (s.waitCore vals live hops.length hops).isEmpty

/-- Whether a timetable has no entry on a die link between two positions that a test names. -/
def Dev.timetableAvoids (s : Dev) (tt : Nat) (bad : Nat → Nat → Bool) : Bool :=
  (List.range (byteAt s.img.force.topology 0)).all (fun p => (linkList s.img.force.lattice tt p).all (fun e =>
    !bad p (bitsOf (portRecord s.img.force.topology p e.port) 31 29)))

/-- A template under the timetable map of a detour or loss plan passes R48 and R526. -/
def Dev.mappedOk (s : Dev) (t tt : Nat) : Bool :=
  let l := s.timeline t tt
  (timetables s.img.force.lattice).contains tt && s.timetableOk tt && s.frameLatticeOk t tt l && (s.checkTimeline t l).isNone

/-- The timetable that a map gives a template (R529, R627). -/
def Dev.mappedTimetable (s : Dev) (map : List Nat) (t : Nat) : Nat :=
  let k := templateTimetable s.plan t
  map.getD k k

/-- A detour plan: LINK, routes and map, every entry of a timetable of the section (R532). -/
def Dev.detourOk (s : Dev) (d : Nat × List Nat × List Nat) : Bool :=
  let live := List.range (byteAt s.img.force.topology 0)
  let lost := fun (p q : Nat) => linkIndex p q == d.1
  s.routesOk d.2.1 live (fun p q => !lost p q) && (timetables s.img.force.lattice).all (fun k =>
    let tt := d.2.2.getD k k
    (timetables s.img.force.lattice).contains tt && s.timetableAvoids tt lost && s.timetableOk tt) &&
    (planTemplateList s.plan).all (fun t => s.mappedOk t (s.mappedTimetable d.2.2 t))

/-- A loss plan: LOST, routes, map and frame list (R627). -/
def Dev.lossOk (s : Dev) (d : Nat × List Nat × List Nat × List Nat) : Bool :=
  let list := d.2.2.2
  let live := (List.range (byteAt s.img.force.topology 0)).filter (fun p => p != d.1)
  let gone := fun (p q : Nat) => p == d.1 || q == d.1
  let entry := fun (i : Nat) => list.getD i 0
  s.routesOk d.2.1 live (fun p q => !gone p q) && 1 ≤ list.length && list.length ≤ 256 &&
    list.all (fun e => bitsOf e 13 6 == 0 && bitsOf e 5 0 < planTemplates s.plan) &&
    heavyOk s.plan list.length entry && scrubCovered s.plan list.length entry &&
    list.all (fun e =>
      let t := bitsOf e 5 0
      let tt := s.mappedTimetable d.2.2.1 t
      (templateFlows s.plan t).all (fun f => !(flowOf s.plan f.2).members.contains d.1) &&
        live.all (fun p => (issueList s.img.force.lattice tt p).all (fun x =>
          !(transferOf s.img.force.lattice x.2).members.contains d.1)) &&
        s.timetableAvoids tt gone && s.mappedOk t tt)

/-! ### Planned power (R736 to R738) -/

/-- The engines that a template's waves use. -/
def templateEngines (b : List Byte) (t : Nat) : List Nat := ((templateWaves b t).map (fun w => w.2.1)).eraseDups

/-- Engines active or in ramp in a slot of a frame: those of its waves, those that the next frame's waves use, in every slot,
and until slot 48 those of the frame before, which it lowers in steps (R738; log entry 106). -/
def Dev.enginesIn (s : Dev) (l : List Timed) (sl prev next : Nat) : Nat :=
  ((List.range 4).filter (fun e => l.any (fun u => u.onEngine e && u.activeIn s.slotLen sl) ||
    (templateEngines s.plan next).contains e || (sl < 48 && (templateEngines s.plan prev).contains e))).length

/-- Lattice LCLK cycles of this slice's die links in a slot, summed, and how many die links it has. -/
def Dev.latticeLoad (s : Dev) (tt sl : Nat) : Nat × Nat :=
  let ports := (List.range 6).filter (fun k => bitsOf (portRecord s.img.force.topology s.pos k) 33 32 == 1)
  let es := linkList s.img.force.lattice tt s.pos
  (total (ports.map (fun k => s.lclkIn (es.filter (fun e => e.port == k)) sl)), ports.length)

/-- Whether P + DEMAND_W stays within the class's watts in every slot of a frame list under a timetable map (R736, R737). -/
def Dev.listPower (s : Dev) (list : List Nat) (tt : Nat → Nat) : Bool :=
  let b := s.img.force.power
  let nf := s.fuse.facets.length
  let n := list.length
  let t := fun (i : Nat) => bitsOf (list.getD (i % n) 0) 5 0
  ((List.range n).map (fun i => (t (i + n - 1), t i, t (i + 1)))).eraseDups.all (fun x =>
    let l := s.timeline x.2.1 (tt x.2.1)
    slots64.all (fun sl =>
      let lat := s.latticeLoad (tt x.2.1) sl
      let k := max 1 (lat.2 * s.slotLclk)
      let p := s.slotPower s.plan x.2.1 sl + 7500 * s.enginesIn l sl x.1 x.2.2 * 128 * nf + byteAt b 1 * 128000 * nf
      p * k + 3125 * 8 * lat.1 * 128 * nf ≤ classWatts (byteAt b 0) * 128000 * nf * k))

/-- The normal, the degraded and every loss plan's frame list, each with its timetables. -/
def Dev.powerFits (s : Dev) : Bool :=
  let b := s.plan
  s.listPower ((List.range (planPeriod b)).map (normalEntry b)) (templateTimetable b) &&
    s.listPower ((List.range (planDegPeriod b)).map (degradedEntry b)) (templateTimetable b) &&
    (latticePartsOf s.img.force.lattice 4).all (fun p =>
      let d := Config.lossPlan p
      s.listPower d.2.2.2 (s.mappedTimetable d.2.2.1))

/-! ### The proofs of an image, by section -/

/-- The proofs of the frame plan section (R48). -/
def Dev.planProofs (s : Dev) : Finding :=
  let ts := planTemplateList s.plan
  firstOf (ts.flatMap (fun t =>
      (templateWaves s.plan t).map (fun w => s.checkWaveUse w.2.1 w.2.2)
        ++ (templateFlows s.plan t).map (fun f => s.checkFlowUse t f.2))
    ++ ts.map (fun t => s.checkTimeline t (s.timeline t (templateTimetable s.plan t))))

/-- The proofs of the lattice section (R526, R532, R627). -/
def Dev.latticeProofs (s : Dev) : Finding :=
  let b := s.img.force.lattice
  let losses := (latticePartsOf b 4).map Config.lossPlan
  firstOf [need ((List.range (transferCount b)).all s.transferOk) 0x1C 0,
    need ((timetables b).all s.timetableOk) 0x1C 0,
    need ((planTemplateList s.plan).all (fun t =>
      let tt := templateTimetable s.plan t
      s.frameLatticeOk t tt (s.timeline t tt))) 0x1C 0,
    need (((latticePartsOf b 3).map Config.detourPlan).all s.detourOk) 0x1C 0,
    need (losses.all (fun d => d.1 < byteAt s.img.force.topology 0 && s.lossOk d)) 0x1C 0,
    need ((losses.map (fun d => d.1)).eraseDups.length == losses.length) 0x1C 0]

/-- The proof of the power class section (R737). -/
def Dev.powerProof (s : Dev) : Finding := need s.powerFits 0x1B 0

end Sys2Proof.Machine
end

