-- ==== Sys2Proof/Machine/Power.lean ====
section
/-! DEFINITION. Resets of the slice and of its blocks, the stacks at initialisation, throttles, Dusk, Night and wake
(chapters 16, 20). -/

namespace Sys2Proof.Machine

/-! ### Stacks at initialisation (R541 to R543, R584) -/

/-- The rate that STK_CONFIG.RATE acts as (R584). -/
def rateOf (v : Nat) : Nat := min 9600 (max 6400 (v / 400 * 400))

/-- Whether a stack meets every requirement of R541 at a rate, and trains (R542). -/
def stackQualifies (r : StackReport) (rate : Nat) : Bool :=
  r.qualified && r.trains && r.height == 16 && r.density == 48 && r.banks == 64 && r.trfcNs.toNat ≤ 160 &&
    16 ≤ r.trefwMs.toNat && r.refPerBank.toNat ≤ 8192 && 6400 ≤ r.rateMax.toNat &&
    r.accessNs.toNat * 800 ≤ 36 * 800 + (9600 - rate)

/-- STK_ID of a stack's report (R585). -/
def stackIdWord (r : StackReport) : Nat :=
  r.height.toNat * 2 ^ 56 + r.density.toNat * 2 ^ 48 + r.banks.toNat * 2 ^ 40 + r.trefwMs.toNat * 2 ^ 32
    + r.refPerBank.toNat * 2 ^ 16 + r.trfcNs.toNat * 2 ^ 8

/-- One stack is read and trained (R542, R543). -/
def Dev.trainStack (s : Dev) (id : Nat) (state : Field) (r : StackReport) (rate : Nat) : Dev :=
  let s1 := s.setReg id (stackIdWord r)
  if stackQualifies r rate then s1.put state 2 else (s1.put state 4).stkErr F.stkErr_INIT_FAIL

/-- Step 7 of the out-of-reset order (R543). -/
def Dev.trainStacks (s : Dev) (b : BootInputs) : Dev :=
  let rate := min (rateOf (s.get F.stkConfig_RATE)) (min b.stack0.rateMax.toNat b.stack1.rateMax.toNat / 400 * 400)
  let s1 := s.trainStack R.stkId0 F.stkStatus0_STATE b.stack0 rate
  (s1.trainStack R.stkId1 F.stkStatus1_STATE b.stack1 rate).put F.stkConfig_TRAINED rate

/-- Every queued write reaches its stack (R583); on a failed channel nothing is stored (R581). -/
def Dev.finishWrites (s : Dev) : Dev :=
  s.each s.stack.writes (fun s w =>
    if s.channelFailed (s.groupAt w.d) then { s with stack.writes := s.stack.writes.filter (fun x => x.id != w.id) }
    else s.commitWrite w)

/-! ### Resets (R743, R744, R750, R751, R753) -/

/-- Offsets of the afterglow registers (R750). -/
def isAfterglowReg (off : Nat) : Bool := 0x190100 ≤ off && off < 0x190140

/-- What a cold or warm reset clears (R744, R543): afterglow, strap, fuses, DRAM and, in a warm reset, STK_CONFIG.RATE and
PWK_DISC.ERR (R509) stay. SEC_NONCE takes a new value (R707). -/
def Dev.cleared (s : Dev) (cold : Bool) : Dev :=
  let s0 := if cold || s.phase == .eclipse then s else s.finishWrites
  let csr := (s0.csr.filter (fun e => isAfterglowReg e.1)).foldl (fun m e => tset m e.1 e.2) resetCsr
  let nonce := Config.freeValue s0.freeCount
  let s1 : Dev := { s0 with
    csr := csr
    freeCount := s0.freeCount + 1
    regions := []
    frm := Frm.reset
    img := { Img.reset with stage := s0.img.stage }
    cache := Cache.reset
    stack := { Stack.reset with dram := s0.stack.dram, poison := s0.stack.poison }
    shadow := Shadow.reset
    rfl_ := Rfl.reset
    prism := Prism.reset
    lens := Lens.reset
    links := { Links.reset with
      taken := s0.outbox.length, disc := if cold then 0 else BitVec.ofNat 64 (bitsOf s0.links.disc.toNat 62 60 * 2 ^ 60) }
    mgmt := { Mgmt.reset with
      bootSource := s0.mgmt.bootSource, coldBoot := s0.mgmt.coldBoot, profile1 := s0.mgmt.profile1
      eventSeq := s0.mgmt.eventSeq, boot := s0.mgmt.boot, recHead := s0.mgmt.recHead } }
  let s2 := (s1.setReg R.rstStrap (s.reg R.rstStrap)).setReg R.secNonce nonce.toNat
  if cold then s2 else s2.put F.stkConfig_RATE (s.get F.stkConfig_RATE)

/-- RST_AG0 at step 1 of a reset (R750). -/
def Dev.noteReset (s : Dev) (source kind block : Nat) : Dev :=
  (((s.bump F.rstAg0_COUNT).put F.rstAg0_SOURCE source).put F.rstAg0_KIND kind).put F.rstAg0_BLOCK block

/-- The strap sample of a power-on reset (R751), which also resets the test access port (R812). -/
def Dev.sampleStrap (s : Dev) : Dev :=
  let code := ((s.mgmt.boot.map BootInputs.strap).getD 0).toNat
  let band := code / 4
  let marginal := code % 4 == 0 || code % 4 == 3
  { s.setReg R.rstStrap (code * 256 + b2n marginal * 128 + band) with
    mgmt.profile1 := band % 2 == 1
    tap := Tap.reset }

/-- Every port starts UCIe training (R454, R753). -/
def Dev.trainPorts (s : Dev) : Dev :=
  s.each (List.range 6) (fun s p => ((s.updPort p (fun _ => Port.down)).updTx p (fun _ => Tx.idle)).put (F.pwkStatus_STATE p) 1)

/-- Steps 6 to 8: the core PLL locks, the stacks and then the ports train. Without REFCLK the slice waits on IOSC at
step 6 (R720). -/
def Dev.bootOn (s : Dev) : Dev :=
  match s.mgmt.boot with
  | none => s
  | some b =>
    if !s.pins.refclk then s
    else { ((s.put F.pwrState_SCLK_PLL 1).trainStacks b).trainPorts with phase := .boot 8 }

/-- Step 1 of the out-of-reset order zeroes every 8-byte word of afterglow memory that holds an uncorrectable error (R749). -/
def Dev.checkAfterglow (s : Dev) : Dev :=
  match s.mgmt.boot with
  | none => s
  | some b =>
    { s with
      afterglow := s.afterglow.filter (fun e => !b.afterglowBad.any (fun w => w.toNat == e.1 / 8))
      mgmt.boot := some { b with afterglowBad := [] } }

/-- A cold or warm reset of a source runs its out-of-reset order as far as it can (R743, R753). -/
def Dev.startReset (s : Dev) (cold : Bool) (source : Nat) : Dev :=
  let s1 := (s.cleared cold).checkAfterglow.noteReset source (b2n !cold) 0
  let s2 := if source == 0 then s1.sampleStrap else s1
  let s3 := s2.put (F.gnmCoreStatus_STATE 0) 1
  { s3 with phase := .boot 6, mgmt.coldBoot := cold, mgmt.bootSource := BitVec.ofNat 8 source }.bootOn

/-- Whether a reset is in progress: held, or before the ports have trained (R743). -/
def Dev.resetting (s : Dev) : Bool :=
  match s.phase with
  | .held => true
  | .boot k => k ≤ 8
  | _ => false

/-- A warm or cold reset that is not a power-on reset: absorbed while a reset of the same or a stronger kind is in
progress (R743). -/
def Dev.requestReset (s : Dev) (cold : Bool) (source : Nat) : Dev :=
  if s.resetting && (s.mgmt.coldBoot || !cold) then s
  else match s.phase with
    | .held => s
    | _ => s.startReset cold source

/-- Holds the slice in reset, to leave it by a source (R805, R741, R743). -/
def Dev.hold (s : Dev) (source : Nat) : Dev :=
  { s.cleared true with phase := .held, mgmt.coldBoot := true, mgmt.bootSource := BitVec.ofNat 8 source }

/-- Leaves the held state once PWR_GOOD is high, RST_N released and VDD_CORE in range. -/
def Dev.release (s : Dev) : Dev :=
  if s.phase == .held && s.pins.pwrGood && s.pins.rstN && !s.pins.droop then s.startReset true s.mgmt.bootSource.toNat else s

/-- What the slice senses as it leaves reset: the strap, REFCLK and the stacks. -/
def Dev.sense (s : Dev) (b : BootInputs) : Dev := { s with mgmt.boot := some b, pins.refclk := b.refclk }

/-! ### Pins and supplies (R720, R741, R743, R804, R805) -/

/-- PWR_GOOD rises (R743, R805). -/
def Dev.pwrGoodRise (s : Dev) (b : BootInputs) : Dev :=
  if s.pins.pwrGood then s
  else ({ (s.sense b).hold 0 with pins := { s.pins with pwrGood := true, vddIo := true, refclk := b.refclk, droop := false } }).release

/-- PWR_GOOD falls: the slice is held in reset (R805). -/
def Dev.pwrGoodFall (s : Dev) : Dev :=
  if !s.pins.pwrGood then s
  else { s.hold 0 with pins.pwrGood := false, pins.droop := false }

/-- RST_N is asserted (R743): it holds the slice in reset; in Night only a power-on reset leaves (R734). -/
def Dev.rstAssert (s : Dev) : Dev :=
  let s1 := { s with pins.rstN := false }
  if !s.pins.rstN || s.phase == .held || s.phase == .night then s1 else { s1.hold 1 with pins.droop := false }

/-- RST_N is released (R743, R805). -/
def Dev.rstRelease (s : Dev) (b : BootInputs) : Dev :=
  if s.pins.rstN then s
  else
    let s1 := { s with pins.rstN := true }
    if s1.phase == .held && s1.pins.pwrGood && !s1.pins.droop then (s1.sense b).release else s1

/-- Loss of clock (R720). -/
def Dev.clockLoss (s : Dev) : Dev :=
  let s1 := { s with pins.refclk := false }
  if s.on F.pwrState_SCLK_PLL then s1.enterEclipse 0x04 s.pos else s1

/-- REFCLK returns to a slice that waits on IOSC (R720). -/
def Dev.refclkBack (s : Dev) : Dev :=
  let s1 := { s with pins.refclk := true }
  match s.phase with
  | .boot 6 => s1.bootOn
  | .waking => s1.put F.pwrState_SCLK_PLL 1
  | _ => s1

/-- VDD_IO leaves its range: afterglow and all other state but the fuses are lost (R750, R804). -/
def Dev.powerLoss (s : Dev) : Dev :=
  { Dev.reset with
    fuse := s.fuse, now := s.now, freeCount := s.freeCount, nextId := s.nextId, outbox := s.outbox
    links := { Links.reset with taken := s.outbox.length }
    pins := { pwrGood := false, rstN := s.pins.rstN, refclk := false, vddIo := false, droop := false } }

/-! ### Throttles (R739, R757 to R761, R790, R791) -/

def throttleBit (reason : Nat) : Field :=
  match reason with
  | 0 => F.pwrThrottle_THERMAL
  | 1 => F.pwrThrottle_CURRENT
  | 2 => F.pwrThrottle_DEMAND
  | _ => F.pwrThrottle_CRIT
def throttleSeen (reason : Nat) : Field :=
  match reason with
  | 0 => F.pwrThrottle_THERMAL_SEEN
  | 1 => F.pwrThrottle_CURRENT_SEEN
  | 2 => F.pwrThrottle_DEMAND_SEEN
  | _ => F.pwrThrottle_CRIT_SEEN
def throttleTime (reason : Nat) : Option Field :=
  match reason with
  | 0 => some F.pwrThrTime_THERMAL_US
  | 1 => some F.pwrThrTime_CURRENT_US
  | 2 => some F.pwrThrTime_DEMAND_US
  | _ => none

/-- A throttle comes into force (R739, R758, R769). Its run holds when this spell began, the SCLK cycles of the
earlier ones, and the frame of its start. -/
def Dev.throttleOn (s : Dev) (reason : Nat) : Dev :=
  if s.on (throttleBit reason) then s
  else
    let s1 := (s.raise (throttleBit reason)).raise (throttleSeen reason)
    let s2 := if reason == 3 then s1.alert alertPwrRst else s1
    let run := match tget s.mgmt.throttleRuns reason with
      | some r => (s.now, r.2.1, r.2.2)
      | none => (s.now, 0, BitVec.ofNat 48 s.frameNo)
    { s2 with mgmt.throttleRuns := tset s2.mgmt.throttleRuns reason run }

/-- A throttle ends: its time is added, and its run keeps the frame of its end (R759). -/
def Dev.throttleOff (s : Dev) (reason : Nat) : Dev :=
  if !s.on (throttleBit reason) then s
  else
    let s1 := s.put (throttleBit reason) 0
    match tget s.mgmt.throttleRuns reason with
    | none => s1
    | some r =>
      let d := s.now - r.1
      let s2 := match throttleTime reason with
        | some f => s1.bump f (d / 1600)
        | none => s1
      { s2 with mgmt.throttleRuns := tset s2.mgmt.throttleRuns reason (s.frameNo, r.2.1 + d, r.2.2) }

/-- Throttle runs not in force for 64 frames are recorded (R791). -/
def Dev.throttleRecords (s : Dev) : Dev :=
  s.each (List.range 4) (fun s k =>
    match tget s.mgmt.throttleRuns k with
    | none => s
    | some r =>
      if s.on (throttleBit k) || s.frameNo < r.1 + 64 then s
      else { s.eventRecord 4 r.2.2.toNat (min (2 ^ 32 - 1) (r.2.1 / 1600)) k with
             mgmt.throttleRuns := tdel s.mgmt.throttleRuns k })

/-- TEMP_SAMPLE (R739, R757, R760). -/
def Dev.tempSample (s : Dev) (t : Nat) : Dev :=
  if !s.active then s
  else
    let s1 := (s.put F.pwrTemp_DIE_C t).peak F.pwrTemp_PEAK_C t
    let crit := s1.get F.pwrClass_CRIT_C
    let s2 := if crit ≤ t then s1.throttleOn 3 else if t + 3 < crit then s1.throttleOff 3 else s1
    if s2.get F.pwrClass_THROTTLE_C ≤ t || s2.on F.pwrThrottle_CRIT then s2.throttleOn 0 else s2

/-- The THERMAL throttle ends at the first boundary that finds the die cool (R739). -/
def Dev.thermalBoundary (s : Dev) : Dev :=
  if s.get F.pwrTemp_DIE_C + 3 ≤ s.get F.pwrClass_THROTTLE_C && !s.on F.pwrThrottle_CRIT then s.throttleOff 0 else s

/-- VDD_CORE falls below 0.69 V (R739). -/
def Dev.droop (s : Dev) : Dev :=
  if !s.active then s else ({ s with pins.droop := true }).throttleOn 1

/-- VDD_CORE stays below 0.67 V for 200 ns (R741). With PWR_GOOD low the rails may be down (R804). -/
def Dev.brownout (s : Dev) : Dev :=
  if !s.pins.pwrGood then s
  else
    let s1 := s.raise F.rstAg2_CORE_BROWNOUT
    match s.phase with
    | .lit => s1.enterEclipse 0x03 s.pos
    | .dim => s1.enterEclipse 0x03 s.pos
    | _ => { s1.hold 0 with pins.droop := true }

/-- VDD_CORE recovers (R739, R741). -/
def Dev.vddRecover (s : Dev) (b : BootInputs) : Dev :=
  if !s.pins.droop then s
  else
    let s1 := { s with pins.droop := false }
    if s1.phase == .held then (if s1.pins.pwrGood && s1.pins.rstN then (s1.sense b).release else s1)
    else s1.throttleOff 1

/-! ### Block resets (R746 to R748, R826) -/

/-- Whether a block code names no block on any slice (R746). -/
def reservedBlock (code : Nat) : Bool :=
  let x := code % 64
  match code / 64 % 4 with
  | 2 => 6 ≤ x
  | 3 => 12 ≤ x || (4 ≤ x && x < 8)
  | _ => false

/-- The refusal code of a block reset request (R746, R747). -/
def Dev.blockRefusal (s : Dev) (code : Nat) : Option Nat :=
  let x := code % 64
  let absent := match code / 64 % 4 with
    | 0 => s.fuse.dead x
    | 3 => x < 8 && s.lensCount ≤ x
    | _ => false
  if reservedBlock code || absent then some 0x31 else if s.on F.rstBlockStatus_BUSY then some 0x30 else none

/-- An accepted block reset waits for its block to go idle (R747). -/
def Dev.startBlock (s : Dev) (code source : Nat) : Dev :=
  let r : BlockRun := { code := BitVec.ofNat 8 code, source := BitVec.ofNat 8 source, start := s.now }
  { (s.raise F.rstBlockStatus_BUSY).put F.rstBlockStatus_LAST code with mgmt.blockRun := some r }

/-- Whether a facet still holds work (R826). -/
def Dev.facetBusy (s : Dev) (f : Nat) : Bool :=
  s.cache.parked.any (fun k => k.facet == f && !k.outside) || s.cache.txns.any (fun t => t.place.facet == f) ||
    s.cache.plrs.any (fun x => x.place.facet == f) || !(s.ticketsOf f).isEmpty ||
    s.cache.wbs.any (fun w => s.fuse.owner w.grp == f) || s.shadow.puts.any (fun u => s.fuse.owner u.grp == f) ||
    s.shadow.parity.any (fun o => s.fuse.owner (s.groupAt o.d) == f)

/-- The 64 B answers that a request still owes of an engine's accumulator file (R384, R826). -/
def Dev.fileOwed (s : Dev) (e : ReqEntry) (k : Nat) : List Nat :=
  (List.range e.n).filter (fun i => e.owes i && e.r.space == .tile && match s.windowOf .tile (e.r.offset + 64 * i) with
    | .acc x _ => x == k
    | _ => false)

/-- Whether a block still holds work (R826). -/
def Dev.blockBusy (s : Dev) (code : Nat) : Bool :=
  let x := code % 64
  match code / 64 % 4 with
  | 0 => s.facetBusy x
  | 1 => s.stack.reads.any (fun r => r.grp == x) || s.stack.writes.any (fun w => s.groupAt w.d == x) ||
      s.stack.rmw.any (fun r => s.groupAt r.d == x)
  | 2 => !(s.tx x).queue.isEmpty || !(s.tx x).unacked.isEmpty
  | _ =>
    if x < 8 then
      (s.engine x).running.isSome || !(s.engine x).pending.isEmpty || s.cache.reqs.any (fun e => !(s.fileOwed e x).isEmpty)
    else s.mgmt.cmd.isSome

/-- Registers of a range of CSR offsets take their Reset values: 0, but for those listed in resetCsr (R744). -/
def Dev.resetRange (s : Dev) (lo hi : Nat) : Dev :=
  let inside := fun (e : Nat × Word) => lo ≤ e.1 && e.1 < hi
  { s with csr := (resetCsr.filter inside).foldl (fun m e => tset m e.1 e.2) (s.csr.filter (fun e => !inside e)) }

/-- What the timeout does to the work a facet holds: parts not yet answered are answered POISON, and a transaction past
its directory decision makes its entry lost (R748, R826). -/
def Dev.facetTimeout (s : Dev) (f : Nat) : Dev :=
  let open_ := s.cache.txns.filter (fun t => t.place.facet == f)
  let at_ := fun (e : ReqEntry) (i : Nat) => if e.viewed then ((e.granulesOf (e.answerPart i)).headD 0) else i
  let outside := fun (id i : Nat) => s.cache.parked.any (fun k => k.reqId == id && k.index == i && k.outside)
  let s1 := s.each s.cache.reqs (fun s e =>
    (s.each ((List.range e.n).filter (fun i => e.owes i && (s.placeOf e (at_ e i)).facet == f && !outside e.id (at_ e i)))
      (fun s i => s.answer e.id i .poison none)).flush e.id)
  match open_ with
  | [] => s1
  | t :: _ => s1.entryLost f t.place.d false

/-- The facet's pipeline, PLRs, ingress list and tickets are reset; its arrays stay (R748). -/
def Dev.resetFacet (s : Dev) (f : Nat) : Dev :=
  { s.resetRange (0x40000 + f * 0x400) (0x40400 + f * 0x400) with
    cache.plrs := s.cache.plrs.filter (fun x => x.place.facet != f)
    cache.parked := s.cache.parked.filter (fun k => k.facet != f || k.outside)
    cache.tickets := s.cache.tickets.filter (fun t => t.facet != f)
    cache.nextTicket := tdel s.cache.nextTicket f
    cache.maint := s.cache.maint.filter (fun m => m.facet != f)
    cache.hints := s.cache.hints.filter (fun h => h.1.facet != f) }

/-- A port is reset: its modules retrain; for an agent port that is a link loss, and a die link carries sideband only
until routes that use it are installed (R748). -/
def Dev.resetPort (s : Dev) (p : Nat) : Dev :=
  let die := s.isDieLink p
  let s0 := (s.updPort p (fun x => { Port.down with
    dieLink := x.dieLink, agentPort := x.agentPort, barred := x.barred, sidebandOnly := die })).updTx p (fun x =>
    { Tx.idle with queue := x.queue, unacked := x.unacked })
  let s1 := s0.resetRange (R.pwkErr p) (R.pwkDisc p)
  let s2 := (s1.setReg (R.pwkStatus p) 0).put (F.pwkStatus_STATE p) (if (s.port p).barred then 0 else 1)
  if die then (if s.setSize == 0 then s2 else s2.linkLost p)
  else s2.each (cfgAgents (s2.reg (R.pwkCfg p))) (fun s a => s.suspect (BitVec.ofNat 6 a) 2 s.now)

/-- A Gnomon core restarts at its ENTRY (R748, R800). -/
def Dev.restartCore (s : Dev) (c : Nat) : Dev :=
  { (s.bump (F.gnmCoreStatus_RESTARTS c)).put (F.gnmCoreStatus_STATE c) 1 with
    mgmt.coreWdogAt := tset s.mgmt.coreWdogAt c s.now }

/-- A mailbox command ends: its CODE and RESULT are written and DONE set (R794). -/
def Dev.endCommand (s : Dev) (code result : Nat) : Dev :=
  { (((s.put F.gnmCmdStatus_BUSY 0).put F.gnmCmdStatus_CODE code).put F.gnmCmdStatus_RESULT result).raise
      F.gnmCmdStatus_DONE with mgmt.cmd := none }

/-- What the timeout of the idle wait does to the work that a block holds (R826). -/
def Dev.blockTimeout (s : Dev) (code : Nat) : Dev :=
  let x := code % 64
  match code / 64 % 4 with
  | 0 => s.facetTimeout x
  | 1 => s.channelFail (x / 32) (x % 32)
  | 2 => s.portLoss x 0
  | _ =>
    if x < 8 then
      s.each s.cache.reqs (fun s e => (s.each (s.fileOwed e x) (fun s i => s.answer e.id i .poison none)).flush e.id)
    else match s.mgmt.cmd with
      | some c => s.endCommand c.code.toNat 0x31
      | none => s

/-- The block reset of a Lens engine: its registers and its work (R388, R744). -/
def Dev.engineReset (s : Dev) (e : Nat) : Dev := (s.resetRange (R.lnsStatus e) (R.lnsStatus e + 0x100)).resetEngine e

/-- Resets a block (R748). -/
def Dev.resetBlock (s : Dev) (code : Nat) : Dev :=
  let x := code % 64
  match code / 64 % 4 with
  | 0 => s.resetFacet x
  | 1 => s
  | 2 => s.resetPort x
  | _ => if x < 8 then s.engineReset x else s.restartCore (x % 4)

/-- Ends the block reset in progress. -/
def Dev.endBlock (s : Dev) (r : BlockRun) : Dev :=
  if s.phase == .eclipse then s
  else
    { ((s.resetBlock r.code.toNat).noteReset r.source.toNat 2 r.code.toNat).put F.rstBlockStatus_BUSY 0 with
      mgmt.blockRun := none }

/-- BLOCK_IDLE (R747). -/
def Dev.blockIdle (s : Dev) : Dev :=
  match s.mgmt.blockRun with
  | none => s
  | some r => if s.blockBusy r.code.toNat then s else (s.endBlock r).settle

/-- BLOCK_IDLE_TIMEOUT (R747, R769, R826). -/
def Dev.blockTimedOut (s : Dev) : Dev :=
  match s.mgmt.blockRun with
  | none => s
  | some r =>
    let s1 := (s.raise F.rstBlockStatus_TIMED_OUT).alert alertPwrRst
    ((s1.blockTimeout r.code.toNat).endBlock r).settle

/-- A write to RST_BLOCK (R746, R747, R765, R766). -/
def Dev.rstBlockWrite (s : Dev) (code : Nat) : Dev :=
  match s.blockRefusal code with
  | some _ => s.raise F.rstBlockStatus_REFUSED
  | none => s.startBlock code 6

/-- CORE_WATCHDOG_EXPIRY (R743). -/
def Dev.coreExpiry (s : Dev) (c : Nat) : Dev :=
  if !s.active || s.get (F.gnmCoreStatus_STATE c) != 1 then s
  else match s.blockRefusal (0xC8 + c) with
    | some _ => s
    | none => s.startBlock (0xC8 + c) 4

/-- CP_WATCHDOG_EXPIRY: it runs from the first seal and stops in Dusk and Night (R742). -/
def Dev.cpExpiry (s : Dev) : Dev :=
  match s.phase with
  | .lit => s.enterEclipse 0x05 s.pos
  | .dim => s.enterEclipse 0x05 s.pos
  | .toDusk => s.enterEclipse 0x05 s.pos
  | .toNight => s.enterEclipse 0x05 s.pos
  | _ => s

/-- ECLIPSE_EXIT_TIMER: 1 ms after Eclipse entry (R743, R763). -/
def Dev.eclipseExit (s : Dev) : Dev :=
  if s.phase != .eclipse then s
  else if s.mgmt.exitKind == 1 then s.startReset false 5
  else if s.mgmt.exitKind == 2 then s.startReset true 5
  else s

/-! ### Dusk, Night and wake (R189 to R191, R386, R721 to R734) -/

/-- Whether a way of a facet is a Shade or tile-store way. -/
def Dev.storeWay (s : Dev) (f w : Nat) : Bool := s.wayClass f w == clsShade || s.wayClass f w == clsTile

/-- Drops the lines of every way that is not retained, and of the retained ones when ret is false (R189 to R191). -/
def Dev.dropStores (s : Dev) (ret : Bool) : Dev :=
  let stays := fun (k : Nat) =>
    let f := k / 16 / 2048
    let w := k % 16
    ret && s.storeWay f w && s.slotRetained f (s.wayClass f w) w
  { s with
    cache.lines := s.cache.lines.filter (fun e => stays e.1)
    cache.tagUpset := s.cache.tagUpset.filter (fun e => stays e.1)
    cache.dataBad := s.cache.dataBad.filter (fun e => stays (e.1 / 4))
    cache.storeRest := false
    cache.storeRet := ret && s.cache.storeRet }

/-- The ordinary ways' lines: dirty sub-blocks are written back, and the lines dropped (R692, R724). -/
def Dev.flushWays (s : Dev) (why : WbFor) : Dev :=
  s.each s.cache.lines (fun s e =>
    let f := e.1 / 16 / 2048
    let set := e.1 / 16 % 2048
    let w := e.1 % 16
    if s.wayClass f w != clsOrdinary then s
    else
      let s1 := if e.2.refl then s else s.each e.2.dirtySubs (fun s i => s.writeBackSub (s.linePlace f w e.2 i) false why)
      s1.delLine f set w)

/-- The boundary at which Dusk's drain begins (R724 steps 1 to 3): requests but CSR's are answered DENY from here,
directory entries are recalled, ordinary ways cleaned and invalidated, and reflection lines dropped. -/
def Dev.duskBegin (s : Dev) : Dev :=
  let s0 := { s.put F.pwrState_STATE 3 with phase := .toDusk, mgmt.duskNext := false }
  let s1 := s0.each (s0.cache.dir.map Prod.snd) (fun s e =>
    let p := s.dirPlace e
    if s.held p then s else s.openTxn .dusk .cleanInvalidate (sliceAgent s.pos) p 0 false false false)
  (s1.flushWays .dusk).dropReflections.settle

/-- Whether the drain of Dusk is over (R724 steps 2 to 4): nothing in flight or waiting in the facets, no directory entry, no
ordinary or mirror line, no parity to write, no reflection queue entry. -/
def Dev.drained (s : Dev) : Bool :=
  s.cache.txns.isEmpty && s.cache.wbs.isEmpty && s.cache.plrs.isEmpty && s.cache.parked.isEmpty && s.cache.dir.isEmpty &&
    s.shadow.puts.isEmpty && s.shadow.parity.isEmpty && s.shadow.recons.isEmpty && s.rfl_.queue.isEmpty && s.cache.lines.all (fun e => s.storeWay (e.1 / 16 / 2048) (e.1 % 16))

/-- Entry to Dusk at the boundary that COMMIT named (R189, R583, R724 step 6, R728). -/
def Dev.enterDusk (s : Dev) : Dev :=
  let s1 := (((s.finishWrites.selfRefresh true).portsIdle 5).dropStores true).dropWork.dropPlan
  { (s1.put F.rstAg2_RET_BROWNOUT 0).put F.pwrState_SCLK_PLL 0 with
    phase := .dusk, mgmt.litFrom := [], cache.dirUpset := [], lens.accBad := [] }

/-- Entry to Night at its boundary (R733, R750): only afterglow stays, and DRAM contents are lost. -/
def Dev.enterNight (s : Dev) : Dev :=
  let s1 := ((s.selfRefresh true).portsIdle 0).cleared true
  { s1.raise F.rstAg2_NIGHT with phase := .night, stack.dram := [], stack.poison := [] }

/-- RETENTION_OVERLOAD: the retained ways lose power (R728, R769). -/
def Dev.retentionLost (s : Dev) : Dev :=
  if s.phase != .dusk then s
  else ((s.dropStores false).raise F.rstAg2_RET_BROWNOUT).alert alertPwrRst

/-- Sends the glint on every die link (R729). -/
def Dev.glintLinks (s : Dev) : Dev :=
  s.each ((List.range 6).filter s.isDieLink) (fun s p => s.sendGlint p)

/-- GLINT: a glint or a training request on a sideband wakes a Dusk slice, and raises an alert in Night (R490, R729 to R731,
R734, R191, R386). -/
def Dev.glintIn (s : Dev) (training : Bool) : Dev :=
  let cause := if training then 1 else 2
  match s.phase with
  | .dusk =>
    let s1 := s.put F.pwrState_WAKE_CAUSE cause
    let s2 := if s1.on F.rstAg2_RET_BROWNOUT then (s1.dropStores false).raise F.fctShadeState_RETAIN_DROPPED else s1
    let s3 := s2.each (List.range 6) (fun s p =>
      if s.get (F.pwkStatus_STATE p) == 5 then s.put (F.pwkStatus_STATE p) 1 else s)
    let s4 := if s3.pins.refclk then s3.put F.pwrState_SCLK_PLL 1 else s3
    { s4.glintLinks with
      phase := .waking, mgmt.wakeAt := s.now, frm.follow := true
      lens.marks := [], lens.markAll := true }
  | .night => (s.put F.pwrState_WAKE_CAUSE cause).alert alertPwrRst
  | _ => s

/-- The wake of this slice completes: Lit is reported to the leader, and the commands that waited for the stacks go (R730, R731). -/
def Dev.wakeLit (s : Dev) : Dev :=
  if s.phase != .waking || !s.on F.pwrState_SCLK_PLL then s
  else
    let us := min 255 ((s.now - s.mgmt.wakeAt) / 1600)
    let s1 := ((s.selfRefresh false).put F.pwrState_STATE 1).put F.pwrState_WAKE_US us
    ({ s1.send (.litReport s.leader) with
      phase := .lit, mgmt.wdogAt := s.now
      stack.refreshBank := [], stack.refreshCount := [] }).issueWaiting

end Sys2Proof.Machine
end

