-- ==== Sys2Proof/Machine/Loader.lean ====
section
/-! DEFINITION. The loader: authentication, the steps of a load and of a patch, installation, seal and QUIESCE (chapter 19). -/

namespace Sys2Proof.Machine

/-! ### Verification of a staged image (R674, R682 to R686, R689 steps 2 to 4, R694, R695) -/

/-- Bodies of a staged image's sections laid over the sections of a base: those of an empty image for a LOAD, those in force
for a patch (R695). -/
def stagedSections (m : Memory) (l : List Sec) (base : Sections) : Sections :=
  let body := fun (t : Nat) (old : List Byte) =>
    match l.find? (fun x => x.1 == t) with
    | some x => memBytes m (x.2.1 + 16) x.2.2
    | none => old
  { base with
    topology := body 1 base.topology, partition := body 2 base.partition, regions := body 3 base.regions
    formats := body 4 base.formats, plan := body 5 base.plan, lattice := body 6 base.lattice
    counters := body 7 base.counters, power := body 8 base.power, firmware := body 9 base.firmware
    initOrder := body 10 [] }

/-- Whether some programmed, unrevoked slot that a test picks holds a key hash (R684, R706). -/
def Fuse.hasKey (u : Fuse) (pick : KeySlot → Bool) (hash : BitVec 384) : Bool :=
  u.keys.any (fun k => k.programmed && pick k && !k.revoked && k.hash == hash)

/-- A 384-bit integer of a memory (R682). -/
def mem384 (m : Memory) (a : Nat) : BitVec 384 := BitVec.ofNat 384 (memRead m a 48)

/-- Key, signature and version of a staged image (R684, R686): the refusal code and the offset. -/
def Dev.authImage (s : Dev) (m : Memory) : Option (Nat × Nat) :=
  let len := memRead m 16 4
  let t := len - 192
  let digest := Config.sha384 (memBytes m 0 t)
  if !s.fuse.hasKey (fun k => k.image) (Config.sha384 (memBytes m t 96)) then some (0x03, t)
  else if !Config.ecdsaP384 digest (mem384 m t) (mem384 m (t + 48)) (mem384 m (t + 96)) (mem384 m (t + 144)) then
    some (0x04, t + 96)
  else if memRead m 12 2 < s.fuse.minVersion.toNat then some (0x05, 12)
  else none

/-- Header checks (R18, R674, R675, R694). -/
def Dev.checkHeader (s : Dev) (m : Memory) (l : List Sec) (plan : List Byte) (patch : Bool) : Option (Nat × Nat) :=
  let zero := fun a n => memRead m a n == 0
  firstOf ([need (zero 9 3 && zero 14 2 && zero 32 32) 0x01 9,
      need (patch || zero 20 4) 0x01 20,
      need (l.all (fun x => memRead m (x.2.1 + 1) 1 == 1 && zero (x.2.1 + 2) 2 && zero (x.2.1 + 8) 8)) 0x01 64,
      need (memRead m 6 1 ≤ 3 && s.fuse.offers (memRead m 6 1)) 0x06 6,
      need (memRead m 7 1 == s.setCount) 0x07 7,
      need (memRead m 8 1 == planLenCode plan) 0x07 8]
    ++ (if patch then
        [need (memRead m 24 8 == s.img.force.imageId.toNat) 0x28 24,
          need (memRead m 20 4 == s.get F.imgStatus_PATCH_SEQ + 1) 0x29 20]
      else []))

/-- The topology: ports, coherence mode, and ports that carried sideband only return to service (R491, R245, R748). -/
def Dev.installTopology (s : Dev) : Dev :=
  let b := s.img.force.topology
  (s.put F.fctCohCfg_MODE (byteAt b 1)).each (List.range 6) (fun s k =>
    let s1 := s.setReg (R.pwkCfg k) (portRecord b s.pos k)
    let pt := s1.port k
    if !pt.sidebandOnly then s1
    else
      let st := if pt.up0 && pt.up1 then 2 else if pt.up0 || pt.up1 then 3 else 0
      (s1.updPort k (fun x => { x with sidebandOnly := false })).put (F.pwkStatus_STATE k) st)

/-- SHD_CONFIG (R635). -/
def Dev.installShadow (s : Dev) : Dev :=
  let n := byteAt s.img.force.topology 0
  (((s.put F.shdConfig_SHADOWED (shadowedCount n s.regions)).put F.shdConfig_SPARE (imageSpare s.img.force.regions)).put
    F.shdConfig_SET_SIZE n).put F.shdConfig_BUDDY s.buddy

/-- FRM_CONFIG and the start of a new normal list (R69). -/
def Dev.installPlan (s : Dev) : Dev :=
  let b := s.plan
  let n := s.setCount
  let w := goLead n * 2 ^ 50 + s.leader * 2 ^ 47 + planPeriod b * 2 ^ 34 + planDegPeriod b * 2 ^ 25 + planTemplates b * 2 ^ 19
    + planLenCode b
  let s1 := ((s.setReg R.frmConfig w).put F.frmStatus_PLAN_INDEX 0).put F.frmStatus_TEMPLATE (bitsOf (normalEntry b 0) 5 0)
  { s1.put F.frmStatus_DEGRADED 0 with
    frm.which := .normal, frm.started := false, frm.frameRunning := false, shadow.bufferWanted := [] }

/-- The machine as the loader looks at it for its proofs: with the tables of some sections in force. -/
def Dev.under (s : Dev) (n : Sections) : Dev :=
  let s1 : Dev := { s with img.force := n, regions := imageRegions n.regions }
  (((s1.raise F.imgStatus_LOADED).installTopology.installShadow.installPlan)).setReg R.fctPartition (leAt n.partition 0 8)

/-- Section checks of the resulting image, in TYPE order (R689, R695): section TYPE and finding. -/
def Dev.checkSections (s : Dev) (n : Sections) (l : List Sec) (patch : Bool) : Option (Nat × Nat × Nat) :=
  let size := byteAt n.topology 0
  let u := s.under n
  let mine := fun (t : Nat) (f : Finding) => f.map (fun x => (t, x.1, x.2))
  let carried := fun t => l.any (fun x => x.1 == t)
  let fixed := if patch then [1, 2, 4, 9].map (fun t => mine t (need (!carried t) 0x2A 0)) else []
  (fixed ++
    [mine 1 (s.checkTopology n.topology), mine 2 (s.checkPartition (leAt n.partition 0 8) n.regions),
      mine 3 (s.checkRegions n.topology n.regions), mine 3 (if patch && carried 3 then s.checkHueChanges n.regions else none),
      mine 4 (checkFormats n.formats n.regions), mine 5 (s.checkPlan n.plan n.regions size), mine 5 u.planProofs,
      mine 1 (need (byteAt n.topology 2 == 0 || ((planTemplateList n.plan).all (fun t =>
        (templateWaves n.plan t).isEmpty && (templateFlows n.plan t).isEmpty) && transferCount n.lattice == 0 &&
          (timetables n.lattice).all (fun t => (issueList n.lattice t s.pos).isEmpty))) 0x08 2),
      mine 6 (checkLattice n.lattice n.plan size), mine 6 u.latticeProofs, mine 7 (checkCounters n.counters),
      mine 8 (s.checkPower n.power), mine 8 u.powerProof, mine 9 (checkFirmware n.firmware),
      mine 10 (checkOrder n.initOrder n.regions size)]).findSome? (fun f => f)

/-- Steps 2 to 4 on this slice's own copy: the sections to install, or code, TYPE and image offset of the refusal. -/
def Dev.verifyImage (s : Dev) (patch : Bool) : Except (Nat × Nat × Nat) (Sections × List Nat) :=
  let m := s.img.stage
  match walkImage m (s.get F.imgStage_LENGTH) patch with
  | .error e => .error e
  | .ok l =>
    match s.authImage m with
    | some e => .error (e.1, 0, e.2)
    | none =>
      let base := if patch then s.img.force else
        { Sections.empty with imageId := BitVec.ofNat 64 (memRead m 24 8), secVersion := BitVec.ofNat 16 (memRead m 12 2) }
      let n := stagedSections m l base
      match s.checkHeader m l n.plan patch with
      | some e => .error (e.1, 0, e.2)
      | none =>
        match s.checkSections n l patch with
        | some (t, c, o) =>
          .error (c, t, ((l.find? (fun x => x.1 == t)).map (fun x => x.2.1 + 16 + o)).getD 0)
        | none => .ok (n, l.map (fun x => x.1))

/-! ### Refusal, READY, COMMIT, ABORT and SEAL (R685, R689 to R691, R698, R709, R717) -/

/-- A refusal by this slice's loader: IMG_REFUSAL, its record, and ALERT_N (R709, R717, R786). -/
def Dev.refuse (s : Dev) (code type off : Nat) : Dev :=
  let w := 2 ^ 63 + s.pos * 2 ^ 56 + code * 2 ^ 48 + type * 2 ^ 40 + off % 2 ^ 32
  ((s.setReg R.imgRefusal w).alert alertImgSec).errorRecord 0x0E s.pos off (code + type * 256)

/-- An image, patch or token between step 1 and its commit, abort or seal (R698). -/
def Dev.loaderBusy (s : Dev) : Bool := s.get F.imgStatus_STEP != 0 || s.on F.imgStatus_PATCH_PENDING

/-- A slice that loads no image: discovery not STABLE or in error, boot profile 1, a stack that failed (R511, R542, R751). -/
def Dev.noLoad (s : Dev) : Bool :=
  !bitAt s.links.disc.toNat 63 || s.discField 62 60 != 0 || s.mgmt.profile1 || s.get F.stkStatus0_STATE == 4 ||
    s.get F.stkStatus1_STATE == 4

/-- A management CTL message to the leader, and to every slice not lost (R691). -/
def Dev.toLeader (s : Dev) (op code arg : Nat) : Dev :=
  s.send (.ctl s.leader (.mgmt (BitVec.ofNat 8 op) (BitVec.ofNat 8 code) (BitVec.ofNat 48 arg)))
def Dev.toAll (s : Dev) (op code arg : Nat) : Dev :=
  let m : Ctl := .mgmt (BitVec.ofNat 8 op) (BitVec.ofNat 8 code) (BitVec.ofNat 48 arg)
  (s.ctlSet m).send (.ctl s.pos m)

/-- Steps 2 to 5 of a load or a patch (R685, R688, R689): READY, or REFUSED with the code; a failed authentication enters
Eclipse. -/
def Dev.runLoad (s : Dev) (patch : Bool) : Dev :=
  if s.loaderBusy then (s.refuse 0x30 0 0).toLeader 2 0x30 0
  else if s.noLoad then (s.refuse 0x31 0 0).toLeader 2 0x31 0
  else
    let s1 := (s.put F.imgStatus_STEP 5).put F.imgStatus_PATCH_PENDING (b2n patch)
    match s1.verifyImage patch with
    | .error (c, t, o) =>
      let s2 := s1.refuse c t o
      if c == 0x03 || c == 0x04 then s2.enterEclipse 0x02 s2.pos else s2.toLeader 2 c 0
    | .ok n =>
      { s1.toLeader 1 0 0 with
        img.idle := some n.1, img.idleTypes := n.2, img.idleKind := if patch then .patch else .image }

/-- The mailbox command in progress ends, when it is one of some codes. -/
def Dev.endIf (s : Dev) (codes : List Nat) (result : Nat) : Dev :=
  match s.mgmt.cmd with
  | some c => if codes.contains c.code.toNat then s.endCommand c.code.toNat result else s
  | none => s

/-- Whether planned work is halted (R33, R530, R620, R692). -/
def Dev.halted (s : Dev) : Bool := s.frm.haltTick || s.frm.haltRoute || s.frm.haltOrdered

/-- The positions of the set that are not held lost. -/
def Dev.liveSet (s : Dev) : List Nat := (List.range s.setCount).filter (fun p => !s.isLost p)

/-- The frame number that COMMIT names: none, as 0, for an image, which is installed at once, and for the boundary of the
next FRAME_GO (R68, R689, R696; log entry 43). In a halt under R33 or R530 a patch is installed at a boundary named (R696);
in one that a command ordered, and once the FRAME_GO that ends a halt under R33 has left, it waits for the next FRAME_GO. -/
def Dev.commitFrame (s : Dev) : Nat :=
  let routed := (s.frm.haltTick && s.frm.goFor ≤ s.frameNo) || s.frm.haltRoute
  if s.img.idle.isSome && (s.img.idleKind == .image || (s.img.idleTypes != [3] && !routed)) then 0 else s.namedBoundary

/-- The leader decides once every slice has answered (R689 step 5, R724, R726). -/
def Dev.decideLoad (s : Dev) : Dev :=
  let live := s.liveSet
  if !live.all (fun p => s.img.readyFrom.contains p || (tget s.img.refusals p).isSome) then s
  else
    let s1 : Dev := { s with img.readyFrom := [], img.refusals := [] }
    match live.find? (fun p => (tget s.img.refusals p).isSome) with
    | none => s1.toAll 3 0 s.commitFrame
    | some p =>
      let c := (tgetD s.img.refusals p 0).toNat
      let s2 := if p == s.pos || s.phase == .toDusk then s1
        else (s1.setReg R.imgRefusal (2 ^ 63 + p * 2 ^ 56 + c * 2 ^ 48)).alert alertImgSec
      s2.toAll 4 c 0

/-- READY at the leader: of step 5 or of Dusk, or in step 8 the report of a slice ready to seal (R689, R724). -/
def Dev.readyIn (s : Dev) (sender : Nat) : Dev :=
  if 6 ≤ s.get F.imgStatus_STEP then
    let got := sender :: s.img.sealFrom
    if s.liveSet.all (fun p => got.contains p) then { s with img.sealFrom := [] }.toAll 5 0 s.namedBoundary
    else { s with img.sealFrom := got }
  else { s with img.readyFrom := sender :: s.img.readyFrom }.decideLoad

/-- REFUSED at the leader. -/
def Dev.refusedIn (s : Dev) (sender : Nat) (code : BitVec 8) : Dev :=
  { s with img.refusals := tset s.img.refusals sender code }.decideLoad

/-- ABORT: the idle copies are discarded, or the slice goes back to Lit (R49, R689, R726). -/
def Dev.abortIn (s : Dev) (code : Nat) : Dev :=
  if s.phase == .toDusk then
    let s1 := { s.put F.pwrState_STATE 1 with phase := .lit, mgmt.duskNext := false, frm.haltOrdered := false }
    let s2 := s1.endIf [0x12] code
    if s2.isLeader then s2.ctlSet (.frameGo (BitVec.ofNat 48 s2.namedBoundary) false) |>.send
      (.ctl s2.pos (.frameGo (BitVec.ofNat 48 s2.namedBoundary) false)) else s2
  else
    let s1 := { s with img.idle := none, img.idleTypes := [], frm.commitAt := none }
    let s2 := if s.get F.imgStatus_STEP ≤ 5 then s1.put F.imgStatus_STEP 0 else s1
    (s2.put F.imgStatus_PATCH_PENDING 0).endIf [0x01, 0x03] code

/-- SEAL names its boundary (R689 step 8). -/
def Dev.sealIn (s : Dev) (frame : Frame) : Dev :=
  if s.get F.imgStatus_STEP == 8 then { s with frm.sealAt := some frame } else s

/-- The slice's firmware and its zero fill are ready for the seal: READY (R188, R689 step 8, R712). -/
def Dev.reportSeal (s : Dev) : Dev :=
  if s.get F.imgStatus_STEP == 8 && s.img.zeroFilled && s.img.fwReady then { s with img.fwReady := false }.toLeader 1 0 0 else s

/-- A write to IMG_SEAL (R712). -/
def Dev.imgSealWrite (s : Dev) (v : Nat) : Dev :=
  if bitAt v 0 && 6 ≤ s.get F.imgStatus_STEP then { s with img.fwReady := true }.reportSeal else s

/-- The fill has written every sub-block and tag entry of the Shade and tile-store ways: no upset bit stays in one (R188). -/
def Dev.clearStores (s : Dev) : Dev :=
  let store := fun (k : Nat) =>
    let c := s.wayClass (k / 32768) (k % 16)
    c == clsShade || c == clsTile
  { s with
    cache.lines := s.cache.lines.filter (fun e => !store e.1)
    cache.tagUpset := s.cache.tagUpset.filter (fun e => !store e.1)
    cache.dataBad := s.cache.dataBad.filter (fun e => !store (e.1 / 4)) }

/-- SHADE_ZERO_FILL_DONE: every Shade and tile-store sub-block holds zeros (R188, R197). -/
def Dev.zeroFillDone (s : Dev) : Dev :=
  if s.get F.imgStatus_STEP < 6 || s.img.zeroFilled then s
  else
    { (s.clearStores.raise F.fctShadeState_BUILT) with
      img.zeroFilled := true, cache.storeRet := true, cache.storeRest := true }.reportSeal

/-- MEMORY_INIT_DONE: every device-space sub-block holds zeros (R582, R595). -/
def Dev.memoryInitDone (s : Dev) (us : Nat) : Dev :=
  if s.get F.imgStatus_STEP != 7 then s
  else
    let s1 := (((s.raise F.stkInit_DONE).put F.stkInit_DURATION us).put F.imgStatus_STEP 8)
    { s1 with phase := .boot 12, img.initDone := true, stack.dram := [], stack.poison := [] }.reportSeal

/-! ### Installation (R55, R65, R174, R188, R386, R515, R555, R556, R635, R663, R688, R689 step 6, R697, R757, R762, R778) -/

/-- PWR_CLASS (R735, R757). -/
def Dev.installPower (s : Dev) : Dev :=
  let b := s.img.force.power
  s.setReg R.pwrClass (byteAt b 3 * 2 ^ 24 + byteAt b 2 * 2 ^ 16 + byteAt b 1 * 2 ^ 8 + byteAt b 0)

/-- The counter configuration; a counter whose selection changes is cleared (R776, R778). -/
def Dev.installCounters (s : Dev) : Dev :=
  let b := s.img.force.counters
  s.each (List.range 12) (fun s g =>
    (s.setReg (R.cntCfg g) (leAt b (72 * g) 8)).each (List.range 8) (fun s k =>
      let w := leAt b (72 * g + 8 + 8 * k) 8
      if s.reg (R.cntSel g k) == w then s else (s.setReg (R.cntSel g k) w).put (F.cntVal_VALUE g k) 0))

/-- Row remaps of the row list, then those of the row health table (R555). -/
def Dev.installRemaps (s : Dev) : Dev :=
  let b := s.plan
  let word := fun (row spare : Nat) =>
    ({ stack := bitsOf row 31 31, channel := bitsOf row 30 26, pc := bitsOf row 25 25, bank := bitsOf row 24 19,
       row := bitsOf row 18 7, spare := spare } : Remap)
  let listed := ((List.range (planRows b)).map (rowWord b)).filter (fun w => bitsOf w 31 29 == s.pos && bitsOf w 28 27 == 1)
  let image := listed.map (fun w => word (bitsOf w 24 0 * 128) (bitsOf w 26 25))
  let same := fun (x y : Remap) => x.stack == y.stack && x.channel == y.channel && x.pc == y.pc && x.bank == y.bank &&
    (x.row == y.row || x.spare == y.spare)
  let kept := s.rowIndices.filter (fun i => bitsOf (s.rowEntry i) 63 62 == 2)
  { s with stack.remaps := image }.each kept (fun s i =>
    let e := s.rowEntry i
    let m := word (bitsOf e 31 0) (bitsOf e 61 60)
    if image.any (same m) then s.bump F.stkRows_TABLE_FULL
    else { s with stack.remaps := s.stack.remaps ++ [m] })

/-- Hard post-package repairs of a cold boot (R556). -/
def Dev.hardRepairs (s : Dev) : Dev :=
  let b := s.plan
  s.each ((List.range (planRows b)).map (rowWord b)) (fun s w =>
    if bitsOf w 31 29 != s.pos || bitsOf w 28 27 != 2 then s
    else if Config.stackAcceptsRepair s.pos w then s.send (.stackRepair (BitVec.ofNat 32 w))
    else s.bump F.stkRows_FAILED)

/-- The image's firmware starts on the four cores (R680, R689 step 6, R800). -/
def Dev.startFirmware (s : Dev) : Dev :=
  let b := s.img.force.firmware
  let s1 := s.each (List.range 4) (fun s c => s.put (F.gnmCoreStatus_STATE c) 1)
  { s1 with
    mgmt.coreSram := (coreImages b 4 0).map (fun c => sliceOf b (c.1 + 16) c.2.2)
    mgmt.coreWdogAt := (List.range 4).map (fun c => (c, s.now))
    mgmt.fwRunning := true }

/-- A Dim slice returns to Lit when a plan comes into force that issues a wave (R723). -/
def Dev.leaveDim (s : Dev) : Dev :=
  if s.phase == .dim && (planTemplateList s.plan).any (fun t => !(templateWaves s.plan t).isEmpty) then
    { s.put F.pwrState_STATE 1 with phase := .lit }
  else s

/-- Installs an image at its commit (R689 step 6). FRM_STATUS.STATE stays as it was until the first plan frame starts: R70
names no code for a plan that is installed and not started (DESIGN CHOICE; log entry 85). -/
def Dev.installImage (s : Dev) (n : Sections) : Dev :=
  let cold := s.mgmt.coldBoot && !s.img.firstSealed && !s.img.initDone
  let part := leAt n.partition 0 8
  let s1 : Dev := { s with
    img := { s.img with
      force := n, idle := none, idleTypes := [], zeroFilled := false, fwReady := false, sealFrom := [], former := [] }
    regions := imageRegions n.regions
    cache.lines := [], cache.storeRet := false, cache.storeRest := false, cache.tagUpset := [], cache.dataBad := []
    rfl_.hues := imageHues n.regions, rfl_.sweepSet := 0, rfl_.headersAt := []
    lens.acc := [], lens.marks := [], lens.accBad := [], lens.markAll := false
    frm.haltTick := false, frm.haltRoute := false, frm.haltOrdered := false, frm.haltPending := false, frm.haltAlarm := false
    frm.follow := true, frm.go := none, frm.doneFrom := [], frm.restart := false, frm.goFor := 0, frm.commitGo := false }
  let s2 := ((s1.setReg R.imgId n.imageId.toNat).put F.imgStatus_PATCH_SEQ 0).raise F.imgStatus_LOADED
  let s3 := ((s2.installTopology.installShadow.installPlan.installPower.installCounters).setReg R.fctPartition part).put
    F.fctShadeState_BUILT 0
  let s4 := (s3.put F.pwrRet_BUDGET (retentionBudget s.fuse.leakClass.toNat)).put F.pwrRet_RETAINED (s.retained part)
  let s5 := s4.installRemaps
  let s6 := if cold then s5.hardRepairs else s5
  let s7 := (s6.dropHeaders (fun _ => true)).startFirmware.leaveDim
  if cold then { s7.put F.imgStatus_STEP 7 with phase := .boot 11 }
  else
    let s8 := s7.put F.imgStatus_STEP 8
    match s.phase with
    | .boot _ => { s8 with phase := .boot 12 }
    | _ => s8

/-- Installs a patch (R697): only the sections it carries change. Planned work halted for want of routes resumes with entry
0 of the new list (R530, R696). -/
def Dev.installPatch (s : Dev) (n : Sections) (types : List Nat) : Dev :=
  let s1 : Dev := { s with img := { s.img with force := n, idle := none, idleTypes := [] } }
  let s2 := ((s1.bumpWrap F.imgStatus_PATCH_SEQ).put F.imgStatus_PATCH_PENDING 0).put F.imgStatus_STEP 0
  let s3 := if types.contains 3 then
      ({ s2 with regions := imageRegions n.regions, img.former := s2.regions }.patchHues n.regions).installShadow
    else s2
  let s4 := if types.contains 5 then
      let started := s3.frm.started
      { s3.installPlan with frm.started := started, frm.haltRoute := false, frm.restart := true }.leaveDim
    else s3
  let s5 := if types.contains 7 then s4.installCounters else s4
  let s6 := if types.contains 8 then s5.installPower else s5
  if types.contains 10 then { s6 with stack.initAt := [] } else s6

/-- COMMIT: an image is installed at once (R689 step 6); a patch comes into force, or Dusk is entered, at the boundary that
COMMIT names (R696, R724). -/
def Dev.commitIn (s : Dev) (frame : Frame) : Dev :=
  let at_ : Option Frame := if frame == 0 then none else some frame
  if s.phase == .toDusk then { s with frm.commitAt := some (.dusk, at_) }.endIf [0x12] 0
  else match s.img.idle with
    | none => s
    | some n =>
      if s.img.idleKind == .image then (s.installImage n).endIf [0x01] 0
      else { s with frm.commitAt := some (.patch, at_) }.endIf [0x03] 0

/-- The seal (R550, R690, R692, R742, R825): RWS fields, the staging window and debug lock as of SEALED; R87 ceases. -/
def Dev.sealNow (s : Dev) : Dev :=
  let s1 := (((s.raise F.imgStatus_SEALED).put F.imgStatus_QUIESCED 0).put F.imgStatus_STEP 0).put F.prmFrames_FRAMES 0
  let s2 := s1.seedDemandLanes
  let s3 : Dev := { s2 with
    img.firstSealed := true, fuse.sealedOnce := true, stack.planRefresh := true, mgmt.wdogAt := s2.now
    frm.sealAt := none }
  let s4 := match s3.phase with
    | .boot _ => { s3.put F.pwrState_STATE 1 with phase := .lit }
    | _ => s3
  s4.send (.ctl s4.leader (.frameDone (BitVec.ofNat 48 s4.frameNo) (0 < s4.frm.usableRun)))

/-! ### QUIESCE (R692) -/

/-- QUIESCE is ordered: planned work halts at the next boundary. -/
def Dev.quiesceStart (s : Dev) : Dev := { s with img.quiescing := true, frm.haltPending := true }

/-- QUIESCE at its boundary: the ordinary ways are cleaned and invalidated, the stores and accumulators dropped, and the
slice unsealed, RWS fields and debug still locked. -/
def Dev.quiesceNow (s : Dev) : Dev :=
  let s1 := (s.flushWays .early).dropStores false
  let s2 := ((s1.put F.imgStatus_SEALED 0).put F.imgStatus_QUIESCED 1).put F.secDebug_PERMS 0
  let s3 : Dev := { s2 with
    img.quiescing := false, lens.acc := [], lens.marks := [], lens.accBad := [], lens.markAll := true, frm.haltOrdered := true }
  match s3.mgmt.cmd with
  | some c => if c.code == 0x02 then { s3 with mgmt.cmd := some { c with result := some 0 } } else s3
  | none => s3

/-- LIFT_FENCE (R268, R701): an ARG that is no agent's lifts nothing. -/
def Dev.liftFence (s : Dev) (agent : Nat) : Dev :=
  if agent < 48 then s.put F.fctFence_MASK (withBits (s.get F.fctFence_MASK) agent agent 0) else s

/-! ### Debug tokens (R704 to R707, R715, R717) -/

/-- Whether a debug token is valid on this slice (R705, R706). -/
def Dev.tokenValid (s : Dev) (t : List Byte) : Bool :=
  let v384 := fun o => BitVec.ofNat 384 (leAt t o 48)
  leAt t 0 4 == 0x44525041 && leAt t 4 4 < 8 && leAt t 8 8 == s.fuse.dieId.toNat && leAt t 16 8 == s.reg R.secNonce &&
    leAt t 24 8 == 0 && s.fuse.hasKey (fun k => k.debug) (Config.sha384 (sliceOf t 32 96)) &&
    Config.ecdsaP384 (Config.sha384 (sliceOf t 0 128)) (v384 32) (v384 80) (v384 128) (v384 176)

/-- A token check: PERMS, or FAILS and ALERT_N; SEC_NONCE then takes a new value (R706, R707, R717). -/
def Dev.checkToken (s : Dev) (t : List Byte) : Dev × Bool :=
  let n := s.free
  let s1 := n.2.setReg R.secNonce n.1.toNat
  if s.get F.secDebug_FAILS < 3 && s.tokenValid t then (s1.put F.secDebug_PERMS (leAt t 4 1), true)
  else ((s1.bump F.secDebug_FAILS).alert alertImgSec, false)

end Sys2Proof.Machine
end

