-- ==== Sys2Proof/Machine/Manage.lean ====
section
/-! DEFINITION. Management: who may write a register, the Gnomon mailbox and its commands, CTL_RESET, staging and the wake
report (chapters 19 to 21). -/

namespace Sys2Proof.Machine

/-! ### Admission of a register write (R87, R93, R103, R660, R690, R700) -/

/-- A management or CSR request turned away: its answer, and for DENY the access record (R93, R786). -/
def Dev.turnAway (s : Dev) (w : Writer) (off : Nat) (c : Code) : Dev :=
  let s1 := s.respond w.src w.txid 0 [c] 0 0 []
  if c == .deny then
    s1.denialRecord (s.reg R.setNode % 2 ^ 16 * 2 ^ 48 + s.pos * 2 ^ 29 + off) (w.src.toNat + w.hue.toNat * 256 + Op.code .write * 2 ^ 16 + 3 * 2 ^ 21)
  else (s1.bump F.rflCount2_STALE).event evStale 0 (some w.hue)

/-- Whether a hue is LIVE and lists an agent (R660). -/
def Dev.hueOk (s : Dev) (agent hue : Nat) : Bool := 56 ≤ agent || (s.hueLive hue && bitAt (s.hueMask hue) agent)

/-- Whether the port that a request names carries messages. -/
def Dev.viaUp (s : Dev) (v : Via) : Bool :=
  match v with
  | .agentPort p => s.portUp p.val
  | .dieLink p => s.portUp p.val
  | .own => true
  | .sideband _ => false

/-- Whether a port is the return of the I/O ring: port 0 of position 0 with IO_RING 1 (R534). The ring's agents, which the
topology names on port 4, are then the agents of this port. -/
def Dev.ringReturn (s : Dev) (p : Nat) : Bool := byteAt s.img.force.topology 2 == 1 && s.pos == 0 && p == 0

/-- Check 1 of R103, and R88 before a topology is in force: may a SRC enter the slice there? On a die link the requests of
agents and slices that another slice has checked arrive too. -/
def Dev.srcOk (s : Dev) (via : Via) (a : Nat) : Bool :=
  match via with
  | .own => a == 56 + s.pos
  | .sideband _ => false
  | .agentPort p =>
    let pt := s.port p.val
    if s.setSize == 0 then a < 48 && s.portUp p.val && !pt.dieLink
    else if s.ringReturn p.val then a < 48 && (cfgAgents (s.reg (R.pwkCfg 4))).contains a
    else s.get (F.pwkCfg_ROLE p.val) == 2 && a < 48 && (cfgAgents (s.reg (R.pwkCfg p.val))).contains a
  | .dieLink p =>
    let pt := s.port p.val
    if s.setSize == 0 then s.portUp p.val && pt.dieLink && (a < 48 || a == 56 + s.get (F.pwkCfg_NEIGHBOUR p.val))
    else s.get (F.pwkCfg_ROLE p.val) == 1

/-- A write of a register by a writer, in a form that R7 allows or not, who needs some rights on the CSR region that covers
it (checks 1, 3, 6, 7 and 8 of R103); before the first seal every one is admitted (R87), and one that a die link brings has passed
its checks at its ingress (R106). A fenced agent's is discarded, and a lost slice's (R261, R619). A slice's own carries hue 0 and
is not checked against access lists (R94). An admitted write is answered OK (R9) and takes
effect; a write of a counter register by another hue than 0 is not admitted (R782). -/
def Dev.csrAdmit (s : Dev) (w : Writer) (off rights : Nat) (form : Bool) (run : Dev → Dev) : Dev :=
  let a := w.src.toNat
  let hue := if 56 ≤ a then 0 else w.hue.toNat
  let w : Writer := { w with hue := BitVec.ofNat 8 hue }
  let go := fun (s : Dev) => run (s.respond w.src w.txid 0 [.ok] 0 0 [])
  if !s.active || s.discards a || !s.viaUp w.via then s
  else if !s.srcOk w.via a || !form then s.turnAway w off .deny
  else if !s.img.firstSealed || w.via.isDieLink then go s
  else match s.regionOf 3 off 8 with
    | none => s.turnAway w off .deny
    | some n =>
      if !s.hueOk a hue then s.turnAway w off .staleHue
      else if a < 48 && !(s.region n).grants a hue rights then s.turnAway w off .deny
      else if 0x1A0000 ≤ off && off < 0x1C0000 && hue != 0 then s.turnAway w off .deny
      else go s

/-- WRITE, and WRITE with MGMT, as rights masks (R92). -/
def rightWrite : Nat := 0x02
def rightManage : Nat := 0x12

/-- A register write in the staging window: its eight bytes go to the staging buffer at IMG_STAGE.OFFSET, none beyond its
end (R687). -/
def Dev.stageWord (s : Dev) (off v : Nat) : Dev :=
  let a := s.get F.imgStage_OFFSET + off
  if 0x2000000 < a + 8 then s else { s with img.stage := memWrite s.img.stage a 8 v }

/-- STAGING_WRITE: bytes of the window go to the staging buffer (R687); a form that R7 does not allow is answered DENY. -/
def Dev.stagingWrite (s : Dev) (w : Writer) (off mask : Nat) (v : Word) : Dev :=
  s.csrAdmit w (0x18000 + off) rightManage (mask == 0xFF && off % 8 == 0) (fun s => s.stageWord off v.toNat)

/-! ### The mailbox (R698, R700, R701, R754, R779, R794, R795) -/

/-- Whether no template of the plan in force issues a wave (R722). -/
def Dev.noWaves (s : Dev) : Bool := (planTemplateList s.plan).all (fun t => (templateWaves s.plan t).isEmpty)

/-- Whether a slot other than k holds an IMAGE key that is not revoked (R701). -/
def Fuse.otherImageKey (u : Fuse) (k : Nat) : Bool :=
  (u.keys.zipIdx).any (fun e => e.2 != k && e.1.programmed && e.1.image && !e.1.revoked)

/-- The refusal code of a mailbox command, none where it is allowed. -/
def Dev.commandRefusal (s : Dev) (code arg : Nat) : Option Nat :=
  let sealed_ := s.on F.imgStatus_SEALED
  let unless_ := fun (b : Bool) => if b then none else some 0x31
  let busyOr := fun (b : Bool) => if s.loaderBusy then some 0x30 else unless_ b
  let awake := s.phase == .lit || s.phase == .dim
  match code with
  | 0x01 => busyOr (!sealed_ && !s.noLoad)
  | 0x02 => busyOr sealed_
  | 0x03 => busyOr sealed_
  | 0x04 => unless_ sealed_
  | 0x05 => busyOr true
  | 0x06 => none
  | 0x07 => unless_ (sealed_ && arg < 4 && s.fuse.otherImageKey arg)
  | 0x08 => unless_ sealed_
  | 0x10 => unless_ (s.phase == .lit && (s.get F.frmConfig_PERIOD == 0 || s.halted || s.noWaves))
  | 0x11 => unless_ (s.phase == .dim)
  | 0x12 => unless_ (sealed_ && !s.loaderBusy && awake)
  | 0x13 => unless_ (sealed_ && !s.loaderBusy && awake)
  | 0x14 => none
  | 0x15 => none
  | 0x16 => none
  | 0x20 => if s.on F.cntExpose_PENDING then some 0x30 else unless_ (arg == 0 || s.namedBoundary ≤ arg)
  | 0x21 => none
  | 0x22 => none
  | _ => some 0x31

/-- Whether a command is set-wide (R701, R754, R795). -/
def setWide (code : Nat) : Bool := code ≤ 4 || (0x12 ≤ code && code ≤ 0x16) || code == 0x20

/-- A command's result is known; COMMAND_END writes it (R794). -/
def Dev.cmdResult (s : Dev) (code r : Nat) : Dev :=
  match s.mgmt.cmd with
  | some c => if c.code.toNat == code then { s with mgmt.cmd := some { c with result := some (BitVec.ofNat 8 r) } } else s
  | none => s

/-- A block reset asked for by a set-wide command or by CTL_RESET (R746): each target decides for itself. -/
def Dev.targetBlock (s : Dev) (block source : Nat) : Dev × Nat :=
  match s.blockRefusal block with
  | some r => (s, r)
  | none => (s.startBlock block source, 0)

/-- The RESULT of a RESET_BLOCK, own being this slice's verdict where it is a target: the code of the lowest-position target that
refuses (R746). A reserved code is refused by every target. What another target decides does not reach this slice's state: where
that matters, RESULT is a free choice among the codes that it may be (log entry 66). -/
def Dev.blockResult (s : Dev) (targets code own : Nat) : Nat × Dev :=
  let ts := s.liveSet.filter (bitAt targets)
  if ts.isEmpty then (0, s)
  else if reservedBlock code then (0x31, s)
  else if ts == [s.pos] || (ts.head? == some s.pos && own != 0) then (own, s)
  else
    let r := s.free
    ([own, 0x30, 0x31].getD (r.1.toNat % 3) 0, r.2)

/-- What a set-wide command does on a slice that it reaches. -/
def Dev.runLocal (s : Dev) (code arg : Nat) : Dev :=
  let target := bitAt arg s.pos
  match code with
  | 0x01 => s.runLoad false
  | 0x02 => s.quiesceStart
  | 0x03 => s.runLoad true
  | 0x04 => (s.liftFence arg).cmdResult code 0
  | 0x12 => { s with mgmt.duskNext := true, frm.haltPending := true }
  | 0x13 => { s.put F.pwrState_STATE 4 with phase := .toNight, frm.haltPending := true }.cmdResult code 0
  | 0x14 => if target then s.requestReset false 3 else s
  | 0x15 => if target then s.requestReset true 3 else s
  | 0x16 =>
    if target then
      let block := bitsOf arg 15 8
      let r := s.targetBlock block 3
      if r.1.mgmt.cmd.any (fun c => c.code == 0x16) then
        let b := r.1.blockResult (arg % 256) block r.2
        b.2.cmdResult code b.1
      else r.1
    else s
  | _ => s

/-- The leader carries a set-wide command to every slice (R691, R701, R779). -/
def Dev.distribute (s : Dev) (code arg : Nat) : Dev :=
  if code == 0x20 then
    let f := BitVec.ofNat 48 (if arg == 0 then s.namedBoundary else arg)
    (s.ctlSet (.expose f)).send (.ctl s.pos (.expose f))
  else (s.ctlSet (.mgmt 0 (BitVec.ofNat 8 code) (BitVec.ofNat 48 arg))).runLocal code arg

/-- FORWARD: at the leader a set-wide command for the set; elsewhere what the leader carries (R691). -/
def Dev.forwardIn (s : Dev) (sender code arg : Nat) : Dev :=
  if !s.active || s.deaf sender || !setWide code then s
  else if s.isLeader then (if sender == s.pos then s else s.distribute code arg)
  else if sender == s.leader then s.runLocal code arg
  else s

/-- Zeroes both record rings and RST_AG3 (R795). -/
def Dev.clearLog (s : Dev) : Dev :=
  { s.setReg R.rstAg3 0 with afterglow := s.afterglow.filter (fun e => 0x3000 ≤ e.1), frm.deniedRec := none }

/-- Clears the counters of the groups in a mask (R795). -/
def Dev.clearCounters (s : Dev) (groups : Nat) : Dev :=
  s.each (onesOf 12 groups) (fun s g => s.each (List.range 8) (fun s k => s.put (F.cntVal_VALUE g k) 0))

/-- What a command of this slice alone does, and its RESULT; the RESULT of a rejected token is not stated (log entry 7). -/
def Dev.runAlone (s : Dev) (code arg : Nat) : Dev :=
  match code with
  | 0x05 =>
    let t := s.checkToken (memBytes s.img.stage 0 224)
    if t.2 then t.1.cmdResult code 0
    else
      let r := t.1.free
      r.2.cmdResult code (r.1.toNat % 256)
  | 0x06 => (s.put F.secDebug_PERMS 0).cmdResult code 0
  | 0x07 =>
    { s with fuse.keys := s.fuse.keys.zipIdx.map (fun (e : KeySlot × Nat) => if e.2 == arg then { e.1 with revoked := true } else e.1) }.cmdResult
      code 0
  | 0x08 =>
    { s with fuse.minVersion := BitVec.ofNat 16 (max s.fuse.minVersion.toNat s.img.force.secVersion.toNat) }.cmdResult code 0
  | 0x10 => { s.put F.pwrState_STATE 2 with phase := .dim }.cmdResult code 0
  | 0x11 => { s.put F.pwrState_STATE 1 with phase := .lit }.cmdResult code 0
  | 0x21 => (s.clearCounters arg).cmdResult code 0
  | 0x22 => s.clearLog.cmdResult code 0
  | _ => s

/-- The effect of an accepted command (R689 step 1, R701). -/
def Dev.runCommand (s : Dev) (code arg : Nat) : Dev :=
  if !setWide code then s.runAlone code arg
  else
    let s1 := if code == 0x01 || code == 0x03 then
      s.each s.others (fun s p => s.send (.stageCopy p (s.get F.imgStage_LENGTH))) else s
    let s2 := if code == 0x14 || code == 0x15 || code == 0x20 || code == 0x04 then s1.cmdResult code 0
      else if code == 0x16 && !bitAt arg s1.pos then
        let b := s1.blockResult (arg % 256) (bitsOf arg 15 8) 0
        b.2.cmdResult code b.1
      else s1
    if s2.isLeader then s2.distribute code arg
    else s2.send (.ctl s2.leader (.mgmt 0 (BitVec.ofNat 8 code) (BitVec.ofNat 48 arg)))

/-- A write to GNM_CMD (R794). -/
def Dev.mailboxWrite (s : Dev) (code arg : Nat) : Dev :=
  let told := fun (s : Dev) (r : Nat) => ((s.put F.gnmCmdStatus_CODE code).put F.gnmCmdStatus_RESULT r).raise F.gnmCmdStatus_DONE
  if s.on F.gnmCmdStatus_BUSY then told s 0x30
  else match s.commandRefusal code arg with
    | some r => if code == 0x01 || code == 0x03 then told (s.refuse r 0 0) r else told s r
    | none =>
      let c : CmdRun := { code := BitVec.ofNat 8 code, arg := BitVec.ofNat 48 arg, result := none }
      { s.raise F.gnmCmdStatus_BUSY with mgmt.cmd := some c }.runCommand code arg

/-- A management command of a writer (R700). -/
def Dev.command (s : Dev) (w : Writer) (code arg : Nat) : Dev :=
  s.csrAdmit w R.gnmCmd rightManage true (fun s => s.mailboxWrite code arg)

/-- COMMAND_END (R794). -/
def Dev.commandEnd (s : Dev) : Dev :=
  match s.mgmt.cmd with
  | some c =>
    match c.result with
    | some r => s.endCommand c.code.toNat r.toNat
    | none => s
  | none => s

/-! ### Dusk drained, wake reports, exposure -/

/-- DUSK_DRAINED: READY once nothing is left (R724 step 5); lines written meanwhile are flushed again. -/
def Dev.duskDrained (s : Dev) : Dev :=
  if s.phase != .toDusk then s
  else if s.drained then s.toLeader 1 0 0
  else ((s.flushWays .dusk).dropReflections).settle

/-- A report of Lit at the leader: with every slice's, planned work resumes (R732). -/
def Dev.litArrive (s : Dev) (sender : Nat) : Dev :=
  let got := sender :: s.mgmt.litFrom
  if !s.liveSet.all (fun p => got.contains p) then { s with mgmt.litFrom := got }
  else
    let s1 : Dev := { s with mgmt.litFrom := [] }
    if s.get F.frmConfig_PERIOD == 0 || !s.frm.started then s1
    else s1.ctlAll (.frameGo (BitVec.ofNat 48 s1.namedBoundary) false)

/-- WAKE_LIT: of this slice its own wake ends; of another the leader takes its report (R730, R732). -/
def Dev.wakeLitIn (s : Dev) (sender : Nat) : Dev :=
  if sender == s.pos then
    let s1 := s.wakeLit
    if s.phase == .waking && s1.phase == .lit && s1.isLeader then s1.litArrive s1.pos else s1
  else if s.active && s.isLeader && !s.deaf sender then s.litArrive sender
  else s

/-- CTL_EXPOSE (R779, R780, R798). -/
def Dev.exposeIn (s : Dev) (frame : Frame) : Dev := { s.raise F.cntExpose_PENDING with frm.exposeAt := some frame }

/-! ### CTL_RESET (R702, R703) -/

/-- Whether an agent's CTL_RESET is authorised. -/
def Dev.resetAllowed (s : Dev) (w : Sender) (kind targets : Nat) : Bool :=
  kind != 3 && (targets == 0 || match s.regionOf 3 0x180000 8 with
    | some n => (s.region n).grants w.src.toNat w.hue.toNat 0x10
    | none => false)

/-- What a CTL_RESET does on a slice that it names. -/
def Dev.applyReset (s : Dev) (kind targets block : Nat) : Dev :=
  if !bitAt targets s.pos then s
  else match kind with
    | 0 => s.requestReset false 2
    | 1 => s.requestReset true 2
    | _ => (s.targetBlock block 2).1

/-- A CTL_RESET message: the ingress slice answers an agent's, and forwards it to the other slices that it names. -/
def Dev.ctlReset (s : Dev) (via : Via) (w : Sender) (kind targets block : Nat) : Dev :=
  if !s.active || s.discards w.src.toNat || !s.viaUp via then s
  else if !s.srcOk via w.src.toNat then s.respond w.src w.txid 0 [.deny] 0 0 []
  else if 56 ≤ w.src.toNat then (if kind == 3 then s else s.applyReset kind targets block)
  else if !s.resetAllowed w kind targets then s.respond w.src w.txid 0 [.deny] 0 0 []
  else
    let s1 := s.respond w.src w.txid 0 [.ok] 0 0 []
    let m : Ctl := .ctlReset (BitVec.ofNat 2 kind) (BitVec.ofNat 8 targets) w.hue (BitVec.ofNat 8 block)
    (s1.each (s1.others.filter (fun p => bitAt targets p)) (fun s p => s.send (.ctl p m))).applyReset kind targets block

end Sys2Proof.Machine
end

