-- ==== Sys2Proof/Machine/Csr.lean ====
section
/-! DEFINITION. The registers as a reader finds them, and what a write does (R7 to R11, R108, R109, and the register rule
named beside each). A register that is not computed here reads what the register file holds. -/

namespace Sys2Proof.Machine

/-! ### Reads -/

/-- SET_IDENT (R3) and SET_ENABLE (R14), which show the fuses as they are blown now (log entry 115). -/
def Dev.setIdent (s : Dev) : Nat :=
  0xB12E * 2 ^ 48 + 0x0537 * 2 ^ 32 + 2 * 2 ^ 24 + 4 * 2 ^ 16 + s.fuse.stepping.toNat * 2 ^ 8 + s.pos
def Dev.setEnable (s : Dev) : Nat :=
  let u := s.fuse
  u.bin.toNat * 2 ^ 48 + u.lensGood.toNat * 2 ^ 44 + u.leakClass.toNat * 2 ^ 40 + u.dead3.toNat * 2 ^ 34
    + u.dead2.toNat * 2 ^ 28 + u.dead1.toNat * 2 ^ 22 + u.dead0.toNat * 2 ^ 16 + u.facetCount.toNat * 2 ^ 8

/-- FCT_CONFIG of an enabled facet (R158). -/
def Dev.facetConfig (s : Dev) (f : Nat) : Nat :=
  2 ^ 33 + b2n (s.fuse.absorbs f) * 2 ^ 32
    + (List.range 16).foldl (fun a w => a + s.wayClass f w * 4 ^ w) 0

/-- FCT_STATUS (R160). -/
def Dev.facetStatus (s : Dev) (f : Nat) : Nat :=
  (s.parkedParts f).length % 2 ^ 15 * 2 ^ 20
    + (s.plrsOf f).length % 32 * 2 ^ 15 + (s.wbEntries f) % 16 * 2 ^ 11

/-- FCT_TAG_DATA: the copy that FCT_TAG_SEL names, with its upset bits (R170). -/
def Dev.tagData (s : Dev) (f : Nat) : Nat :=
  let set := s.get (F.fctTagSel_SET f)
  let w := s.get (F.fctTagSel_WAY f)
  let u := tgetD s.cache.tagUpset (lineKey f set w) (0, 0)
  s.tagWord f set w ^^^ (if s.on (F.fctTagSel_COPY f) then u.2 else u.1).toNat

/-- FCT_DIR_DATA: the copy that FCT_DIR_SEL names, with its upset bits (R240). -/
def Dev.dirData (s : Dev) (f : Nat) : Nat :=
  let set := s.get (F.fctDirSel_SET f)
  let w := s.get (F.fctDirSel_WAY f)
  let u := tgetD s.cache.dirUpset (dirKey f set w) (0, 0)
  s.dirWordAt f set w ^^^ (if s.on (F.fctDirSel_COPY f) then u.2 else u.1).toNat

/-- FCT_DIR_STATUS (R238). -/
def Dev.dirStatus (s : Dev) (f : Nat) : Nat :=
  let l := s.dirOf f
  l.length * 2 ^ 32 + (l.filter (fun e => e.st.isFlare)).length

/-- FCT_TICKET, 0 in blocking mode (R274). -/
def Dev.facetTicket (s : Dev) (f : Nat) : Nat :=
  if !s.nakMode then 0
  else (tgetD s.cache.nextTicket f 0).toNat * 2 ^ 48 + (s.ticketsOf f).length % 256 * 2 ^ 40 + s.reg (R.fctTicket f)

/-- A register of facet f at facet offset o; a disabled facet's reads 0 (R16). -/
def Dev.facetReg (s : Dev) (f o : Nat) : Nat :=
  if s.fuse.dead f then 0
  else match o with
    | 0x000 => s.facetConfig f
    | 0x008 => (List.range 4).foldl (fun a k => a + s.wayMask k * 2 ^ (16 * k)) 0
    | 0x010 => (List.range 4).foldl (fun a k => a + s.wayMask (4 + k) * 2 ^ (16 * k)) 0
    | 0x018 => s.facetStatus f
    | 0x068 => s.tagData f
    | 0x078 => s.dirStatus f
    | 0x090 => s.dirData f
    | 0x098 => s.facetTicket f
    | _ => s.reg (0x40000 + f * 0x400 + o)

/-- LNS_MAP (R362). -/
def Dev.lensMap (s : Dev) : Nat :=
  let l := s.fuse.lenses
  l.length * 2 ^ 8 + l.zipIdx.foldl (fun a e => a + e.1 * 4 ^ e.2) 0

/-- LNS_DESC_DATA (R364) and CRD_FLOW_DATA (R429). -/
def Dev.descData (s : Dev) : Nat :=
  let i := s.get F.lnsDescSel_INDEX
  if i < planWaves s.plan then waveWord s.plan i (s.get F.lnsDescSel_WORD) else 0
def Dev.flowData (s : Dev) : Nat :=
  let i := s.get F.crdFlowSel_INDEX
  if i < planFlows s.plan then flowWord s.plan i (s.get F.crdFlowSel_WORD) else 0

/-- CRD_FLOW_STATUS (R430). -/
def Dev.flowStatus (s : Dev) : Nat :=
  s.reg R.crdFlowStatus + min 255 (s.lens.runs.filter (fun r => r.flow && r.started && s.issued (.flow r.desc))).length * 2 ^ 32

/-- STK_ROWS (R594): SPARES_MIN counts the spare rows of the bank that has fewest free. -/
def Dev.stackRows (s : Dev) : Nat :=
  let rows := s.stack.remaps.map (fun m =>
      m.stack * 2 ^ 31 + m.channel * 2 ^ 26 + m.pc * 2 ^ 25 + m.bank * 2 ^ 19 + m.row * 2 ^ 7)
    ++ s.stack.copies.map (fun c => c.rowAddr.toNat)
  let free := rows.foldl (fun a r => min a (3 - (s.sparesUsed r).eraseDups.length)) 3
  withBits (s.reg R.stkRows) 1 0 free

/-- RFL_QSTATUS (R666), RFL_HUE_DATA (R668). -/
def Dev.rflQStatus (s : Dev) : Nat := s.rfl_.nextSeq.toNat * 2 ^ 48 + s.rfl_.queue.length * 2 ^ 32
def Dev.hueData (s : Dev) : Nat :=
  let h := s.get F.rflHueSel_HUE
  let swept := ((s.rfl_.hues[h]?).map (fun e => e.swept.toNat)).getD 0
  s.hueState h * 2 ^ 62 + swept * 2 ^ 56 + s.hueMask h

/-- SEC_STATE (R713). -/
def Dev.secState (s : Dev) : Nat :=
  let bits := fun (p : KeySlot → Bool) => s.fuse.keys.zipIdx.foldl (fun a e => a + b2n (p e.1) * 2 ^ e.2) 0
  s.fuse.minVersion.toNat * 2 ^ 32 + bits (fun k => k.revoked) * 2 ^ 12 + bits (fun k => k.debug) * 2 ^ 8
    + bits (fun k => k.image) * 2 ^ 4 + bits (fun k => k.programmed)

/-- Word w of the hash of a key slot (R716). -/
def Dev.keyHashWord (s : Dev) (slot w : Nat) : Nat :=
  ((s.fuse.keys[slot]?).map (fun k => bitsOf k.hash.toNat (64 * w + 63) (64 * w))).getD 0

/-- The state of the LFSR that PRM_LFSR_SEL names (R326). -/
def Dev.lfsrSelected (s : Dev) : Nat :=
  let f := s.get F.prmLfsrSel_FACET
  if s.on F.prmLfsrSel_WHICH then s.demandLfsr f else s.plannedLfsr f

/-- What a read of a register returns (R8): RO, RW, W1C and RWS fields their values, WO registers and offsets assigned
to no register 0 (R109). -/
def Dev.csrRead (s : Dev) (off : Nat) : Nat :=
  if off == R.setIdent then s.setIdent
  else if off == R.setEnable then s.setEnable
  else if 0x11000 ≤ off && off < 0x12000 then ((s.region ((off - 0x11000) / 64)).word ((off - 0x11000) / 8 % 8)).toNat
  else if 0x40000 ≤ off && off < 0x50000 then s.facetReg ((off - 0x40000) / 0x400) (off % 0x400)
  else if off == R.fctReq then s.reg off + min 8192 s.occupancy * 2 ^ 14 + min 2048 s.poolUsed
  else if off == R.lnsMap then s.lensMap
  else if off == R.lnsDesc then planWaves s.plan
  else if off == R.lnsDescData then s.descData
  else if 0x80100 ≤ off && off < 0x80500 && s.lensCount ≤ (off - 0x80100) / 0x100 then 0
  else if off == R.prmSeed then leAt s.img.force.formats 0 4
  else if off == R.prmLfsr then s.lfsrSelected
  else if off == R.crdFlows then planFlows s.plan
  else if off == R.crdFlowData then s.flowData
  else if off == R.crdFlowStatus then s.flowStatus
  else if 0xC0000 ≤ off && off < 0xC1800 && off % 0x400 == 0x30 then withBits s.links.disc.toNat 23 21 s.pos
  else if off == R.stkRows then s.stackRows
  else if off == R.shdConfig then withBits (s.reg off) 2 0 s.buddy
  else if off == R.shdRecords then s.reg off + min 4096 s.shadow.deltas.length
  else if off == R.rflQstatus then s.rflQStatus
  else if off == R.rflHueData then s.hueData
  else if 0x161000 ≤ off && off < 0x163000 then s.rflDescriptor ((off - 0x161000) / 32) ((off - 0x161000) / 8 % 4)
  else if 0x170000 ≤ off && off < 0x180000 then (tgetD s.rfl_.windows ((off - 0x170000) / 8) 0).toNat
  else if 0x1C8000 ≤ off && off < 0x1CC000 then memRead s.afterglow (off - 0x1C8000) 8
  else if off == R.secState then s.secState
  else if off == R.secDieId then s.fuse.dieId.toNat
  else if 0x1E0100 ≤ off && off < 0x1E0200 then s.keyHashWord ((off - 0x1E0100) / 0x40) (off % 0x40 / 8)
  else s.reg off

/-! ### Writes -/

/-- Whether an offset is one of a row's. -/
def RegRow.has (r : RegRow) (off : Nat) : Bool :=
  match r.dims with
  | [] => r.base == off
  | [(st, n)] => r.base ≤ off && (off - r.base) % st == 0 && (off - r.base) / st < n
  | (st, n) :: (st2, n2) :: _ => r.base ≤ off && (off - r.base) / st2 < n2 &&
      (off - r.base) % st2 % st == 0 && (off - r.base) % st2 / st < n

/-- The register map's row of an offset (R109: none for an offset that no chapter assigns). -/
def regRow (off : Nat) : Option RegRow := regRows.find? (fun r => r.has off)

/-- The value a register holds after a write by its access codes (R8): RW fields are set, each 1 clears a W1C bit, and
RWS fields are set where they are not locked. -/
def RegRow.written (r : RegRow) (locked : Bool) (old v : Nat) : Nat :=
  let full := 2 ^ 64 - 1
  let set := r.rw ||| (if locked then 0 else r.rws)
  let kept := old &&& (full ^^^ (set ||| r.w1c))
  kept ||| (v &&& set) ||| (old &&& r.w1c &&& (full ^^^ v))

/-- A write of a register that has no effect beyond its fields (R8, R9). PWR_RST stays set under CRIT (R793); RWS fields
lock at the first seal (R690). -/
def Dev.fieldWrite (s : Dev) (off v : Nat) : Dev :=
  match regRow off with
  | none => s
  | some r =>
    let w := if off == R.gnmAlert && s.on F.pwrThrottle_CRIT then withBits v 9 9 0 else v
    s.setReg off (r.written s.img.firstSealed (s.reg off) w)

/-- What a write of a register does (R8, R9, and the register's own rule). -/
def Dev.csrEffect (s : Dev) (off v : Nat) : Dev :=
  if off == R.imgSeal then s.imgSealWrite v
  else if 0x18000 ≤ off && off < 0x20000 then s.stageWord (off - 0x18000) v
  else if 0x40000 ≤ off && off < 0x50000 then
    let f := (off - 0x40000) / 0x400
    if s.fuse.dead f then s
    else if off == R.fctMaintSw f then s.maintSw f (bitsOf v 17 16) (bitsOf v 14 4) (bitsOf v 3 0)
    else s.fieldWrite off v
  else if 0x80100 ≤ off && off < 0x80500 && s.lensCount ≤ (off - 0x80100) / 0x100 then s
  else if off == R.pwkGlint then s.sendGlints (v % 64)
  else if off == R.rflDone then (s.rflDone (v % 256) (bitsOf v 9 8)).settle
  else if 0x170000 ≤ off && off < 0x180000 then
    { s with rfl_.windows := tput 0 s.rfl_.windows ((off - 0x170000) / 8) (BitVec.ofNat 64 v) }
  else if off == R.rstBlock then s.rstBlockWrite (v % 256)
  else if off == R.rstWdog then { s with mgmt.wdogAt := s.now }
  else if off == R.gnmCmd then s.mailboxWrite (v % 256) (bitsOf v 63 16)
  else if 0x1C0100 ≤ off && off < 0x1C0200 && off % 0x40 == 8 then
    { s with mgmt.coreWdogAt := tset s.mgmt.coreWdogAt ((off - 0x1C0100) / 0x40) s.now }
  else s.fieldWrite off v

/-- The rights that a write of a CSR offset needs once the first image is sealed: WRITE, with MGMT for the staging window
and the mailbox (R690, R700). -/
def csrRights (off : Nat) : Nat :=
  if off == R.gnmCmd || (0x18000 ≤ off && off < 0x20000) then rightManage else rightWrite

/-- Whether hue h may read a CNT_ register (R782). -/
def Dev.cntReadable (s : Dev) (off hue : Nat) : Bool :=
  let opened := fun (g : Nat) => s.on (F.cntCfg_OPEN g) && s.get (F.cntCfg_HUE g) == hue
  if off < 0x1A0C00 then off % 0x100 < 0xC0 && opened ((off - 0x1A0000) / 0x100)
  else if off == R.cntExpose || off == R.cntEnergy || off == R.cntEnergySnap then (List.range 12).any opened
  else false

/-- Whether the CNT_ access of a request is denied by its hue (R782). -/
def Dev.cntDenied (s : Dev) (off agent hue : Nat) (read : Bool) : Bool :=
  0x1A0000 ≤ off && off < 0x1C0000 && hue != 0 && agent < 56 && !(read && s.cntReadable off hue)

/-- CSR_WRITE: a write by a writer, answered OK, or DENY (R7 to R9, R87, R93, R103, R109, R782); a port's partner writes over the
sideband, unanswered (R488; log entry 124). -/
def Dev.csrWriteBy (s : Dev) (w : Writer) (off v : Nat) : Dev :=
  match w.via with
  | .sideband p => if s.sidebandServes p.val true && sidebandReg p.val off then s.csrEffect off v else s
  | _ => s.csrAdmit w off (csrRights off) (off % 8 == 0 && off < 0x200000) (fun s => s.csrEffect off v)

end Sys2Proof.Machine
end

