-- ==== Sys2Proof/Machine/Frame.lean ====
section
/-! DEFINITION. Frames: boundaries, slots, the frame barrier, slips, halts, the degraded and the loss plan, and what happens
at a boundary or in a slot (chapters 02, 04, 16, 17, 20, 21). -/

namespace Sys2Proof.Machine

/-! ### Counters of a boundary (R149, R150, R193, R780) -/

/-- The latch of an exposure at its boundary (R780, R781). -/
def Dev.latch (s : Dev) (frame : Nat) : Dev :=
  if s.frm.exposeAt.map BitVec.toNat != some frame then s
  else
    let s1 := s.each (List.range 12) (fun s g => s.each (List.range 8) (fun s k =>
      s.put (F.cntSnap_SNAP g k) (s.get (F.cntVal_VALUE g k))))
    let s2 := (s1.put F.cntEnergySnap_UJ (s.get F.cntEnergy_UJ)).put F.cntExpose_FRAME frame
    { (s2.bumpWrap F.cntExpose_SEQ).put F.cntExpose_PENDING 0 with frm.exposeAt := none }

/-- Hot and thrash frames of the frame that ends, whose number is frame (R149, R150, R193, R194). A THR of 0 stops the thrash
frames, not the count of quick refetches that LAST_COUNT shows (log entry 99). -/
def Dev.facetFrames (s : Dev) (cycles frame : Nat) : Dev :=
  let s1 := s.each s.fuse.facets (fun s f =>
    let busy := tgetD s.cache.busy f 0
    let hot := 0 < cycles && min 8 (s.get (F.fctHotCfg_BUSY_THR f)) * cycles ≤ 8 * busy &&
      8 * s.cache.busUse ≤ min 8 (s.get (F.fctHotCfg_IDLE_THR f)) * cycles * 128
    let s1 := if hot then
        ((s.bump (F.fctHot_HOT_FRAMES f)).put (F.fctHot_LAST_FRAME f) frame).raise (F.fctErr_HOT f)
      else s
    let n := tgetD s.cache.refetch f 0
    let thr := s.get F.fctThrashCfg_THR
    let s2 := if n == s1.get (F.fctThrash_LAST_COUNT f) then s1 else s1.put (F.fctThrash_LAST_COUNT f) (min n 65535)
    if thr != 0 && thr < n then (s2.bump (F.fctThrash_THRASH_FRAMES f)).raise (F.fctThrash_THRASHED f) else s2)
  { s1 with cache.busy := [], cache.busUse := 0, cache.refetch := [] }

/-! ### What a plan frame names on this slice -/

/-- The transfers that a slot issues on this slice, by the timetable that the plan frame started with (R519, R529). -/
def Dev.slotTransfers (s : Dev) (slot : Nat) : List Nat :=
  ((issueList s.img.force.lattice (s.get F.pwkLattice_TIMETABLE) s.pos).filter (fun e => e.1 == slot)).map Prod.snd

/-- Whether a slot issues any item on this slice (R51). -/
def Dev.slotIssues (s : Dev) (slot : Nat) : Bool :=
  let b := s.plan
  let t := s.template
  (List.range 4).any (fun e => bitAt (waveEntry b t slot e) 31) || (List.range 8).any (fun k =>
      bitAt (flowEntry b t slot k) 31 && s.flowHere (bitsOf (flowEntry b t slot k) 11 0)) ||
    backgroundKind b t slot != 0 || !(s.slotTransfers slot).isEmpty

/-- The slot by whose start the last issuing slot has begun: 0 for a template that issues nothing (R51). -/
def Dev.lastIssue (s : Dev) : Nat := (slots64.filter s.slotIssues).foldl max 0

/-- Whether the scrub reads that background steps issued have all been served, with their reconstructions (R569, R571). -/
def Dev.scrubServed (s : Dev) : Bool :=
  s.stack.reads.all (fun r => r.why != .scrub) && s.shadow.recons.all (fun r => r.why != .scrub)

/-- Whether an issued item has completed: waves, flows and transfers leave the list as they complete, and a background step
is complete once the reads it issued have been served, and what it rebuilt is written (R51). -/
def Dev.itemOver (s : Dev) (it : Item) : Bool :=
  match it with
  | .background 1 => s.scrubServed
  | .background 4 => !s.rebuildOpen
  | .background _ => true
  | _ => false

/-- Whether the current plan frame is done on this slice: FRAME_DONE is then due (R51, R739). -/
def Dev.frameEnded (s : Dev) : Bool :=
  s.frm.started && !s.frm.doneSent && s.frm.items.all (fun x => s.itemOver x.1) && !s.on F.pwrThrottle_THERMAL &&
    (!s.frm.frameRunning || s.lastIssue < s.frm.slot)

/-- FRAME_DONE, once it is due (R51, R75). -/
def Dev.checkDone (s : Dev) : Dev :=
  if !s.active || !s.frameEnded then s
  else
    let past := s.now - s.frm.frameFrom - 60 * s.slotLen
    let s1 := (s.peak F.frmGuard_PEAK_SCLK past).send
      (.ctl s.leader (.frameDone (BitVec.ofNat 48 s.frameNo) (s.get F.frmStatus_HOLDOVER == 0)))
    { s1 with frm.doneSent := true }

/-! ### The barrier at the leader (R52, R58, R63) -/

/-- Whether planned work is halted or about to halt. -/
def Dev.halting (s : Dev) : Bool := s.halted || s.frm.haltPending

/-- FRAME_GO to every slice (R52). From here on only the FRAME_DONEs of the plan frame that it starts count. -/
def Dev.sendGo (s : Dev) (degraded : Bool) : Dev :=
  { s with frm.doneFrom := [], frm.goFor := s.namedBoundary }.ctlAll (.frameGo (BitVec.ofNat 48 s.namedBoundary) degraded)

/-- FRAME_DONE at the leader (R52, R61). One with a tick frame number below the plan frame's first boundary is of an earlier
plan frame, which has ended without it (R63, R620). -/
def Dev.frameDoneIn (s : Dev) (sender : Nat) (frame : Frame) : Dev :=
  if !s.active || !s.isLeader || s.deaf sender || frame.toNat < s.frm.goFor then s
  else
    let got := sender :: s.frm.doneFrom.filter (fun p => p != sender)
    let s1 := { s with frm.doneFrom := got, frm.lastDone := BitVec.ofNat 3 sender }
    if s1.livePositions.all (fun p => got.contains p) && !s1.halting && s1.get F.frmConfig_PERIOD != 0 then s1.sendGo false else s1

/-- DEGRADED_SWITCH: the eighth consecutive slip (R63). -/
def Dev.degradedSwitch (s : Dev) : Dev :=
  if s.active && s.isLeader && s.get F.frmStatus_CONSEC_SLIPS == 8 && !s.halting then s.sendGo true else s

/-- What R64 does to a background step: a row copy, a rebuilt chunk and a chunk of memory initialisation that are under way start
again in the next slot of their KIND; a scrub and a sweep go on from where they stand. -/
def Dev.dropStep (s : Dev) (kind : Nat) : Dev :=
  match kind with
  | 3 => { s with stack.copies := s.stack.copies.map (fun (c : RowCopy) => if c.moved < 256 then { c with moved := 0 } else c) }
  | 4 => { s with
      shadow.rebuildAt := []
      shadow.bufferWanted := []
      shadow.recons := s.shadow.recons.filter (fun e => match e.why with
        | .rebuild _ => false
        | _ => true)
      stack.writes := s.stack.writes.filter (fun w => w.why != .rebuilt || w.cls != .background || w.issued) }
  | 5 => { s with stack.initAt := s.stack.initAt.map (fun e => (e.1, e.2 - e.2 % 256)) }
  | _ => s

/-- What R64 does to the items that a slice issued and that have not completed. -/
def Dev.abandon (s : Dev) : Dev :=
  let s1 := s.each s.frm.items (fun s x => match x.1 with
    | .wave e _ => (s.dropJob e).engineReset e
    | .flow i => s.dropFlow i
    | .transfer i => s.dropTransfer i
    | .background k => s.dropStep k)
  { s1 with frm.items := [], frm.frameRunning := false, frm.doneSent := true }

/-- FRAME_GO names the boundary at which the next plan frame starts; the first after an image load or a wake sets the tick
frame number (R54, R55, R64). HEARTBEATs of the leader still set it until planned work starts (R56). -/
def Dev.frameGoIn (s : Dev) (frame : Frame) (degraded : Bool) : Dev :=
  if !s.active then s
  else
    let n := s.frameNo
    let s1 := if s.frm.follow && s.frm.go.isNone && frame.toNat != n + 2 then s.put F.frmTickCount_COUNT (frame.toNat - 1) else s
    let s2 := if degraded then s1.abandon else s1
    { s2 with frm.go := some (frame, degraded), frm.commitGo := s2.frm.commitAt.isSome, mgmt.rampSteps := 0 }.settle

/-! ### The start of a plan frame (R54, R60 to R63, R292, R627, R791) -/

/-- The lattice runs on a port, or stops (R33, R478, R492). -/
def Dev.latticeOn (s : Dev) (on : Bool) : Dev :=
  s.each (List.range 6) (fun s p =>
    if s.isDieLink p then s.put (F.pwkStatus_LATTICE p) (b2n (on && s.get (F.pwkStatus_STATE p) == 2)) else s)

/-- The position of the last FRAME_DONE sender of a slip run: the leader holds it; no message tells another slice, where it
is a free value (log entry 80). -/
def Dev.latePosition (s : Dev) : Nat × Dev :=
  if s.isLeader then (s.frm.lastDone.toNat, s)
  else
    let f := s.free
    (f.1.toNat % 8, f.2)

/-- The slip run that ends as planned work starts (R61, R62, R74, R791). -/
def Dev.endSlips (s : Dev) : Dev :=
  if s.frm.slipRun == 0 then s
  else
    let l := s.latePosition
    let s1 := (l.2.put F.frmSlip_LAST_FRAMES (min s.frm.slipRun 65535)).put F.frmSlip_LATE_POSITION l.1
    { (s1.eventRecord 1 s.frm.slipFrom.toNat s.frm.slipRun l.1) with frm.slipRun := 0 }

/-- The halt that ends as planned work resumes; one that set FRM_EVENTS.HALT is recorded (R72, R791). -/
def Dev.endHalt (s : Dev) : Dev :=
  let s1 := if s.frm.haltEvent then s.eventRecord 2 s.frm.haltFrom.toNat (s.frameNo - s.frm.haltFrom.toNat) 0 else s
  { s1 with frm.haltTick := false, frm.haltRoute := false, frm.haltOrdered := false, frm.haltEvent := false }

/-- Puts entry idx of a list in FRM_STATUS (R70). -/
def Dev.showList (s : Dev) (which : WhichList) (idx : Nat) : Dev :=
  let s0 : Dev := { s with frm.which := which }
  ((s0.put F.frmStatus_PLAN_INDEX idx).put F.frmStatus_TEMPLATE (bitsOf (s0.listEntry idx) 5 0)).put F.frmStatus_DEGRADED
    (b2n (which == .degraded))

/-- Starts plan frame idx of a list at this boundary. -/
def Dev.startFrame (s : Dev) (which : WhichList) (idx : Nat) : Dev :=
  let before := if s.frm.started then templateActivity s.plan s.template else 0
  let s2 := ((s.endSlips.endHalt.showList which idx).put F.frmStatus_CONSEC_SLIPS 0).put F.frmStatus_STATE 1
  let s3 := (s2.bumpWrap F.prmFrames_FRAMES).seedLanes.put F.pwrState_RAMPING 0
  let s4 := ((s3.put F.pwkLattice_TIMETABLE s3.timetable).latticeOn true).each (List.range 6) (fun s p =>
    s.updTx p (fun x => { x with ready := [], deferred := [], detour := [] }))
  { s4 with
    lens.runs := [], frm.items := [], frm.go := none, frm.started := true, frm.frameRunning := true
    frm.doneSent := false, frm.lastEngines := before, frm.follow := false, frm.restart := false, frm.frameFrom := s.now }

/-- The list and entry that FRAME_GO starts: an installed list starts at entry 0, a degraded FRAME_GO starts or advances the
degraded list, and otherwise the index advances past a completed plan frame (R35, R54, R63). A list that was put in force in a
halt starts at entry 0 (DESIGN CHOICE for a halt under R33, where R35 speaks of the list that was halted; log entry 83). -/
def Dev.nextFrame (s : Dev) (degraded restart : Bool) : WhichList × Nat :=
  let idx := s.get F.frmStatus_PLAN_INDEX
  let next := if s.listLength ≤ idx + 1 then 0 else idx + 1
  if restart || s.frm.restart || !s.frm.started then (s.frm.which, 0)
  else if degraded && s.frm.which != .degraded then (.degraded, 0)
  else (s.frm.which, if degraded || s.frm.doneSent then next else idx)

/-- The plan frame that FRAME_GO starts at this boundary; a switch to the degraded list is told and recorded (R63, R72, R791). -/
def Dev.startNext (s : Dev) (degraded restart : Bool) : Dev :=
  let n := s.nextFrame degraded restart
  if n.1 == .degraded && s.frm.which != .degraded then
    let s1 := (s.raise F.frmEvents_DEGRADED_SWITCH).alert alertFrm
    (s1.eventRecord 3 s.frameNo 0 0).startFrame .degraded 0
  else s.startFrame n.1 n.2

/-- A slip (R59 to R61, R72, R74). -/
def Dev.slip (s : Dev) : Dev :=
  let s1 := ((s.bump F.frmSlip_SLIP_TOTAL).put F.frmStatus_CONSEC_SLIPS (min 8 (s.get F.frmStatus_CONSEC_SLIPS + 1))).raise
    F.frmEvents_SLIP
  { (s1.put F.frmStatus_STATE 2).event evSlip 0 with
    frm.frameRunning := false
    frm.slipRun := s.frm.slipRun + 1
    frm.slipFrom := if s.frm.slipRun == 0 then BitVec.ofNat 48 s.frameNo else s.frm.slipFrom }

/-! ### Halts, Dusk, Night and QUIESCE at a boundary (R33, R530, R620, R692, R724, R733) -/

/-- Planned work and the lattice halt; a halt of R33, R530 or R620 sets FRM_EVENTS.HALT and ALERT_N, one that a command
ordered does not (R72, R73). A leader whose FRAME_GO named this boundary still holds every FRAME_DONE. -/
def Dev.haltNow (s : Dev) : Dev :=
  let s1 := if s.get F.frmConfig_PERIOD == 0 then s else s.put F.frmStatus_STATE 3
  let halts := s.frm.haltAlarm && s.frm.started && s.get F.frmConfig_PERIOD != 0 && s.get F.frmStatus_STATE != 3
  let s2 := if halts then (s1.raise F.frmEvents_HALT).alert alertFrm else s1
  let done := if s.isLeader && s.frm.go.isSome then s.livePositions else s.frm.doneFrom
  { s2.latticeOn false with
    frm.haltPending := false, frm.frameRunning := false, frm.go := none, frm.doneFrom := done
    frm.haltAlarm := false, frm.haltEvent := s.frm.haltEvent || halts
    frm.haltFrom := if s.get F.frmStatus_STATE == 3 then s.frm.haltFrom else BitVec.ofNat 48 s.frameNo }

/-- What a halt at this boundary was ordered for. -/
def Dev.orderedWork (s : Dev) : Dev :=
  let s1 := if s.img.quiescing then s.quiesceNow else s
  let s2 := if s1.mgmt.duskNext then { s1.duskBegin with frm.haltOrdered := true } else s1
  if s2.phase == .toNight then s2.enterNight else s2

/-! ### The loss of a slice at its boundary (R58, R620, R621, R627) -/

/-- The boundary that HOME_MOVED named: the lowest survivor leads, the new home adopts the lost slice's lines, and the plan in
force stops, its open items ending as R64 gives (log entry 114). The loss plan starts here without a FRAME_GO, or planned work halts
as R530 states (R58, R620, R621, R627). The answer says whether a plan frame started. -/
def Dev.takeOver (s : Dev) (frame : Nat) : Dev × Bool :=
  match s.frm.movedAt with
  | none => (s, false)
  | some (f, lost, home) =>
    if f.toNat != frame then (s, false)
    else
      let s1 := s.put F.frmConfig_LEADER s.actingLeader
      let s2 := if home.toNat != s1.pos then s1
        else { (s1.raise F.shdStatus_ADOPTING).put F.shdStatus_ADOPTED lost.toNat with shadow.walking := true }
      if s2.get F.frmConfig_PERIOD == 0 then (s2, false)
      else
        let s3 := { s2.abandon with frm.doneFrom := [], frm.goFor := frame }
        match lossFor s3.img.force.lattice lost.toNat with
        | some l =>
          let s4 := s3.put F.pwkRoute_ROUTES (l.2.1.getD s3.pos 0)
          if s4.frm.started && !s4.halting then (s4.startFrame .loss 0, true)
          else ({ s4.showList .loss 0 with frm.restart := true }, false)
        | none => ({ s3 with frm.haltRoute := true, frm.haltPending := true, frm.haltAlarm := true }, false)

/-! ### Commits at a boundary (R67, R68, R690, R696, R697, R724) -/

/-- A patch or Dusk whose COMMIT named this boundary; whether a new normal list starts here. A plan that waits for a FRAME_GO
is installed in a halt under R530 at the next boundary, since that halt ends with it alone (DESIGN CHOICE; log entry 84). Items
of the old list that are still open in a halt end as R64 gives before a new list is installed (R445; log entry 114). -/
def Dev.commitNow (s : Dev) (frame : Nat) (go : Bool) : Dev × Bool :=
  match s.frm.commitAt with
  | none => (s, false)
  | some (kind, at_) =>
    let due := match at_ with
      | some f => f.toNat == frame
      | none => (go && s.frm.commitGo) || (s.frm.haltRoute && !s.frm.haltPending && s.img.idleTypes.contains 5)
    if !due then (s, false)
    else
      let s1 : Dev := { s with frm.commitAt := none }
      match kind, s.img.idle with
      | .dusk, _ => (s1.enterDusk, false)
      | .patch, some n =>
        let plan := s.img.idleTypes.contains 5
        let routed := s.frm.haltRoute
        let s0 := if plan && s1.halted then { s1.abandon with frm.doneSent := s1.frm.doneSent } else s1
        let s2 := s0.installPatch n s.img.idleTypes
        if plan && routed && !s2.halted && !s2.frm.haltPending then (s2.startFrame .normal 0, false) else (s2, plan)
      | _, _ => (s1, false)

/-! ### The boundary (R27 to R35, R56, R57, R71, R72, R616, R617) -/

/-- The tick status of the frame that ends (R32, R70, R72). -/
def Dev.tickStatus (s : Dev) (usable : Bool) : Dev :=
  if usable then
    let n := s.frm.usableRun + 1
    { ((s.put F.frmStatus_HOLDOVER 0).put F.frmStatus_HOLDOVER_RUN 0).put F.frmStatus_TICK_LOCK (b2n (16 ≤ n)) with
      frm.usableRun := n, frm.tickSeen := false }
  else
    let s1 := ((s.put F.frmStatus_HOLDOVER 1).bump F.frmStatus_HOLDOVER_RUN).put F.frmStatus_TICK_LOCK 0
    let s2 := s1.raise F.frmEvents_HOLDOVER_ENTERED
    { s2.raiseIf (!s.frm.tickSeen) F.frmEvents_TICK_MISSING with frm.usableRun := 0, frm.tickSeen := false }

/-- HEARTBEAT to every other slice, and the count of theirs, once discovery is STABLE (R56, R616, R617). -/
def Dev.heartbeats (s : Dev) (usable : Bool) : Dev :=
  let s1 := s.ctlSet (.heartbeat (BitVec.ofNat 48 s.frameNo) usable 0 15 0)
  let missed := s.others.foldl (fun m x =>
    if s.frm.beats.contains x then tput 0 m x 0
    else if s.now < s.frm.grace then m
    else tset m x (tgetD m x 0 + 1)) s.frm.missed
  { s1 with frm.missed := missed, frm.beats := [] }

/-- What a boundary does to planned work: it halts, starts a plan frame, or slips. begun: the loss plan has started here. -/
def Dev.planBoundary (s : Dev) (frame : Nat) (begun : Bool) : Dev :=
  if s.frm.haltPending then (s.haltNow.commitNow frame false).1.orderedWork
  else if begun then (s.commitNow frame false).1
  else
    let go := s.frm.go.filter (fun g => g.1.toNat == frame)
    let c := s.commitNow frame go.isSome
    let s1 := c.1
    match go with
    | some g => if s1.active then s1.startNext g.2 c.2 else s1
    | none =>
      if s1.frm.started && !s1.halted && s1.get F.frmConfig_PERIOD != 0 && s1.active && !s1.frm.frameRunning then s1.slip
      else if s1.frm.started && !s1.halted && s1.get F.frmConfig_PERIOD != 0 && s1.active && s.frm.frameRunning &&
        s1.get F.frmStatus_PLAN_INDEX == s.get F.frmStatus_PLAN_INDEX && s1.get F.prmFrames_FRAMES == s.get F.prmFrames_FRAMES then
        s1.slip
      else s1

/-- The seal at its boundary (R690). -/
def Dev.sealBoundary (s : Dev) (frame : Nat) : Dev :=
  if s.frm.sealAt.map BitVec.toNat == some frame then s.sealNow else s

/-- A frame boundary, with a usable tick or without. -/
def Dev.boundary (s : Dev) (usable : Bool) : Dev :=
  let frame := (s.frameNo + 1) % 2 ^ 48
  let s1 := (s.latch frame).put F.frmTickCount_COUNT frame
  let s2 : Dev := { s1 with frm.counter := 0, frm.slot := 0, frm.deniedRec := none }
  let s3 := ((s2.tickStatus usable).thermalBoundary.facetFrames s.frm.counter s.frameNo).heartbeats usable
  let m := s3.takeOver frame
  ((m.1.sealBoundary frame).planBoundary frame m.2).throttleRecords.checkDone.settle

/-- The distance of the boundary that a tick makes from the one that the frame counter expects (R29). -/
def Dev.tickOffset (s : Dev) : Nat :=
  max s.frm.counter s.frameLen - min s.frm.counter s.frameLen

/-- FRAME_TICK: a sampled rising edge (R28 to R34, R57). While planned work runs, a tick that is not usable is ignored.
Before an image commits the tick is judged against the 16,384 cycles of R57, so that a tick at a legal frame length makes a
boundary and counts as a frame without a usable tick in HOLDOVER, HOLDOVER_RUN and HOLDOVER_ENTERED (DESIGN CHOICE; log
entry 86). -/
def Dev.frameTick (s : Dev) : Dev :=
  if !s.active then s
  else if s.tickOffset ≤ 8 then s.boundary true
  else if s.frm.started && !s.halted then { s.raise F.frmEvents_TICK_PHASE with frm.tickSeen := true }
  else { s with frm.tickSeen := true }.boundary false

/-- HOLDOVER_BOUNDARY: the frame counter reaches the frame length without a usable tick (R32, R57). -/
def Dev.holdover (s : Dev) : Dev := if s.active then s.boundary false else s

/-- A slice's tick report: its run of usable ticks, and above 16 bits its run of frames without one (R33, R35). -/
def tickReport (old : Nat) (usable : Bool) : Nat :=
  if usable then min (old % 65536 + 1) 65535 else min (old / 65536 + 1) 65535 * 65536

/-- HOLDOVER_HALT (R33): some slice has reached 64 consecutive frames without a usable tick. -/
def Dev.holdoverHalt (s : Dev) : Dev :=
  let due := 64 ≤ s.get F.frmStatus_HOLDOVER_RUN || s.livePositions.any (fun p => 64 ≤ tgetD s.frm.reports p 0 / 65536)
  if s.active && s.frm.started && due && !s.frm.haltTick then { s with frm.haltTick := true, frm.haltPending := true, frm.haltAlarm := true } else s

/-- PLAN_RESUME (R35): at the leader, once every slice has reported 16 usable ticks in a row and finished its plan frame. -/
def Dev.planResume (s : Dev) : Dev :=
  let ready := 16 ≤ s.frm.usableRun && (s.livePositions.filter (fun p => p != s.pos)).all (fun p => 16 ≤ tgetD s.frm.reports p 0 % 65536)
  if s.active && s.isLeader && s.frm.haltTick && !s.frm.haltPending && !s.frm.haltRoute && !s.frm.haltOrdered && ready &&
    s.livePositions.all (fun p => s.frm.doneFrom.contains p) then s.sendGo false
  else s

/-- HEARTBEAT from another slice (R56, R527, R616). -/
def Dev.heartbeatIn (s : Dev) (sender : Nat) (frame : Frame) (usable : Bool) (lost ackLink : Nat) (ackSeq : BitVec 12) : Dev :=
  if !s.active || s.deaf sender || sender == s.pos then s
  else
    let s1 : Dev := { s with
      frm.beats := sender :: s.frm.beats, shadow.lastBeat := tset s.shadow.lastBeat sender s.now
      frm.reports := tset s.frm.reports sender (tickReport (tgetD s.frm.reports sender 0) usable) }
    let s2 := if s1.frm.follow && sender == s1.leader then s1.put F.frmTickCount_COUNT frame.toNat else s1
    if lost == 0 then s2 else s2.beatLinks sender lost ackLink ackSeq

/-- HEARTBEAT_MISSED: no HEARTBEAT at two consecutive boundaries (R617). -/
def Dev.heartbeatMissed (s : Dev) (x : Nat) : Dev :=
  if s.active && 2 ≤ tgetD s.frm.missed x 0 then s.holdLost x else s

/-- ECLIPSE from another slice (R269, R617). -/
def Dev.eclipseIn (s : Dev) (cause : BitVec 8) (origin : Nat) : Dev :=
  if !s.active || s.deaf origin then s
  else if cause == 0x01 then s.enterEclipse 0x01 origin
  else s.holdLost origin

/-! ### Slots: refresh (R550 to R552) -/

/-- Weak rows of a pseudo-channel of this slice, in row-list order (R552, R553). -/
def Dev.weakRows (s : Dev) (pc : Nat) : List Nat :=
  let b := s.plan
  ((List.range (planRows b)).map (rowWord b)).filter (fun w =>
    bitsOf w 28 27 == 0 && bitsOf w 31 29 == s.pos && bitsOf w 24 18 == pc)

/-- Refresh state of a pseudo-channel: next bank, per-bank refreshes since the last weak row, next weak row. -/
abbrev RefreshAt := Nat × Nat × Nat

/-- n refresh commands of a pseudo-channel: its messages and its state after them (R552). -/
def refreshRun (pc per : Nat) (weak : List Nat) : Nat → RefreshAt → List Msg → List Msg × RefreshAt
  | 0, r, l => (l, r)
  | n + 1, r, l =>
    if !weak.isEmpty && per ≤ r.2.1 then
      let k := r.2.2 % weak.length
      let row := weak.getD k 0
      refreshRun pc per weak n (r.1, 0, k + 1) (l ++ [.refresh pc (bitsOf row 17 12) (some (bitsOf row 11 0))])
    else refreshRun pc per weak n ((r.1 + 1) % 64, r.2.1 + 1, r.2.2) (l ++ [.refresh pc r.1 none])

/-- Refresh commands of a slot: of the plan's table from the first seal, of the boot schedule before (R550, R551). -/
def Dev.refreshSlot (s : Dev) (slot : Nat) : Dev :=
  let one := fun (pc : Nat) =>
    let n := if s.stack.planRefresh then refreshEntry s.plan slot pc else 3
    let weak := if s.stack.planRefresh then s.weakRows pc else []
    let id := s.reg (if pc < 64 then R.stkId0 else R.stkId1)
    refreshRun pc (64 * bitsOf id 31 16 / max 1 weak.length) weak n
      (tgetD s.stack.refreshBank pc 0, tgetD s.stack.refreshCount pc 0, tgetD s.stack.weakNext pc 0) []
  let all := (List.range 128).map (fun pc => (pc, one pc))
  let s1 : Dev := { s with
    outbox := s.outbox ++ all.flatMap (fun e => e.2.1)
    stack.refreshBank := all.map (fun e => (e.1, e.2.2.1))
    stack.refreshCount := all.map (fun e => (e.1, e.2.2.2.1))
    stack.weakNext := all.map (fun e => (e.1, e.2.2.2.2)) }
  if s.selections.isEmpty then s1
  else s1.each all (fun s e => if e.2.1.isEmpty then s else s.event evRefresh e.1 none e.2.1.length)

/-! ### Slots: background steps (R569 to R573, R591, R592, R662, R681) -/

/-- Sub-blocks of device space on one pseudo-channel. -/
def scrubTotal : Nat := 2861 * 64 * 128

/-- Device offset and facet group of the i-th sub-block of a pseudo-channel's scrub pass (R569). -/
def Dev.scrubPlace (s : Dev) (pc i : Nat) : Nat × Nat :=
  let row := pc / 64 * 2 ^ 31 + pc % 64 * 2 ^ 25 + i / 128 % 64 * 2 ^ 19 + i / 8192 * 2 ^ 7
  (pc / 2, s.deviceOf row (i % 128))

/-- SCLK cycles of a scrub pass (R570, R591). -/
def Dev.scrubPeriod (s : Dev) : Nat := max 1 (min 168 (s.get F.stkScrubCfg_PERIOD)) * 5760000000000

/-- Reads of one pseudo-channel in a scrub slot: while its progress lags. stack.scrubAt holds its place at the number of the
pseudo-channel, its pass's start 128 above, and its passes 256 above. -/
def Dev.scrubRun (pc : Nat) : Nat → Dev → Dev
  | 0, s => s
  | n + 1, s =>
    let i := tgetD s.stack.scrubAt pc 0
    let from_ := tgetD s.stack.scrubAt (128 + pc) 0
    if (s.now - from_) * scrubTotal ≤ i * s.scrubPeriod then s
    else
      let p := s.scrubPlace pc i
      let shadowed := s.shadowedChunk (p.2 / 0x200000)
      let s1 := (s.issueRead p.1 (p.2 / 256 * 256) (BitVec.ofNat 4 (2 ^ (p.2 / 64 % 4))) shadowed .background .scrub).2
      let at_ := if i + 1 == scrubTotal then
          tset (tset (tset s1.stack.scrubAt pc 0) (128 + pc) s1.now) (256 + pc) (tgetD s1.stack.scrubAt (256 + pc) 0 + 1)
        else tset s1.stack.scrubAt pc (i + 1)
      Dev.scrubRun pc n { s1 with stack.scrubAt := at_ }

/-- STK_SCRUB, and STK_ERR.SCRUB_BEHIND as BEHIND becomes 1 (R587, R592). -/
def Dev.showScrub (s : Dev) : Dev :=
  let pcs := List.range 128
  let passes := pcs.foldl (fun m pc => min m (tgetD s.stack.scrubAt (256 + pc) 0)) (2 ^ 32 - 1)
  let slow := pcs.filter (fun pc => tgetD s.stack.scrubAt (256 + pc) 0 == passes)
  let place := slow.foldl (fun m pc => min m (tgetD s.stack.scrubAt pc 0)) scrubTotal
  let behind := pcs.any (fun pc =>
    tgetD s.stack.scrubAt pc 0 * s.scrubPeriod + 5760000000000 * scrubTotal < (s.now - tgetD s.stack.scrubAt (128 + pc) 0) * scrubTotal)
  let s1 := if behind && !s.on F.stkScrub_BEHIND then s.stkErr F.stkErr_SCRUB_BEHIND else s
  ((s1.put F.stkScrub_PASSES passes).put F.stkScrub_BEHIND (b2n behind)).put F.stkScrub_PROGRESS (place * 100 / scrubTotal)

/-- A scrub slot: each pseudo-channel reads within its BACKGROUND share (R45, R569, R570). -/
def Dev.scrubSlot (s : Dev) : Dev :=
  if !s.on F.stkScrubCfg_ENABLE then s
  else
    (s.each (List.range 128) (fun s pc => Dev.scrubRun pc (s.backgroundRoom pc) s)).showScrub

/-- The chunks of the initialisation order in force (R681). -/
def Dev.orderChunks (s : Dev) : List Nat :=
  let b := s.img.force.initOrder
  (List.range (b.length / 8)).flatMap (fun k =>
    let e := orderEntry b k
    (List.range (e.2 + 1 - e.1)).map (fun i => e.1 + i))

/-- Zeroes up to n sub-blocks of the chunks of an order on a pseudo-channel (R582, R681; log entry 44). -/
def Dev.initRun (chunks : List Nat) (pc : Nat) : Nat → Dev → Dev
  | 0, s => s
  | n + 1, s =>
    let i := tgetD s.stack.initAt pc 0
    match chunks[i / 256]? with
    | none => s
    | some c =>
      let s1 := (s.zeroSub (chunkPlace c pc (i % 256))).busUse pc .background 1
      Dev.initRun chunks pc n { s1 with stack.initAt := tset s1.stack.initAt pc (i + 1) }

/-- A slot of background KIND 5 zeroes sub-blocks of the order's chunks within the BACKGROUND share (R45, R582, R681). -/
def Dev.initSlot (s : Dev) : Dev :=
  let l := s.orderChunks
  s.each (List.range 128) (fun s pc => Dev.initRun l pc (s.backgroundRoom pc) s)

/-- The row copy that a KIND 3 slot of a facet goes on with: the one that holds the rebuild buffer, else the oldest that has not
started, where no rebuild has the buffer or waits for it (R66, R577, R578). -/
def Dev.copyOf (s : Dev) (f : Nat) : Option RowCopy :=
  let mine := s.stack.copies.filter (fun c => s.fuse.owner (bitsOf c.rowAddr.toNat 31 26) == f && c.moved < 256)
  let rebuild := s.shadow.bufferWanted.contains f || s.shadow.recons.any (fun e => match e.why with
    | .rebuild d => s.fuse.owner (facetGroup d 0) == f
    | _ => false)
  match mine.find? (fun c => 0 < c.moved) with
  | some c => some c
  | none => if rebuild then none else mine.head?

/-- A slot of background KIND 3: each facet's row copy makes as many of its accesses as the BACKGROUND share of its
pseudo-channel holds (R45, R576, R577). -/
def Dev.copySlot (s : Dev) : Dev :=
  s.each s.fuse.facets (fun s f =>
    match s.copyOf f with
    | none => s
    | some c =>
      let pc := bitsOf c.rowAddr.toNat 31 25
      let n := min (256 - c.moved) (s.backgroundRoom pc)
      ({ s with stack.copies := s.stack.copies.map (fun (x : RowCopy) => if x == c then { x with moved := x.moved + n } else x)
       }).busUse pc .background n)

/-- The background step of a slot (R43). -/
def Dev.backgroundSlot (s : Dev) (slot : Nat) : Dev :=
  match backgroundKind s.plan s.template slot with
  | 1 => s.scrubSlot
  | 2 => s.sweepSlot
  | 3 => s.copySlot
  | 4 => s.rebuildSlot
  | 5 => s.initSlot
  | _ => s

/-! ### Slots: power (R736, R738, R739, R761, R783) -/

/-- Engines in a ramp: those of the heavier of the plan frame and the one after or before it, or of the first plan frame to come
(R736, R738). -/
def Dev.rampEngines (s : Dev) : Nat :=
  if !s.on F.pwrState_RAMPING then 0
  else if s.frm.frameRunning then
    max (templateActivity s.plan s.template)
      (max (bitsOf (s.listEntry (s.get F.frmStatus_PLAN_INDEX)) 15 14) s.frm.lastEngines)
  else
    let n := s.nextFrame (s.frm.go.any Prod.snd) false
    templateActivity s.plan (bitsOf (Dev.listEntry { s with frm.which := n.1 } n.2) 5 0)

/-- Estimated power of the slot that ends, in mW (R736, R739; log entry 45). -/
def Dev.slotEstimate (s : Dev) (slot : Nat) : Nat :=
  let e := max ((List.range 4).filter (fun k => (s.engine k).running.isSome)).length s.rampEngines
  let nf := max 1 s.fuse.facets.length
  let f := if s.frm.frameRunning then s.fuse.facets.foldl (fun a k => a + portEntry s.plan s.template slot k) 0 else 0
  let links := ((List.range 6).filter s.isDieLink).length
  60000 + 7500 * e + 4000 * 8 * s.mgmt.slotBus / (128 * max 1 s.slotLen) + 8375 * f / nf +
    3125 * 8 * 4 * s.mgmt.slotFlits / (5 * max 1 (links * s.slotLen))

/-- The account of the slot that ends: PWR_EST, CNT_ENERGY and the DEMAND throttle. -/
def Dev.endSlot (s : Dev) (slot : Nat) : Dev :=
  let mw := s.slotEstimate slot
  let total := s.mgmt.energyFrac + mw * s.slotCycles * 625
  let s1 := ((s.put F.pwrEst_LAST_W (min 255 (mw / 1000))).peak F.pwrEst_PEAK_W (min 255 (mw / 1000))).bump F.cntEnergy_UJ
    (total / 1000000000)
  let limit := s.get F.pwrClass_DEMAND_W * 1000
  let s2 := if s.on F.imgStatus_LOADED && limit < s.demandEstimate slot then s1.throttleOn 2 else s1.throttleOff 2
  { s2 with mgmt.energyFrac := total % 1000000000, mgmt.slotBus := 0, mgmt.slotFlits := 0 }

/-- The ramp before a heavier plan frame, and after one, in four steps (R738, R755). -/
def Dev.rampSlot (s : Dev) (slot : Nat) : Dev :=
  if !s.frm.frameRunning || slot % 16 != 0 then s
  else
    let here := templateActivity s.plan s.template
    let ramps := here < bitsOf (s.listEntry (s.get F.frmStatus_PLAN_INDEX)) 15 14 || here < s.frm.lastEngines
    s.put F.pwrState_RAMPING (b2n (ramps && slot != 48))

/-- RAMP_STEP: a step of the ramp between FRAME_GO and the boundary it names, with no plan frame before it (R738). -/
def Dev.rampStep (s : Dev) : Dev :=
  if s.frm.go.isNone || s.frm.frameRunning || 4 ≤ s.mgmt.rampSteps then s
  else { s.put F.pwrState_RAMPING (b2n (s.mgmt.rampSteps != 3)) with mgmt.rampSteps := s.mgmt.rampSteps + 1 }

/-! ### Slots: planned items (R37, R60, R389, R719) -/

/-- The items of a slot: waves, then flows, transfers and the background step (log entry 126). -/
def Dev.issueSlot (s : Dev) (slot : Nat) : Dev :=
  let b := s.plan
  let t := s.template
  let waves := (List.range 4).filter (fun e => bitAt (waveEntry b t slot e) 31)
  let flows := (List.range 8).filter (fun k => bitAt (flowEntry b t slot k) 31)
  let s1 := s.each waves (fun s e => s.issueWave e (bitsOf (waveEntry b t slot e) 12 0) slot)
  let s2 := s1.each flows (fun s k => s.issueFlow (bitsOf (flowEntry b t slot k) 11 0) slot)
  let s3 := s2.each (s.slotTransfers slot) (fun s i => s.issueTransfer i slot)
  let kind := backgroundKind b t slot
  let s4 := if kind == 0 then s3 else { s3 with frm.items := s3.frm.items ++ [(Item.background kind, slot)] }
  s4.backgroundSlot slot

/-- A slot's number and its bus time, at its start (R37, R45). -/
def Dev.openSlot (slot : Nat) (s : Dev) : Dev := { s with frm.slot := slot + 1, stack.used := [] }

/-- SLOT_START: the next slot of the frame begins; before the first seal the slots of the boot schedule's own frame follow
one another (R37, R551, R783). -/
def Dev.slotStart (s : Dev) : Dev :=
  if !s.active || s.phase == .waking || (64 ≤ s.frm.slot && s.img.firstSealed) then s
  else
    let slot := s.frm.slot % 64
    let s1 := ((((s.endSlot ((slot + 63) % 64)).refreshSlot slot).rampSlot slot).showScrub.openSlot slot).issueWaiting
    let s2 := if s1.frm.frameRunning && s1.on F.pwrState_SCLK_PLL then s1.issueSlot slot else s1
    s2.settle.checkDone

end Sys2Proof.Machine
end

