-- ==== Sys2Proof/Machine/Meaning.lean ====
section
/-! DEFINITION. What every meaning is made of: a change of the slice, its queue untouched, and the one fault. -/

namespace Sys2Proof.Machine

/-- What a command answers. -/
abbrev Result := Host.Outcome State Fault Refusal

/-- A command that changes the slice and leaves the queue alone. -/
def State.onDev (s : State) (f : Dev → Dev) : Result := .next { s with toDev := f s.toDev }

/-- A command that names a device offset: at or above 191,998,459,904 there is none (R95). -/
def State.onDevAt (s : State) (d : Nat) (f : Dev → Dev) : Result :=
  if 91552 * 0x200000 ≤ d then .fault (.deviceOffsetOutside d) else s.onDev f

end Sys2Proof.Machine
end

