-- ==== Sys2Proof/Machine/FacetCmds.lean ====
section
/-! DEFINITION. The meanings of the facets' commands: snoop replies, acknowledgements, side accesses, parked parts, waiters,
tickets, scrubs, recalls, maintenance by set and way, and dead agents (chapters 04 to 07, 09). -/

namespace Sys2Proof.Machine

/-- SNP_REPLY (R220): a reply without data. -/
def execSnpReply (p : SnoopReply) (s : State) : Result := s.onDev (fun v => v.snoopArrive p none)

/-- SNP_DATA (R220, R226): a reply with data. -/
def execSnpData (p : SnoopReply) (data : Sub) (s : State) : Result := s.onDev (fun v => v.snoopArrive p (some data))

/-- COMP_ACK (R221, R241). -/
def execCompAck (src : Agent) (txid : BitVec 12) (s : State) : Result := s.onDev (fun v => v.compAck src txid)

/-- SIDE_ACCESS (R828, R312). -/
def execSideAccess (a : SideAccess) (s : State) : Result :=
  s.onDevAt a.d.toNat (fun v =>
    if !v.active || v.discards a.sender.toNat then v
    else
      ((v.inject a.upset).sideAccess a).settle)

/-- ESCAPE_CLAIM_SLOT (R314). -/
def execEscapeClaimSlot (e : EscapeRef) (s : State) : Result :=
  s.onDevAt e.d.toNat (fun v => if !v.active || v.discards e.sender.toNat then v else (v.claimAt e).settle)

/-- ESCAPE_RELEASE_SLOT (R314). -/
def execEscapeReleaseSlot (e : EscapeRef) (s : State) : Result :=
  s.onDevAt e.d.toNat (fun v => if !v.active || v.discards e.sender.toNat then v else (v.releaseAt e).settle)

/-- PREFETCH_HINT (R127, R128). -/
def execPrefetchHint (grp : BitVec 6) (d : BitVec 64) (allocClass : BitVec 3) (shadowed : Bool) (s : State) : Result :=
  s.onDevAt d.toNat (fun v => if !v.active then v else v.hintArrive grp.toNat (d.toNat / 256 * 256) allocClass.toNat shadowed)

/-- PARKED_PART_RESUME (R139, R142, R252). -/
def execParkedPartResume (facet : BitVec 6) (s : State) : Result :=
  s.onDev (fun v => if !v.active then v else v.parkedResume facet.toNat)

/-- HELD_WAITER_REENTER (R243, R244). -/
def execHeldWaiterReenter (facet : BitVec 6) (d : BitVec 64) (s : State) : Result :=
  s.onDev (fun v => if !v.active then v else v.heldReenter facet.toNat d.toNat)

/-- TAG_SCRUB (R134, R135). -/
def execTagScrub (facet : BitVec 6) (upsets : List (BitVec 4 × BitVec 48 × BitVec 48)) (s : State) : Result :=
  s.onDev (fun v => v.tagScrubRun facet.toNat upsets)

/-- DIR_SCRUB (R213). -/
def execDirScrub (facet : BitVec 6) (upsets : List (BitVec 4 × BitVec 50 × BitVec 50)) (s : State) : Result :=
  s.onDev (fun v => v.dirScrubRun facet.toNat upsets)

/-- DIR_RECALL_COMPLETE (R214). -/
def execDirRecallComplete (txn : Nat) (s : State) : Result := s.onDev (fun v => v.recallDone txn)

/-- SW_CLEAN (R153, R155, R168). -/
def execSwClean (facet : BitVec 6) (set : BitVec 11) (way : BitVec 4) (s : State) : Result :=
  s.onDev (fun v => if !v.active then v else v.maintSw facet.toNat 1 set.toNat way.toNat)

/-- SW_INVALIDATE (R153, R155, R168). -/
def execSwInvalidate (facet : BitVec 6) (set : BitVec 11) (way : BitVec 4) (s : State) : Result :=
  s.onDev (fun v => if !v.active then v else v.maintSw facet.toNat 2 set.toNat way.toNat)

/-- SW_CLEAN_INVALIDATE (R153, R155, R168). -/
def execSwCleanInvalidate (facet : BitVec 6) (set : BitVec 11) (way : BitVec 4) (s : State) : Result :=
  s.onDev (fun v => if !v.active then v else v.maintSw facet.toNat 3 set.toNat way.toNat)

/-- SNOOP_TIMEOUT (R259). -/
def execSnoopTimeout (txn : Nat) (agent : Agent) (s : State) : Result := s.onDev (fun v => v.snoopTimeout txn agent)

/-- AGENT_SUSPECT (R260). -/
def execAgentSuspect (report : Suspicion) (cause : BitVec 2) (s : State) : Result :=
  s.onDev (fun v => v.agentSuspectIn report.sender.toNat report.agent cause)

/-- AGENT_DEAD (R260, R261). -/
def execAgentDead (agent : Agent) (cause : BitVec 2) (s : State) : Result := s.onDev (fun v => v.agentDeadIn agent cause)

/-- FENCED (R260). -/
def execFenced (sender : Pos) (agent : Agent) (s : State) : Result := s.onDev (fun v => v.fencedIn sender.toNat agent)

/-- RECLAIM (R260, R262). -/
def execReclaim (agent : Agent) (s : State) : Result := s.onDev (fun v => v.reclaimIn agent)

/-- DEATH_WALK_END (R265, R273). -/
def execDeathWalkEnd (agent : Agent) (s : State) : Result := s.onDev (fun v => v.deathEnd agent)

/-- TICKET_HOLD_EXPIRY (R255). -/
def execTicketHoldExpiry (facet : BitVec 6) (ticket : BitVec 16) (s : State) : Result :=
  s.onDev (fun v => v.ticketLapse facet.toNat ticket)

end Sys2Proof.Machine
end

