-- ==== Sys2Proof/Machine/FrameCmds.lean ====
section
/-! DEFINITION. Meanings of the commands of frames, slots and the frame barrier (chapters 02, 17, 20). -/

namespace Sys2Proof.Machine

/-- FRAME_TICK (R28 to R34, R57). -/
def execFrameTick (s : State) : Result := s.onDev Dev.frameTick

/-- HOLDOVER_BOUNDARY (R32, R57). -/
def execHoldoverBoundary (s : State) : Result := s.onDev Dev.holdover

/-- HOLDOVER_HALT (R33). -/
def execHoldoverHalt (s : State) : Result := s.onDev Dev.holdoverHalt

/-- PLAN_RESUME (R35). -/
def execPlanResume (s : State) : Result := s.onDev Dev.planResume

/-- SLOT_START (R37, R550, R551). -/
def execSlotStart (s : State) : Result := s.onDev Dev.slotStart

/-- HEARTBEAT_MISSED (R617). -/
def execHeartbeatMissed (lost : Pos) (s : State) : Result := s.onDev (fun d => d.heartbeatMissed lost.toNat)

/-- HEARTBEAT (R56, R527, R616). -/
def execHeartbeat (sender : Pos) (frame : Frame) (usable : Bool) (lostLinks : BitVec 10) (ackLink : BitVec 4)
    (ackSeq : BitVec 12) (s : State) : Result :=
  s.onDev (fun d => d.heartbeatIn sender.toNat frame usable lostLinks.toNat ackLink.toNat ackSeq)

/-- FRAME_DONE at the leader (R52); the tick status that it carries changes nothing that HEARTBEAT has not reported. -/
def execFrameDone (sender : Pos) (frame : Frame) (_usable : Bool) (s : State) : Result :=
  s.onDev (fun d => d.frameDoneIn sender.toNat frame)

/-- FRAME_GO (R54, R55, R63). -/
def execFrameGo (frame : Frame) (degraded : Bool) (s : State) : Result := s.onDev (fun d => d.frameGoIn frame degraded)

/-- DEGRADED_SWITCH (R63). -/
def execDegradedSwitch (s : State) : Result := s.onDev Dev.degradedSwitch

/-- ECLIPSE (R269, R617). -/
def execEclipse (cause : BitVec 8) (origin : Pos) (s : State) : Result := s.onDev (fun d => d.eclipseIn cause origin.toNat)

/-- RAMP_STEP (R738). -/
def execRampStep (s : State) : Result := s.onDev Dev.rampStep

end Sys2Proof.Machine
end

