-- ==== Sys2Proof/Machine/ManageCmds.lean ====
section
/-! DEFINITION. Meanings of the loader's, the mailbox's and the reset messages' commands (chapters 19 to 21). -/

namespace Sys2Proof.Machine

/-- STAGING_WRITE (R687, R690). -/
def execStagingWrite (w : Writer) (offset : BitVec 15) (mask : BitVec 8) (value : BitVec 64) (s : State) : Result :=
  s.onDev (fun d => d.stagingWrite w offset.toNat mask.toNat value)

/-- IMG_SEAL: a write to the register (R712). -/
def execImgSeal (value : BitVec 64) (s : State) : Result := s.onDev (fun d => if d.active then d.imgSealWrite value.toNat else d)

/-- MEMORY_INIT_DONE (R582). -/
def execMemoryInitDone (durationUs : BitVec 16) (s : State) : Result := s.onDev (fun d => d.memoryInitDone durationUs.toNat)

/-- SHADE_ZERO_FILL_DONE (R188, R197). -/
def execShadeZeroFillDone (s : State) : Result := s.onDev Dev.zeroFillDone

/-- LOAD (R689, R701). -/
def execLoad (w : Writer) (s : State) : Result := s.onDev (fun d => d.command w 0x01 0)

/-- QUIESCE (R692, R701). -/
def execQuiesce (w : Writer) (s : State) : Result := s.onDev (fun d => d.command w 0x02 0)

/-- APPLY_PATCH (R696, R701). -/
def execApplyPatch (w : Writer) (s : State) : Result := s.onDev (fun d => d.command w 0x03 0)

/-- LIFT_FENCE (R268, R701). -/
def execLiftFence (w : Writer) (agent : Agent) (s : State) : Result := s.onDev (fun d => d.command w 0x04 agent.toNat)

/-- DEBUG_TOKEN (R705 to R707). -/
def execDebugToken (w : Writer) (s : State) : Result := s.onDev (fun d => d.command w 0x05 0)

/-- DEBUG_LOCK (R701). -/
def execDebugLock (w : Writer) (s : State) : Result := s.onDev (fun d => d.command w 0x06 0)

/-- REVOKE_KEY (R701, R816). -/
def execRevokeKey (w : Writer) (slot : BitVec 48) (s : State) : Result := s.onDev (fun d => d.command w 0x07 slot.toNat)

/-- RAISE_VERSION (R701, R816). -/
def execRaiseVersion (w : Writer) (s : State) : Result := s.onDev (fun d => d.command w 0x08 0)

/-- DIM (R722). -/
def execDim (w : Writer) (s : State) : Result := s.onDev (fun d => d.command w 0x10 0)

/-- LIT (R723). -/
def execLit (w : Writer) (s : State) : Result := s.onDev (fun d => d.command w 0x11 0)

/-- DUSK (R724). -/
def execDusk (w : Writer) (s : State) : Result := s.onDev (fun d => d.command w 0x12 0)

/-- DUSK_DRAINED (R724). -/
def execDuskDrained (s : State) : Result := s.onDev Dev.duskDrained

/-- NIGHT (R733). -/
def execNight (w : Writer) (s : State) : Result := s.onDev (fun d => d.command w 0x13 0)

/-- RESET_WARM (R743, R754). -/
def execResetWarm (w : Writer) (targets : BitVec 8) (s : State) : Result := s.onDev (fun d => d.command w 0x14 targets.toNat)

/-- RESET_COLD (R743, R754). -/
def execResetCold (w : Writer) (targets : BitVec 8) (s : State) : Result := s.onDev (fun d => d.command w 0x15 targets.toNat)

/-- RESET_BLOCK (R746, R754). -/
def execResetBlock (w : Writer) (targets : BitVec 8) (block : BitVec 8) (s : State) : Result :=
  s.onDev (fun d => d.command w 0x16 (targets.toNat + block.toNat * 256))

/-- EXPOSE (R779). -/
def execExpose (w : Writer) (frame : Frame) (s : State) : Result := s.onDev (fun d => d.command w 0x20 frame.toNat)

/-- CTL_EXPOSE (R780). -/
def execCtlExpose (frame : Frame) (s : State) : Result := s.onDev (fun d => if d.active then d.exposeIn frame else d)

/-- CLEAR_COUNTERS (R795). -/
def execClearCounters (w : Writer) (groups : BitVec 12) (s : State) : Result := s.onDev (fun d => d.command w 0x21 groups.toNat)

/-- CLEAR_LOG (R795). -/
def execClearLog (w : Writer) (s : State) : Result := s.onDev (fun d => d.command w 0x22 0)

/-- RESERVED_COMMAND: a code that names no command is refused with 0x31 (R754, R795); a code that names one is that command
with ARG 0. -/
def execReservedCommand (w : Writer) (code : BitVec 8) (s : State) : Result := s.onDev (fun d => d.command w code.toNat 0)

/-- COMMAND_END (R794). -/
def execCommandEnd (s : State) : Result := s.onDev Dev.commandEnd

/-- FORWARD (R691). -/
def execForward (sender : Pos) (code : BitVec 8) (arg : BitVec 48) (s : State) : Result :=
  s.onDev (fun d => d.forwardIn sender.toNat code.toNat arg.toNat)

/-- READY (R689, R724). -/
def execReady (sender : Pos) (s : State) : Result :=
  s.onDev (fun d => if d.active && d.isLeader && !d.deaf sender.toNat then d.readyIn sender.toNat else d)

/-- REFUSED (R689). -/
def execRefused (sender : Pos) (code : BitVec 8) (s : State) : Result :=
  s.onDev (fun d => if d.active && d.isLeader && !d.deaf sender.toNat then d.refusedIn sender.toNat code else d)

/-- COMMIT (R689, R696, R724). -/
def execCommit (frame : Frame) (s : State) : Result := s.onDev (fun d => if d.active then d.commitIn frame else d)

/-- ABORT (R689, R726). -/
def execAbort (code : BitVec 8) (s : State) : Result := s.onDev (fun d => if d.active then d.abortIn code.toNat else d)

/-- SEAL (R689, R690). -/
def execSeal (frame : Frame) (s : State) : Result := s.onDev (fun d => if d.active then d.sealIn frame else d)

/-- CTL_RESET with KIND 0 (R702, R703). -/
def execCtlResetWarm (via : Via) (w : Sender) (targets : BitVec 8) (s : State) : Result :=
  s.onDev (fun d => d.ctlReset via w 0 targets.toNat 0)

/-- CTL_RESET with KIND 1 (R702, R703). -/
def execCtlResetCold (via : Via) (w : Sender) (targets : BitVec 8) (s : State) : Result :=
  s.onDev (fun d => d.ctlReset via w 1 targets.toNat 0)

/-- CTL_RESET with KIND 2 (R702, R703, R746). -/
def execCtlResetBlock (via : Via) (w : Sender) (targets : BitVec 8) (block : BitVec 8) (s : State) : Result :=
  s.onDev (fun d => d.ctlReset via w 2 targets.toNat block.toNat)

/-- CTL_RESET with KIND 3 (R703). -/
def execCtlResetReserved (via : Via) (w : Sender) (s : State) : Result := s.onDev (fun d => d.ctlReset via w 3 0 0)

/-- WAKE_LIT (R730, R732). -/
def execWakeLit (sender : Pos) (s : State) : Result := s.onDev (fun d => d.wakeLitIn sender.toNat)

end Sys2Proof.Machine
end

