-- ==== Sys2Proof/Machine/ReflCmds.lean ====
section
/-! DEFINITION. The meanings of the reflection queue's commands and of POD_SYNC (chapters 13, 18). -/

namespace Sys2Proof.Machine

/-- RFL_DONE_OK (R654, R667). -/
def execRflDoneOk (entry : BitVec 8) (s : State) : Result := s.onDev (fun v => (v.rflDone entry.toNat 0).settle)

/-- RFL_DONE_POISON (R654, R667). -/
def execRflDonePoison (entry : BitVec 8) (s : State) : Result := s.onDev (fun v => (v.rflDone entry.toNat 1).settle)

/-- RFL_DONE_DENY (R654, R667). -/
def execRflDoneDeny (entry : BitVec 8) (s : State) : Result := s.onDev (fun v => (v.rflDone entry.toNat 2).settle)

/-- RFL_ENTRY_TIMEOUT (R657). -/
def execRflEntryTimeout (entry : BitVec 8) (s : State) : Result := s.onDev (fun v => (v.rflTimeout entry.toNat).settle)

/-- POD_SYNC (R449, R658). -/
def execPodSync (sender : Pos) (src : Agent) (txid : BitVec 12) (s : State) : Result :=
  s.onDev (fun v => v.podSyncIn sender.toNat src txid)

/-- POD_SYNC_DONE (R449). -/
def execPodSyncDone (sender : Pos) (src : Agent) (txid : BitVec 12) (s : State) : Result :=
  s.onDev (fun v => if v.deaf sender.toNat then v else (v.podDoneIn sender.toNat src txid).settle)

end Sys2Proof.Machine
end

