-- ==== Sys2Proof/Machine/Request.lean ====
section
/-! DEFINITION. Requests: the ingress checks, forwarding, the request table, PULL and write data, and the spaces served
without a facet's cache (R76 to R109, R137, R142, R180 to R187, R200, R201, R396, R465 to R468, R481, R623, R625). -/

namespace Sys2Proof.Machine

/-! ### Refusals and the checks of R103 -/

/-- A request of an operation code that fails a check: one code for each 64 B, its count and its record (R93, R103, R104, R670,
R786). -/
def Dev.refuseCode (s : Dev) (op : Op) (code : Nat) (r : Request) (c : Code) : Dev :=
  let s1 := s.answerAll op r c 0
  let s2 := if c == .staleHue then (s1.bump F.rflCount2_STALE).event evStale 0 (some r.hue)
    else s1.denialRecord r.addr.toNat
      (r.src.toNat + r.hue.toNat * 2 ^ 8 + code * 2 ^ 16 + Space.code r.space * 2 ^ 21)
  s2.urgentDone r

def Dev.refuseReq (s : Dev) (op : Op) (r : Request) (c : Code) : Dev := s.refuseCode op op.code r c

/-- The region that governs a request, its number (R82, R86, R643). -/
def Dev.regionFor (s : Dev) (r : Request) : Option Nat :=
  if r.space != .mem then s.regionOf (Space.code r.space) r.offset (if r.space == .csr then 8 else r.bytes)
  else if r.node == s.reg R.setNode % 2 ^ 16 then s.regionOf 0 r.localAddr r.bytes
  else s.reflRegionOf r.node r.localAddr r.bytes

/-- Whether requests outside CSR are served: between a seal and the next QUIESCE or entry to Dusk or Night (R87, R692,
R724). -/
def Dev.serving (s : Dev) : Bool :=
  s.on F.imgStatus_SEALED && !s.img.quiescing && (s.phase == .lit || s.phase == .dim)

/-- The rights that a request needs (R92, R218, R690, R700). -/
def needRights (op : Op) (r : Request) : Nat :=
  if r.space == .csr && op == .write then csrRights r.offset else op.rights

/-- Checks 2 to 9 of R103 in their order: the region that admits a request, or the code of the first check that fails.
Before the first seal every CSR access is admitted, under region 0 (R87). -/
def Dev.checkRequest (s : Dev) (op : Op) (r : Request) : Except Code Nat :=
  let a := r.src.toNat
  let local_ := r.node == s.reg R.setNode % 2 ^ 16
  if !r.addrForm s.setCount s.pos || !r.aligned op || !r.viewForm || (!local_ && r.space != .mem) then .error .deny
  else if r.space == .csr && !s.img.firstSealed then
    if windowForm op r && r.offset < 0x200000 then .ok 0 else .error .deny
  else if r.space != .csr && !s.serving then .error .deny
  else if !local_ && !s.on F.rflConfig_ENABLE then .error .deny
  else match s.regionFor r with
    | none => .error .deny
    | some n =>
      let g := s.region n
      if !s.hueOk a r.hue.toNat then .error .staleHue
      else if a < 48 && !g.grants a r.hue.toNat (needRights op r) then .error .deny
      else if !owningForm op r g (s.caching a) then .error .deny
      else if r.space == .csr && (0x200000 ≤ r.offset || s.cntDenied r.offset a r.hue.toNat (op != .write)) then .error .deny
      else .ok n

/-! ### Served without the cache: CSR, SHADE and TILE (R7, R105, R180 to R187, R360, R396, R412) -/

/-- A CSR read: the register's bytes at their place in 64 B of data (R7). -/
def csrData (addr v : Nat) : Sub := BitVec.ofNat 512 (v % 2 ^ 64 * 2 ^ (8 * (addr % 64)))

/-- A request in the table that has just been entered: an entry that awaits n answers. -/
def Dev.enterReq (s : Dev) (op : Op) (r : Request) (region : Nat) (g : Region) (n m : Nat) (ticket : Option (BitVec 16)) :
    Nat × Dev :=
  let e : ReqEntry :=
    { id := s.nextId, op := op, r := r, region := region, rgn := g, n := n, codes := List.replicate n none
      data := List.replicate (max n m) 0, got := List.replicate m false, grant := 0, sent := [], ticket := ticket
      naks := [], onDat := false }
  let s1 := { s with nextId := s.nextId + 1, cache.reqs := s.cache.reqs ++ [e] }
  (e.id, if r.space == .mem then s1.peak F.fctReq_PEAK s1.occupancy else s1)

/-- A SHADE or TILE read of each 64 B of a request, each a read hit of its facet (R180, R775). -/
def Dev.windowServe (s : Dev) (id : Nat) (e : ReqEntry) : Dev :=
  (s.each (List.range e.n) (fun s0 i =>
    let b := e.r.offset + 64 * i
    let s := s0.windowCheck (Space.code e.r.space) b
    if s.phase == .eclipse then s
    else
      let s1 := s.event evReadHit (s.windowFacet (Space.code e.r.space) b) (some e.r.hue)
      match s1.windowRead (Space.code e.r.space) b with
      | some x => s1.answer id i .ok (some x)
      | none => s1.answer id i .poison (some 0))).flush id

/-- A SHADE or TILE write of each 64 B of a request: a partial write, which reads what it merges with, of a poisoned store
sub-block is answered POISON and changes nothing (R148, R186, R187, R360). -/
def Dev.windowStore (s : Dev) (id : Nat) (e : ReqEntry) : Dev :=
  let sp := Space.code e.r.space
  let mask := if e.r.len == 0 then e.r.mask else fullMask
  (s.each (List.range e.n) (fun s0 i =>
    let b := e.r.offset + 64 * i
    let acc := match s0.windowOf e.r.space b with
      | .acc _ _ => true
      | _ => false
    let s := match s0.windowOf e.r.space b with
      | .acc eng y => if mask == fullMask then s0 else s0.accPartial eng y mask.toNat
      | _ => if mask == fullMask then s0.windowTags (Space.code e.r.space) b else s0.windowCheck (Space.code e.r.space) b
    if s.phase == .eclipse then s
    else if mask != fullMask && !acc && (s.windowRead sp b).isNone then s.answer id i .poison none
    else (s.windowWrite sp [(b, mask, e.data.getD i 0, false)]).answer id i .ok none)).flush id

/-- An ATOMIC or REDUCE_STORE outside MEM executes; one of pod scope first sends POD_SYNC to every slice (R449). -/
def Dev.windowPod (s : Dev) (id : Nat) (e : ReqEntry) : Dev :=
  if argScope e.r.arg != 3 then s.windowChord id e
  else
    let w := s.podStart e.r.src id
    ({ w.1 with cache.podOps := w.1.cache.podOps ++ [(id, w.2)] }).podOpsRun

/-- Carries out a request outside MEM whose write data, if it has any, is there. -/
def Dev.runWindow (s : Dev) (id : Nat) : Dev :=
  match s.req id with
  | none => s
  | some e =>
    if e.r.space == .csr then
      if e.op == .write then
        let v := bitsOf (e.data.getD 0 0).toNat (8 * (e.r.addr.toNat % 64) + 63) (8 * (e.r.addr.toNat % 64))
        (s.finish id 0 .ok none).csrEffect e.r.offset v
      else s.finish id 0 .ok (some (csrData e.r.addr.toNat (s.csrRead e.r.offset)))
    else match e.op with
      | .write => s.windowStore id e
      | .atomic => s.windowPod id e
      | .reduceStore => s.windowPod id e
      | _ => s.windowServe id e

/-! ### MEM at the home -/

/-- The indices at which a request's parts that are still owed start. -/
def Dev.partIndices (s : Dev) (e : ReqEntry) : List Nat :=
  (s.startIndices e).filter (fun i => if e.viewed then (e.answersOf (e.partOf i)).any e.owes || e.answersOf (e.partOf i) == []
    else e.owes i)

/-- Whether requests of an entry's agent are answered NAK at a bound: in NAK mode, for an agent (R143). -/
def Dev.naks (s : Dev) (e : ReqEntry) : Bool := s.nakMode && e.r.src.toNat < 56

/-- Starts the part of index i of a request, as far as it goes; at a facet that a block reset drains, it parks. -/
def Dev.startAt (s : Dev) (e : ReqEntry) (i : Nat) : Dev :=
  let f := (s.placeOf e i).facet
  if s.facetDraining f then s.park f e.id i .blockReset else s.anyPart e.id i

/-- Starts the parts of a request, each as far as it goes, and then those that stood behind it for its write data (R139, R440). -/
def Dev.startParts (s : Dev) (id : Nat) : Dev :=
  match s.req id with
  | none => s
  | some e =>
    let s1 := s.each (s.partIndices e) (fun s i => s.startAt e i)
    if !e.op.pulls then s1
    else s1.each (s1.cache.parked.filter (fun k => k.bound == .order)) (fun s k => match s.req k.reqId with
      | some x => if x.got.isEmpty || x.loaded then s.startAt x k.index else s
      | none => s)

/-- The parts of a request that awaits its write data stand in their ingress lists meanwhile (R138, R139, R440). -/
def Dev.waitData (s : Dev) (id : Nat) : Dev :=
  match s.req id with
  | none => s
  | some e => s.each (s.partIndices e) (fun s i => s.park (s.placeOf e i).facet id i .data)

/-- A request that carries a ticket before its RETRY keeps its place and is answered NAK with it (R254). -/
def Dev.ticketWaits (s : Dev) (e : ReqEntry) : Option Ticket :=
  match e.ticket with
  | some t => (s.ticket (s.placeOf e 0).facet t).filter (fun k => !k.reserved)
  | none => none

/-- What a request that carries write data meets before its PULL: in NAK mode each part at a bound is answered NAK. -/
def Dev.nakParts (s : Dev) (id : Nat) : Dev :=
  match s.req id with
  | none => s
  | some e => s.each (s.startIndices e) (fun s i =>
      match s.req id with
      | some e' =>
        (match s.anyBound e' i with
         | some (k, b) =>
           let p := s.placeOf e' i
           if !(b.naks && s.mayNak p.facet e' i) then s
           else s.each (if e'.rgn.reflection then s.sectorParts e' i else [i]) (fun s n =>
             match s.req id with
             | some e'' => s.nakWith p.facet e'' n (s.boundGranule e'' k false) b
             | none => s)
         | none => s)
      | none => s)

/-- Answers the sub-blocks of a resent ATOMIC or REDUCE_STORE whose record the slice holds (R625). -/
def Dev.fromRecords (s : Dev) (id : Nat) : Dev :=
  match s.req id with
  | none => s
  | some e =>
    if e.op != .atomic && e.op != .reduceStore then s
    else (s.each (List.range e.n) (fun s i =>
      let p := s.placeOf e i
      match s.shadow.records.find? (fun k => k.1 == recordKey p.grp (p.d / 256 * 256) && k.2.src == e.r.src &&
          k.2.txid == e.r.txid) with
      | some k => if p.adopted then
          s.answer id i .ok (if e.op == .atomic then some (BitVec.ofNat 512 k.2.old.toNat) else none) else s
      | none => s)).flush id

/-- Asks for the write data of a request that still owes an answer (R468). -/
def Dev.pullData (s : Dev) (id : Nat) : Dev :=
  match s.req id with
  | none => s
  | some e => if s.fenced e.r.src.toNat then s else s.send (.pull e.r.src e.r.txid)

/-- A MEM request at its home: the request table takes it, and its parts start, or its data is asked for; a wide-VIEW write whose
span holds no whole block has none and is answered (R308; log entry 116). With the table full no credit stands for it, and it
cannot arrive (R137, R142). -/
def Dev.memRequest (s : Dev) (op : Op) (r : Request) (region : Nat) (g : Region) : Dev :=
  if 8192 ≤ s.occupancy then s
  else
    let stored := r.len.toNat + 1
    let view := (blocksIn g.format (r.localAddr - g.first * 0x200000) r.bytes).length * (viewBytes r.view.toNat / 64)
    let n := if op.isRead && r.view != 0 then view else stored
    let m := if !op.pulls then 0 else if r.view != 0 then view else stored
    let q := s.enterReq op r region g n m none
    let id := q.1
    if r.writesNothing && op == .write then q.2.answerRest id .ok
    else match q.2.req id with
    | none => s
    | some e0 =>
      let p := q.2.placeOf e0 0
      let tk := r.ticket.filter (fun t => (q.2.ticketsOf p.facet).any (fun k => k.ticket == t && k.agent == r.src))
      let s1 := q.2.updReq id (fun e => { e with ticket := tk })
      let e := { e0 with ticket := tk }
      match s1.ticketWaits e with
        | some k => s1.nakAll id p.facet k.d k.bound
        | none =>
          if op.pulls then
            let s2 := s1.fromRecords id
            let s3 := (if s1.naks e then s2.nakParts id else s2).pullData id
            if m == 0 then s3.answerRest id .ok else s3.waitData id
          else s1.startParts id

/-- A request outside MEM at the slice that its address names. -/
def Dev.windowRequest (s : Dev) (op : Op) (r : Request) (region : Nat) (g : Region) : Dev :=
  let n := r.len.toNat + 1
  let q := s.enterReq op r region g n (if op.pulls then n else 0) none
  if op == .write && r.writesNothing then q.2.answerRest q.1 .ok
  else if op.pulls then q.2.pullData q.1
  else q.2.runWindow q.1

/-! ### Routing (R98, R620, R623, R646) -/

/-- The home slice of a MEM request under its region. -/
def Dev.homeSlice (s : Dev) (r : Request) (region : Nat) (g : Region) : Nat :=
  if g.reflection then (s.reflPlace g r.localAddr region r.node s.setSize r.hue).1
  else (homeOf r.localAddr g s.setSize).1

/-- Passes an admitted request to its home, recording what enters the set here (R623). -/
def Dev.passOn (s : Dev) (op : Op) (r : Request) (home : Nat) : Dev :=
  let q : PortReq := { op := op, r := r, home := home, ticket := none, got := 0 }
  match r.via with
  | .dieLink _ => s.send (.forwardReq home op r)
  | _ => ({ s with shadow.ports := s.shadow.ports ++ [q] }).send (.forwardReq home op r)

/-- An admitted request: served here, passed on, or, while its home moves, answered NAK or held (R137, R623). -/
def Dev.admitted (s : Dev) (op : Op) (r : Request) (region : Nat) (g : Region) : Dev :=
  let entersHere := match r.via with
    | .dieLink _ => false
    | _ => true
  if r.space == .mem then
    let h := s.homeSlice r region g
    if entersHere && s.moving h then s.portNak { op := op, r := r, home := h, ticket := none, got := 0 }
    else if h == s.pos || s.serverOf h == s.pos then s.memRequest op r region g
    else s.passOn op r (s.serverOf h)
  else if r.position == s.pos then s.windowRequest op r region g
  else s.passOn op r r.position

/-- Clears URGENT of a request that may not carry it, and counts the urgent requests of an agent port (R481, R493, R497,
R498).
-/
def Dev.urgency (s : Dev) (op : Op) (r : Request) : Dev × Request :=
  match r.via with
  | .agentPort p =>
    if !r.urgent then (s, r)
    else
      let may := (op == .readOnce || op == .readOnceNofill || op == .readShared) && r.len == 0
      if may && s.get (F.pwkUrg_OUTSTANDING p.val) < min 16 (s.get F.pwkUrgCfg_MAX) then
        (s.put (F.pwkUrg_OUTSTANDING p.val) (s.get (F.pwkUrg_OUTSTANDING p.val) + 1), r)
      else ((s.bump (F.pwkUrg_DOWNGRADED p.val)).raise (F.pwkErr_URG_DOWNGRADE p.val), { r with urgent := false })
  | _ => (s, r)

/-- The entry under which a request that passed its checks at another slice completes: the one that admitted it, of the table in
force or of the one that the last patch replaced (R106; log entry 89). -/
def Dev.admittedUnder (s : Dev) (r : Request) : Option (Nat × Region) :=
  let t : Dev := if r.former then { s with regions := s.img.former } else s
  (t.regionFor r).map (fun n => (n, t.region n))

/-- A request as it enters: the slice's own engines and cores put hue 0 on theirs (R94). -/
def Request.entering (r : Request) : Request :=
  match r.via with
  | .own => { r with hue := 0 }
  | _ => r

/-- What a partner reads or writes over a port's sideband (R488): a read answers on the sideband. -/
def Dev.sidebandRead (s : Dev) (p off : Nat) : Dev :=
  if s.sidebandServes p false && sidebandReg p off then s.send (.sideband p (BitVec.ofNat 64 (s.csrRead off))) else s

/-- A request reaches the slice at a port or from its own cores. An agent port and the slice's own cores are its ingress, where
every check is made; on a
die link it has passed them (R103, R106). A fenced agent's request is discarded, and a lost slice's (R261, R619). -/
def Dev.portRequest (s0 : Dev) (op : Op) (r0 : Request) : Dev :=
  if !s0.active || s0.discards r0.src.toNat || !s0.viaUp r0.via then s0
  else
    let s := s0.inject r0.upset
    let u := s.urgency op (Request.entering r0)
    let s1 := u.1
    let r := u.2
    if !s1.srcOk r.via r.src.toNat then s1.refuseReq op r .deny
    else match r.via with
      | .dieLink _ =>
        if r.space == .csr && !s1.img.firstSealed then s1.admitted op r 0 (s1.region 0)
        else match s1.admittedUnder r with
          | some n => s1.admitted op r n.1 n.2
          | none => s1.refuseReq op r .deny
      | _ =>
        match s1.checkRequest op r with
        | .ok n => s1.admitted op r n (s1.region n)
        | .error c => s1.refuseReq op r c

/-- A request reaches the slice; a port's sideband carries reads only, as READ_ONCE (R488; log entry 124). -/
def Dev.request (s : Dev) (op : Op) (r : Request) : Dev :=
  match r.via with
  | .sideband p => if op == .readOnce then s.sidebandRead p.val r.offset else s
  | _ => s.portRequest op r

/-- A request with a reserved operation code (R218): DENY at the owning-chapter check of R103, or STALE_HUE where an earlier check
fails so. The checks before it need no operation but for rights, and those fail with DENY too. -/
def Dev.reservedRequest (s : Dev) (code : Nat) (r0 : Request) : Dev :=
  if !s.active || s.discards r0.src.toNat || !s.viaUp r0.via then s
  else
    let u := s.urgency .clean r0
    let c : Code := if !r0.via.isDieLink && u.1.srcOk r0.via r0.src.toNat && u.1.checkRequest .clean r0 == .error .staleHue
      then .staleHue else .deny
    u.1.refuseCode .clean code u.2 c

/-! ### Write data (R465, R468) -/

/-- WRITE_DATA of a request of this slice's table, or of one that it has passed on: with its last 64 B the operation is
carried out. -/
def Dev.writeDataIn (s : Dev) (src : Agent) (txid : BitVec 12) (off : Nat) (data : List Sub) : Dev :=
  if !s.active || s.discards src.toNat then s
  else match s.cache.reqs.find? (fun e => e.r.src == src && e.r.txid == txid && e.got.any (fun g => !g)) with
    | some e =>
      let put := fun (e : ReqEntry) => data.zipIdx.foldl (fun (e : ReqEntry) x =>
        if off + x.2 < e.got.length then
          { e with data := e.data.set (off + x.2) x.1, got := e.got.set (off + x.2) true }
        else e) e
      let s1 := s.updReq e.id put
      if (put e).got.any (fun g => !g) then s1
      else if e.r.space == .mem then s1.startParts e.id
      else s1.runWindow e.id
    | none =>
      match s.shadow.ports.find? (fun q => q.r.src == src && q.r.txid == txid && q.ticket.isNone) with
      | some q => s.send (.forwardMsg (sliceAgent q.home) src txid (BitVec.ofNat 8 off) data)
      | none => s

end Sys2Proof.Machine
end

