-- ==== Sys2Proof/Machine/RequestCmds.lean ====
section
/-! DEFINITION. The meanings of the requests, of their write data and of a plain register write. Each request passes R103, and
at its home the rules named beside it carry it out. -/

namespace Sys2Proof.Machine

/-- READ_SHARED (R223). -/
def execReadShared (r : Request) (s : State) : Result := s.onDev (fun d => (d.request .readShared r).settle)

/-- READ_UNIQUE (R223). -/
def execReadUnique (r : Request) (s : State) : Result := s.onDev (fun d => (d.request .readUnique r).settle)

/-- CLAIM (R223, R224). -/
def execClaim (r : Request) (s : State) : Result := s.onDev (fun d => (d.request .claim r).settle)

/-- READ_ONCE (R227, R650). -/
def execReadOnce (r : Request) (s : State) : Result := s.onDev (fun d => (d.request .readOnce r).settle)

/-- READ_ONCE_NOFILL (R126, R227). -/
def execReadOnceNofill (r : Request) (s : State) : Result := s.onDev (fun d => (d.request .readOnceNofill r).settle)

/-- WRITE (R124, R229, R655). -/
def execWrite (r : Request) (s : State) : Result := s.onDev (fun d => (d.request .write r).settle)

/-- WRITE_BACK (R228). -/
def execWriteBack (r : Request) (s : State) : Result := s.onDev (fun d => (d.request .writeBack r).settle)

/-- DARKEN (R146, R229). -/
def execDarken (r : Request) (s : State) : Result := s.onDev (fun d => (d.request .darken r).settle)

/-- CLEAN (R153, R229). -/
def execClean (r : Request) (s : State) : Result := s.onDev (fun d => (d.request .clean r).settle)

/-- INVALIDATE (R153, R229, R645). -/
def execInvalidate (r : Request) (s : State) : Result := s.onDev (fun d => (d.request .invalidate r).settle)

/-- CLEAN_INVALIDATE (R153, R229, R645). -/
def execCleanInvalidate (r : Request) (s : State) : Result := s.onDev (fun d => (d.request .cleanInvalidate r).settle)

/-- ATOMIC (R231, R396 to R404). -/
def execAtomic (r : Request) (s : State) : Result := s.onDev (fun d => (d.request .atomic r).settle)

/-- FAR_ATOMIC (R232, R233, R405). -/
def execFarAtomic (r : Request) (s : State) : Result := s.onDev (fun d => (d.request .farAtomic r).settle)

/-- REDUCE_STORE (R231, R406). -/
def execReduceStore (r : Request) (s : State) : Result := s.onDev (fun d => (d.request .reduceStore r).settle)

/-- WRITE_DATA (R465, R468). -/
def execWriteData (src : Agent) (txid : BitVec 12) (off : BitVec 8) (data : List Sub) (s : State) : Result :=
  s.onDev (fun d => (d.writeDataIn src txid off.toNat data).settle)

/-- CSR_WRITE (R7 to R9). -/
def execCsrWrite (w : Writer) (offset : BitVec 24) (value : BitVec 64) (s : State) : Result :=
  s.onDev (fun d => d.csrWriteBy w offset.toNat value.toNat)

end Sys2Proof.Machine
end

