-- ==== Sys2Proof/Machine/StackCmds.lean ====
section
/-! DEFINITION. The meanings of the stack side's and the shadow stripes' commands (chapters 16, 17). -/

namespace Sys2Proof.Machine

/-- DRAM_READ_COMPLETE (R560 to R567). -/
def execDramReadComplete (id : Nat) (errs : List (List SymErr)) (s : State) : Result :=
  s.onDev (fun v => v.dramReadDone id errs)

/-- DRAM_WRITE_COMPLETE (R549, R581). -/
def execDramWriteComplete (id : Nat) (s : State) : Result := s.onDev (fun v => v.dramWriteDone id)

/-- RETIREMENT_COPY_DONE (R576, R577). -/
def execRetirementCopyDone (badSubs : List (BitVec 7)) (s : State) : Result := s.onDev (fun v => v.copyDone badSubs)

/-- CHANNEL_FAIL (R580, R581, R615). -/
def execChannelFail (stack : Fin 2) (channel : Fin 32) (s : State) : Result :=
  s.onDev (fun v => v.channelFail stack.val channel.val)

/-- MIRROR_PUT (R604, R606, R608). -/
def execMirrorPut (sender : Pos) (txid : BitVec 12) (sector : BitVec 64) (subs : BitVec 4) (fgroup : BitVec 6)
    (data : List Sub) (record : Option AtomicRecord) (s : State) : Result :=
  s.onDevAt sector.toNat (fun v =>
    if !v.active || v.deaf sender.toNat then v else v.mirrorPutIn sender txid (sector.toNat / 256 * 256) subs fgroup.toNat data record false)

/-- MIRROR_RELEASE (R609). -/
def execMirrorRelease (sender : Pos) (sector : BitVec 64) (subs : BitVec 4) (fgroup : BitVec 6) (s : State) : Result :=
  s.onDevAt sector.toNat (fun v =>
    if !v.active || v.deaf sender.toNat || sender.toNat != v.buddy then v
    else v.mirrorReleaseIn fgroup.toNat (sector.toNat / 256 * 256) subs)

/-- PARITY_DELTA (R598, R600). -/
def execParityDelta (sender : Pos) (txid : BitVec 12) (d : BitVec 64) (delta : Sub) (poison : Bool) (s : State) : Result :=
  s.onDevAt d.toNat (fun v =>
    if !v.active || v.deaf sender.toNat then v else v.parityArrive sender txid (d.toNat / 64 * 64) delta poison false)

/-- PARITY_RELEASE (R600). -/
def execParityRelease (sender : Pos) (txid : BitVec 12) (d : BitVec 64) (s : State) : Result :=
  s.onDevAt d.toNat (fun v =>
    if !v.active || v.deaf sender.toNat then v else v.parityReleased sender txid (d.toNat / 64 * 64))

/-- RECON_READ (R481, R612). -/
def execReconRead (sender : ReconSender) (txid : BitVec 12) (d : BitVec 64) (s : State) : Result :=
  s.onDevAt d.toNat (fun v =>
    if !v.active || v.deaf sender.pos.toNat then v else v.reconRead sender.pos txid (d.toNat / 64 * 64) sender.urgent)

/-- READ_DATA (R466, R612, R828). -/
def execReadData (a : ReconAnswer) (s : State) : Result :=
  s.onDev (fun v => if !v.active || v.deaf a.sender.toNat then v else v.readDataIn a)

/-- The code of a 3-bit response code; 6 and 7 are reserved (R235). -/
def codeOf (c : BitVec 3) : Code :=
  match c.toNat with
  | 0 => .ok
  | 1 => .poison
  | 2 => .nak
  | 3 => .deny
  | 4 => .staleHue
  | _ => .notPresent

/-- COMP (R598, R601, R604, R828). -/
def execComp (sender : Pos) (txid : BitVec 12) (codes : List (BitVec 3)) (s : State) : Result :=
  s.onDev (fun v => if !v.active || v.deaf sender.toNat then v else v.compIn sender.toNat txid.toNat (codeOf (codes.headD 0)))

/-- PULL (R468, R601). -/
def execPull (sender : Pos) (txid : BitVec 12) (s : State) : Result :=
  s.onDev (fun v => if !v.active || v.deaf sender.toNat then v else v.pullIn sender.toNat txid.toNat)

end Sys2Proof.Machine
end

