-- ==== Sys2Proof/Machine/Wire.lean ====
section
/-! DEFINITION. Messages as slots: the header of each, the data behind it, and back (R462 to R470, R601, R619, R691, R702). Where
the spec gives no layout, log entry 117 says what stands there. -/

namespace Sys2Proof.Machine

/-! ### Headers (R462, R464, R466) -/

/-- The 3-bit code of a response (R235). -/
def Code.bits : Code → Nat
  | .ok => 0
  | .poison => 1
  | .nak => 2
  | .deny => 3
  | .staleHue => 4
  | .notPresent => 5

/-- The fields that every header slot has (R462). -/
def headOf (msg src tgt txid : Nat) (urgent : Bool) : Nat :=
  msg % 16 + src % 64 * 2 ^ 4 + tgt % 64 * 2 ^ 10 + txid % 4096 * 2 ^ 16 + b2n urgent * 2 ^ 28

/-- MSG, SRC, TGT and TXID of a header slot, and URGENT (R462). -/
def Wire.msg (w : Wire) : Nat := bitsOf w.head 3 0
def Wire.src (w : Wire) : Nat := bitsOf w.head 9 4
def Wire.tgt (w : Wire) : Nat := bitsOf w.head 15 10
def Wire.txid (w : Wire) : BitVec 12 := BitVec.ofNat 12 (bitsOf w.head 27 16)
def Wire.urgent (w : Wire) : Bool := bitAt w.head 28

/-- Slots of a message (R463). -/
def Wire.slots (w : Wire) : Nat := 1 + 2 * w.data.length

/-- Slots of the message that a header slot of a VC starts (R463). -/
def slotsFrom (vc head : Nat) : Nat := if vc == 2 then 1 + 2 * (bitsOf head 55 52 + 1) else 1

/-- Slot k of a message: its header, then its data in ascending byte order (R463). -/
def Wire.slot (w : Wire) (k : Nat) : Nat :=
  if k == 0 then w.head else bitsOf (w.data.getD ((k - 1) / 2) 0).toNat ((k - 1) % 2 * 256 + 255) ((k - 1) % 2 * 256)

/-- The message whose slots these are. -/
def wireOf (vc : Nat) (slots : List (BitVec 256)) : Wire :=
  { vc := vc, head := (slots.headD 0).toNat
    data := (List.range (slots.length / 2)).map (fun i => BitVec.ofNat 512
      ((slots.getD (1 + 2 * i) 0).toNat + (slots.getD (2 + 2 * i) 0).toNat * 2 ^ 256)) }

/-- The header of a request (R464). -/
def requestHead (op : Op) (r : Request) (tgt : Nat) : Nat :=
  headOf 0 r.src.toNat tgt r.txid.toNat r.urgent + op.code * 2 ^ 32 + b2n r.stream * 2 ^ 37 + Space.code r.space * 2 ^ 38 +
    r.len.toNat * 2 ^ 40 + r.view.toNat * 2 ^ 46 + r.hue.toNat * 2 ^ 50 + (r.ticket.getD 0).toNat * 2 ^ 64 + r.arg.toNat * 2 ^ 80 +
    b2n r.ticket.isSome * 2 ^ 96 + r.addr.toNat * 2 ^ 128 + r.mask.toNat * 2 ^ 192

/-- The codes of a message at their places (R466). -/
def codeBits (codes : List Code) : Nat :=
  (codes.zipIdx).foldl (fun a e => a + if e.2 < 16 then Code.bits e.1 * 2 ^ (80 + 3 * e.2) else 0) 0

/-- The fields of an RSP or DAT header beyond those of R462 (R466); n sub-blocks. -/
def answerBits (codes : List Code) (ticket off n final grant : Nat) : Nat :=
  grant % 4 * 2 ^ 32 + final % 8 * 2 ^ 35 + (n - 1) % 16 * 2 ^ 52 + off % 256 * 2 ^ 56 + ticket % 65536 * 2 ^ 64 + codeBits codes

/-- A message of sub-blocks with their codes: READ_DATA, or with no data COMP. -/
def answerWire (me tgt txid : Nat) (urgent : Bool) (codes : List Code) (ticket off grant : Nat) (data : List Sub) : Wire :=
  let vc := if data.isEmpty then 1 else 2
  let n := if data.isEmpty then codes.length else data.length
  ⟨vc, headOf 0 me tgt txid urgent + answerBits codes ticket off n 0 grant, data⟩

/-- The MSG and the payload of a CTL message, with its TXID (R470, R527, R619, R691, R702). -/
def Ctl.fields : Ctl → Nat × Nat × Nat
  | .heartbeat f u lost link seq =>
    (0, 0, f.toNat * 2 ^ 32 + b2n u * 2 ^ 80 +
      if lost == 0 then 0 else lost.toNat * 2 ^ 81 + link.toNat * 2 ^ 91 + seq.toNat * 2 ^ 95)
  | .frameDone f u => (1, 0, f.toNat * 2 ^ 32 + b2n u * 2 ^ 80)
  | .frameGo f d => (2, 0, f.toNat * 2 ^ 32 + b2n d * 2 ^ 80)
  | .agentSuspect a c => (3, 0, a.toNat * 2 ^ 32 + c.toNat * 2 ^ 38)
  | .agentDead a c => (4, 0, a.toNat * 2 ^ 32 + c.toNat * 2 ^ 38)
  | .fenced a => (5, 0, a.toNat * 2 ^ 32)
  | .reclaim a => (6, 0, a.toNat * 2 ^ 32)
  | .eclipse c => (7, 0, c.toNat * 2 ^ 32)
  | .homeMoved x n notice b => (8, 0, x.toNat * 2 ^ 32 + n.toNat * 2 ^ 35 + b2n notice * 2 ^ 38 + b.toNat * 2 ^ 39)
  | .ctlReset k t h b => (9, 0, k.toNat * 2 ^ 32 + t.toNat * 2 ^ 34 + h.toNat * 2 ^ 42 + b.toNat * 2 ^ 50)
  | .podSync src txid => (10, txid.toNat, src.toNat * 2 ^ 32)
  | .podSyncDone src txid => (11, txid.toNat, src.toNat * 2 ^ 32)
  | .expose f => (12, 0, f.toNat * 2 ^ 32)
  | .mgmt op code arg => (13, 0, op.toNat * 2 ^ 32 + code.toNat * 2 ^ 40 + arg.toNat * 2 ^ 48)

/-- A CTL message of a slice. -/
def ctlWire (me tgt : Nat) (urgent : Bool) (m : Ctl) : Wire :=
  let e := m.fields
  ⟨0, headOf e.1 me tgt e.2.1 urgent + e.2.2, []⟩

/-- A shadow message (R601): its MSG, device offset and the other bits of its header. -/
def shadowWire (msg me tgt txid : Nat) (urgent : Bool) (d rest : Nat) : Wire :=
  ⟨4, headOf msg me tgt txid urgent + rest + d * 2 ^ 128, []⟩

/-- A message that the spec gives no header: the fields of R462 but for MSG are as for any other, the rest is open. -/
def openWire (at_ me tgt txid : Nat) (urgent : Bool) (vc : Nat) : Wire :=
  let x := (Config.openHeader at_).toNat
  ⟨vc, headOf (x % 16) me tgt txid urgent + x / 2 ^ 29 * 2 ^ 29, []⟩

/-- The record that follows the data of a MIRROR_PUT, as one more sub-block (R608; log entry 117). -/
def recordSub (r : AtomicRecord) : Sub := BitVec.ofNat 512 (r.old.toNat + r.txid.toNat * 2 ^ 64 + r.src.toNat * 2 ^ 76)

/-- The records of a parity slice's answer, 16 bits each (R612; log entry 117). -/
def recordsSub (l : List (Pos × BitVec 12)) : Sub :=
  BitVec.ofNat 512 ((l.zipIdx).foldl (fun a e => a + (2 ^ 15 + e.1.1.toNat * 2 ^ 12 + e.1.2.toNat) * 2 ^ (16 * e.2)) 0)

/-- A member's answer to RECON_READ: the sub-block; a pending delta behind it, with its TXID in TICKET; or the records of the
parity slice in a third sub-block (R612; log entry 117). -/
def reconWire (tgt : Nat) (urgent : Bool) (a : ReconAnswer) : Wire :=
  let c : Code := if !a.readable then .deny else if a.poison then .poison else .ok
  let me := 56 + a.sender.toNat
  match a.pending with
  | some p => answerWire me tgt a.txid.toNat urgent [c, if p.2.2 then .poison else .ok] p.1.toNat 0 0 [a.data, p.2.1]
  | none =>
    if a.recorded.isEmpty then answerWire me tgt a.txid.toNat urgent [c] 0 0 0 [a.data]
    else answerWire me tgt a.txid.toNat urgent [c, .ok, .ok] 0 0 0 [a.data, 0, recordsSub a.recorded]

/-! ### Messages that leave -/

/-- The slots of a message of slice me at a place of outbox. -/
def Msg.wire (me at_ : Nat) (urgent : Bool) : Msg → Wire
  | .resp a txid off codes grant ticket data => answerWire me a.toNat txid.toNat urgent codes ticket.toNat off grant.toNat data
  | .pull a txid => ⟨1, headOf 3 me a.toNat txid.toNat urgent, []⟩
  | .retry a ticket txid => ⟨1, headOf 4 me a.toNat txid.toNat urgent + ticket.toNat * 2 ^ 64, []⟩
  | .snoop a src txid code addr => ⟨3, headOf code.toNat src.toNat a.toNat txid.toNat urgent + addr % 2 ^ 64 * 2 ^ 128, []⟩
  | .forwardReq p op r => ⟨4, requestHead op r (56 + p), []⟩
  | .forwardReply p r data =>
    let c : List Code := if r.notPresent then [.notPresent] else [.ok]
    ⟨if data.isSome then 2 else 1,
      headOf 1 r.src.toNat (56 + p.toNat) r.txid.toNat urgent + answerBits c 0 0 1 r.final.toNat 0, data.toList⟩
  | .forwardMsg a src txid off data =>
    ⟨2, headOf 2 src.toNat a.toNat txid.toNat urgent + answerBits [] 0 off.toNat data.length 0 0, data⟩
  | .mirrorPut p txid sector subs grp record =>
    shadowWire 1 me (56 + p) txid urgent sector (b2n record.isSome * 2 ^ 97 + grp % 64 * 2 ^ 98 + subs.toNat * 2 ^ 104)
  | .mirrorRelease p sector subs grp => shadowWire 2 me (56 + p) 0 urgent sector (grp % 64 * 2 ^ 98 + subs.toNat * 2 ^ 104)
  | .parityDelta p txid d _ => shadowWire 3 me (56 + p) txid urgent d 0
  | .parityRelease p txid d => shadowWire 4 me (56 + p) txid urgent d 0
  | .reconRead p txid d => shadowWire 5 me (56 + p) txid urgent d 0
  | .reconAnswer p a u => reconWire (56 + p) u a
  | .comp p txid codes => answerWire me (56 + p) txid.toNat urgent codes 0 0 0 []
  | .writeData p txid off codes data record =>
    let all := data ++ (record.map recordSub).toList
    ⟨2, headOf 2 me (56 + p) txid.toNat urgent + answerBits codes 0 off all.length 0 0, all⟩
  | .side p txid _ _ _ _ _ => openWire at_ me (56 + p) txid urgent 4
  | .sideData a txid code data => answerWire me a.toNat txid.toNat urgent [code] 0 0 0 [data]
  | .escape p txid _ _ _ _ _ _ => openWire at_ me (56 + p) txid urgent 4
  | .slot a txid i =>
    answerWire me a.toNat txid.toNat urgent [if i.isSome then .ok else .deny] 0 0 0 [BitVec.ofNat 512 (i.getD 0)]
  | .ctl p m => ctlWire me (56 + p) urgent m
  | .homeMovedNotice a lost newHome boundary => ctlWire me a.toNat urgent (.homeMoved lost newHome true boundary)
  | .transit _ w => w
  | _ => ⟨4, 0, []⟩

/-! ### Messages that arrive -/

/-- The operation of a code, unless it is reserved (R218). -/
def opOf (code : Nat) : Option Op :=
  [Op.readShared, .readUnique, .claim, .readOnce, .readOnceNofill, .write, .writeBack, .darken, .clean, .invalidate,
    .cleanInvalidate, .atomic, .farAtomic, .reduceStore][code]?

/-- The space of a code (R76). -/
def spaceOf (code : Nat) : Space :=
  match code with
  | 0 => .mem
  | 1 => .shade
  | 2 => .tile
  | _ => .csr

/-- The request that a header slot holds (R464). -/
def Wire.request (w : Wire) (via : Via) : Request :=
  { via := via, space := spaceOf (bitsOf w.head 39 38), addr := BitVec.ofNat 64 (bitsOf w.head 191 128)
    len := BitVec.ofNat 6 (bitsOf w.head 45 40), mask := BitVec.ofNat 64 (bitsOf w.head 255 192)
    view := BitVec.ofNat 4 (bitsOf w.head 49 46), hue := BitVec.ofNat 8 (bitsOf w.head 57 50), src := BitVec.ofNat 6 w.src
    txid := w.txid, arg := BitVec.ofNat 16 (bitsOf w.head 95 80)
    ticket := if bitAt w.head 96 then some (BitVec.ofNat 16 (bitsOf w.head 79 64)) else none
    urgent := w.urgent, stream := bitAt w.head 37, upset := {}, former := false }

/-- Code i of a message (R466). -/
def Wire.code (w : Wire) (i : Nat) : Nat := bitsOf w.head (80 + 3 * i + 2) (80 + 3 * i)

/-- The records in a parity slice's answer. -/
def recordsOf (x : Sub) : List (Pos × BitVec 12) :=
  (List.range 32).filterMap (fun i =>
    let v := bitsOf x.toNat (16 * i + 15) (16 * i)
    if bitAt v 15 then some (BitVec.ofNat 3 (bitsOf v 14 12), BitVec.ofNat 12 (bitsOf v 11 0)) else none)

/-- The answer that a READ_DATA of another slice holds (R466, R612). -/
def Wire.answer (w : Wire) : ReconAnswer :=
  { sender := BitVec.ofNat 3 (w.src - 56), txid := w.txid, data := w.data.headD 0, poison := w.code 0 == 1, readable := w.code 0 ≤ 1
    pending := if w.data.length == 2 then some (BitVec.ofNat 12 (bitsOf w.head 79 64), w.data.getD 1 0, w.code 1 == 1) else none
    recorded := recordsOf (w.data.getD 2 0) }

/-- A CTL message of a slice as the command of its arrival (R470, R691); none for a reserved code. -/
def Wire.ctl (w : Wire) (via : Via) : Option Instr :=
  let q := BitVec.ofNat 3 (w.src - 56)
  let h := w.head
  let agent := BitVec.ofNat 6 (bitsOf h 37 32)
  let cause := BitVec.ofNat 2 (bitsOf h 39 38)
  let frame := BitVec.ofNat 48 (bitsOf h 79 32)
  let sender : Sender := { src := BitVec.ofNat 6 w.src, txid := w.txid, hue := BitVec.ofNat 8 (bitsOf h 49 42) }
  let targets := BitVec.ofNat 8 (bitsOf h 41 34)
  let arg := BitVec.ofNat 48 (bitsOf h 95 48)
  let code := BitVec.ofNat 8 (bitsOf h 47 40)
  if w.msg == 9 then
    some (match bitsOf h 33 32 with
      | 0 => .ctlResetWarm via sender targets
      | 1 => .ctlResetCold via sender targets
      | 2 => .ctlResetBlock via sender targets (BitVec.ofNat 8 (bitsOf h 57 50))
      | _ => .ctlResetReserved via sender)
  else if w.src < 56 then none
  else match w.msg with
    | 0 => some (.heartbeat q frame (bitAt h 80) (BitVec.ofNat 10 (bitsOf h 90 81)) (BitVec.ofNat 4 (bitsOf h 94 91))
        (BitVec.ofNat 12 (bitsOf h 106 95)))
    | 1 => some (.frameDone q frame (bitAt h 80))
    | 2 => some (.frameGo frame (bitAt h 80))
    | 3 => some (.agentSuspect { sender := q, agent := agent } cause)
    | 4 => some (.agentDead agent cause)
    | 5 => some (.fenced q agent)
    | 6 => some (.reclaim agent)
    | 7 => some (.eclipse (BitVec.ofNat 8 (bitsOf h 39 32)) q)
    | 8 => some (.homeMoved (BitVec.ofNat 3 (bitsOf h 34 32)) (BitVec.ofNat 3 (bitsOf h 37 35)) (bitAt h 38)
        (BitVec.ofNat 48 (bitsOf h 86 39)))
    | 10 => some (.podSync q agent w.txid)
    | 11 => some (.podSyncDone q agent w.txid)
    | 12 => some (.ctlExpose frame)
    | 13 =>
      match bitsOf h 39 32 with
      | 0 => some (.forward q code arg)
      | 1 => some (.ready q)
      | 2 => some (.refused q code)
      | 3 => some (.commit arg)
      | 4 => some (.abort code)
      | 5 => some (.seal arg)
      | _ => none
    | _ => none

/-- A shadow message, once its data is there if it has any, as the command of its arrival (R601, R608); none for another MSG. -/
def Wire.shadow (w : Wire) (codes : List Bool) (data : List Sub) : Option Instr :=
  let q := BitVec.ofNat 3 (w.src - 56)
  let d := BitVec.ofNat 64 (bitsOf w.head 191 128)
  let subs := BitVec.ofNat 4 (bitsOf w.head 107 104)
  let grp := BitVec.ofNat 6 (bitsOf w.head 103 98)
  match w.msg with
  | 1 =>
    let n := popCount 4 subs.toNat
    let x := (data.getD n 0).toNat
    let record : AtomicRecord :=
      { src := BitVec.ofNat 6 (bitsOf x 81 76), txid := BitVec.ofNat 12 (bitsOf x 75 64), old := BitVec.ofNat 64 x }
    some (.mirrorPut q w.txid d subs grp (data.take n) (if bitAt w.head 97 then some record else none))
  | 2 => some (.mirrorRelease q d subs grp)
  | 3 => some (.parityDelta q w.txid d (data.headD 0) (codes.headD false))
  | 4 => some (.parityRelease q w.txid d)
  | 5 => some (.reconRead { pos := q, urgent := w.urgent } w.txid d)
  | _ => none

end Sys2Proof.Machine
end

