-- ==== Sys2Proof/Machine/Transmit.lean ====
section
/-! DEFINITION. What the ports send: the messages of outbox in their transmit queues, and in each LCLK cycle one flit per port,
by the lattice timetable, the replay buffer, the credits and the order of R479 (R461, R472 to R480, R519, R520, R524, R531,
R602). A flit names the messages and lines it carries by their places in outbox (log entry 42), and holds its bits. -/

namespace Sys2Proof.Machine

/-! ### Messages (R215, R462 to R470, R513, R601) -/

/-- Where a message goes: to a slice (true) of a position, or to an agent; none for what no port carries. -/
def Msg.dest : Msg → Option (Bool × Nat)
  | .resp a _ _ _ _ _ _ => some (toAgent a)
  | .pull a _ => some (toAgent a)
  | .retry a _ _ => some (toAgent a)
  | .snoop a _ _ _ _ => some (toAgent a)
  | .forwardReq p _ _ => some (true, p)
  | .forwardReply p _ _ => some (true, p.toNat)
  | .forwardMsg a _ _ _ _ => some (toAgent a)
  | .mirrorPut p _ _ _ _ _ => some (true, p)
  | .mirrorRelease p _ _ _ => some (true, p)
  | .parityDelta p _ _ _ => some (true, p)
  | .parityRelease p _ _ => some (true, p)
  | .reconRead p _ _ => some (true, p)
  | .reconAnswer p _ _ => some (true, p)
  | .comp p _ _ => some (true, p)
  | .writeData p _ _ _ _ _ => some (true, p)
  | .side p _ _ _ _ _ _ => some (true, p)
  | .sideData a _ _ _ => some (toAgent a)
  | .escape p _ _ _ _ _ _ _ => some (true, p)
  | .slot a _ _ => some (toAgent a)
  | .ctl p _ => some (true, p)
  | .homeMovedNotice a _ _ _ => some (toAgent a)
  | .transit a _ => some (toAgent a)
  | _ => none
where
  /-- IDs 56 to 63 name slices (R462). -/
  toAgent (a : Agent) : Bool × Nat := if 56 ≤ a.toNat then (true, a.toNat - 56) else (false, a.toNat)

/-- The virtual channel of a message (R215, R464, R466, R469, R601, R828), and its slots (R463). -/
def Msg.vc (m : Msg) : Nat := (m.wire 0 0 false).vc
def Msg.slots (m : Msg) : Nat := (m.wire 0 0 false).slots

/-- Whether a message of VC4 is a shadow message or a side access (R601, R602, R828). -/
def Msg.shadow (m : Msg) : Bool :=
  match m with
  | .forwardReq _ _ _ => false
  | .transit _ w => w.vc == 4 && w.msg != 0
  | m => m.vc == 4

/-- The port of this slice that is up and joined to an agent. -/
def Dev.agentPortOf (s : Dev) (a : Nat) : Option Nat :=
  (List.range 6).find? (fun k => s.get (F.pwkCfg_ROLE k) == 2 && (cfgAgents (s.reg (R.pwkCfg k))).contains a && s.portUp k)

/-- The port of the route to a position (R512, R537). -/
def Dev.routePort (s : Dev) (d : Nat) : Option Nat :=
  let w := s.get F.pwkRoute_ROUTES
  if bitAt w (4 * d + 3) then some (bitsOf w (4 * d + 2) (4 * d)) else none

/-- The port by which a message leaves: toward its slice by the route; to an agent by its primary port, here or on another
slice, or by the other port once the primary is lost: its slice is, or its slice has passed a message for the agent on (R513; log
entry 118). -/
def Dev.outPort (s : Dev) (m : Msg) : Option Nat :=
  match m.dest with
  | none => none
  | some (true, d) => if d == s.pos then none else s.routePort d
  | some (false, a) =>
    match (s.agentAt a).filter (fun q => !s.isLost q && (q != s.pos || (s.agentPortOf a).isSome)) with
    | [] => s.agentPortOf a
    | q :: _ =>
      if q == s.pos || (s.links.viaOther.contains a && (s.agentPortOf a).isSome) then s.agentPortOf a else s.routePort q

/-- Whether a reconstruction serves an urgent request (R481). -/
def Dev.urgentRecon (s : Dev) (id : Nat) : Bool :=
  s.shadow.recons.any (fun e => e.id == id && match e.why with
    | .fill plr _ => s.cache.plrs.any (fun x => x.id == plr && x.waiters.any s.urgentWaiter)
    | _ => false)

/-- Whether the message at a place of outbox is urgent: an urgent request, the response to one, or a reconstruction read that
serves one, and its answer (R481). -/
def Dev.urgentMsg (s : Dev) (i : Nat) (m : Msg) : Bool :=
  match m with
  | .forwardReq _ _ r => r.urgent
  | .reconRead _ id _ => s.urgentRecon id || s.links.urgent.contains i
  | .reconAnswer _ _ u => u
  | .transit _ w => w.urgent
  | _ => s.links.urgent.contains i

/-- The message at a place of outbox as a transmit queue holds it. -/
def Dev.txMsg (s : Dev) (i : Nat) (m : Msg) : TxMsg :=
  { at_ := i, vc := m.vc, urgent := s.urgentMsg i m, shadow := m.shadow, slots := m.slots, sent := 0 }

/-- The messages that a lost link still owes, to their new routes, ahead of every later one (R531). -/
def Dev.rerouteFrom (s : Dev) (p : Nat) (seq : BitVec 12) : Dev :=
  let x := s.tx p
  let owed := (((unackedBy seq x.unacked).flatMap (fun f => f.body.map (fun b => b.2.1))) ++ x.queue.map TxMsg.at_).eraseDups
  let s1 := s.updTx p (fun x => { x with queue := [], unacked := [], replay := none })
  s1.each owed.reverse (fun s i =>
    match s.outbox[i]? with
    | none => s
    | some m =>
      match s.outPort m with
      | some q => s.updTx q (fun y => { y with queue := s.txMsg i m :: y.queue })
      | none => s)

/-- A decision of outbox reaches the ports: a message joins the transmit queue of its port, credits wait for the next flit, a
lattice line is ready or takes a detour. -/
def Dev.takeOut (s : Dev) (i : Nat) (m : Msg) : Dev :=
  match m with
  | .credit p vc n => s.updTx p (fun x => { x with freed := tset x.freed vc (tgetD x.freed vc 0 + n) })
  | .resendFrom p seq => if s.portUp p then s else s.rerouteFrom p seq
  | .latticeLine p q _ flow desc line _ _ =>
    if s.linkPort q == some p && s.get (F.pwkStatus_STATE p) == 2 then
      s.updTx p (fun x => { x with ready := x.ready ++ [(flow, desc, line, i)] })
    else s.updTx p (fun x => { x with detour := x.detour ++ [i] })
  | m =>
    match s.outPort m with
    | some p =>
      let x := s.txMsg i m
      let s1 := if x.urgent && !s.links.urgent.contains i then { s with links.urgent := s.links.urgent ++ [i] } else s
      s1.updTx p (fun y => { y with queue := y.queue ++ [x] })
    | none => s

/-- Every decision since the last cycle reaches the ports. -/
def Dev.takeAll (s : Dev) : Dev :=
  let s1 := s.each ((s.outbox.zipIdx).drop s.links.taken) (fun s e => s.takeOut e.2 e.1)
  { s1 with links.taken := s.outbox.length }

/-- The withheld credits of a port go back once the request table has an entry and the DEMAND throttle lets them (R142, R739). -/
def Dev.freeKept (s : Dev) : Dev :=
  s.each (List.range 6) (fun s p =>
    if (s.tx p).kept == 0 || s.withholds p then s
    else s.updTx p (fun x =>
      { x with
        kept := 0, freed := tset x.freed 4 (tgetD x.freed 4 0 + x.kept) }))

/-! ### Credits (R476, R496, R602) -/

/-- The send credits of a port for a VC. -/
def creditField (p vc : Nat) : Field :=
  match vc with
  | 0 => F.pwkCredit_VC0 p
  | 1 => F.pwkCredit_VC1 p
  | 2 => F.pwkCredit_VC2 p
  | 3 => F.pwkCredit_VC3 p
  | _ => F.pwkCredit_VC4 p

/-- Whether a message may start with c credits of its VC: one for every slot; the last 6 of VC2 and the last 2 of VC4 for urgent
messages, and on a die link those of VC4 from the eighteenth to the third for shadow messages and side accesses (R476, R602). -/
def TxMsg.fits (m : TxMsg) (die : Bool) (c : Nat) : Bool :=
  if m.vc == 2 then (if m.urgent then m.slots ≤ c else m.slots + 6 ≤ c)
  else if m.vc == 4 then
    if die && c ≤ 18 then (if m.shadow then 3 ≤ c else m.urgent && 1 ≤ c && c ≤ 2)
    else if m.urgent then 1 ≤ c else 3 ≤ c
  else m.slots ≤ c

/-- Whether a queued message may start now. -/
def Dev.mayStart (s : Dev) (p : Nat) (m : TxMsg) : Bool :=
  m.sent == 0 && !(s.tx p).queue.any (fun x => x.vc == m.vc && 0 < x.sent) && m.fits (s.isDieLink p) (s.get (creditField p m.vc))

/-- The message whose slot goes next into a flit: CTL messages, then urgent ones, then, unless only those may go, the one under
way, or of VC1 to VC4 in turn the first that may start (R459, R479). -/
def Dev.nextMsg (s : Dev) (p : Nat) (ctl : Bool) : Option TxMsg :=
  let x := s.tx p
  let start := fun (v : Nat) =>
    if v == 4 then x.queue.find? (fun m => m.vc == 4 && s.mayStart p m)
    else (x.queue.find? (fun m => m.vc == v && m.sent == 0)).filter (s.mayStart p)
  match x.queue.find? (fun m => m.vc == 0 && s.mayStart p m) with
  | some m => some m
  | none =>
    match x.queue.find? (fun m => m.urgent && (0 < m.sent || s.mayStart p m)) with
    | some m => some m
    | none =>
      if ctl then none
      else match x.queue.find? (fun m => 0 < m.sent) with
        | some m => some m
        | none => ((List.range 4).map (fun i => (x.turn + i + 3) % 4 + 1)).findSome? start

/-- One slot of a message leaves; its first spends the credits of all (R476). -/
def Dev.takeSlot (s : Dev) (p : Nat) (m : TxMsg) : Dev :=
  let f := creditField p m.vc
  let s1 := if m.sent == 0 then s.put f (s.get f - m.slots) else s
  s1.updTx p (fun x =>
    { x with
      queue := if m.sent + 1 == m.slots then x.queue.erase m
        else x.queue.map (fun y => if y == m then { y with sent := y.sent + 1 } else y)
      turn := if m.sent == 0 && m.vc != 0 && !m.urgent then m.vc % 4 + 1 else x.turn })

/-- Fills up to n slots of a flit. -/
def Dev.fillBody (p : Nat) (ctl : Bool) : Nat → Dev → List (Nat × Nat × Nat) → Dev × List (Nat × Nat × Nat)
  | 0, s, b => (s, b)
  | n + 1, s, b =>
    match s.nextMsg p ctl with
    | none => (s, b)
    | some m => Dev.fillBody p ctl n (s.takeSlot p m) (b ++ [(m.vc, m.at_, m.sent)])

/-! ### Flits (R455, R458, R461, R472 to R474) -/

/-- LCLK cycles that a flit takes on a port: one, two on one module (R455, R456), and twice as many at 16 GT/s (R453). -/
def Dev.flitTime (s : Dev) (p : Nat) : Nat :=
  (if (s.port p).up0 && (s.port p).up1 then 1 else 2) * (if s.get (F.pwkStatus_RATE p) == 1 then 2 else 1)

/-- The body slots of a demand or CTL flit, in order: each slot's tag and its 256 bits (R458, R459). -/
def Dev.bodySlots (s : Dev) (f : FlitOut) : List (Nat × Nat) :=
  f.body.map (fun e =>
    let w := match s.outbox[e.2.1]? with
      | some m => m.wire (56 + s.pos) e.2.1 (s.links.urgent.contains e.2.1)
      | none => ⟨e.1, 0, []⟩
    ((if e.2.2 == 0 then 8 else 0) + e.1, w.slot e.2.2))

/-- The lattice tag of a flit whose first line is this message, with the poison of its n lines (R521; log entry 35). -/
def Dev.latticeTag (s : Dev) (m : Msg) (n poison : Nat) : Nat :=
  match m with
  | .latticeLine p q sender flow desc line _ _ =>
    let detour := s.linkPort q != some p || s.get (F.pwkStatus_STATE p) != 2
    poison % 2 ^ 20 + b2n detour * (q % 8 * 2 ^ 20 + 2 ^ 23) + sender.toNat * 2 ^ 24 + n % 4 * 2 ^ 27 + line % 2 ^ 17 * 2 ^ 29 +
      desc % 2 ^ 13 * 2 ^ 46 + b2n flow * 2 ^ 59 + s.get F.prmFrames_FRAMES % 16 * 2 ^ 60
  | _ => 0

/-- The body of a lattice flit: its lines in slots 1 to 6 and the tag in slot 7 (R460). -/
def Dev.latticeBody (s : Dev) (f : FlitOut) : Nat :=
  let ms := f.lines.filterMap (fun i => s.outbox[i]?)
  let lines := ms.map (fun m => match m with
    | .latticeLine _ _ _ _ _ _ x poison => (x.toNat, poison)
    | _ => (0, false))
  let body := (lines.zipIdx).foldl (fun a e => a + e.1.1 * 2 ^ (256 + 512 * e.2)) 0
  let poison := (lines.zipIdx).foldl (fun a e => a + b2n e.1.2 * 2 ^ e.2) 0
  match ms with
  | m :: _ => body + s.latticeTag m ms.length poison * 2 ^ 1792
  | [] => body

/-- The tags and the slots of a flit's body, at their places (R458 to R460). -/
def Dev.flitBody (s : Dev) (f : FlitOut) : Nat :=
  if f.kind == 2 then s.latticeBody f
  else
    let slots := s.bodySlots f
    let tags := (List.range 7).foldl (fun a k => a + (slots.getD k (7, 0)).1 * 2 ^ (72 + 4 * k)) 0
    (slots.zipIdx).foldl (fun a e => a + e.1.2 * 2 ^ (256 * (e.2 + 1))) tags

/-- The fields of a flit's header but for SLOT_TAG and CRC (R458). -/
def FlitOut.headBits (f : FlitOut) : Nat :=
  f.seq.toNat * 2 ^ 32 + f.ack.toNat * 2 ^ 44 + f.kind * 2 ^ 56 + b2n f.replay * 2 ^ 58 +
    (match f.lnak with
      | some n => 2 ^ 59 + n.toNat * 2 ^ 60
      | none => 0) +
    (List.range 5).foldl (fun a vc => a + tgetD f.credits vc 0 * 2 ^ (100 + 8 * vc)) 0

/-- The 2,048 bits of a flit, with its CRC (R458, R471). -/
def Dev.flitBits (s : Dev) (f : FlitOut) : Flit :=
  let w := BitVec.ofNat 2048 (f.headBits + s.flitBody f)
  BitVec.ofNat 2048 (w.toNat + flitCrc w)

/-- A flit leaves, with the ACK, REPLAY, LNAK and CREDIT that the port owes (R458). -/
def Dev.putFlit (s : Dev) (p : Nat) (f : FlitOut) : Dev :=
  let x := s.tx p
  let r := s.port p
  let give := (x.freed.map (fun e => (e.1, min 255 e.2))).filter (fun e => e.2 != 0)
  let h : FlitOut := { f with ack := r.rxSeq, replay := r.askReplay, lnak := r.lnak.head?, credits := give }
  let g : FlitOut := { h with bits := s.flitBits h }
  let s1 := (s.updPort p (fun x => { x with askReplay := false, lnak := x.lnak.drop 1 })).updTx p (fun x =>
    { x with
      freed := x.freed.map (fun e => (e.1, e.2 - min 255 e.2)), wait := s.flitTime p - 1
      room := give.foldl (fun m e => tset m e.1 (tgetD m e.1 0 + e.2)) x.room })
  let s2 := { s1 with links.wire := s1.links.wire ++ [(p, g)] }
  if f.kind == 2 then { s2.event evLatticeFlit p with mgmt.slotFlits := s2.mgmt.slotFlits + 1 } else if f.kind == 3 then s2 else s2.event evDemandFlit p

/-- A flit with nothing in its header yet. -/
def plainFlit (kind : Nat) (seq : BitVec 12) (body : List (Nat × Nat × Nat)) (lines : List Nat) : FlitOut :=
  { kind := kind, seq := seq, ack := 0, replay := false, lnak := none, credits := [], body := body, lines := lines, bits := 0 }

/-- An idle flit (R461). -/
def Dev.putIdle (s : Dev) (p : Nat) : Dev := s.putFlit p (plainFlit 3 0 [] [])

/-- A new demand or CTL flit, or an idle one where no message may leave or 128 flits await their ACK (R461, R473, R479). -/
def Dev.putDemand (s : Dev) (p : Nat) (ctl : Bool) : Dev :=
  if 128 ≤ (s.tx p).unacked.length then s.putIdle p
  else
    let r := Dev.fillBody p ctl 7 s []
    if r.2.isEmpty then s.putIdle p
    else
      let f := plainFlit (b2n ctl) ((s.tx p).seq + 1) r.2 []
      (r.1.updTx p (fun x => { x with seq := f.seq, unacked := x.unacked ++ [f] })).putFlit p f

/-- The next flit of a replay (R472). -/
def Dev.putReplay (s : Dev) (p k : Nat) : Dev :=
  match (s.tx p).unacked[k]? with
  | none => (s.updTx p (fun x => { x with replay := none })).putIdle p
  | some f =>
    (s.updTx p (fun x => { x with replay := if x.unacked.length ≤ k + 1 then none else some (k + 1) })).putFlit p f

/-- A lattice flit with the lines at places of outbox (R460, R474). -/
def Dev.putLattice (s : Dev) (p : Nat) (places : List Nat) : Dev :=
  let f := plainFlit 2 ((s.tx p).lseq + 1) [] places
  (s.updTx p (fun x => { x with lseq := f.seq, lsent := (x.lsent ++ [f]).drop (x.lsent.length - 4095) })).putFlit p f

/-! ### The timetable (R478, R519, R520, R524) -/

/-- The item and lines that the timetable in force gives a port in LCLK n of the frame (R519, R520). -/
def Dev.scheduled (s : Dev) (p n : Nat) : Option (Bool × Nat × List Nat) :=
  ((linkList s.img.force.lattice (s.get F.pwkLattice_TIMETABLE) s.pos).filter (fun e => e.port == p)).findSome? (fun e =>
    (e.flitAt n).bind (fun i =>
      let all := if e.flow then (flowOf s.plan e.index).handles s.pos
        else List.range (transferOf s.img.force.lattice e.index).lines
      let ls := (e.flitLines i).filter all.contains
      if ls.isEmpty then none else some (e.flow, e.index, ls)))

/-- The places in outbox of an item's lines, where every one is ready. -/
def Tx.places (x : Tx) (flow : Bool) (d : Nat) (ls : List Nat) : Option (List Nat) :=
  let found := ls.filterMap (fun l => (x.ready.find? (fun r => r.1 == flow && r.2.1 == d && r.2.2.1 == l)).map (fun r => r.2.2.2))
  if found.length == ls.length then some found else none

/-- The lattice flit that goes when none is due: one to resend, else a deferred one whose lines are ready, else one of a detour
(R474, R524, R531); none on a half port (R456). -/
def Dev.putLate (s : Dev) (p : Nat) : Option Dev :=
  let x := s.tx p
  if s.get (F.pwkStatus_STATE p) != 2 then none
  else match x.lresend with
  | f :: rest => some ((s.updTx p (fun x => { x with lresend := rest })).putFlit p f)
  | [] =>
    match x.deferred.find? (fun d => (x.places d.1 d.2.1 d.2.2).isSome) with
    | some d => some ((s.updTx p (fun x => { x with deferred := x.deferred.erase d })).putLattice p
        ((x.places d.1 d.2.1 d.2.2).getD []))
    | none =>
      match x.detour with
      | i :: rest => some ((s.updTx p (fun x => { x with detour := rest })).putLattice p [i])
      | [] => none

/-- The flit of an LCLK that no lattice flit of the timetable takes (R479, R480): in a reserved CTL LCLK the replay or a CTL flit,
in any other the replay, a late lattice flit, or a demand flit. -/
def Dev.putOther (s : Dev) (p : Nat) (ctl : Bool) : Dev :=
  match (s.tx p).replay with
  | some k => s.putReplay p k
  | none => if ctl then s.putDemand p true else (s.putLate p).getD (s.putDemand p false)

/-- Whether the lattice runs: planned work does, or a port carries lattice LCLK cycles (R33, R478). -/
def Dev.latticeRuns (s : Dev) : Bool := s.frm.frameRunning || (List.range 6).any (fun p => s.on (F.pwkStatus_LATTICE p))

/-- What a port sends in LCLK n of the frame (R461, R478, R479, R524): every port reserves each eighth LCLK for CTL while the
lattice
runs; a flit of the timetable that finds the one before still on
the wire goes later, in the place of late ones (R455). -/
def Dev.sendFlit (s : Dev) (p n : Nat) : Dev :=
  if !s.portUp p then s
  else
    let lattice := s.on (F.pwkStatus_LATTICE p)
    let due := if lattice && s.frm.frameRunning then s.scheduled p n else none
    if 0 < (s.tx p).wait then s.updTx p (fun x => { x with wait := x.wait - 1, deferred := x.deferred ++ due.toList })
    else match due with
    | none => s.putOther p (s.latticeRuns && n % 8 == 0)
    | some e =>
      match (s.tx p).places e.1 e.2.1 e.2.2 with
      | some l => s.putLattice p l
      | none => ((s.updTx p (fun x => { x with deferred := x.deferred ++ [e] })).bump F.pwkLattice_DEFERRED).putOther p false

/-- What the ports send in one SCLK cycle: five LCLK cycles fall in four of SCLK, counted from the frame boundary (R478). -/
def Dev.transmit (s : Dev) : Dev :=
  let s1 := ({ s.takeAll with links.wire := [] }).freeKept
  if !s1.active then s1
  else
    let c := s.frm.counter
    s1.each ((List.range ((5 * c + 8) / 4)).drop ((5 * c + 3) / 4)) (fun s n => s.each (List.range 6) (fun s p => s.sendFlit p n))

end Sys2Proof.Machine
end

