-- ==== Sys2Proof/Machine/Receive.lean ====
section
/-! DEFINITION. What the ports receive: the slots of demand and CTL flits, the messages they make up, and what each message does here
or where it is passed on (R459, R463 to R477, R486, R513, R601, R603). A message that flits bring has the meaning of the row of its
arrival (log entry 8). -/

namespace Sys2Proof.Machine

/-! ### Receive buffers and credits (R142, R475 to R477) -/

/-- The body slots of a flit that hold something: VC, START and the slot (R458, R459). -/
def flitSlots (f : Flit) : List (Nat × Bool × BitVec 256) :=
  (List.range 7).filterMap (fun k =>
    let t := slotTag f (k + 1)
    if t % 8 == 7 then none else some (t % 8, 8 ≤ t, BitVec.ofNat 256 (flitField f (256 * (k + 1) + 255) (256 * (k + 1)))))

/-- Slots of a VC that a flit carries. -/
def vcSlots (f : Flit) (vc : Nat) : Nat := ((flitSlots f).filter (fun e => e.1 == vc)).length

/-- Whether a flit brings more slots of some VC than the partner has been sent credits for (R477). -/
def Dev.overRuns (s : Dev) (p : Nat) (f : Flit) : Bool :=
  (List.range 5).any (fun vc => tgetD (s.tx p).room vc 0 < vcSlots f vc)

/-- The slots of a flit spend the credits that the partner holds (R476). -/
def Dev.spendRoom (s : Dev) (p : Nat) (f : Flit) : Dev :=
  s.updTx p (fun x => { x with room := (List.range 5).map (fun vc => (vc, tgetD x.room vc 0 - vcSlots f vc)) })

/-- Slots of a receive buffer are free and go back as credits (R475), but for those of requests while these are withheld (R142,
R739). -/
def Dev.freeSlots (s : Dev) (p vc n : Nat) (request : Bool) : Dev :=
  if n == 0 then s
  else if request && s.withholds p then s.updTx p (fun x => { x with kept := x.kept + n })
  else s.send (.credit p vc n)

/-! ### What a message does (R464, R470, R601) -/

/-- The meaning of the row of a message's arrival. -/
def messageMeaning (i : Instr) (s : State) : Result :=
  match i with
  | .heartbeat a b c d e f => execHeartbeat a b c d e f s
  | .frameDone a b c => execFrameDone a b c s
  | .frameGo a b => execFrameGo a b s
  | .agentSuspect a b => execAgentSuspect a b s
  | .agentDead a b => execAgentDead a b s
  | .fenced a b => execFenced a b s
  | .reclaim a => execReclaim a s
  | .eclipse a b => execEclipse a b s
  | .homeMoved a b c d => s.onDev (fun v => v.homeMoved a.toNat b.toNat c d)
  | .podSync a b c => execPodSync a b c s
  | .podSyncDone a b c => execPodSyncDone a b c s
  | .ctlExpose a => execCtlExpose a s
  | .forward a b c => execForward a b c s
  | .ready a => execReady a s
  | .refused a b => execRefused a b s
  | .commit a => execCommit a s
  | .abort a => execAbort a s
  | .seal a => execSeal a s
  | .ctlResetWarm a b c => execCtlResetWarm a b c s
  | .ctlResetCold a b c => execCtlResetCold a b c s
  | .ctlResetBlock a b c d => execCtlResetBlock a b c d s
  | .ctlResetReserved a b => execCtlResetReserved a b s
  | .snpReply a => execSnpReply a s
  | .snpData a b => execSnpData a b s
  | .compAck a b => execCompAck a b s
  | .writeData a b c d => execWriteData a b c d s
  | .mirrorRelease a b c d => execMirrorRelease a b c d s
  | .parityRelease a b c => execParityRelease a b c s
  | .reconRead a b c => execReconRead a b c s
  | .readData a => execReadData a s
  | .comp a b c => execComp a b c s
  | .pull a b => execPull a b s
  | .mirrorPut a b c d e f g => s.onDevAt c.toNat (fun v =>
      if v.deaf a.toNat then v else v.mirrorPutIn a b (c.toNat / 256 * 256) d e.toNat f g true)
  | .parityDelta a b c d e => s.onDevAt c.toNat (fun v =>
      if v.deaf a.toNat then v else v.parityArrive a b (c.toNat / 64 * 64) d e true)
  | _ => .next s

/-- A message's effect on the slice; one that names a device offset which does not exist has none (R95; log entry 117). -/
def Dev.arrive (s : Dev) (i : Instr) : Dev :=
  match messageMeaning i { s with pending := [] } with
  | .next t => t.toDev
  | _ => s

/-- A reply to a snoop of this slice, or one that it mirrors for its buddy's home. The reply names no sector: at the buddy the place
where its data is mirrored is a free value (R605; log entry 117). -/
def Dev.replyIn (s : Dev) (w : Wire) : Dev :=
  let src := BitVec.ofNat 6 w.src
  let mine := s.cache.txns.any (fun t => BitVec.ofNat 12 t.id == w.txid && t.awaiting.contains src)
  let f := s.free
  let r : SnoopReply :=
    { home := BitVec.ofNat 3 (if mine then s.pos else s.buddy), src := src, txid := w.txid
      final := BitVec.ofNat 3 (bitsOf w.head 37 35), notPresent := w.code 0 == 5
      sector := BitVec.ofNat 64 (f.1.toNat / 256 * 256 % (91552 * 0x200000)), fgroup := BitVec.ofNat 6 f.1.toNat
      subIndex := BitVec.ofNat 2 (f.1.toNat / 64) }
  let s1 := if mine || w.vc == 1 then s else f.2
  s1.arrive (if w.vc == 1 then .snpReply r else .snpData r (w.data.headD 0))

/-- WRITE_DATA: of a shadow message that awaits it (R601), or of a request. -/
def Dev.dataIn (s : Dev) (w : Wire) : Dev :=
  match s.links.awaiting.find? (fun x => x.src == w.src && x.txid == w.txid) with
  | some x =>
    let s1 := { s with links.awaiting := s.links.awaiting.erase x }
    match x.shadow ((List.range 16).map (fun i => w.code i == 1)) w.data with
    | some i => s1.arrive i
    | none => s1
  | none => s.arrive (.writeData (BitVec.ofNat 6 w.src) w.txid (BitVec.ofNat 8 (bitsOf w.head 63 56)) w.data)

/-- A request of VC4: a reserved operation is answered DENY, if no other check of R103 comes before (R218). -/
def Dev.requestIn (s : Dev) (p : Nat) (w : Wire) : Dev :=
  let via : Via := if s.isDieLink p then .dieLink (Fin.ofNat 6 p) else .agentPort (Fin.ofNat 6 p)
  match opOf (bitsOf w.head 36 32) with
  | some op => (s.request op (w.request via)).settle
  | none => s.reservedRequest (bitsOf w.head 36 32) (w.request via)

/-- A message of VC4: a request, or a shadow message, whose data is pulled first where it has some (R601). The side accesses have no
header that the spec gives, and come as their own rows (log entry 117). -/
def Dev.vc4In (s : Dev) (p : Nat) (w : Wire) : Dev :=
  if w.msg == 0 then s.requestIn p w
  else if w.src < 56 then s
  else if w.msg == 1 || w.msg == 3 then
    ({ s with links.awaiting := s.links.awaiting ++ [w] }).send (.pull (BitVec.ofNat 6 w.src) w.txid)
  else match w.shadow [] [] with
    | some i => s.arrive i
    | none => s

/-- A message for this slice. -/
def Dev.messageIn (s : Dev) (p : Nat) (w : Wire) : Dev :=
  let src := BitVec.ofNat 6 w.src
  let q := BitVec.ofNat 3 (w.src - 56)
  let via : Via := if s.isDieLink p then .dieLink (Fin.ofNat 6 p) else .agentPort (Fin.ofNat 6 p)
  match w.vc, w.msg with
  | 0, _ =>
    match w.ctl via with
    | some i => s.arrive i
    | none => s
  | 1, 0 => if w.src < 56 then s else s.arrive (.comp q w.txid ((List.range (bitsOf w.head 55 52 + 1)).map (fun i => BitVec.ofNat 3 (w.code i))))
  | 1, 1 => s.replyIn w
  | 1, 2 => s.arrive (.compAck src w.txid)
  | 1, 3 => if w.src < 56 then s else s.arrive (.pull q w.txid)
  | 2, 0 => if w.src < 56 then s else s.arrive (.readData w.answer)
  | 2, 1 => s.replyIn w
  | 2, 2 => s.dataIn w
  | 4, _ => s.vc4In p w
  | _, _ => s

/-- A message for another slice or for an agent goes on (R503, R513); a response to an agent passes back here if its request did
(R497, R623). One for an agent whose primary port is on another slice and that has come here shows that port lost. -/
def Dev.passMessage (s : Dev) (p : Nat) (w : Wire) : Dev :=
  let s1 := if (w.vc == 1 || w.vc == 2) && w.msg == 0 then s.passBack w.tgt w.txid.toNat (bitsOf w.head 55 52 + 1) else s
  let other := w.tgt < 48 && s.isDieLink p && (s.agentAt w.tgt).head?.any (fun q => q != s.pos) && (s.agentPortOf w.tgt).isSome &&
    !s.links.viaOther.contains w.tgt && w.src != 56 + s.pos && (s.agentAt w.tgt).head?.any (fun q => s.routePort q == some p)
  (if other then { s1 with links.viaOther := s1.links.viaOther ++ [w.tgt] } else s1).send (.transit (BitVec.ofNat 6 w.tgt) w)

/-- A message that has arrived whole (R261, R465, R619): an agent's requests and CTL messages are for its ingress slice. -/
def Dev.received (s : Dev) (p : Nat) (w : Wire) : Dev :=
  if s.discards w.src then s
  else if w.tgt == 56 + s.pos || (!s.isDieLink p && (w.vc == 0 || w.vc == 4)) then s.messageIn p w
  else if w.vc == 4 && w.msg == 0 && w.tgt < 56 then s
  else s.passMessage p w

/-- Takes a message from its receive buffer, whose slots are then free; a request stays there while the request table is full
(R142, R475, R603). -/
def Dev.takeMessage (s : Dev) (p : Nat) (w : Wire) : Dev :=
  let request := w.vc == 4 && w.msg == 0
  if request && s.holds then s.updPort p (fun x => { x with rxHeld := x.rxHeld ++ [w] })
  else (s.freeSlots p w.vc w.slots request).received p w

/-- A slot joins the message of its VC; with its last one the message is taken. A START ends a message that is not whole, and a slot
with none to go on is dropped (log entry 123). -/
def Dev.slotIn (s : Dev) (p : Nat) (e : Nat × Bool × BitVec 256) : Dev :=
  let vc := e.1
  let had := tgetD (s.port p).rxSlots vc []
  let now := if e.2.1 then [e.2.2] else if had.isEmpty then [] else had ++ [e.2.2]
  let s1 := s.freeSlots p vc (if e.2.1 then had.length else if had.isEmpty then 1 else 0) false
  let whole := !now.isEmpty && slotsFrom vc (now.headD 0).toNat ≤ now.length
  let s2 := s1.updPort p (fun x => { x with rxSlots := tset x.rxSlots vc (if whole then [] else now) })
  if whole then s2.takeMessage p (wireOf vc now) else s2

/-- Requests that waited in the receive buffers are taken, in order, once the request table has room (R142). -/
def Dev.takeHeld (s : Dev) : Dev :=
  s.each (List.range 6) (fun s p =>
    let held := (s.port p).rxHeld
    if held.isEmpty || s.holds then s
    else (s.updPort p (fun x => { x with rxHeld := [] })).each held (fun s w => s.takeMessage p w))

/-- FLIT_RECEIVE: a demand, CTL or idle flit (R471, R472, R477, R623). A flit ahead of the next one shows a gap; one behind it
is a copy of a flit that was accepted, and is discarded (DEDUCED; log entry 110). -/
def Dev.flitIn (s : Dev) (p : Nat) (f : Flit) : Dev :=
  if !s.portUp p then s
  else if !flitOk f then (s.badFlit p).updPort p (fun x => { x with askReplay := true })
  else
    let kind := flitField f 57 56
    let s1 := s.flitHeader p f
    if kind == 3 then s1
    else if kind == 2 then (if s1.isDieLink p then s1 else s1.portLoss p 2)
    else
      let seq := BitVec.ofNat 12 (flitField f 43 32)
      let ahead := (seq - (s1.port p).rxSeq).toNat
      if ahead != 1 then (if 2 ≤ ahead && ahead < 2048 then s1.updPort p (fun x => { x with askReplay := true }) else s1)
      else
        let s2 := s1.updPort p (fun x => { x with rxSeq := seq, askReplay := false })
        let bad := s2.overRuns p f || (flitSlots f).any (fun v => 5 ≤ v.1 || (v.1 == 3 && !s2.isDieLink p))
        if bad then s2.portLoss p 2
        else (s2.spendRoom p f).each (flitSlots f) (fun s e => if s.portUp p then s.slotIn p e else s)

end Sys2Proof.Machine
end

