-- ==== Sys2Proof/Machine/Clock.lean ====
section
/-! DEFINITION. One cycle of the slice clock (log entry 2): the frame counter, and the counters that count cycles (R149, R172,
R771 to R774). -/

namespace Sys2Proof.Machine

/-- Whether the slice clock runs: from step 4 of the out-of-reset order, but for Dusk and Night (R719, R774). -/
def Dev.clocked (s : Dev) : Bool :=
  match s.phase with
  | .held => false
  | .boot k => 4 ≤ k
  | .dusk => false
  | .night => false
  | _ => true

/-- The level of an event in one unit (R775); none for an event that has no level. -/
def Dev.levelIn (s : Dev) (code unit : Nat) : Option Nat :=
  match code with
  | 0x016 => some (if s.fuse.dead unit then 0 else (s.plrsOf unit).length)
  | 0x017 => some (if s.fuse.dead unit then 0 else (s.parkedParts unit).length)
  | 0x018 => some s.occupancy
  | 0x019 => some (b2n s.holds)
  | 0x031 => some (if unit < s.lensCount then b2n (s.get (F.lnsStatus_STATE unit) == 1) else 0)
  | 0x071 => some s.rfl_.queue.length
  | 0x081 => some (b2n (s.reg R.pwrThrottle % 16 != 0))
  | _ => none

/-- Units of the kind that a level event names (R775). -/
def levelUnits (code : Nat) : List Nat :=
  if code == 0x016 || code == 0x017 then List.range 64
  else if code == 0x031 then List.range 4
  else [0]

/-- The level that a selection word compares: of its unit, or summed over every unit (R772). -/
def Dev.level (s : Dev) (code unit : Nat) : Option Nat :=
  if unit == 255 then (s.levelIn code 0).map (fun _ =>
    (levelUnits code).foldl (fun a u => a + ((s.levelIn code u).getD 0)) 0)
  else s.levelIn code unit

/-- Whether a selection word counts this cycle by the level of its event (R771, R772). -/
def Dev.levelCounts (s : Dev) (w : Nat) : Bool :=
  match s.level (bitsOf w 9 0) (bitsOf w 23 16) with
  | some v => if bitsOf w 63 62 == 2 then bitsOf w 47 32 < v else bitsOf w 63 62 == 3 && v ≤ bitsOf w 47 32
  | none => false

/-- The frame counter counts a cycle, and so does each facet with waiting work (R32, R149). -/
def Dev.cycle (waiting : List Nat) (s : Dev) : Dev :=
  { s with
    frm.counter := s.frm.counter + 1
    cache.busy := waiting.foldl (fun m f => tset m f (tgetD m f 0 + 1)) s.cache.busy }

/-- One SCLK cycle, with what the ports send in it: nothing but the model's own clock advances while the slice clock stands. -/
def Dev.tick (s : Dev) : Dev :=
  let s0 := { s with now := s.now + 1 }
  if !s.clocked then s0
  else
    let waiting := ((s0.cache.parked.filter (fun p => p.bound != .data)).map (fun p => p.facet)).eraseDups
    let s1 := s0.orderRecords.each (s0.selections.filter (fun e => s0.levelCounts e.2)) (fun s e => s.countAdd e.1.1 e.1.2 1)
    let s2 := (s1.event evSclk 0).bump F.fctHold_CYCLES (b2n s1.holds)
    (((s2.takeHeld).each (List.range 4) Dev.showWave).transmit.cycle waiting).checkDone

end Sys2Proof.Machine
end

