-- ==== Sys2Proof/Machine/LinkCmds.lean ====
section
/-! DEFINITION. The meanings of the commands of links, discovery and failover (chapters 14, 15, 17). -/

namespace Sys2Proof.Machine

/-- LATTICE_FLIT (R460, R474, R477, R521). -/
def execLatticeFlit (port : Fin 6) (flit : Flit) (s : State) : Result :=
  s.onDev (fun v => if !v.active then v else v.latticeIn port.val flit)

/-- FLIT_RECEIVE (R471, R472, R477, R486). -/
def execFlitReceive (port : Fin 6) (flit : Flit) (s : State) : Result :=
  s.onDev (fun v => if !v.active then v else v.flitIn port.val flit)

/-- LANE_FAIL (R455). -/
def execLaneFail (port : Fin 6) (module : Fin 2) (s : State) : Result :=
  s.onDev (fun v => if !v.active then v else v.laneFail port.val module.val)

/-- MODULE_RETURN (R455). -/
def execModuleReturn (port : Fin 6) (module : Fin 2) (repaired : BitVec 4) (s : State) : Result :=
  s.onDev (fun v => if !v.active then v else v.moduleReturn port.val module.val repaired.toNat)

/-- MODULE_FAIL (R456, R486). -/
def execModuleFail (port : Fin 6) (module : Fin 2) (s : State) : Result :=
  s.onDev (fun v => if !v.active then v else v.moduleFail port.val module.val)

/-- LINK_SILENCE (R486, R487). -/
def execLinkSilence (port : Fin 6) (s : State) : Result :=
  s.onDev (fun v => if !v.active then v else v.portLoss port.val 1)

/-- PWK_GLINT (R489, R499). -/
def execPwkGlint (ports : BitVec 6) (s : State) : Result :=
  s.onDev (fun v => if !v.active then v else v.sendGlints ports.toNat)

/-- DISCOVERY_ROUND (R506 to R510). -/
def execDiscoveryRound (partners : List PartnerRead) (s : State) : Result := s.onDev (fun v => v.discoveryRound partners)

/-- DISCOVERY_TIMEOUT (R509). -/
def execDiscoveryTimeout (s : State) : Result := s.onDev Dev.discoveryTimeout

/-- PORT_TRAINED (R454, R753). -/
def execPortTrained (port : Fin 6) (m0 m1 : ModuleTraining) (failed0 failed1 : FailedLanes) (s : State) : Result :=
  s.onDev (fun v => v.portTrainedIn port.val m0 m1 failed0 failed1)

/-- HOME_MOVED (R618 to R623). -/
def execHomeMoved (lost newHome : Pos) (notice : Bool) (boundary : Frame) (s : State) : Result :=
  s.onDev (fun v => v.homeMoved lost.toNat newHome.toNat notice boundary)

/-- ADOPTION_WALK_END (R621, R623). -/
def execAdoptionWalkEnd (s : State) : Result := s.onDev Dev.walkEnd

/-- REBUILD_CHUNK_DONE (R630 to R632). -/
def execRebuildChunkDone (chunk : BitVec 17) (copy0 copy1 : Pos × BitVec 17) (s : State) : Result :=
  s.onDev (fun v => v.rebuildDone chunk.toNat copy0 copy1)

end Sys2Proof.Machine
end

