-- ==== Sys2Proof/Machine/PlanCmds.lean ====
section
/-! DEFINITION. The meanings of the commands of planned items: Lens waves, reduce flows and lattice transfers (chapters 10 to
12, 15). -/

namespace Sys2Proof.Machine

/-- WAVE_START (R354). -/
def execWaveStart (engine : Fin 4) (badSubs : List (Space × BitVec 64)) (accBad : List (BitVec 14 × DataErr)) (s : State) : Result :=
  s.onDev (fun v => if !v.active then v else (v.startWave engine.val badSubs accBad).flowTakes.settle)

/-- WAVE_COMPLETE (R357). -/
def execWaveComplete (engine : Fin 4) (s : State) : Result :=
  s.onDev (fun v => if !v.active then v else (v.endWave engine.val).retakes.settle.checkDone)

/-- FLOW_START (R422). -/
def execFlowStart (flow : BitVec 12) (s : State) : Result :=
  s.onDev (fun v => if !v.active then v else (v.startFlow flow.toNat).settle)

/-- FLOW_LINE_APPLY (R418 to R421). -/
def execFlowLineApply (flow : BitVec 12) (line : BitVec 17) (s : State) : Result :=
  s.onDev (fun v => if !v.active then v else (v.applyFlow flow.toNat line.toNat).settle)

/-- FLOW_COMPLETE (R424). -/
def execFlowComplete (flow : BitVec 12) (s : State) : Result :=
  s.onDev (fun v => if !v.active then v else (v.endFlow flow.toNat).retakes.settle.checkDone)

/-- TRANSFER_COMPLETE (R518). -/
def execTransferComplete (index : BitVec 12) (s : State) : Result :=
  s.onDev (fun v => if !v.active then v else (v.endTransfer index.toNat).retakes.settle.checkDone)

end Sys2Proof.Machine
end

