-- ==== Sys2Proof/Machine/PowerCmds.lean ====
section
/-! DEFINITION. Meanings of the commands on the pins, the supplies, the sensors and the watchdogs, of block resets, and of
Night's and Dusk's wake (chapter 20). -/

namespace Sys2Proof.Machine

/-- GLINT (R490, R729 to R731, R734). -/
def execGlint (_port : Fin 6) (training : Bool) (s : State) : Result := s.onDev (fun d => d.glintIn training)

/-- RST_BLOCK: a write to the register (R746, R747). -/
def execRstBlock (value : BitVec 64) (s : State) : Result := s.onDev (fun d => if d.active then d.rstBlockWrite (value.toNat % 256) else d)

/-- BLOCK_IDLE (R747, R748). -/
def execBlockIdle (s : State) : Result := s.onDev Dev.blockIdle

/-- BLOCK_IDLE_TIMEOUT (R747, R748, R826). -/
def execBlockIdleTimeout (s : State) : Result := s.onDev Dev.blockTimedOut

/-- RST_WDOG: a write to the register restarts the control-plane watchdog (R742, R767). -/
def execRstWdog (s : State) : Result := s.onDev (fun d => { d with mgmt.wdogAt := d.now })

/-- GNM_CORE_WDOG: a write to the register restarts the core's watchdog (R800). -/
def execGnmCoreWdog (core : Fin 4) (s : State) : Result :=
  s.onDev (fun d => { d with mgmt.coreWdogAt := tset d.mgmt.coreWdogAt core.val d.now })

/-- CP_WATCHDOG_EXPIRY (R742). -/
def execCpWatchdogExpiry (s : State) : Result := s.onDev Dev.cpExpiry

/-- CORE_WATCHDOG_EXPIRY (R743, R748). -/
def execCoreWatchdogExpiry (core : Fin 4) (s : State) : Result := s.onDev (fun d => d.coreExpiry core.val)

/-- ECLIPSE_EXIT_TIMER (R743, R753). -/
def execEclipseExitTimer (s : State) : Result := s.onDev Dev.eclipseExit

/-- PWR_GOOD rises (R743, R750, R805). -/
def execPwrGoodRise (b : BootInputs) (s : State) : Result := s.onDev (fun d => d.pwrGoodRise b)

/-- PWR_GOOD falls (R805). -/
def execPwrGoodFall (s : State) : Result := s.onDev Dev.pwrGoodFall

/-- RST_N is asserted (R743). -/
def execRstNAssert (s : State) : Result := s.onDev Dev.rstAssert

/-- RST_N is released (R743, R753). -/
def execRstNRelease (b : BootInputs) (s : State) : Result := s.onDev (fun d => d.rstRelease b)

/-- REFCLK stops (R720). -/
def execClockLoss (s : State) : Result := s.onDev Dev.clockLoss

/-- REFCLK returns (R720). -/
def execRefclkReturn (s : State) : Result := s.onDev Dev.refclkBack

/-- VDD_IO leaves its range (R750, R804). -/
def execPowerLoss (s : State) : Result := s.onDev Dev.powerLoss

/-- VDD_CORE droops (R739). -/
def execVddCoreDroop (s : State) : Result := s.onDev Dev.droop

/-- VDD_CORE recovers (R739, R741). -/
def execVddCoreRecover (b : BootInputs) (s : State) : Result := s.onDev (fun d => d.vddRecover b)

/-- VDD_CORE browns out (R741). -/
def execVddCoreBrownout (s : State) : Result := s.onDev Dev.brownout

/-- RETENTION_OVERLOAD (R728). -/
def execRetentionOverload (s : State) : Result := s.onDev Dev.retentionLost

/-- TEMP_SAMPLE (R739). -/
def execTempSample (celsius : BitVec 8) (s : State) : Result := s.onDev (fun d => d.tempSample celsius.toNat)

end Sys2Proof.Machine
end

