-- ==== Sys2Proof/Machine/Tap.lean ====
section
/-! DEFINITION. The test access port, the IEEE 1500 wrapper and the fuse programmer (R704 to R707, R812 to R816). -/

namespace Sys2Proof.Machine

/-- Whether an instruction or instrument that needs a permission of SEC_DEBUG.PERMS is open: before the first seal, and then
with a token that granted the bit (R704, R705, R812). -/
def Dev.unlocked (s : Dev) (bit : Nat) : Bool := !s.img.firstSealed || bitAt (s.get F.secDebug_PERMS) bit

/-- Selects a test instruction, its data register holding v. -/
def Dev.tapSelect (s : Dev) (ir : Nat) (v : Nat) : Dev :=
  { s with tap.ir := BitVec.ofNat 8 ir, tap.dr := BitVec.ofNat 64 v, tap.viaTap := ir == 0x30 }

/-- Shifts a data register out (R812). -/
def Dev.tapRead (s : Dev) (ir v : Nat) : Dev := (s.tapSelect ir v).send (.tdo v)

/-- The value of IDCODE (R813). -/
def Dev.idcode (s : Dev) : Nat := s.fuse.stepping.toNat % 16 * 2 ^ 28 + 0x0537 * 2 ^ 12 + 0x25C * 2 + 1

/-- EXTEST and SAMPLE/PRELOAD: the boundary-scan register takes the shifted bits, and what it captured of the pins, whose
places in it the spec does not give, is shifted out (R812, log entry 7). -/
def Dev.boundaryScan (s : Dev) (ir : Nat) (pins : BitVec 64) : Dev :=
  if !s.unlocked 0 then s
  else
    let f := s.free
    { f.2.tapRead ir f.1.toNat with tap.boundary := pins }

/-- CSR: a read, or a write, without access lists (R812). -/
def Dev.tapCsr (s : Dev) (off : Nat) (store : Option (BitVec 64)) : Dev :=
  if !s.unlocked 2 then s
  else
    let a := off / 8 * 8
    match store with
    | some v => (if s.active then s.csrEffect a v.toNat else s).tapSelect 0x40 v.toNat
    | none => s.tapRead 0x40 (if s.clocked then s.csrRead a else 0)

/-- A wrapper instruction: after seal only WS_BYPASS, or with token bit 0 (R814). -/
def Dev.wrapper (s : Dev) (w : Wir) : Dev := if w == .wsBypass || s.unlocked 0 then { s with tap.wir := w } else s

/-- Whether the disabled facets are distinct and ascending, no two of them neighbours, 63 and 0 counting as such (R15). -/
def Fuse.deadOk (u : Fuse) : Bool :=
  u.dead0.toNat + 1 < u.dead1.toNat && u.dead1.toNat + 1 < u.dead2.toNat && u.dead2.toNat + 1 < u.dead3.toNat &&
    !(u.dead0 == 0 && u.dead3 == 63)

/-- Blows fuses, before the first seal of the die's life (R816); a blown bit stays. A blown LENS_GOOD fuse marks its engine
bad (R14). Fuses that would leave disabled facets against R15 are not blown (DESIGN CHOICE; log entry 88). -/
def Fuse.blow (u : Fuse) (t : FuseTarget) : Fuse :=
  let key := fun (slot : Fin 4) (g : KeySlot → KeySlot) =>
    { u with keys := u.keys.zipIdx.map (fun (e : KeySlot × Nat) => if e.2 == slot.val then g e.1 else e.1) }
  match t with
  | .bin v => { u with bin := u.bin ||| v }
  | .deadFacets d0 d1 d2 d3 =>
    let v : Fuse := { u with
      dead0 := u.dead0 ||| d0, dead1 := u.dead1 ||| d1, dead2 := u.dead2 ||| d2, dead3 := u.dead3 ||| d3, facetCount := 60 }
    if v.deadOk then v else u
  | .lensGood v => { u with lensGood := u.lensGood &&& v }
  | .leakClass v => { u with leakClass := u.leakClass ||| v }
  | .dieId v => { u with dieId := u.dieId ||| v }
  | .keyHash slot h => key slot (fun k => { k with hash := k.hash ||| h, programmed := true })
  | .keyImage slot => key slot (fun k => { k with image := true })
  | .keyDebug slot => key slot (fun k => { k with debug := true })
  | .repair v => { u with repair := u.repair ||| v }

/-- EXTEST (R812). -/
def execExtest (pins : BitVec 64) (s : State) : Result := s.onDev (fun d => d.boundaryScan 0x00 pins)

/-- IDCODE (R812, R813). -/
def execIdcode (s : State) : Result := s.onDev (fun d => d.tapRead 0x01 d.idcode)

/-- SAMPLE/PRELOAD (R812). -/
def execSamplePreload (pins : BitVec 64) (s : State) : Result := s.onDev (fun d => d.boundaryScan 0x02 pins)

/-- TOKEN: the shifted token is checked (R705 to R707, R812). -/
def execToken (bytes : List Byte) (s : State) : Result :=
  s.onDev (fun d => (d.tapSelect 0x20 0).checkToken bytes |>.1)

/-- NONCE (R812). -/
def execNonce (s : State) : Result := s.onDev (fun d => d.tapRead 0x21 (d.reg R.secNonce))

/-- WRAPPER (R812, R814). -/
def execWrapper (s : State) : Result := s.onDev (fun d => if d.unlocked 0 then d.tapSelect 0x30 0 else d)

/-- IJTAG (R812, R815). -/
def execIjtag (s : State) : Result := s.onDev (fun d => if d.unlocked 0 then d.tapSelect 0x31 0 else d)

/-- CSR (R812). -/
def execJtagCsr (offset : BitVec 24) (store : Option (BitVec 64)) (s : State) : Result :=
  s.onDev (fun d => d.tapCsr offset.toNat store)

/-- BYPASS, and every unassigned code (R812). -/
def execBypass (code : BitVec 8) (s : State) : Result := s.onDev (fun d => d.tapSelect code.toNat 0)

/-- WS_BYPASS (R814). -/
def execWsBypass (s : State) : Result := s.onDev (fun d => d.wrapper .wsBypass)

/-- WS_EXTEST (R814). -/
def execWsExtest (s : State) : Result := s.onDev (fun d => d.wrapper .wsExtest)

/-- WS_INTEST (R814). -/
def execWsIntest (s : State) : Result := s.onDev (fun d => d.wrapper .wsIntest)

/-- WS_SCAN (R814). -/
def execWsScan (s : State) : Result := s.onDev (fun d => d.wrapper .wsScan)

/-- FUSE_BLOW (R816). -/
def execFuseBlow (target : FuseTarget) (s : State) : Result :=
  s.onDev (fun d => if d.fuse.sealedOnce then d else { d with fuse := d.fuse.blow target })

/-- TRST_N_ASSERT (R812). -/
def execTrstNAssert (s : State) : Result := s.onDev (fun d => { d with tap := Tap.reset })

end Sys2Proof.Machine
end

