-- ==== Sys2Proof/Machine/Dispatch.lean ====
section
/-! DEFINITION. The meaning of every command: one arm per constructor of Instr. -/

namespace Sys2Proof.Machine

def exec (i : Instr) (s : State) : Host.Outcome State Fault Refusal :=
  match i with
  | .frameTick => Sys2Proof.Machine.execFrameTick s
  | .holdoverBoundary => Sys2Proof.Machine.execHoldoverBoundary s
  | .holdoverHalt => Sys2Proof.Machine.execHoldoverHalt s
  | .planResume => Sys2Proof.Machine.execPlanResume s
  | .slotStart => Sys2Proof.Machine.execSlotStart s
  | .heartbeatMissed lost => Sys2Proof.Machine.execHeartbeatMissed lost s
  | .heartbeat sender frame usable lostLinks ackLink ackSeq => Sys2Proof.Machine.execHeartbeat sender frame usable lostLinks ackLink ackSeq s
  | .frameDone sender frame usable => Sys2Proof.Machine.execFrameDone sender frame usable s
  | .frameGo frame degraded => Sys2Proof.Machine.execFrameGo frame degraded s
  | .degradedSwitch => Sys2Proof.Machine.execDegradedSwitch s
  | .readShared r => Sys2Proof.Machine.execReadShared r s
  | .readUnique r => Sys2Proof.Machine.execReadUnique r s
  | .claim r => Sys2Proof.Machine.execClaim r s
  | .readOnce r => Sys2Proof.Machine.execReadOnce r s
  | .readOnceNofill r => Sys2Proof.Machine.execReadOnceNofill r s
  | .write r => Sys2Proof.Machine.execWrite r s
  | .writeBack r => Sys2Proof.Machine.execWriteBack r s
  | .darken r => Sys2Proof.Machine.execDarken r s
  | .clean r => Sys2Proof.Machine.execClean r s
  | .invalidate r => Sys2Proof.Machine.execInvalidate r s
  | .cleanInvalidate r => Sys2Proof.Machine.execCleanInvalidate r s
  | .atomic r => Sys2Proof.Machine.execAtomic r s
  | .farAtomic r => Sys2Proof.Machine.execFarAtomic r s
  | .reduceStore r => Sys2Proof.Machine.execReduceStore r s
  | .snpReply p => Sys2Proof.Machine.execSnpReply p s
  | .snpData p data => Sys2Proof.Machine.execSnpData p data s
  | .compAck src txid => Sys2Proof.Machine.execCompAck src txid s
  | .writeData src txid off data => Sys2Proof.Machine.execWriteData src txid off data s
  | .sideAccess a => Sys2Proof.Machine.execSideAccess a s
  | .escapeClaimSlot e => Sys2Proof.Machine.execEscapeClaimSlot e s
  | .escapeReleaseSlot e => Sys2Proof.Machine.execEscapeReleaseSlot e s
  | .prefetchHint grp d allocClass shadowed => Sys2Proof.Machine.execPrefetchHint grp d allocClass shadowed s
  | .dramReadComplete id errs => Sys2Proof.Machine.execDramReadComplete id errs s
  | .dramWriteComplete id => Sys2Proof.Machine.execDramWriteComplete id s
  | .parkedPartResume facet => Sys2Proof.Machine.execParkedPartResume facet s
  | .heldWaiterReenter facet d => Sys2Proof.Machine.execHeldWaiterReenter facet d s
  | .tagScrub facet upsets => Sys2Proof.Machine.execTagScrub facet upsets s
  | .dirScrub facet upsets => Sys2Proof.Machine.execDirScrub facet upsets s
  | .dirRecallComplete txn => Sys2Proof.Machine.execDirRecallComplete txn s
  | .swClean facet set way => Sys2Proof.Machine.execSwClean facet set way s
  | .swInvalidate facet set way => Sys2Proof.Machine.execSwInvalidate facet set way s
  | .swCleanInvalidate facet set way => Sys2Proof.Machine.execSwCleanInvalidate facet set way s
  | .snoopTimeout txn agent => Sys2Proof.Machine.execSnoopTimeout txn agent s
  | .agentSuspect report cause => Sys2Proof.Machine.execAgentSuspect report cause s
  | .agentDead agent cause => Sys2Proof.Machine.execAgentDead agent cause s
  | .fenced sender agent => Sys2Proof.Machine.execFenced sender agent s
  | .reclaim agent => Sys2Proof.Machine.execReclaim agent s
  | .deathWalkEnd agent => Sys2Proof.Machine.execDeathWalkEnd agent s
  | .ticketHoldExpiry facet ticket => Sys2Proof.Machine.execTicketHoldExpiry facet ticket s
  | .eclipse cause origin => Sys2Proof.Machine.execEclipse cause origin s
  | .waveStart engine badSubs accBad => Sys2Proof.Machine.execWaveStart engine badSubs accBad s
  | .waveComplete engine => Sys2Proof.Machine.execWaveComplete engine s
  | .flowStart flow => Sys2Proof.Machine.execFlowStart flow s
  | .flowLineApply flow line => Sys2Proof.Machine.execFlowLineApply flow line s
  | .flowComplete flow => Sys2Proof.Machine.execFlowComplete flow s
  | .transferComplete index => Sys2Proof.Machine.execTransferComplete index s
  | .latticeFlit port flit => Sys2Proof.Machine.execLatticeFlit port flit s
  | .flitReceive port flit => Sys2Proof.Machine.execFlitReceive port flit s
  | .podSync sender src txid => Sys2Proof.Machine.execPodSync sender src txid s
  | .podSyncDone sender src txid => Sys2Proof.Machine.execPodSyncDone sender src txid s
  | .laneFail port module => Sys2Proof.Machine.execLaneFail port module s
  | .moduleReturn port module repaired => Sys2Proof.Machine.execModuleReturn port module repaired s
  | .moduleFail port module => Sys2Proof.Machine.execModuleFail port module s
  | .linkSilence port => Sys2Proof.Machine.execLinkSilence port s
  | .glint port training => Sys2Proof.Machine.execGlint port training s
  | .pwkGlint ports => Sys2Proof.Machine.execPwkGlint ports s
  | .discoveryRound partners => Sys2Proof.Machine.execDiscoveryRound partners s
  | .discoveryTimeout => Sys2Proof.Machine.execDiscoveryTimeout s
  | .retirementCopyDone badSubs => Sys2Proof.Machine.execRetirementCopyDone badSubs s
  | .channelFail stack channel => Sys2Proof.Machine.execChannelFail stack channel s
  | .memoryInitDone durationUs => Sys2Proof.Machine.execMemoryInitDone durationUs s
  | .shadeZeroFillDone => Sys2Proof.Machine.execShadeZeroFillDone s
  | .mirrorPut sender txid sector subs fgroup data record => Sys2Proof.Machine.execMirrorPut sender txid sector subs fgroup data record s
  | .mirrorRelease sender sector subs fgroup => Sys2Proof.Machine.execMirrorRelease sender sector subs fgroup s
  | .parityDelta sender txid d delta poison => Sys2Proof.Machine.execParityDelta sender txid d delta poison s
  | .parityRelease sender txid d => Sys2Proof.Machine.execParityRelease sender txid d s
  | .reconRead sender txid d => Sys2Proof.Machine.execReconRead sender txid d s
  | .readData a => Sys2Proof.Machine.execReadData a s
  | .comp sender txid codes => Sys2Proof.Machine.execComp sender txid codes s
  | .homeMoved lost newHome notice boundary => Sys2Proof.Machine.execHomeMoved lost newHome notice boundary s
  | .adoptionWalkEnd => Sys2Proof.Machine.execAdoptionWalkEnd s
  | .rebuildChunkDone chunk copy0 copy1 => Sys2Proof.Machine.execRebuildChunkDone chunk copy0 copy1 s
  | .rflDoneOk entry => Sys2Proof.Machine.execRflDoneOk entry s
  | .rflDonePoison entry => Sys2Proof.Machine.execRflDonePoison entry s
  | .rflDoneDeny entry => Sys2Proof.Machine.execRflDoneDeny entry s
  | .rflEntryTimeout entry => Sys2Proof.Machine.execRflEntryTimeout entry s
  | .stagingWrite w offset mask value => Sys2Proof.Machine.execStagingWrite w offset mask value s
  | .imgSeal value => Sys2Proof.Machine.execImgSeal value s
  | .load w => Sys2Proof.Machine.execLoad w s
  | .quiesce w => Sys2Proof.Machine.execQuiesce w s
  | .applyPatch w => Sys2Proof.Machine.execApplyPatch w s
  | .liftFence w agent => Sys2Proof.Machine.execLiftFence w agent s
  | .debugToken w => Sys2Proof.Machine.execDebugToken w s
  | .debugLock w => Sys2Proof.Machine.execDebugLock w s
  | .revokeKey w slot => Sys2Proof.Machine.execRevokeKey w slot s
  | .raiseVersion w => Sys2Proof.Machine.execRaiseVersion w s
  | .dim w => Sys2Proof.Machine.execDim w s
  | .lit w => Sys2Proof.Machine.execLit w s
  | .dusk w => Sys2Proof.Machine.execDusk w s
  | .duskDrained => Sys2Proof.Machine.execDuskDrained s
  | .night w => Sys2Proof.Machine.execNight w s
  | .resetWarm w targets => Sys2Proof.Machine.execResetWarm w targets s
  | .resetCold w targets => Sys2Proof.Machine.execResetCold w targets s
  | .resetBlock w targets block => Sys2Proof.Machine.execResetBlock w targets block s
  | .expose w frame => Sys2Proof.Machine.execExpose w frame s
  | .ctlExpose frame => Sys2Proof.Machine.execCtlExpose frame s
  | .clearCounters w groups => Sys2Proof.Machine.execClearCounters w groups s
  | .clearLog w => Sys2Proof.Machine.execClearLog w s
  | .reservedCommand w code => Sys2Proof.Machine.execReservedCommand w code s
  | .commandEnd => Sys2Proof.Machine.execCommandEnd s
  | .forward sender code arg => Sys2Proof.Machine.execForward sender code arg s
  | .ready sender => Sys2Proof.Machine.execReady sender s
  | .refused sender code => Sys2Proof.Machine.execRefused sender code s
  | .commit frame => Sys2Proof.Machine.execCommit frame s
  | .abort code => Sys2Proof.Machine.execAbort code s
  | .seal frame => Sys2Proof.Machine.execSeal frame s
  | .ctlResetWarm via w targets => Sys2Proof.Machine.execCtlResetWarm via w targets s
  | .ctlResetCold via w targets => Sys2Proof.Machine.execCtlResetCold via w targets s
  | .ctlResetBlock via w targets block => Sys2Proof.Machine.execCtlResetBlock via w targets block s
  | .ctlResetReserved via w => Sys2Proof.Machine.execCtlResetReserved via w s
  | .rstBlock value => Sys2Proof.Machine.execRstBlock value s
  | .blockIdle => Sys2Proof.Machine.execBlockIdle s
  | .blockIdleTimeout => Sys2Proof.Machine.execBlockIdleTimeout s
  | .rstWdog => Sys2Proof.Machine.execRstWdog s
  | .gnmCoreWdog core => Sys2Proof.Machine.execGnmCoreWdog core s
  | .cpWatchdogExpiry => Sys2Proof.Machine.execCpWatchdogExpiry s
  | .coreWatchdogExpiry core => Sys2Proof.Machine.execCoreWatchdogExpiry core s
  | .eclipseExitTimer => Sys2Proof.Machine.execEclipseExitTimer s
  | .pwrGoodRise b => Sys2Proof.Machine.execPwrGoodRise b s
  | .pwrGoodFall => Sys2Proof.Machine.execPwrGoodFall s
  | .rstNAssert => Sys2Proof.Machine.execRstNAssert s
  | .rstNRelease b => Sys2Proof.Machine.execRstNRelease b s
  | .clockLoss => Sys2Proof.Machine.execClockLoss s
  | .vddCoreDroop => Sys2Proof.Machine.execVddCoreDroop s
  | .vddCoreRecover b => Sys2Proof.Machine.execVddCoreRecover b s
  | .vddCoreBrownout => Sys2Proof.Machine.execVddCoreBrownout s
  | .retentionOverload => Sys2Proof.Machine.execRetentionOverload s
  | .tempSample celsius => Sys2Proof.Machine.execTempSample celsius s
  | .wakeLit sender => Sys2Proof.Machine.execWakeLit sender s
  | .extest pins => Sys2Proof.Machine.execExtest pins s
  | .idcode => Sys2Proof.Machine.execIdcode s
  | .samplePreload pins => Sys2Proof.Machine.execSamplePreload pins s
  | .token bytes => Sys2Proof.Machine.execToken bytes s
  | .nonce => Sys2Proof.Machine.execNonce s
  | .wrapper => Sys2Proof.Machine.execWrapper s
  | .ijtag => Sys2Proof.Machine.execIjtag s
  | .jtagCsr offset store => Sys2Proof.Machine.execJtagCsr offset store s
  | .bypass code => Sys2Proof.Machine.execBypass code s
  | .wsBypass => Sys2Proof.Machine.execWsBypass s
  | .wsExtest => Sys2Proof.Machine.execWsExtest s
  | .wsIntest => Sys2Proof.Machine.execWsIntest s
  | .wsScan => Sys2Proof.Machine.execWsScan s
  | .fuseBlow target => Sys2Proof.Machine.execFuseBlow target s
  | .csrWrite w offset value => Sys2Proof.Machine.execCsrWrite w offset value s
  | .pull sender txid => Sys2Proof.Machine.execPull sender txid s
  | .portTrained port m0 m1 failed0 failed1 => Sys2Proof.Machine.execPortTrained port m0 m1 failed0 failed1 s
  | .refclkReturn => Sys2Proof.Machine.execRefclkReturn s
  | .powerLoss => Sys2Proof.Machine.execPowerLoss s
  | .trstNAssert => Sys2Proof.Machine.execTrstNAssert s
  | .rampStep => Sys2Proof.Machine.execRampStep s

end Sys2Proof.Machine
end

