-- ==== Sys2Proof/Safety.lean ====
section
/-! DEFINITION. What the statements speak of: the slice that a message comes from; a safe state, every byte memory and the
register file in canonical form, so that equal contents are equal data; fuses that stay as they were blown; a slice with
nothing under way; and a writer whose register writes are admitted. -/

namespace Sys2Proof

/-- The slice that a command is a message of, where the message names it. -/
def Instr.sender : Instr → Option Pos
  | .heartbeat q .. | .frameDone q .. | .eclipse _ q | .fenced q _ | .podSync q .. | .podSyncDone q .. | .mirrorPut q ..
  | .mirrorRelease q .. | .parityDelta q .. | .parityRelease q .. | .comp q .. | .pull q _ | .forward q ..
  | .ready q | .refused q _ | .wakeLit q => some q
  | .reconRead q .. => some q.pos
  | .agentSuspect r _ => some r.sender
  | .readData a => some a.sender
  | _ => none

/-- The device offset that such a message names. -/
def Instr.devOffset : Instr → Option Nat
  | .mirrorPut _ _ d .. | .mirrorRelease _ d .. | .parityDelta _ _ d .. | .parityRelease _ _ d | .reconRead _ _ d => some d.toNat
  | _ => none

end Sys2Proof

namespace Sys2Proof.Machine

/-- The stack's contents, the afterglow memory and the staging window are in canonical form. -/
def Dev.memoriesWf (s : Dev) : Bool := memWf s.stack.dram && memWf s.afterglow && memWf s.img.stage

/-- The register file's canonical form: offsets strictly rising from b, and no register listed that holds 0. -/
def registersWfFrom : Nat → SMap Word → Bool
  | _, [] => true
  | b, (k, v) :: t => b ≤ k && v != 0 && registersWfFrom (k + 1) t

/-- The register file is in canonical form. -/
def Dev.registersWf (s : Dev) : Bool := registersWfFrom 0 s.csr

/-- No item of the plan frame has an output to take: no running mode-1 wave before its output step, and no transfer with a line to
write here (R293, R351, R517). -/
def Dev.outputsTaken (s : Dev) : Bool :=
  s.frm.items.all (fun x => match x.1 with
    | .wave e _ => match (s.engine e).running with
      | some r => (waveOf s.plan r.desc).outMode != 1 || r.out
      | none => true
    | .transfer i => match s.lineRun false i with
      | some r =>
        let d := transferOf s.img.force.lattice i
        !bitAt d.dests s.pos || ((List.range d.lines).all r.handled.contains && r.recv.all (fun e => r.handled.contains e.2.1))
      | none => true
    | _ => true)

/-- Nothing under way in the facets or the plan frame waits to go on: no transaction, reconstruction, set-and-way operation, wide-VIEW request,
planned write or fetch, slot claim, output of an item, or death whose poison writes go on. -/
def Dev.quiet (s : Dev) : Bool :=
  s.cache.txns.isEmpty && s.shadow.recons.isEmpty && s.cache.maint.isEmpty && s.prism.typed.isEmpty && s.lens.jobs.isEmpty &&
    s.lens.keeps.isEmpty && s.prism.slots.isEmpty && s.cache.podOps.isEmpty && s.cache.deaths.all (fun d => d.walk < 2) &&
    s.outputsTaken

/-- The write of a writer to a CSR offset is admitted (R87, R93, R94, R103, R261, R619, R660, R782): it is not fenced or
lost, enters where its SRC may, and is a slice, whose
hue counts as 0, or an agent that a port names, and no image has been sealed, or a region covers the offset and grants its
rights to the writer under its hue; a slice needs no right. -/
def Dev.admits (s : Dev) (w : Writer) (off rights : Nat) : Bool :=
  let hue := if 56 ≤ w.src.toNat then 0 else w.hue.toNat
  s.active && !s.discards w.src.toNat && s.viaUp w.via && s.srcOk w.via w.src.toNat &&
    (!s.img.firstSealed || w.via.isDieLink ||
      match s.regionOf 3 off 8 with
      | some n => s.hueOk w.src.toNat hue && (56 ≤ w.src.toNat || (s.region n).grants w.src.toNat hue rights) &&
          !(0x1A0000 ≤ off && off < 0x1C0000 && hue != 0)
      | none => false)

/-- A writer's mailbox command may run: its write is admitted, no command is in progress, and no rule refuses the command
(R700, R701, R794, R795). -/
def Dev.mayCommand (s : Dev) (w : Writer) (code arg : Nat) : Bool :=
  s.admits w R.gnmCmd rightManage && !s.on F.gnmCmdStatus_BUSY && (s.commandRefusal code arg).isNone

/-- The slice once a mailbox command is accepted: the write is answered OK, BUSY stands, and the command is held with its RESULT
where it is known (R9, R794). -/
def Dev.accepted (s : Dev) (w : Writer) (code arg : Nat) (result : Option Nat) : Dev :=
  { (s.send (.resp w.src w.txid 0 [.ok] 0 0 [])).raise F.gnmCmdStatus_BUSY with
    mgmt.cmd := some { code := BitVec.ofNat 8 code, arg := BitVec.ofNat 48 arg, result := result.map (BitVec.ofNat 8) } }

/-- Nothing is at work in the facets, in blocking mode: no request, pending line, parked part, ticket, write-back, mirror put or
record, and no block reset. -/
def Dev.facetsIdle (s : Dev) : Bool :=
  s.quiet && s.cache.reqs.isEmpty && s.cache.plrs.isEmpty && s.cache.parked.isEmpty && s.cache.tickets.isEmpty &&
    s.cache.wbs.isEmpty && s.stack.rmw.isEmpty && s.shadow.puts.isEmpty && s.shadow.records.isEmpty &&
    s.mgmt.blockRun.isNone && !s.nakMode

/-- A plain MEM request of the slice's own node, not urgent and with no ticket, that comes in at an agent port or from the
slice's own engines, that every check of R103 admits under region n, and whose home is this slice. -/
def Dev.reaches (s : Dev) (op : Op) (r : Request) (n : Nat) : Bool :=
  s.active && !s.discards r.src.toNat && s.viaUp r.via && (r.via != .own || r.hue == 0) && !r.urgent && r.ticket.isNone &&
    r.view == 0 && r.space == .mem && s.srcOk r.via r.src.toNat && (match r.via with | .dieLink _ => false | _ => true) &&
    (match s.checkRequest op r with | .ok k => k == n | .error _ => false) &&
    !(s.region n).reflection && s.homeSlice r n (s.region n) == s.pos && !s.moving s.pos

/-- The place of a request's first granule (R98 to R101). -/
def Dev.placeFor (s : Dev) (r : Request) (n : Nat) : Place :=
  let h := homeOf r.localAddr (s.region n) s.setSize
  s.placeAt (facetGroup h.2 (s.region n).salt) h.2 (s.region n).shadowed

/-- No array of the slice holds an upset bit (R118, R133, R208, R359). -/
def Dev.unscathed (s : Dev) : Bool :=
  s.cache.tagUpset.isEmpty && s.cache.dirUpset.isEmpty && s.cache.dataBad.isEmpty && s.lens.accBad.isEmpty

/-- No flow among some items of the plan frame has started here. -/
def Dev.flowsWait (s : Dev) (l : List (Item × Nat)) : Bool :=
  l.all (fun x => match x.1 with
    | .flow i => !((s.lineRun true i).map LineRun.started).getD false
    | _ => true)

/-- The entry that the request table takes of a plain MEM request; write data, where the operation carries any, is still to come. -/
def pulledEntry (id : Nat) (g : Region) (op : Op) (r : Request) (n : Nat) : ReqEntry :=
  { id := id, op := op, r := r, region := n, rgn := g, n := r.len.toNat + 1, codes := List.replicate (r.len.toNat + 1) none
    data := List.replicate (r.len.toNat + 1) 0, got := if op.pulls then List.replicate (r.len.toNat + 1) false else [], grant := 0, sent := []
    ticket := none, naks := [], onDat := false }

/-- The parts of a request stand in the ingress lists of their facets while its write data is awaited (R138, R139, R440). -/
def Dev.awaitingData (s : Dev) (e : ReqEntry) : List Parked :=
  (List.range e.n).map (fun i =>
    { facet := (s.placeOf e i).facet, reqId := e.id, index := i, bound := .data, urgent := false, reentered := false })

/-- Registers are as before, but for the counters of R796 and the offsets named. -/
def Dev.regsKept (s t : Dev) (but : List Nat) : Prop :=
  ∀ off, off ∉ but → ¬ (0x1A0000 ≤ off ∧ off < 0x1C0000) → t.reg off = s.reg off

/-- A fused key slot after some steps: nothing of it changes but that it may be revoked, for good (R684, R816). -/
def KeySlot.stays (a b : KeySlot) : Prop :=
  b.hash = a.hash ∧ b.programmed = a.programmed ∧ b.image = a.image ∧ b.debug = a.debug ∧
    (a.revoked = true → b.revoked = true)

/-- Fuses that no fuse programmer touches: a slot may be revoked, the minimum version may rise, and the mark of the first
seal may be blown; nothing else changes (R684, R701, R816). -/
def Fuse.stays (u v : Fuse) : Prop :=
  v.bin = u.bin ∧ v.lensGood = u.lensGood ∧ v.leakClass = u.leakClass ∧ v.dead0 = u.dead0 ∧ v.dead1 = u.dead1 ∧
    v.dead2 = u.dead2 ∧ v.dead3 = u.dead3 ∧ v.facetCount = u.facetCount ∧ v.stepping = u.stepping ∧ v.dieId = u.dieId ∧
    v.repair = u.repair ∧ u.minVersion.toNat ≤ v.minVersion.toNat ∧ (u.sealedOnce = true → v.sealedOnce = true) ∧
    List.Forall₂ KeySlot.stays u.keys v.keys

end Sys2Proof.Machine
end

