-- ==== Sys2Proof/Certificates/Slice0/Obligations.lean ====
section
/-! DEFINITION. The statements. Each docstring names the rules of the spec that its statement speaks of, and says where a value or a
choice is the model's own, with its log entry. A statement of several clauses joins them by ∧. -/

open Sys2Proof Sys2Proof.Machine


/-! ### The queue and the clock -/

/-- The command at the front of the queue runs, on the state with the queue's rest. -/
def Obligations.StepRunsFrontCommand : Prop :=
  ∀ (c : Instr) (rest : List Instr) (s : State), s.pending = c :: rest → step s = exec c { s with pending := rest }

/-- An empty queue lets one cycle pass (DESIGN CHOICE, log entry 2): the model's clock advances by 1, and the frame counter of R29
by
1 where SCLK runs; where it does not, nothing else changes. -/
def Obligations.IdleStepIsOneCycle : Prop :=
  ∀ s : State, s.pending = [] → ∃ t : State, step s = .next t ∧ t.now = s.now + 1 ∧ t.pending = [] ∧
    (s.clocked = true → t.frm.counter = s.frm.counter + 1) ∧
    (s.clocked = false → t = { s with now := s.now + 1 })

/-- No command touches the queue. -/
def Obligations.CommandsLeaveTheQueue : Prop :=
  ∀ (c : Instr) (s t : State), exec c s = .next t → t.pending = s.pending

/-- Every command answers a next state, whatever the state, but where it names a device offset at or above 91,552 × 2 MiB, which the
stacks lack: there it faults (R95). Completion, for every one of the 160 commands: where each device offset that the command names
is one of the stacks' (R95), exec answers a next state, whatever the state is. -/
def Obligations.OnlyDeviceOffsetsFault : Prop :=
  (∀ (c : Instr) (s : State), (∃ t : State, exec c s = .next t) ∨
      ∃ d : Nat, 191998459904 ≤ d ∧ exec c s = .fault (.deviceOffsetOutside d)) ∧
  (∀ (c : Instr) (s : State), (∀ a, c = .sideAccess a → a.d.toNat < deviceEnd) →
      (∀ e, c = .escapeClaimSlot e ∨ c = .escapeReleaseSlot e → e.d.toNat < deviceEnd) →
      (∀ grp d k sh, c = .prefetchHint grp d k sh → d.toNat < deviceEnd) →
      (∀ q id d subs grp data rec_, c = .mirrorPut q id d subs grp data rec_ → d.toNat < deviceEnd) →
      (∀ q d subs grp, c = .mirrorRelease q d subs grp → d.toNat < deviceEnd) →
      (∀ q id d x bad, c = .parityDelta q id d x bad → d.toNat < deviceEnd) →
      (∀ q id d, c = .parityRelease q id d → d.toNat < deviceEnd) → (∀ q id d, c = .reconRead q id d → d.toNat < deviceEnd) →
      ∃ t : State, exec c s = .next t)

/-! ### Invariants of every step -/

/-- Right after reset the memories and the register file are in canonical form, nothing is under way and no command waits. -/
def Obligations.ResetIsCanonical : Prop :=
  State.reset.memoriesWf = true ∧ State.reset.registersWf = true ∧ State.reset.facetsIdle = true ∧ State.reset.pending = []

/-- Every step keeps the canonical form of the byte memories, and, where they have it, that of the register file. -/
def Obligations.StepsKeepTheCanonicalForm : Prop :=
  ∀ s t : State, step s = .next t →
    (s.memoriesWf = true → t.memoriesWf = true) ∧ (s.registersWf = true → t.registersWf = true)

/-- Every step but one that runs FUSE_BLOW leaves the fuses as they are, but that a key slot may be revoked, the minimum version may
rise and the mark of the first seal may be blown; and no step at all takes back a message sent or sets the model's clock back
(R684, R701, R816). -/
def Obligations.StepsTakeNothingBack : Prop :=
  ∀ s t : State, step s = .next t →
    ((∀ target rest, s.pending ≠ .fuseBlow target :: rest) → s.fuse.stays t.fuse) ∧ (∃ l, t.outbox = s.outbox ++ l) ∧
    t.now = s.now + (if s.pending = [] then 1 else 0)

/-! ### Registers, counters and records -/

/-- CSR_WRITE (R7 to R9, R87, R93, R109): an admitted write of an aligned offset is answered OK and takes effect; of a register
without WO bits the effect is that of the access codes bit by bit (an offset assigned to none changes nothing), and no other
register changes. A writer whose SRC may not enter there (R88), one that no region over the offset serves, and a misaligned
offset, are answered DENY, with an access record. Completion, exec answering a next state under conditions on state and operands
alone, is concluded here for: csrWrite. -/
def Obligations.RegistersAreWritten : Prop :=
  ∀ (w : Writer) (off : BitVec 24) (v : BitVec 64) (s : State),
    (s.admits w off.toNat (csrRights off.toNat) = true → off.toNat % 8 = 0 → off.toNat < 0x200000 →
      exec (.csrWrite w off v) s = .next { s with toDev :=
        ({ s with outbox := s.outbox ++ [Msg.resp w.src w.txid 0 [.ok] 0 0 []] } : State).csrEffect off.toNat v.toNat } ∧
      ((off.toNat < 0x18000 ∨ 0x20000 ≤ off.toNat) → (off.toNat < 0x170000 ∨ 0x180000 ≤ off.toNat) → off.toNat ≠ R.gnmAlert →
      (∀ f < 64, R.fctConfig f ≤ off.toNat → off.toNat < R.fctConfig f + 0x400 → s.fuse.dead f = false) →
      (∀ e < 4, s.lensCount ≤ e → ¬ (R.lnsStatus e ≤ off.toNat ∧ off.toNat < R.lnsStatus e + 0x100)) →
      (regRow off.toNat = none → exec (.csrWrite w off v) s = .next { s with
        outbox := s.outbox ++ [Msg.resp w.src w.txid 0 [.ok] 0 0 []] }) ∧
      ∀ r, regRow off.toNat = some r → r.wo = 0 → ∃ t : State, exec (.csrWrite w off v) s = .next t ∧
        (∀ b < 64, (t.reg off.toNat).testBit b =
          (if r.rw.testBit b = true ∨ (r.rws.testBit b = true ∧ s.img.firstSealed = false) then v.toNat.testBit b
           else if r.w1c.testBit b = true then (s.reg off.toNat).testBit b && !v.toNat.testBit b
           else (s.reg off.toNat).testBit b)) ∧
        s.regsKept t.toDev [off.toNat] ∧ t = { s with csr := t.csr, outbox := s.outbox ++ [Msg.resp w.src w.txid 0 [.ok] 0 0 []] })) ∧
    (s.active = true → s.discards w.src.toNat = false → s.viaUp w.via = true →
      (off.toNat % 8 ≠ 0 ∨ 0x200000 ≤ off.toNat ∨ s.srcOk w.via w.src.toNat = false ∨
        (s.img.firstSealed = true ∧ w.via.isDieLink = false ∧ s.regionOf 3 off.toNat 8 = none)) →
      s.frm.deniedRec = none →
      ∃ t : State, exec (.csrWrite w off v) s = .next t ∧ t.outbox = s.outbox ++ [Msg.resp w.src w.txid 0 [.deny] 0 0 []] ∧
        t.frm.deniedRec = some (32 * s.get F.rstAg3_HEAD) ∧
        t.afterglow = memWrite s.afterglow (32 * s.get F.rstAg3_HEAD) 32 (errorRecordValue 0x05 0 s.frameNo
          (s.reg R.setNode % 2 ^ 16 * 2 ^ 48 + s.pos * 2 ^ 29 + off.toNat)
          (w.src.toNat + (if 56 ≤ w.src.toNat then 0 else w.hue.toNat) * 256 + 6619136) 1) ∧
        s.regsKept t.toDev [R.rstAg3] ∧
        t = { s with csr := t.csr, outbox := t.outbox, afterglow := t.afterglow, frm.deniedRec := t.frm.deniedRec })

/-- A disabled facet's registers read 0 and ignore writes, the commands of FCT_MAINT_SW among them (R157). -/
def Obligations.DisabledFacetsIgnoreWrites : Prop :=
  ∀ (f : BitVec 6) (o : Nat) (w : Writer) (v : BitVec 64) (set : BitVec 11) (way : BitVec 4) (s : State),
    s.fuse.dead f.toNat = true → o < 0x400 →
    s.csrRead (R.fctConfig f.toNat + o) = 0 ∧ s.csrEffect (R.fctConfig f.toNat + o) v.toNat = s.toDev ∧
    (s.active = true → exec (.swClean f set way) s = .next s ∧ exec (.swInvalidate f set way) s = .next s ∧
      exec (.swCleanInvalidate f set way) s = .next s) ∧
    (o % 8 = 0 → s.admits w (R.fctConfig f.toNat + o) rightWrite = true →
      exec (.csrWrite w (BitVec.ofNat 24 (R.fctConfig f.toNat + o)) v) s = .next { s with
        outbox := s.outbox ++ [Msg.resp w.src w.txid 0 [.ok] 0 0 []] })

/-- A counter that n occurrences reach stops at 2^48 - 1, which sets its bit of the group's CNT_OVF (R773). An error record has
R785's
layout, is written at 32 × HEAD of afterglow memory, and HEAD and COUNT of RST_AG3 go on, so that the newest record overwrites the
oldest; no other byte of afterglow changes (R784, R785). -/
def Obligations.CountersAndRecordsAreKept : Prop :=
  (∀ (s : State) (g k n : Nat), g < 12 → k < 8 →
      (s.countAdd g k n).get (F.cntVal_VALUE g k) = min (s.get (F.cntVal_VALUE g k) + n) (2 ^ 48 - 1) ∧
      (bitAt ((s.countAdd g k n).reg (R.cntOvf g)) k = true ↔
        bitAt (s.reg (R.cntOvf g)) k = true ∨ 2 ^ 48 - 1 ≤ s.get (F.cntVal_VALUE g k) + n) ∧
      (∀ off, off ≠ (F.cntVal_VALUE g k).off → off ≠ R.cntOvf g → (s.countAdd g k n).reg off = s.reg off)) ∧
  (∀ (s : State) (type unit addr info count : Nat), s.memoriesWf = true → type < 128 → unit < 256 → addr < 2 ^ 64 → info < 2 ^ 64 →
      count < 2 ^ 32 →
      let t := s.errorRecord type unit addr info count
      let at_ := 32 * s.get F.rstAg3_HEAD
      memRead t.afterglow at_ 8 = 2 ^ 63 + type * 2 ^ 56 + unit * 2 ^ 48 + s.frameNo ∧
      memRead t.afterglow (at_ + 8) 8 = addr ∧ memRead t.afterglow (at_ + 16) 8 = info ∧
      memRead t.afterglow (at_ + 24) 8 = count * 2 ^ 32 ∧
      (∀ a, a < at_ ∨ at_ + 32 ≤ a → memGet t.afterglow a = memGet s.afterglow a) ∧
      t.get F.rstAg3_HEAD = (s.get F.rstAg3_HEAD + 1) % 256 ∧ t.get F.rstAg3_COUNT = min 256 (s.get F.rstAg3_COUNT + 1))

/-- The IDCODE instruction shifts out STEP in [31:28], the part number in [27:12], the manufacturer in [11:1] and 1 in [0] (R813).
Completion, exec answering a next state under conditions on state and operands alone, is concluded here for: idcode. -/
def Obligations.IdcodeReads : Prop :=
  ∀ s : State, ∃ v : Nat, exec .idcode s = .next { s with
      tap.ir := 0x01, tap.dr := BitVec.ofNat 64 v, tap.viaTap := false, outbox := s.outbox ++ [.tdo v] } ∧
    bitsOf v 31 28 = s.fuse.stepping.toNat % 16 ∧ bitsOf v 27 12 = 0x0537 ∧ bitsOf v 11 1 = 0x25C ∧ bitsOf v 0 0 = 1 ∧ v < 2 ^ 32 ∧
    (s.fuse.stepping = 0 → v = 0x005374B9)

/-! ### Frames, slots and the barrier -/

/-- PLAN_RESUME, DEGRADED_SWITCH and the last FRAME_DONE: the leader sends FRAME_GO to every live slice, naming the first boundary
that lies GO_LEAD away, and forgets the FRAME_DONEs it held. From there on it counts only those whose tick frame number is not
below that boundary (R35, R52, R63). FRAME_DONE at the leader while some live slice has not sent its own: the leader holds it and
its sender's position, and sends nothing (R52, R61); one of an earlier plan frame than the last that FRAME_GO started changes
nothing (R63). Completion, exec answering a next state under conditions on state and operands alone, is concluded here for:
planResume, frameDone, degradedSwitch. -/
def Obligations.LeaderSendsFrameGo : Prop :=
  (∀ s : State, s.active = true → s.isLeader = true →
      (s.frm.haltTick = true → s.frm.haltPending = false → s.frm.haltRoute = false → s.frm.haltOrdered = false →
        16 ≤ s.frm.usableRun → (∀ p ∈ s.livePositions, p ≠ s.pos → 16 ≤ tgetD s.frm.reports p 0 % 65536) →
        (∀ p ∈ s.livePositions, p ∈ s.frm.doneFrom) →
        exec .planResume s = .next { s with
          frm.doneFrom := [], frm.goFor := s.namedBoundary
          outbox := s.outbox ++ s.livePositions.map (fun p => Msg.ctl p (.frameGo (BitVec.ofNat 48 s.namedBoundary) false)) }) ∧
      (s.get F.frmStatus_CONSEC_SLIPS = 8 → s.halting = false →
        exec .degradedSwitch s = .next { s with
          frm.doneFrom := [], frm.goFor := s.namedBoundary
          outbox := s.outbox ++ s.livePositions.map (fun p => Msg.ctl p (.frameGo (BitVec.ofNat 48 s.namedBoundary) true)) }) ∧
      (∀ (q : Pos) (frame : Frame) (usable : Bool), s.deaf q.toNat = false → s.frm.goFor ≤ frame.toNat →
        (∀ p ∈ s.livePositions, p = q.toNat ∨ p ∈ s.frm.doneFrom) →
        s.halting = false → s.get F.frmConfig_PERIOD ≠ 0 →
        exec (.frameDone q frame usable) s = .next { s with
          frm.doneFrom := [], frm.goFor := s.namedBoundary, frm.lastDone := q
          outbox := s.outbox ++ s.livePositions.map (fun p => Msg.ctl p (.frameGo (BitVec.ofNat 48 s.namedBoundary) false)) })) ∧
  (∀ (q : Pos) (frame : Frame) (usable : Bool) (s : State), s.active = true → s.isLeader = true → s.deaf q.toNat = false →
      (frame.toNat < s.frm.goFor → exec (.frameDone q frame usable) s = .next s) ∧
      (s.frm.goFor ≤ frame.toNat → (∃ p ∈ s.livePositions, p ≠ q.toNat ∧ p ∉ s.frm.doneFrom) →
      exec (.frameDone q frame usable) s = .next { s with
        frm.doneFrom := q.toNat :: s.frm.doneFrom.filter (fun p => p != q.toNat), frm.lastDone := q }))

/-- FRAME_GO names the boundary at which the next plan frame starts. The first one after an image load or a wake sets
FRM_TICK_COUNT,
unless it names the boundary after next of the count as it stands; until planned work starts the count follows the leader still
(R54 to R56). HEARTBEAT of a live slice that reports no lost link: it counts as heard, its tick report is kept, and, until planned
work starts, the leader's sets FRM_TICK_COUNT (R56, R616). HOLDOVER_HALT: 64 consecutive frames without a usable tick, here or as
some live slice reports, order a halt at the next boundary (R33). RAMP_STEP: while FRAME_GO stands and no plan frame runs, the
power ramp takes its next step of four (R738). A tick outside the window while planned work runs is ignored: FRM_EVENTS.TICK_PHASE
is set and nothing else changes but the note that a tick was seen (R31). Completion, exec answering a next state under conditions
on state and operands alone, is concluded here for: frameGo, heartbeat, holdoverHalt, rampStep. -/
def Obligations.FrameMessagesAndEventsAreTaken : Prop :=
  (∀ (frame : Frame) (s : State), s.active = true → s.quiet = true →
      exec (.frameGo frame false) s = .next { s with toDev :=
        { (if s.frm.follow = true ∧ s.frm.go = none ∧ frame.toNat ≠ s.frameNo + 2 then s.put F.frmTickCount_COUNT (frame.toNat - 1) else s.toDev) with
          frm.go := some (frame, false), frm.commitGo := s.frm.commitAt.isSome, mgmt.rampSteps := 0 } }) ∧
  (∀ (q : Pos) (frame : Frame) (usable : Bool) (ackLink : BitVec 4) (ackSeq : BitVec 12) (s : State),
      s.active = true → s.deaf q.toNat = false → q.toNat ≠ s.pos →
      exec (.heartbeat q frame usable 0 ackLink ackSeq) s = .next { s with toDev :=
        { (if s.frm.follow = true ∧ q.toNat = s.leader then s.put F.frmTickCount_COUNT frame.toNat else s.toDev) with
          frm.beats := q.toNat :: s.frm.beats, shadow.lastBeat := tset s.shadow.lastBeat q.toNat s.now
          frm.reports := tset s.frm.reports q.toNat (tickReport (tgetD s.frm.reports q.toNat 0) usable) } }) ∧
  (∀ s : State, s.active = true → s.frm.started = true → s.frm.haltTick = false →
      (64 ≤ s.get F.frmStatus_HOLDOVER_RUN ∨ ∃ p ∈ s.livePositions, 64 ≤ tgetD s.frm.reports p 0 / 65536) →
      exec .holdoverHalt s = .next { s with frm.haltTick := true, frm.haltPending := true, frm.haltAlarm := true }) ∧
  (∀ s : State, s.frm.go.isSome = true → s.frm.frameRunning = false → s.mgmt.rampSteps < 4 →
      exec .rampStep s = .next { s with toDev := { s.put F.pwrState_RAMPING (if s.mgmt.rampSteps = 3 then 0 else 1) with
        mgmt.rampSteps := s.mgmt.rampSteps + 1 } }) ∧
  (∀ s : State, s.active = true → 8 < s.tickOffset → s.frm.started = true → s.halted = false →
      exec .frameTick s = .next { s with toDev := { s.put F.frmEvents_TICK_PHASE 1 with frm.tickSeen := true } })

/-- FRAME_TICK and HOLDOVER_BOUNDARY, with no planned work, make a boundary: FRM_TICK_COUNT advances by one, the frame counter and
the
slots start again, and HOLDOVER says whether the frame lacked a usable tick (R28, R30, R32, R57, R71). SLOT_START before the first
seal: the slot's refresh commands go out, three on each pseudo-channel, and the next slot is due (R550, R551, R783). Completion,
exec answering a next state under conditions on state and operands alone, is concluded here for: frameTick, holdoverBoundary,
slotStart. -/
def Obligations.BoundaryAdvancesTheCount : Prop :=
  (∀ s : State, s.active = true → s.quiet = true → s.registersWf = true → s.frm.started = false → s.frm.go = none → s.frm.haltPending = false →
      s.frm.sealAt = none → s.frm.commitAt = none → s.frm.exposeAt = none → s.frm.movedAt = none →
      (s.tickOffset ≤ 8 → ∃ t : State, exec .frameTick s = .next t ∧ t.frameNo = (s.frameNo + 1) % 2 ^ 48 ∧
        t.frm.counter = 0 ∧ t.frm.slot = 0 ∧ t.get F.frmStatus_HOLDOVER = 0 ∧ t.frm.usableRun = s.frm.usableRun + 1) ∧
      ∃ t : State, exec .holdoverBoundary s = .next t ∧ t.frameNo = (s.frameNo + 1) % 2 ^ 48 ∧
        t.frm.counter = 0 ∧ t.frm.slot = 0 ∧ t.get F.frmStatus_HOLDOVER = 1 ∧ t.frm.usableRun = 0) ∧
  (∀ s : State, s.active = true → s.phase ≠ .waking → s.quiet = true → s.img.firstSealed = false → s.frm.started = false →
      s.frm.frameRunning = false → s.stack.planRefresh = false →
      ∃ t : State, exec .slotStart s = .next t ∧ t.frm.slot = s.frm.slot % 64 + 1 ∧
        ∃ l : List Msg, t.outbox = s.outbox ++ l ∧
          ∀ pc < 128, (l.filter (fun m => match m with | .refresh q _ _ => q == pc | _ => false)).length = 3)

/-! ### Resets, pins and supplies -/

/-- Held in reset (R743, R744, R805): PWR_GOOD falls, or RST_N is asserted outside Night. Every register takes its Reset value but
the
strap, the afterglow registers and SEC_NONCE; afterglow, fuses and what the stacks hold stay; every cache, directory, image and
piece of work in flight is cleared. Completion, exec answering a next state under conditions on state and operands alone, is
concluded here for: pwrGoodFall, rstNAssert. -/
def Obligations.PinsHoldTheSlice : Prop :=
  ∀ (s : State) (c : Instr), s.registersWf = true →
    (c = .pwrGoodFall ∧ s.pins.pwrGood = true ∨ c = .rstNAssert ∧ s.pins.rstN = true ∧ s.phase ≠ .held ∧ s.phase ≠ .night) →
    ∃ t : State, exec c s = .next t ∧
      (∀ off, t.reg off = if off = R.secNonce then (Config.freeValue s.freeCount).toNat
        else if off = R.rstStrap ∨ isAfterglowReg off = true then s.reg off else (tgetD resetCsr off 0).toNat) ∧
      t.phase = .held ∧ t.freeCount = s.freeCount + 1 ∧
      t.pins = { s.pins with droop := false, pwrGood := s.pins.pwrGood && c != .pwrGoodFall, rstN := s.pins.rstN && c != .rstNAssert } ∧
      t.regions = [] ∧ t.frm = Frm.reset ∧ t.img = { Img.reset with stage := s.img.stage } ∧ t.cache = Cache.reset ∧
      t.stack = { Stack.reset with dram := s.stack.dram, poison := s.stack.poison } ∧ t.shadow = Shadow.reset ∧ t.rfl_ = Rfl.reset ∧
      t.prism = Prism.reset ∧ t.lens = Lens.reset ∧ t.links = { Links.reset with taken := s.outbox.length } ∧
      t.mgmt = { Mgmt.reset with
        coldBoot := true, bootSource := if c = .rstNAssert then 1 else 0, profile1 := s.mgmt.profile1
        eventSeq := s.mgmt.eventSeq, boot := s.mgmt.boot, recHead := s.mgmt.recHead } ∧
      t.fuse = s.fuse ∧ t.afterglow = s.afterglow ∧ t.tap = s.tap ∧ t.now = s.now ∧ t.outbox = s.outbox

/-- RST_N released, or PWR_GOOD risen with RST_N high, on a slice held in reset: the out-of-reset order runs through step 8 where
REFCLK is present, and waits at step 6 on IOSC where it is not (R720, R743, R753). RST_AG0 names the source. Completion, exec
answering a next state under conditions on state and operands alone, is concluded here for: pwrGoodRise, rstNRelease. -/
def Obligations.ResetIsLeft : Prop :=
  ∀ (b : BootInputs) (s : State) (c : Instr), s.registersWf = true → s.phase = .held → s.pins.droop = false →
    (c = .rstNRelease b ∧ s.pins.rstN = false ∧ s.pins.pwrGood = true ∨ c = .pwrGoodRise b ∧ s.pins.pwrGood = false ∧ s.pins.rstN = true) →
    ∃ t : State, exec c s = .next t ∧ t.phase = .boot (if b.refclk then 8 else 6) ∧ t.pins.rstN = true ∧ t.pins.pwrGood = true ∧
      t.pins.refclk = b.refclk ∧ t.mgmt.boot = some b ∧ t.get F.rstAg0_KIND = 0 ∧
      t.get F.rstAg0_SOURCE = (if c = .pwrGoodRise b then 0 else s.mgmt.bootSource.toNat) ∧
      t.fuse = s.fuse ∧ t.afterglow = s.afterglow ∧ t.stack.dram = s.stack.dram ∧ t.outbox = s.outbox ∧ t.now = s.now ∧
      t.regions = [] ∧ t.cache = Cache.reset ∧ t.img.firstSealed = false

/-- ECLIPSE_EXIT_TIMER in Eclipse: the slice takes the warm or the cold reset that RST_CFG.ECLIPSE_EXIT named as it entered, with
source 5, or stays (R743, R763). REFCLK returns: a slice that waited at step 6 goes on through step 8, one that wakes has its PLL
lock, and no other slice takes note (R720). Completion, exec answering a next state under conditions on state and operands alone,
is concluded here for: eclipseExitTimer, refclkReturn. -/
def Obligations.EclipseIsLeft : Prop :=
  (∀ (b : BootInputs) (s : State), s.registersWf = true → s.phase = .eclipse → s.mgmt.boot = some b →
      (s.mgmt.exitKind = 1 ∨ s.mgmt.exitKind = 2 → ∃ t : State, exec .eclipseExitTimer s = .next t ∧
        t.phase = .boot (if s.pins.refclk then 8 else 6) ∧ t.get F.rstAg0_SOURCE = 5 ∧
        t.get F.rstAg0_KIND = (if s.mgmt.exitKind = 1 then 1 else 0) ∧ t.fuse = s.fuse ∧ t.afterglow = s.afterglow ∧ t.pins = s.pins ∧
        t.stack.dram = s.stack.dram ∧ t.mgmt.eclipseAt = none ∧ t.outbox = s.outbox) ∧
      (s.mgmt.exitKind = 0 ∨ s.mgmt.exitKind = 3 → exec .eclipseExitTimer s = .next s)) ∧
  (∀ (b : BootInputs) (s : State), s.mgmt.boot = some b →
      (s.phase = .boot 6 → ∃ t : State, exec .refclkReturn s = .next t ∧ t.phase = .boot 8 ∧ t.pins = { s.pins with refclk := true } ∧
        t.stack = s.stack ∧ t.mgmt = s.mgmt ∧ t.fuse = s.fuse ∧ t.cache = s.cache) ∧
      (s.phase = .waking → exec .refclkReturn s = .next { s with toDev := { s.put F.pwrState_SCLK_PLL 1 with pins.refclk := true } }) ∧
      (s.phase ≠ .boot 6 → s.phase ≠ .waking → exec .refclkReturn s = .next { s with pins.refclk := true }))

/-- POWER_LOSS: outside VDD_IO's range all state but the fuses is lost, afterglow too (R750, R804). RETENTION_OVERLOAD in Dusk: the
retained ways' contents are lost, RST_AG2 and ALERT_N say so (R728, R769). A brown-out of VDD_CORE anywhere else holds the slice
in reset; the power-on reset that leaves it has source 0 (R741). Completion, exec answering a next state under conditions on state
and operands alone, is concluded here for: powerLoss, retentionOverload, vddCoreBrownout. -/
def Obligations.SuppliesAreLost : Prop :=
  (∀ s : State, exec .powerLoss s = .next { s with toDev := { Dev.reset with
      fuse := s.fuse, now := s.now, freeCount := s.freeCount, nextId := s.nextId, outbox := s.outbox
      links := { Links.reset with taken := s.outbox.length }
      pins := { pwrGood := false, rstN := s.pins.rstN, refclk := false, vddIo := false, droop := false } } }) ∧
  (∀ s : State, s.phase = .dusk → exec .retentionOverload s = .next { s with toDev :=
      { (s.raise F.rstAg2_RET_BROWNOUT).alert alertPwrRst with
        cache.lines := [], cache.tagUpset := [], cache.dataBad := [], cache.storeRest := false, cache.storeRet := false } }) ∧
  (∀ s : State, s.pins.pwrGood = true → s.phase ≠ .lit → s.phase ≠ .dim →
      ∃ t : State, exec .vddCoreBrownout s = .next t ∧ t.phase = .held ∧ t.pins = { s.pins with droop := true } ∧ t.mgmt.bootSource = 0 ∧
        t.get F.rstAg2_CORE_BROWNOUT = 1 ∧ t.afterglow = s.afterglow ∧ t.fuse = s.fuse)

/-- Entry to Eclipse: an ECLIPSE of cause 1 from another slice, the control-plane watchdog's expiry, loss of clock with SCLK on the
PLL, or a brown-out of VDD_CORE in Lit or Dim. RST_AG1 says which, the slice leaves by RST_CFG.ECLIPSE_EXIT as it stood, all work
in flight and planned ends, every other position of the set is told the cause, and ALERT_N and ECLIPSE_N are driven low (R634,
R720, R741, R742, R750, R752). Completion, exec answering a next state under conditions on state and operands alone, is concluded
here for: eclipse, cpWatchdogExpiry, clockLoss, vddCoreBrownout. -/
def Obligations.EclipseIsEntered : Prop :=
  ∀ (s : State) (c : Instr) (cause origin : Nat), s.registersWf = true → s.phase = .lit ∨ s.phase = .dim →
    (c = .eclipse 1 (BitVec.ofNat 3 origin) ∧ cause = 1 ∧ origin < 8 ∧ s.deaf origin = false ∨ c = .cpWatchdogExpiry ∧ cause = 5 ∧ origin = s.pos ∨
      c = .clockLoss ∧ s.get F.pwrState_SCLK_PLL = 1 ∧ cause = 4 ∧ origin = s.pos ∨
      c = .vddCoreBrownout ∧ s.pins.pwrGood = true ∧ cause = 3 ∧ origin = s.pos) →
    ∃ t : State, exec c s = .next t ∧ t.phase = .eclipse ∧ t.mgmt.eclipseAt = some s.now ∧
      t.reg R.rstAg1 = 2 ^ 63 + origin % 8 * 2 ^ 56 + cause * 2 ^ 48 + s.frameNo ∧
      t.mgmt.exitKind = BitVec.ofNat 2 (s.get F.rstCfg_ECLIPSE_EXIT) ∧
      t.cache.reqs = [] ∧ t.cache.txns = [] ∧ t.cache.wbs = [] ∧ t.stack.reads = [] ∧ t.stack.writes = [] ∧
      t.frm.frameRunning = false ∧ t.frm.items = [] ∧ t.frm.go = none ∧ t.lens.engines = [] ∧
      (∀ p < s.setSize, p ≠ s.pos → Msg.ctl p (.eclipse (BitVec.ofNat 8 cause)) ∈ t.outbox) ∧
      t.stack.dram = s.stack.dram ∧ t.regions = s.regions ∧ t.fuse = s.fuse ∧ t.alertLow = true ∧ t.eclipseLow = true

/-- A slice that has missed two HEARTBEATs, that reports an Eclipse of its own, or that HOME_MOVED names, is held lost, with
SHD_ERR.SLICE_LOST (R617, R619, R637, R638). From a slice that is held lost nothing is heard: a message that it sends changes no
state (R619). Completion, exec answering a next state under conditions on state and operands alone, is concluded here for:
heartbeatMissed, eclipse, homeMoved. -/
def Obligations.SliceIsHeldLost : Prop :=
  (∀ (s : State) (x : Pos) (c : Instr), s.registersWf = true → s.active = true → x.toNat ≠ s.pos → x.toNat < s.setSize →
      s.isLost x.toNat = false → s.quiet = true → (x.toNat = s.buddy → s.shadow.puts = [] ∧ s.cache.lines = []) →
      s.shadow.deltaOut = [] → s.shadow.parity = [] → s.shadow.ports = [] → s.cache.portsLost = [] →
      (c = .heartbeatMissed x ∧ 2 ≤ tgetD s.frm.missed x.toNat 0 ∨ (∃ cause : BitVec 8, cause ≠ 1 ∧ c = .eclipse cause x) ∨
        ∃ (home : Pos) (f : Frame), c = .homeMoved x home false f) →
      ∃ t : State, exec c s = .next t ∧ t.isLost x.toNat = true ∧ t.get F.shdStatus_STATE = 1 ∧ t.get F.shdErr_SLICE_LOST = 1 ∧
        t.cache = s.cache ∧ t.stack = s.stack ∧ t.img = s.img ∧ t.regions = s.regions ∧ t.lens = s.lens ∧ t.fuse = s.fuse) ∧
  (∀ (c : Instr) (q : Pos) (s : State), c.sender = some q → s.deaf q.toNat = true → (∀ d, c.devOffset = some d → d < deviceEnd) →
      exec c s = .next s)

/-- VDD_CORE_DROOP starts the CURRENT throttle, and VDD_CORE_RECOVER ends it, its time added (R739, R759). TEMP_SAMPLE writes
PWR_TEMP; at THROTTLE_C or above the THERMAL throttle is in force, at CRIT_C or above CRIT too, and below both neither starts
(R739, R757, R760). Completion, exec answering a next state under conditions on state and operands alone, is concluded here for:
vddCoreDroop, vddCoreRecover, tempSample. -/
def Obligations.ThrottlesRun : Prop :=
  (∀ (b : BootInputs) (s : State), s.active = true →
      (s.get F.pwrThrottle_CURRENT = 0 → tget s.mgmt.throttleRuns 1 = none →
        exec .vddCoreDroop s = .next { s with toDev := { (s.raise F.pwrThrottle_CURRENT).raise F.pwrThrottle_CURRENT_SEEN with
          pins.droop := true
          mgmt.throttleRuns := tset s.mgmt.throttleRuns 1 (s.now, 0, BitVec.ofNat 48 s.frameNo) } }) ∧
      ∀ (start past : Nat) (frame : Frame), s.pins.droop = true → s.get F.pwrThrottle_CURRENT = 1 →
        tget s.mgmt.throttleRuns 1 = some (start, past, frame) →
        exec (.vddCoreRecover b) s = .next { s with toDev :=
          { (s.put F.pwrThrottle_CURRENT 0).bump F.pwrThrTime_CURRENT_US ((s.now - start) / 1600) with
            pins.droop := false
            mgmt.throttleRuns := tset s.mgmt.throttleRuns 1 (s.frameNo, past + (s.now - start), frame) } }) ∧
  (∀ (celsius : BitVec 8) (s : State), s.active = true → s.registersWf = true → s.get F.pwrThrottle_THERMAL = 0 → s.get F.pwrThrottle_CRIT = 0 →
      ∃ t : State, exec (.tempSample celsius) s = .next t ∧ t.get F.pwrTemp_DIE_C = celsius.toNat ∧
        t.get F.pwrTemp_PEAK_C = max (s.get F.pwrTemp_PEAK_C) celsius.toNat ∧
        (t.get F.pwrThrottle_CRIT = 1 ↔ s.get F.pwrClass_CRIT_C ≤ celsius.toNat) ∧
        (t.get F.pwrThrottle_THERMAL = 1 ↔ s.get F.pwrClass_THROTTLE_C ≤ celsius.toNat ∨ s.get F.pwrClass_CRIT_C ≤ celsius.toNat) ∧
        t = { s with csr := t.csr, mgmt.throttleRuns := t.mgmt.throttleRuns })

/-- GLINT, or a training request, on a sideband: a slice in Dusk begins to wake, its accumulators poisoned; one in Night only notes
it, with ALERT_N (R729 to R731, R734, R386). WAKE_LIT of the slice's own wake, its PLL locked: Lit, with the stacks out of
self-refresh; another slice tells the leader (R730). Completion, exec answering a next state under conditions on state and
operands alone, is concluded here for: glint, wakeLit. -/
def Obligations.SliceWakes : Prop :=
  (∀ (port : Fin 6) (training : Bool) (s : State),
      (s.phase = .night → exec (.glint port training) s =
        .next { s with toDev := (s.put F.pwrState_WAKE_CAUSE (if training then 1 else 2)).alert alertPwrRst }) ∧
      (s.phase = .dusk → s.registersWf = true → ∃ t : State, exec (.glint port training) s = .next t ∧ t.phase = .waking ∧ t.mgmt.wakeAt = s.now ∧
        t.get F.pwrState_WAKE_CAUSE = (if training then 1 else 2) ∧ t.lens.marks = [] ∧ t.lens.markAll = true ∧ t.frm.follow = true ∧
        (s.get F.rstAg2_RET_BROWNOUT = 0 → t.cache = s.cache) ∧ t.stack = s.stack ∧ t.fuse = s.fuse ∧ t.regions = s.regions)) ∧
  (∀ (sender : Pos) (s : State), s.phase = .waking → s.get F.pwrState_SCLK_PLL = 1 → sender.toNat = s.pos → s.isLeader = false →
      s.registersWf = true → ∃ t : State, exec (.wakeLit sender) s = .next t ∧ t.phase = .lit ∧ t.get F.pwrState_STATE = 1 ∧
        t.get F.pwrState_WAKE_US = min 255 ((s.now - s.mgmt.wakeAt) / 1600) ∧ t.mgmt.wdogAt = s.now ∧
        t.outbox = s.outbox ++ [.selfRefresh false, .litReport s.leader] ∧ t.cache = s.cache ∧ t.regions = s.regions)

/-- A block reset is accepted: by RST_BLOCK (source 6), by CTL_RESET with KIND 2 from another slice that names this one (source
2), or
at a running core's watchdog expiry (source 4). BUSY stands and LAST names the block, which is then awaited idle (R746, R747,
R765, R766, R743). RST_BLOCK of a block the slice lacks, or while a block reset is in progress: REFUSED is set, and nothing else
happens (R747). A write to RST_WDOG or GNM_CORE_WDOG restarts that watchdog, and changes nothing else (R767, R800). Completion,
exec answering a next state under conditions on state and operands alone, is concluded here for: ctlResetBlock, rstBlock,
coreWatchdogExpiry, rstWdog, gnmCoreWdog. -/
def Obligations.BlockResetStarts : Prop :=
  (∀ (s : State) (c : Instr) (code source : BitVec 8), s.active = true → s.blockRefusal code.toNat = none →
      ((∃ v : BitVec 64, c = .rstBlock v ∧ code.toNat = v.toNat % 256 ∧ source = 6) ∨
        (∃ (w : Sender) (targets : BitVec 8), c = .ctlResetBlock .own w targets code ∧ w.src.toNat = 56 + s.pos ∧
          s.fenced w.src.toNat = false ∧ bitAt targets.toNat s.pos = true ∧ source = 2) ∨
        ∃ core : Fin 4, c = .coreWatchdogExpiry core ∧ s.get (F.gnmCoreStatus_STATE core.val) = 1 ∧ code.toNat = 200 + core.val ∧ source = 4) →
      exec c s = .next { s with toDev := { (s.raise F.rstBlockStatus_BUSY).put F.rstBlockStatus_LAST code.toNat with
        mgmt.blockRun := some { code := code, source := source, start := s.now } } }) ∧
  (∀ (v : BitVec 64) (r : Nat) (s : State), s.active = true → s.blockRefusal (v.toNat % 256) = some r →
      exec (.rstBlock v) s = .next { s with toDev := s.raise F.rstBlockStatus_REFUSED }) ∧
  (∀ (core : Fin 4) (s : State), exec .rstWdog s = .next { s with mgmt.wdogAt := s.now } ∧
      exec (.gnmCoreWdog core) s = .next { s with mgmt.coreWdogAt := tset s.mgmt.coreWdogAt core.val s.now })

/-- BLOCK_IDLE of a block that holds no work: the block reset ends, BUSY is clear and RST_AG0 names the block and the source. A
facet's registers take their Reset values and its list, lines awaited and tickets end, its arrays staying; a stack channel keeps
all; an agent port's modules retrain, and each of its agents not fenced is suspect for the loss of its link; an engine's registers
take their Reset values and its planned waves end, its accumulators staying; a Gnomon core restarts (R747, R748, R750).
BLOCK_IDLE_TIMEOUT: TIMED_OUT is set with ALERT_N, and the block is reset. A facet with no request in the table is reset as when
it is idle; of a Gnomon core the mailbox command in progress ends with RESULT 0x31, and the core restarts (R747, R748, R769,
R826). Completion, exec answering a next state under conditions on state and operands alone, is concluded here for: blockIdle,
blockIdleTimeout. -/
def Obligations.BlockResetEnds : Prop :=
  (∀ (r : BlockRun) (s : State), s.mgmt.blockRun = some r → s.blockBusy r.code.toNat = false → s.phase ≠ .eclipse → s.quiet = true →
      s.registersWf = true → (128 ≤ r.code.toNat → r.code.toNat < 192 → s.isDieLink (r.code.toNat - 128) = false) →
      ∃ t : State, exec .blockIdle s = .next t ∧ t.mgmt.blockRun = none ∧ t.get F.rstBlockStatus_BUSY = 0 ∧ t.get F.rstAg0_KIND = 2 ∧
        t.get F.rstAg0_SOURCE = r.source.toNat ∧ t.get F.rstAg0_BLOCK = r.code.toNat ∧
        (r.code.toNat < 64 → t = { s with csr := t.csr, mgmt.blockRun := none, cache := { s.cache with
            plrs := s.cache.plrs.filter (fun x => x.place.facet != r.code.toNat)
            parked := s.cache.parked.filter (fun k => k.facet != r.code.toNat || k.outside)
            tickets := s.cache.tickets.filter (fun k => k.facet != r.code.toNat)
            nextTicket := tdel s.cache.nextTicket r.code.toNat
            maint := s.cache.maint.filter (fun m => m.facet != r.code.toNat)
            hints := s.cache.hints.filter (fun h => h.1.facet != r.code.toNat) } } ∧
          ∀ off, 0x40000 + r.code.toNat * 0x400 ≤ off → off < 0x40400 + r.code.toNat * 0x400 → t.reg off = (tgetD resetCsr off 0).toNat) ∧
        (64 ≤ r.code.toNat → r.code.toNat < 128 → t = { s with csr := t.csr, mgmt.blockRun := none }) ∧
        (128 ≤ r.code.toNat → r.code.toNat < 134 →
          (t.port (r.code.toNat - 128)).up0 = false ∧ (t.port (r.code.toNat - 128)).up1 = false ∧
          t.get (F.pwkStatus_STATE (r.code.toNat - 128)) = (if (s.port (r.code.toNat - 128)).barred then 0 else 1) ∧
          ∀ a ∈ cfgAgents (s.reg (R.pwkCfg (r.code.toNat - 128))), s.fenced a = false →
            Msg.ctl s.leader (.agentSuspect (BitVec.ofNat 6 a) 2) ∈ t.outbox) ∧
        (192 ≤ r.code.toNat → r.code.toNat < 196 →
          (∀ x ∈ t.frm.items, ∀ desc, x.1 ≠ .wave (r.code.toNat - 192) desc) ∧ (t.engine (r.code.toNat - 192)).pending = [] ∧
          t.lens.acc = s.lens.acc ∧ t.lens.marks = s.lens.marks ∧
          ∀ off, R.lnsStatus (r.code.toNat - 192) ≤ off → off < R.lnsStatus (r.code.toNat - 192) + 0x100 →
            t.reg off = (tgetD resetCsr off 0).toNat) ∧
        (200 ≤ r.code.toNat → r.code.toNat < 204 → t.get (F.gnmCoreStatus_STATE (r.code.toNat - 200)) = 1 ∧
          t.get (F.gnmCoreStatus_RESTARTS (r.code.toNat - 200)) =
            min (s.get (F.gnmCoreStatus_RESTARTS (r.code.toNat - 200)) + 1) (2 ^ 32 - 1) ∧
          t = { s with csr := t.csr, mgmt.blockRun := none
                       mgmt.coreWdogAt := tset s.mgmt.coreWdogAt (r.code.toNat - 200) s.now })) ∧
  ((∀ (r : BlockRun) (s : State), s.mgmt.blockRun = some r → r.code.toNat < 64 → s.phase ≠ .eclipse → s.quiet = true →
      s.cache.reqs = [] → s.registersWf = true →
      ∃ t : State, exec .blockIdleTimeout s = .next t ∧ t.mgmt.blockRun = none ∧ t.get F.rstBlockStatus_BUSY = 0 ∧
        t.get F.rstBlockStatus_TIMED_OUT = 1 ∧ bitAt (t.get F.gnmAlert_SOURCES) 9 = true ∧ t.get F.rstAg0_BLOCK = r.code.toNat ∧
        t = { s with csr := t.csr, mgmt.blockRun := none, cache := { s.cache with
            plrs := s.cache.plrs.filter (fun x => x.place.facet != r.code.toNat)
            parked := s.cache.parked.filter (fun k => k.facet != r.code.toNat || k.outside)
            tickets := s.cache.tickets.filter (fun k => k.facet != r.code.toNat)
            nextTicket := tdel s.cache.nextTicket r.code.toNat
            maint := s.cache.maint.filter (fun m => m.facet != r.code.toNat)
            hints := s.cache.hints.filter (fun h => h.1.facet != r.code.toNat) } }) ∧
    ∀ (r : BlockRun) (cmd : CmdRun) (s : State), s.mgmt.blockRun = some r → 200 ≤ r.code.toNat → r.code.toNat < 204 →
      s.phase ≠ .eclipse → s.quiet = true → s.registersWf = true → s.mgmt.cmd = some cmd →
      ∃ t : State, exec .blockIdleTimeout s = .next t ∧ t.get F.rstBlockStatus_BUSY = 0 ∧ t.get F.rstBlockStatus_TIMED_OUT = 1 ∧
        bitAt (t.get F.gnmAlert_SOURCES) 9 = true ∧ t.get F.gnmCmdStatus_BUSY = 0 ∧ t.get F.gnmCmdStatus_DONE = 1 ∧
        t.get F.gnmCmdStatus_CODE = cmd.code.toNat ∧ t.get F.gnmCmdStatus_RESULT = 0x31 ∧
        t.get (F.gnmCoreStatus_STATE (r.code.toNat - 200)) = 1 ∧
        t = { s with csr := t.csr, mgmt.blockRun := none, mgmt.cmd := none
                     mgmt.coreWdogAt := tset s.mgmt.coreWdogAt (r.code.toNat - 200) s.now })

/-- CTL_RESET with KIND 0 or 1 from a slice, naming this one: a warm or a cold reset with source 2 (R702, R743). CTL_RESET from a
writer that may not enter where it comes in is answered DENY; KIND 3 of an agent that may is answered DENY too, with the message's
TXID, and of a slice is ignored (R465, R703). Completion, exec answering a next state under conditions on state and operands
alone, is concluded here for: ctlResetWarm, ctlResetCold, ctlResetReserved. -/
def Obligations.CtlResetResets : Prop :=
  (∀ (b : BootInputs) (w : Sender) (targets : BitVec 8) (s : State), s.registersWf = true → s.phase = .lit →
      w.src.toNat = 56 + s.pos → s.fenced w.src.toNat = false → bitAt targets.toNat s.pos = true → s.mgmt.boot = some b → s.pins.refclk = true →
      (∃ t : State, exec (.ctlResetWarm .own w targets) s = .next t ∧ t.phase = .boot 8 ∧ t.get F.rstAg0_SOURCE = 2 ∧ t.get F.rstAg0_KIND = 1 ∧
        t.fuse = s.fuse ∧ t.cache = Cache.reset ∧ t.regions = []) ∧
      ∃ t : State, exec (.ctlResetCold .own w targets) s = .next t ∧ t.phase = .boot 8 ∧ t.get F.rstAg0_SOURCE = 2 ∧ t.get F.rstAg0_KIND = 0 ∧
        t.fuse = s.fuse ∧ t.cache = Cache.reset ∧ t.regions = [] ∧ t.stack.dram = s.stack.dram) ∧
  (∀ (via : Via) (w : Sender) (targets : BitVec 8) (s : State), s.active = true → s.discards w.src.toNat = false → s.viaUp via = true →
      (s.srcOk via w.src.toNat = true → 56 ≤ w.src.toNat → exec (.ctlResetReserved via w) s = .next s) ∧
      (s.srcOk via w.src.toNat = false ∨ w.src.toNat < 56 →
        exec (.ctlResetReserved via w) s = .next { s with outbox := s.outbox ++ [.resp w.src w.txid 0 [.deny] 0 0 []] }) ∧
      (s.srcOk via w.src.toNat = false →
        exec (.ctlResetWarm via w targets) s = .next { s with outbox := s.outbox ++ [.resp w.src w.txid 0 [.deny] 0 0 []] }))

/-! ### The mailbox and management -/

/-- Commands of this slice alone (R701, R705 to R707, R722, R723, R795): the write is answered OK, BUSY stands, the effect is
there at
once, and COMMAND_END writes the RESULT. CLEAR_COUNTERS: the counters of the groups named read 0, and no other register but
GNM_CMD_STATUS changes (R795). COMMAND_END with the RESULT known: BUSY ends, CODE and RESULT are written, and DONE is set (R794).
RESERVED_COMMAND: a code that names no command ends at once with RESULT 0x31, and DONE (R795). A command while one is in progress:
CODE, RESULT 0x30 and DONE, and no effect (R794). Completion, exec answering a next state under conditions on state and operands
alone, is concluded here for: debugLock, revokeKey, raiseVersion, dim, lit, clearLog, clearCounters, commandEnd, reservedCommand. -/
def Obligations.LocalCommandsRun : Prop :=
  (∀ (w : Writer) (s : State),
      (s.mayCommand w 0x06 0 = true → exec (.debugLock w) s = .next { s with toDev := (s.accepted w 0x06 0 (some 0)).put F.secDebug_PERMS 0 }) ∧
      (∀ slot : BitVec 48, s.mayCommand w 0x07 slot.toNat = true → exec (.revokeKey w slot) s = .next { s with toDev :=
        { s.accepted w 0x07 slot.toNat (some 0) with fuse.keys := s.fuse.keys.zipIdx.map (fun (e : KeySlot × Nat) =>
            if e.2 == slot.toNat then { e.1 with revoked := true } else e.1) } }) ∧
      (s.mayCommand w 0x08 0 = true → exec (.raiseVersion w) s = .next { s with toDev := { s.accepted w 0x08 0 (some 0) with
        fuse.minVersion := BitVec.ofNat 16 (max s.fuse.minVersion.toNat s.img.force.secVersion.toNat) } }) ∧
      (s.mayCommand w 0x10 0 = true → exec (.dim w) s = .next { s with toDev :=
        { (s.accepted w 0x10 0 (some 0)).put F.pwrState_STATE 2 with phase := .dim } }) ∧
      (s.mayCommand w 0x11 0 = true → exec (.lit w) s = .next { s with toDev :=
        { (s.accepted w 0x11 0 (some 0)).put F.pwrState_STATE 1 with phase := .lit } }) ∧
      (s.mayCommand w 0x22 0 = true → exec (.clearLog w) s = .next { s with toDev :=
        { (s.accepted w 0x22 0 (some 0)).setReg R.rstAg3 0 with
          afterglow := s.afterglow.filter (fun e => 0x3000 ≤ e.1), frm.deniedRec := none } })) ∧
  (∀ (w : Writer) (groups : BitVec 12) (s : State), s.mayCommand w 0x21 groups.toNat = true → s.registersWf = true →
      ∃ t : State, exec (.clearCounters w groups) s = .next t ∧
        (∀ g < 12, ∀ k < 8, t.get (F.cntVal_VALUE g k) = if bitAt groups.toNat g then 0 else s.get (F.cntVal_VALUE g k)) ∧
        (∀ off, off ≠ R.gnmCmdStatus → (∀ g < 12, ∀ k < 8, off ≠ (F.cntVal_VALUE g k).off) → t.reg off = s.reg off) ∧
        t = { s with toDev := { s.accepted w 0x21 groups.toNat (some 0) with csr := t.csr } }) ∧
  (∀ (code result : BitVec 8) (arg : BitVec 48) (s : State), s.mgmt.cmd = some { code := code, arg := arg, result := some result } →
      exec .commandEnd s = .next { s with toDev :=
        { ((((s.put F.gnmCmdStatus_BUSY 0).put F.gnmCmdStatus_CODE code.toNat).put F.gnmCmdStatus_RESULT result.toNat).raise
            F.gnmCmdStatus_DONE) with mgmt.cmd := none } }) ∧
  (∀ (w : Writer) (code : BitVec 8) (s : State), s.admits w R.gnmCmd rightManage = true → s.get F.gnmCmdStatus_BUSY = 0 →
      (code = 0 ∨ 0x09 ≤ code.toNat ∧ code.toNat ≤ 0x0F ∨ 0x17 ≤ code.toNat ∧ code.toNat ≤ 0x1F ∨ 0x23 ≤ code.toNat) →
      exec (.reservedCommand w code) s = .next { s with toDev := ((((s.send (.resp w.src w.txid 0 [.ok] 0 0 [])).put F.gnmCmdStatus_CODE code.toNat).put F.gnmCmdStatus_RESULT 0x31).raise
          F.gnmCmdStatus_DONE) }) ∧
  (∀ (w : Writer) (agent : Agent) (s : State), s.admits w R.gnmCmd rightManage = true → s.get F.gnmCmdStatus_BUSY = 1 →
      exec (.liftFence w agent) s = .next { s with toDev := ((((s.send (.resp w.src w.txid 0 [.ok] 0 0 [])).put F.gnmCmdStatus_CODE 4).put F.gnmCmdStatus_RESULT 0x30).raise F.gnmCmdStatus_DONE) })

/-- DEBUG_TOKEN with three failures short and a valid token in the staging buffer: PERMS is granted, and SEC_NONCE takes a new
value,
which the spec leaves open; otherwise FAILS counts one more, with ALERT_N, and the RESULT is a free value (log entry 7) (R705 to
R707, R717). TOKEN at the test access port: a valid one grants its permissions, any other counts a failure with ALERT_N (R705 to
R707, R717). Completion, exec answering a next state under conditions on state and operands alone, is concluded here for:
debugToken, token. -/
def Obligations.TokensAreChecked : Prop :=
  (∀ (w : Writer) (s : State), s.mayCommand w 0x05 0 = true →
      (s.get F.secDebug_FAILS < 3 → s.tokenValid (memBytes s.img.stage 0 224) = true →
        exec (.debugToken w) s = .next { s with toDev :=
          { ((s.accepted w 0x05 0 (some 0)).setReg R.secNonce (Config.freeValue s.freeCount).toNat).put F.secDebug_PERMS
              (leAt (memBytes s.img.stage 0 224) 4 1) with freeCount := s.freeCount + 1 } }) ∧
      (3 ≤ s.get F.secDebug_FAILS ∨ s.tokenValid (memBytes s.img.stage 0 224) = false →
        exec (.debugToken w) s = .next { s with toDev :=
          { ((((s.accepted w 0x05 0 (some ((Config.freeValue (s.freeCount + 1)).toNat % 256))).setReg R.secNonce
              (Config.freeValue s.freeCount).toNat)).bump F.secDebug_FAILS).alert alertImgSec with freeCount := s.freeCount + 2 } })) ∧
  (∀ (bytes : List Byte) (s : State),
      (s.get F.secDebug_FAILS < 3 → s.tokenValid bytes = true → exec (.token bytes) s = .next { s with toDev :=
        { (s.setReg R.secNonce (Config.freeValue s.freeCount).toNat).put F.secDebug_PERMS (leAt bytes 4 1) with
          freeCount := s.freeCount + 1, tap.ir := 0x20, tap.dr := 0, tap.viaTap := false } }) ∧
      (3 ≤ s.get F.secDebug_FAILS ∨ s.tokenValid bytes = false → exec (.token bytes) s = .next { s with toDev :=
        { ((s.setReg R.secNonce (Config.freeValue s.freeCount).toNat).bump F.secDebug_FAILS).alert alertImgSec with
          freeCount := s.freeCount + 1, tap.ir := 0x20, tap.dr := 0, tap.viaTap := false } }))

/-- A set-wide command at a slice that does not lead: accepted, it is forwarded to the leader; a load or patch sends its staged copy
to every other slice first (R689, R691, R701). LIFT_FENCE's, the slice resets' and EXPOSE's RESULT is known from then on.
RESET_BLOCK at a slice that neither leads nor is a target is forwarded to the leader; its RESULT is 0 where it names no live
slice, 0x31 for a reserved block code, and otherwise a free choice among 0, 0x30 and 0x31 (R691, R701, R746; log entry 66).
Completion, exec answering a next state under conditions on state and operands alone, is concluded here for: load, quiesce,
applyPatch, liftFence, dusk, night, resetWarm, resetCold, resetBlock, expose. -/
def Obligations.SetWideCommandsAreForwarded : Prop :=
  (∀ (w : Writer) (c : Instr) (code arg : Nat) (s : State), s.mayCommand w code arg = true → s.isLeader = false →
      (c = .load w ∧ code = 0x01 ∧ arg = 0 ∨ c = .quiesce w ∧ code = 0x02 ∧ arg = 0 ∨ c = .applyPatch w ∧ code = 0x03 ∧ arg = 0 ∨
        (∃ a : Agent, c = .liftFence w a ∧ code = 0x04 ∧ arg = a.toNat) ∨ c = .dusk w ∧ code = 0x12 ∧ arg = 0 ∨
        c = .night w ∧ code = 0x13 ∧ arg = 0 ∨ (∃ t : BitVec 8, c = .resetWarm w t ∧ code = 0x14 ∧ arg = t.toNat) ∨
        (∃ t : BitVec 8, c = .resetCold w t ∧ code = 0x15 ∧ arg = t.toNat) ∨
        (∃ t b : BitVec 8, c = .resetBlock w t b ∧ code = 0x16 ∧ arg = t.toNat + b.toNat * 256 ∧ bitAt t.toNat s.pos = true) ∨
        ∃ f : Frame, c = .expose w f ∧ code = 0x20 ∧ arg = f.toNat) →
      exec c s = .next { s with toDev :=
        { s.accepted w code arg (if code ∈ [0x04, 0x14, 0x15, 0x20] then some 0 else none) with
          outbox := s.outbox ++ [.resp w.src w.txid 0 [.ok] 0 0 []] ++
            (if code = 1 ∨ code = 3 then s.others.map (fun p => Msg.stageCopy p (s.get F.imgStage_LENGTH)) else []) ++
            [.ctl s.leader (.mgmt 0 (BitVec.ofNat 8 code) (BitVec.ofNat 48 arg))] } }) ∧
  (∀ (w : Writer) (targets block : BitVec 8) (s : State), s.mayCommand w 0x16 (targets.toNat + block.toNat * 256) = true →
      s.isLeader = false → bitAt targets.toNat s.pos = false →
      ∃ t : State, exec (.resetBlock w targets block) s = .next t ∧ ∃ r ∈ [0, 0x30, 0x31],
        ((∀ p ∈ s.liveSet, bitAt targets.toNat p = false) → r = 0) ∧
        ((∃ p ∈ s.liveSet, bitAt targets.toNat p = true) → reservedBlock block.toNat = true → r = 0x31) ∧
        t = { s with toDev := { s.accepted w 0x16 (targets.toNat + block.toNat * 256) (some r) with
          freeCount := t.freeCount
          outbox := s.outbox ++ [.resp w.src w.txid 0 [.ok] 0 0 [],
            .ctl s.leader (.mgmt 0 0x16 (BitVec.ofNat 48 (targets.toNat + block.toNat * 256)))] } })

/-- What the leader carries to a slice (FORWARD from the leader): QUIESCE and DUSK halt planned work at the next boundary, and
LIFT_FENCE lifts the agent's fence; a reset that does not name the slice does nothing to it (R268, R692, R701, R724). EXPOSE
forwarded to the leader: CTL_EXPOSE with the boundary goes to every slice, the leader's own among them; a slice that receives it
stands PENDING until that boundary (R779, R780). Completion, exec answering a next state under conditions on state and operands
alone, is concluded here for: forward, ctlExpose. -/
def Obligations.CarriedCommandsRun : Prop :=
  (∀ (sender : Pos) (s : State), s.active = true → s.isLeader = false → sender.toNat = s.leader → s.deaf sender.toNat = false →
      s.mgmt.cmd = none →
      exec (.forward sender 0x02 0) s = .next { s with img.quiescing := true, frm.haltPending := true } ∧
      exec (.forward sender 0x12 0) s = .next { s with mgmt.duskNext := true, frm.haltPending := true } ∧
      (∀ arg : BitVec 48, arg.toNat < 48 → exec (.forward sender 0x04 arg) s = .next { s with
        toDev := s.put F.fctFence_MASK (withBits (s.get F.fctFence_MASK) arg.toNat arg.toNat 0) }) ∧
      (∀ arg : BitVec 48, 48 ≤ arg.toNat → exec (.forward sender 0x04 arg) s = .next s) ∧
      ∀ arg : BitVec 48, bitAt arg.toNat s.pos = false → exec (.forward sender 0x14 arg) s = .next s ∧
        exec (.forward sender 0x15 arg) s = .next s ∧ exec (.forward sender 0x16 arg) s = .next s) ∧
  (∀ (sender : Pos) (frame : Frame) (arg : BitVec 48) (s : State), s.active = true →
      exec (.ctlExpose frame) s = .next { s with toDev := { s.raise F.cntExpose_PENDING with frm.exposeAt := some frame } } ∧
      (s.isLeader = true → sender.toNat ≠ s.pos → s.deaf sender.toNat = false → arg ≠ 0 → exec (.forward sender 0x20 arg) s = .next { s with
        outbox := s.outbox ++ s.others.map (fun p => Msg.ctl p (.expose arg)) ++ [.ctl s.pos (.expose arg)] }))

/-! ### Staging, load and seal -/

/-- STAGING_WRITE of a doubleword: its eight bytes stand in the staging buffer at IMG_STAGE.OFFSET plus the offset, every other byte
as before, and the write is answered OK (R9, R687). Completion, exec answering a next state under conditions on state and operands
alone, is concluded here for: stagingWrite. -/
def Obligations.StagedBytesAreStored : Prop :=
  ∀ (w : Writer) (offset : BitVec 15) (value : BitVec 64) (s : State), s.admits w (0x18000 + offset.toNat) rightManage = true →
    offset.toNat % 8 = 0 → s.get F.imgStage_OFFSET + offset.toNat + 8 ≤ 0x2000000 → s.memoriesWf = true →
    ∃ t : State, exec (.stagingWrite w offset 0xFF value) s = .next t ∧
      (∀ a, memGet t.img.stage a = if s.get F.imgStage_OFFSET + offset.toNat ≤ a ∧ a < s.get F.imgStage_OFFSET + offset.toNat + 8
        then BitVec.ofNat 8 (value.toNat / 256 ^ (a - (s.get F.imgStage_OFFSET + offset.toNat))) else memGet s.img.stage a) ∧
      t = { s with img.stage := t.img.stage, outbox := s.outbox ++ [.resp w.src w.txid 0 [.ok] 0 0 []] }

/-- READY and REFUSED in step 5 at the leader: held while some live slice has not answered. READY of the last slice to answer, where
none refused: COMMIT goes to every slice. REFUSED of the last: ABORT with its code goes to every slice, and the leader's
IMG_REFUSAL names a refuser other than itself, with ALERT_N (R689, R709, R717). READY in steps 6 to 8 at the leader: held while
some live slice has not reported; with the last one's, SEAL names its boundary to all (R689, R690). Completion, exec answering a
next state under conditions on state and operands alone, is concluded here for: ready, refused. -/
def Obligations.LeaderDecidesTheLoad : Prop :=
  ((∀ (sender : Pos) (s : State), s.active = true → s.isLeader = true → s.deaf sender.toNat = false → s.get F.imgStatus_STEP < 6 →
      s.img.refusals = [] → (∃ p ∈ s.liveSet, p ≠ sender.toNat ∧ p ∉ s.img.readyFrom) →
      exec (.ready sender) s = .next { s with img.readyFrom := sender.toNat :: s.img.readyFrom }) ∧
    (∀ (sender : Pos) (s : State), s.active = true → s.isLeader = true → s.deaf sender.toNat = false → s.get F.imgStatus_STEP < 6 →
      s.img.refusals = [] → (∀ p ∈ s.liveSet, p = sender.toNat ∨ p ∈ s.img.readyFrom) →
      exec (.ready sender) s = .next { s with
        img.readyFrom := []
        outbox := s.outbox ++ s.others.map (fun p => Msg.ctl p (.mgmt 3 0 (BitVec.ofNat 48 s.commitFrame))) ++
          [.ctl s.pos (.mgmt 3 0 (BitVec.ofNat 48 s.commitFrame))] }) ∧
    (∀ (sender : Pos) (code : BitVec 8) (s : State), s.active = true → s.isLeader = true → s.deaf sender.toNat = false →
      s.img.refusals = [] → (∃ p ∈ s.liveSet, p ≠ sender.toNat ∧ p ∉ s.img.readyFrom) →
      exec (.refused sender code) s = .next { s with img.refusals := [(sender.toNat, code)] }) ∧
    (∀ (sender : Pos) (code : BitVec 8) (s : State), s.active = true → s.isLeader = true → s.deaf sender.toNat = false →
      s.img.refusals = [] → (∀ p ∈ s.liveSet, p = sender.toNat ∨ p ∈ s.img.readyFrom) → sender.toNat ∈ s.liveSet →
      exec (.refused sender code) s = .next { s with toDev :=
        { (if sender.toNat = s.pos ∨ s.phase = .toDusk then s.toDev
           else (s.setReg R.imgRefusal (2 ^ 63 + sender.toNat * 2 ^ 56 + code.toNat * 2 ^ 48)).alert alertImgSec) with
          img.readyFrom := [], img.refusals := []
          outbox := s.outbox ++ s.others.map (fun p => Msg.ctl p (.mgmt 4 code 0)) ++ [.ctl s.pos (.mgmt 4 code 0)] } })) ∧
  ((∀ (sender : Pos) (s : State), s.active = true → s.isLeader = true → s.deaf sender.toNat = false → 6 ≤ s.get F.imgStatus_STEP →
      (∃ p ∈ s.liveSet, p ≠ sender.toNat ∧ p ∉ s.img.sealFrom) →
      exec (.ready sender) s = .next { s with img.sealFrom := sender.toNat :: s.img.sealFrom }) ∧
    (∀ (sender : Pos) (s : State), s.active = true → s.isLeader = true → s.deaf sender.toNat = false → 6 ≤ s.get F.imgStatus_STEP →
      (∀ p ∈ s.liveSet, p = sender.toNat ∨ p ∈ s.img.sealFrom) →
      exec (.ready sender) s = .next { s with
        img.sealFrom := []
        outbox := s.outbox ++ s.others.map (fun p => Msg.ctl p (.mgmt 5 0 (BitVec.ofNat 48 s.namedBoundary))) ++
          [.ctl s.pos (.mgmt 5 0 (BitVec.ofNat 48 s.namedBoundary))] }))

/-- COMMIT of an image installs it at once: its sections and regions are in force, no line is left, and the loader goes on with
step 7
where the boot is cold and memory not yet initialised, else with step 8 (R582, R689). COMMIT of a patch, or of Dusk, waits for the
boundary it names; 0 stands for that of the next FRAME_GO (log entry 43) (R696, R724). ABORT: the idle copies are discarded, and a
loader that has not committed is idle again; in Dusk's drain the slice is Lit again (R689, R726). Completion, exec answering a
next state under conditions on state and operands alone, is concluded here for: commit, abort. -/
def Obligations.LoaderMessagesAreTaken : Prop :=
  (∀ (n : Sections) (frame : Frame) (s : State), s.active = true → s.phase ≠ .toDusk → s.img.idle = some n → s.img.idleKind = .image →
      s.mgmt.cmd = none → s.registersWf = true →
      ∃ t : State, exec (.commit frame) s = .next t ∧ t.img.force = n ∧ t.img.idle = none ∧ t.regions = imageRegions n.regions ∧
        t.rfl_.hues = imageHues n.regions ∧ t.cache.lines = [] ∧
        t.get F.imgStatus_STEP = (if s.mgmt.coldBoot && !s.img.firstSealed && !s.img.initDone then 7 else 8) ∧
        t.get F.imgStatus_LOADED = 1 ∧ t.reg R.imgId = n.imageId.toNat ∧ t.fuse = s.fuse ∧ t.stack.dram = s.stack.dram) ∧
  (∀ (n : Sections) (frame : Frame) (s : State), s.active = true → s.mgmt.cmd = none →
      (s.phase = .toDusk → exec (.commit frame) s = .next { s with
        frm.commitAt := some (.dusk, if frame == 0 then none else some frame) }) ∧
      (s.phase ≠ .toDusk → s.img.idle = some n → s.img.idleKind = .patch → exec (.commit frame) s = .next { s with
        frm.commitAt := some (.patch, if frame == 0 then none else some frame) })) ∧
  (∀ (code : BitVec 8) (s : State), s.active = true → s.mgmt.cmd = none →
      (s.phase ≠ .toDusk → s.get F.imgStatus_STEP ≤ 5 → exec (.abort code) s = .next { s with toDev :=
        { (s.put F.imgStatus_STEP 0).put F.imgStatus_PATCH_PENDING 0 with img.idle := none, img.idleTypes := [], frm.commitAt := none } }) ∧
      (s.phase = .toDusk → s.isLeader = false → exec (.abort code) s = .next { s with toDev :=
        { s.put F.pwrState_STATE 1 with phase := .lit, mgmt.duskNext := false, frm.haltOrdered := false } }))

/-- In step 8, SEAL sets the boundary of the seal; firmware's write to IMG_SEAL and the end of Shade's zero fill together report
READY
to the leader (R188, R689, R690, R712). MEMORY_INIT_DONE ends step 7: every byte of device space reads 0, and no sub-block is
poisoned (R582, R595). DUSK_DRAINED of a slice whose drain is over reports READY to the leader (R724). Completion, exec answering
a next state under conditions on state and operands alone, is concluded here for: shadeZeroFillDone, imgSeal, seal,
memoryInitDone, duskDrained. -/
def Obligations.LoadStepsGoOn : Prop :=
  (∀ (frame : Frame) (value : BitVec 64) (s : State), s.active = true → s.get F.imgStatus_STEP = 8 → bitAt value.toNat 0 = true →
      exec (.seal frame) s = .next { s with frm.sealAt := some frame } ∧
      (s.img.zeroFilled = false → exec (.imgSeal value) s = .next { s with img.fwReady := true } ∧
        (s.img.fwReady = false → exec .shadeZeroFillDone s = .next { s with toDev := { s.raise F.fctShadeState_BUILT with
          img.zeroFilled := true, cache.storeRet := true, cache.storeRest := true } })) ∧
      (s.img.zeroFilled = true → exec (.imgSeal value) s = .next { s with
        img.fwReady := false, outbox := s.outbox ++ [.ctl s.leader (.mgmt 1 0 0)] })) ∧
  (∀ (us : BitVec 16) (s : State), s.get F.imgStatus_STEP = 7 → s.img.zeroFilled = false →
      exec (.memoryInitDone us) s = .next { s with toDev :=
        { ((s.raise F.stkInit_DONE).put F.stkInit_DURATION us.toNat).put F.imgStatus_STEP 8 with
          phase := .boot 12, img.initDone := true, stack.dram := [], stack.poison := [] } }) ∧
  (∀ s : State, s.phase = .toDusk → s.drained = true →
      exec .duskDrained s = .next { s with outbox := s.outbox ++ [.ctl s.leader (.mgmt 1 0 0)] })

/-! ### Test access and fuses -/

/-- The test access port's instructions (R704, R812 to R814): IDCODE, NONCE and BYPASS are open, the others where no image is sealed
or a token opened them. IDCODE and NONCE shift a value out, BYPASS, WRAPPER and IJTAG select their register, and the boundary-scan
instructions take the shifted bits; what they capture is a free value (log entry 7). A locked instruction changes nothing. TRST_N
selects IDCODE again. The CSR instruction: a read shifts out what the register reads; a write has the register's effect, without
access lists (R812). The wrapper's instructions: WS_BYPASS always, the others where bit 0 of a token, or no seal yet, opens them
(R814). Completion, exec answering a next state under conditions on state and operands alone, is concluded here for: extest,
idcode, samplePreload, nonce, wrapper, ijtag, bypass, trstNAssert, jtagCsr, wsBypass, wsExtest, wsIntest, wsScan. -/
def Obligations.TestAccessRuns : Prop :=
  (∀ (pins : BitVec 64) (code : BitVec 8) (s : State),
      exec .idcode s = .next { s with tap.ir := 0x01, tap.dr := BitVec.ofNat 64 s.idcode, tap.viaTap := false, outbox := s.outbox ++ [.tdo s.idcode] } ∧
      exec .nonce s = .next { s with
        tap.ir := 0x21, tap.dr := BitVec.ofNat 64 (s.reg R.secNonce), tap.viaTap := false, outbox := s.outbox ++ [.tdo (s.reg R.secNonce)] } ∧
      (code ≠ 0x30 → exec (.bypass code) s = .next { s with tap.ir := code, tap.dr := 0, tap.viaTap := false }) ∧
      (s.unlocked 0 = true →
        exec .wrapper s = .next { s with tap.ir := 0x30, tap.dr := 0, tap.viaTap := true } ∧
        exec .ijtag s = .next { s with tap.ir := 0x31, tap.dr := 0, tap.viaTap := false } ∧
        ∀ c ∈ [(Instr.extest pins, (0x00 : BitVec 8)), (.samplePreload pins, 0x02)], exec c.1 s = .next { s with
          tap.ir := c.2, tap.dr := Config.freeValue s.freeCount, tap.viaTap := false, tap.boundary := pins
          freeCount := s.freeCount + 1, outbox := s.outbox ++ [.tdo (Config.freeValue s.freeCount).toNat] }) ∧
      (s.unlocked 0 = false → ∀ c ∈ [Instr.wrapper, .ijtag, .extest pins, .samplePreload pins], exec c s = .next s) ∧
      exec .trstNAssert s = .next { s with tap := { ir := 0x01, dr := 0, boundary := 0, wir := .wsBypass, viaTap := false } }) ∧
  (∀ (offset : BitVec 24) (v : BitVec 64) (s : State), s.unlocked 2 = true → s.active = true → s.clocked = true → offset.toNat % 8 = 0 →
      exec (.jtagCsr offset none) s = .next { s with
        tap.ir := 0x40, tap.dr := BitVec.ofNat 64 (s.csrRead offset.toNat), tap.viaTap := false
        outbox := s.outbox ++ [.tdo (s.csrRead offset.toNat)] } ∧
      exec (.jtagCsr offset (some v)) s = .next { s with toDev := { s.csrEffect offset.toNat v.toNat with
        tap := { (s.csrEffect offset.toNat v.toNat).tap with ir := 0x40, dr := v, viaTap := false } } }) ∧
  (∀ s : State, exec .wsBypass s = .next { s with tap.wir := .wsBypass } ∧
      (s.unlocked 0 = true → exec .wsExtest s = .next { s with tap.wir := .wsExtest } ∧ exec .wsIntest s = .next { s with tap.wir := .wsIntest } ∧
        exec .wsScan s = .next { s with tap.wir := .wsScan }) ∧
      (s.unlocked 0 = false → ∀ c ∈ [Instr.wsExtest, .wsIntest, .wsScan], exec c s = .next s))

/-- FUSE_BLOW before the first seal of the die's life only adds blown bits, and after it changes nothing (R816). Completion, exec
answering a next state under conditions on state and operands alone, is concluded here for: fuseBlow. -/
def Obligations.FusesBlow : Prop :=
  ∀ (v : BitVec 64) (m : BitVec 4) (slot : Fin 4) (s : State),
    (s.fuse.sealedOnce = false → (∀ target : FuseTarget, exec (.fuseBlow target) s = .next { s with fuse := s.fuse.blow target }) ∧
      exec (.fuseBlow (.dieId v)) s = .next { s with fuse.dieId := s.fuse.dieId ||| v } ∧
      exec (.fuseBlow (.lensGood m)) s = .next { s with fuse.lensGood := s.fuse.lensGood &&& m } ∧
      exec (.fuseBlow (.repair v)) s = .next { s with fuse.repair := s.fuse.repair ||| v } ∧
      exec (.fuseBlow (.keyImage slot)) s = .next { s with fuse.keys := s.fuse.keys.zipIdx.map (fun (e : KeySlot × Nat) =>
        if e.2 == slot.val then { e.1 with image := true } else e.1) }) ∧
    ∀ target : FuseTarget, s.fuse.sealedOnce = true → exec (.fuseBlow target) s = .next s

/-! ### Requests and the directory -/

/-- WRITE, WRITE_BACK, ATOMIC, FAR_ATOMIC and REDUCE_STORE at their home, in blocking mode: the request table takes the request,
PULL
asks for its data, and its parts keep their place in their sectors' order meanwhile; a WRITE with no byte enabled is answered OK
at once (R105, R137, R139, R171, R440, R465, R468). Completion, exec answering a next state under conditions on state and operands
alone, is concluded here for: write, writeBack, atomic, farAtomic, reduceStore. -/
def Obligations.RequestsPullTheirData : Prop :=
  ∀ (c : Instr) (op : Op) (r : Request) (n : Nat) (s : State),
    (c, op) ∈ [(Instr.write r, Op.write), (.writeBack r, .writeBack), (.atomic r, .atomic), (.farAtomic r, .farAtomic),
      (.reduceStore r, .reduceStore)] →
    s.facetsIdle = true → s.reaches op r n = true → s.unscathed = true → r.upset = {} →
    (¬ (op = .write ∧ r.writesNothing = true) → exec c s = .next { s with toDev := { s.peak F.fctReq_PEAK 1 with
      nextId := s.nextId + 1, cache.reqs := [pulledEntry s.nextId (s.region n) op r n]
      cache.parked := s.awaitingData (pulledEntry s.nextId (s.region n) op r n)
      outbox := s.outbox ++ [Msg.pull r.src r.txid] } }) ∧
    (op = .write → r.writesNothing = true → exec c s = .next { s with toDev := { s.peak F.fctReq_PEAK 1 with
      nextId := s.nextId + 1, outbox := s.outbox ++ [Msg.resp r.src r.txid 0 [.ok] 0 0 []] } })

/-- READ_SHARED, READ_UNIQUE and CLAIM of a cached granule that no agent holds: the requester becomes its exclusive owner, gets the
data with grant 2, and the granule stays held until COMP_ACK (R209, R221, R223, R224, R235, R241). READ_ONCE and READ_ONCE_NOFILL
of a cached granule that no agent owns: the requester gets the data and nothing is granted; home states, copies and holds stay as
they were (R126, R227, R235). Completion, exec answering a next state under conditions on state and operands alone, is concluded
here for: readShared, readUnique, claim, readOnce, readOnceNofill. -/
def Obligations.ReadsHit : Prop :=
  (∀ (c : Instr) (op : Op) (r : Request) (n : Nat) (x : Sub) (s : State),
      (c, op) ∈ [(Instr.readShared r, Op.readShared), (.readUnique r, .readUnique), (.claim r, .claim)] →
      s.facetsIdle = true → s.reaches op r n = true → s.unscathed = true → r.upset = {} → r.len = 0 →
      s.cached (s.placeFor r n) = some x → s.home (s.placeFor r n) = none → (s.placeFor r n).d < deviceEnd →
      s.dirFrees (s.placeFor r n).facet (dirSet (s.placeFor r n).d) ≠ [] →
      ∃ t : State, exec c s = .next t ∧ t.outbox = s.outbox ++ [Msg.resp r.src r.txid 0 [.ok] 2 0 [x]] ∧
        t.home (s.placeFor r n) = some (.excl r.src) ∧ t.held (s.placeFor r n) = true ∧
        (∀ q, t.cached q = s.cached q) ∧ t.cache.reqs = [] ∧ s.regsKept t.toDev [R.fctReq] ∧
        t = { s with csr := t.csr, outbox := t.outbox, nextId := t.nextId, cache.lines := t.cache.lines, cache.dir := t.cache.dir
                     cache.txns := t.cache.txns }) ∧
  (∀ (c : Instr) (op : Op) (r : Request) (n : Nat) (x : Sub) (s : State),
      (c, op) ∈ [(Instr.readOnce r, Op.readOnce), (.readOnceNofill r, .readOnceNofill)] →
      s.facetsIdle = true → s.reaches op r n = true → s.unscathed = true → r.upset = {} → r.len = 0 →
      s.cached (s.placeFor r n) = some x → (s.home (s.placeFor r n)).bind HomeState.owner = none →
      ∃ t : State, exec c s = .next t ∧ t.outbox = s.outbox ++ [Msg.resp r.src r.txid 0 [.ok] 0 0 [x]] ∧
        (∀ q, t.home q = s.home q) ∧ (∀ q, t.cached q = s.cached q) ∧ t.cache.reqs = [] ∧ t.cache.txns = [] ∧
        s.regsKept t.toDev [R.fctReq] ∧
        t = { s with csr := t.csr, outbox := t.outbox, nextId := t.nextId, cache.lines := t.cache.lines, cache.dir := t.cache.dir })

/-- CLEAN, INVALIDATE, CLEAN_INVALIDATE and DARKEN of one granule that no agent holds and that is not dirty: the cache keeps its
copy,
loses it, or leaves a darken marker for it, and the requester gets OK (R146, R153, R229). SW_CLEAN, SW_INVALIDATE and
SW_CLEAN_INVALIDATE of a line with nothing to write back: the line stays, or goes; BUSY and REFUSED read 0 (R153, R154, R155,
R168, R169). Completion, exec answering a next state under conditions on state and operands alone, is concluded here for: darken,
clean, invalidate, cleanInvalidate, swClean, swInvalidate, swCleanInvalidate. -/
def Obligations.MaintenanceRuns : Prop :=
  (∀ (c : Instr) (op : Op) (r : Request) (n : Nat) (s : State),
      (c, op) ∈ [(Instr.darken r, Op.darken), (.clean r, .clean), (.invalidate r, .invalidate),
        (.cleanInvalidate r, .cleanInvalidate)] →
      s.facetsIdle = true → s.reaches op r n = true → s.unscathed = true → r.upset = {} → r.len = 0 →
      s.home (s.placeFor r n) = none → s.dirtyAt (s.placeFor r n) = false →
      ¬ (op = .darken ∧ (s.region n).shadowed = false ∧ (s.region n).strictDarken = true) →
      exec c s = .next { s with toDev := {
        (match op with
         | .clean => s.peak F.fctReq_PEAK 1
         | .darken => (s.peak F.fctReq_PEAK 1).updAt (s.placeFor r n) (fun l =>
            if (s.region n).shadowed = true then l.dropSub (s.placeFor r n).sub
            else if l.isValid (s.placeFor r n).sub = true then l.markSub (s.placeFor r n).sub else l)
         | _ => (s.peak F.fctReq_PEAK 1).updAt (s.placeFor r n) (fun l => l.dropSub (s.placeFor r n).sub)) with
        nextId := s.nextId + 2, outbox := s.outbox ++ [Msg.resp r.src r.txid 0 [.ok] 0 0 []] } }) ∧
  (∀ (c : Instr) (keeps : Bool) (f : BitVec 6) (set : BitVec 11) (way : BitVec 4) (l : Line) (s : State),
      (c, keeps) ∈ [(Instr.swClean f set way, true), (.swInvalidate f set way, false), (.swCleanInvalidate f set way, false)] →
      s.active = true → s.quiet = true → s.registersWf = true → s.cache.wbs = [] → s.fuse.dead f.toNat = false →
      s.wayClass f.toNat way.toNat = clsOrdinary → s.get (F.fctMaintStatus_BUSY f.toNat) = 0 →
      way.toNat ∉ s.reserved f.toNat set.toNat → s.line f.toNat set.toNat way.toNat = some l →
      (l.dirtySubs = [] ∨ (c = .swInvalidate f set way ∧ l.shd = false)) →
      ∃ t : State, exec c s = .next t ∧ t.get (F.fctMaintStatus_BUSY f.toNat) = 0 ∧ t.get (F.fctMaintStatus_REFUSED f.toNat) = 0 ∧
        t.cache.lines = (if keeps = true then s.cache.lines else tdel s.cache.lines (lineKey f.toNat set.toNat way.toNat)) ∧
        s.regsKept t.toDev [(F.fctMaintStatus_BUSY f.toNat).off] ∧
        t = { s with csr := t.csr, cache.lines := t.cache.lines })

/-- WRITE_DATA while some 64 B of a request are still to come: what has come is held, and nothing else changes (R465, R468).
WRITE_DATA of a register write: it is answered OK, and the write has its effect (R7, R8, R9, R468). Completion, exec answering a
next state under conditions on state and operands alone, is concluded here for: writeData. -/
def Obligations.WriteDataIsTaken : Prop :=
  (∀ (e : ReqEntry) (off : BitVec 8) (x : Sub) (s : State),
      s.active = true → s.discards e.r.src.toNat = false → s.quiet = true → s.cache.reqs = [e] →
      (e.got.set off.toNat true).any (fun g => !g) = true → off.toNat < e.got.length →
      exec (.writeData e.r.src e.r.txid off [x]) s = .next { s with cache.reqs :=
        [{ e with data := e.data.set off.toNat x, got := e.got.set off.toNat true }] }) ∧
  (∀ (id : Nat) (g : Region) (r : Request) (n : Nat) (x : Sub) (s : State),
      s.active = true → s.discards r.src.toNat = false → s.cache.reqs = [pulledEntry id g .write r n] →
      r.space = .csr → r.len = 0 → r.urgent = false →
      exec (.writeData r.src r.txid 0 [x]) s = .next { s with toDev :=
        (({ s with cache.reqs := [], outbox := s.outbox ++ [Msg.resp r.src r.txid 0 [.ok] 0 0 []] }.csrEffect r.offset
          (bitsOf x.toNat (8 * (r.addr.toNat % 64) + 63) (8 * (r.addr.toNat % 64))))).settle })

/-- WRITE_DATA of a WRITE to one cached granule of an unshadowed region that no agent holds: the enabled bytes are replaced, the
granule is dirty, and the requester gets OK (R102, R124, R229, R235, R465). WRITE_DATA of an ATOMIC to one cached granule of an
unshadowed region that no agent holds: the requester gets the old value, the granule takes the new one where the operation has
one, and CRD_COUNT.ATOMICS rises (R231, R402 to R405). Completion, exec answering a next state under conditions on state and
operands alone, is concluded here for: writeData. -/
def Obligations.WriteDataWritesMemory : Prop :=
  (∀ (id : Nat) (r : Request) (n : Nat) (x y : Sub) (s : State),
      ({ s with cache.reqs := [], cache.parked := [] } : State).facetsIdle = true → s.reaches .write r n = true →
      (s.region n).shadowed = false → s.unscathed = true → s.cache.reqs = [pulledEntry id (s.region n) .write r n] →
      s.cache.parked = s.awaitingData (pulledEntry id (s.region n) .write r n) → r.len = 0 → r.mask ≠ 0 →
      s.cached (s.placeFor r n) = some y → s.home (s.placeFor r n) = none →
      ∃ t : State, exec (.writeData r.src r.txid 0 [x]) s = .next t ∧
        t.outbox = s.outbox ++ [Msg.resp r.src r.txid 0 [.ok] 0 0 []] ∧
        t.cached (s.placeFor r n) = some (if r.mask = fullMask then x else mergeMask r.mask.toNat y x) ∧
        t.dirtyAt (s.placeFor r n) = true ∧ (∀ q, t.home q = s.home q) ∧ t.cache.reqs = [] ∧ t.cache.txns = [] ∧
        s.regsKept t.toDev [] ∧
        t = { s with csr := t.csr, outbox := t.outbox, nextId := t.nextId, cache.lines := t.cache.lines, cache.dir := t.cache.dir
                     cache.reqs := [], cache.parked := [] }) ∧
  (∀ (id : Nat) (r : Request) (n : Nat) (x y : Sub) (s : State),
      ({ s with cache.reqs := [], cache.parked := [] } : State).facetsIdle = true → s.reaches .atomic r n = true →
      (s.region n).shadowed = false → s.unscathed = true → s.cache.reqs = [pulledEntry id (s.region n) .atomic r n] →
      s.cache.parked = s.awaitingData (pulledEntry id (s.region n) .atomic r n) → argScope r.arg ≠ 3 → r.len = 0 →
      s.cached (s.placeFor r n) = some y → s.home (s.placeFor r n) = none →
      ∃ t : State, exec (.writeData r.src r.txid 0 [x]) s = .next t ∧
        t.outbox = s.outbox ++ [Msg.resp r.src r.txid 0 [.ok] 0 0 [(atomicApply r.arg x y).2.1]] ∧
        t.cached (s.placeFor r n) = some ((atomicApply r.arg x y).1.getD y) ∧
        t.get F.crdCount_ATOMICS = min (s.get F.crdCount_ATOMICS + 1) F.crdCount_ATOMICS.max ∧
        t.cache.reqs = [] ∧ t.cache.parked = [] ∧ t.cache.txns = [] ∧ (∀ q, t.home q = s.home q))

/-- SNP_REPLY and SNP_DATA at the buddy: passed on to the home, with data stored dirty in the mirror way that has room (R605).
SNP_REPLY and SNP_DATA at the home while another reply is awaited: the reply is held (R220, R223). SNP_DATA of the owner that a
READ_ONCE snooped and that keeps the granule: the requester gets the owner's data, and the owner stays as it was (R220, R227).
Completion, exec answering a next state under conditions on state and operands alone, is concluded here for: snpReply, snpData. -/
def Obligations.SnoopRepliesAreTaken : Prop :=
  (∀ (p : SnoopReply) (x : Sub) (s : State),
      s.active = true → s.discards p.src.toNat = false → p.home.toNat ≠ s.pos → s.unscathed = true →
      exec (.snpReply p) s = .next { s with outbox := s.outbox ++ [Msg.forwardReply p.home p none] } ∧
      ∃ t : State, exec (.snpData p x) s = .next t ∧ t.outbox = s.outbox ++ [Msg.forwardReply p.home p (some x)] ∧
        t = { s with outbox := t.outbox, cache.lines := t.cache.lines } ∧
        ∀ w, s.mirrorWay p.fgroup.toNat p.sector.toNat = some w →
          ∃ l, t.line (s.fuse.owner p.fgroup.toNat) (setIndex (p.sector.toNat / 64 * 64)) w = some l ∧
            l.isDirty p.subIndex.toNat = true ∧ Sector.sub l.data p.subIndex.toNat = x ∧ l.age = 0) ∧
  (∀ (p : SnoopReply) (x : Option Sub) (u : Txn) (s : State),
      s.active = true → s.discards p.src.toNat = false → p.home.toNat = s.pos →
      ({ s with cache.txns := [] } : State).quiet = true → s.cache.txns = [u] → u.stage = .snoop → u.id % 4096 = p.txid.toNat →
      p.src ∈ u.awaiting → u.awaiting.erase p.src ≠ [] →
      exec (match x with | some y => .snpData p y | none => .snpReply p) s = .next { s with cache.txns :=
        [{ u with awaiting := u.awaiting.erase p.src
                  replies := u.replies ++ [{ agent := p.src, final := p.final, data := x, notPresent := p.notPresent }] }] }) ∧
  (∀ (p : SnoopReply) (x : Sub) (u : Txn) (id : Nat) (r : Request) (n : Nat) (s : State),
      s.active = true → s.discards p.src.toNat = false → s.fenced r.src.toNat = false → p.home.toNat = s.pos →
      ({ s with cache.txns := [] } : State).quiet = true → s.shadow.puts = [] → s.cache.wbs = [] → s.cache.txns = [u] →
      u.stage = .snoop → u.op = .readOnce → u.id % 4096 = p.txid.toNat → u.awaiting = [p.src] → u.replies = [] →
      u.answered = false → u.code = .ok → u.place.kind = .own → u.before = some (.excl p.src) → u.src = r.src →
      u.cause = .request id 0 → s.cache.reqs = [pulledEntry id (s.region n) .readOnce r n] → r.len = 0 → r.view = 0 →
      r.urgent = false → s.home u.place = u.before → 3 ≤ p.final.toNat →
      ∃ t : State, exec (.snpData p x) s = .next t ∧ t.outbox = s.outbox ++ [Msg.resp r.src r.txid 0 [.ok] 0 0 [x]] ∧
        (∀ q, t.home q = s.home q) ∧
        t = { s with outbox := t.outbox, cache.dir := t.cache.dir, cache.reqs := [], cache.txns := [] })

/-- COMP_ACK: the granule that its grant held is free again (R221, R241). POD_SYNC: with no write of its agent posted, POD_SYNC_DONE
goes back at once; else it waits for their entries (R449). POD_SYNC_DONE of one slice while another that is live is awaited is
counted (R449). Completion, exec answering a next state under conditions on state and operands alone, is concluded here for:
compAck, podSync, podSyncDone. -/
def Obligations.AcknowledgementsAreTaken : Prop :=
  (∀ (src : Agent) (txid : BitVec 12) (u : Txn) (s : State),
      s.active = true → s.discards src.toNat = false → ({ s with cache.txns := [] } : State).quiet = true → s.cache.txns = [u] →
      u.stage = .ack → u.src = src → u.ackTxid = txid →
      exec (.compAck src txid) s = .next { s with cache.txns := [] }) ∧
  (∀ (q : Pos) (src : Agent) (txid : BitVec 12) (s : State), s.active = true → q.toNat ≠ s.pos → s.deaf q.toNat = false →
      s.cache.pods = [] →
      (s.postedWrites src = [] → exec (.podSync q src txid) s = .next { s with outbox :=
        s.outbox ++ [Msg.ctl q.toNat (.podSyncDone src txid)] }) ∧
      (s.postedWrites src ≠ [] → exec (.podSync q src txid) s = .next { s with cache.pods :=
        [(q.toNat, src.toNat, txid.toNat, s.postedWrites src)] })) ∧
  (∀ (q : Pos) (u : Txn) (s : State), ({ s with cache.txns := [] } : State).quiet = true → s.cache.txns = [u] →
      u.stage = .pod → q.toNat ∈ u.podWait → s.deaf q.toNat = false →
      (∃ p ∈ u.podWait.erase q.toNat, s.isLost p = false) →
      exec (.podSyncDone q u.src (BitVec.ofNat 12 u.id)) s = .next { s with cache.txns :=
        [{ u with podWait := u.podWait.erase q.toNat }] })

/-- SIDE_ACCESS of a cached sub-block that no agent owns: a read answers its data; a masked write of an unshadowed one replaces the
enabled bytes and answers OK. No home state changes (R312, R828). ESCAPE_CLAIM_SLOT answers the first slot that is poisoned, free
or the block's own, which is kept for the block until it is written (log entry 100), or none; ESCAPE_RELEASE_SLOT with no slot of
the block to free answers OK (R303, R313, R314). Completion, exec answering a next state under conditions on state and operands
alone, is concluded here for: sideAccess, escapeClaimSlot, escapeReleaseSlot. -/
def Obligations.SideAccessesRun : Prop :=
  (∀ (a : SideAccess) (p : Place) (y : Sub) (s : State),
      s.active = true → s.discards a.sender.toNat = false → s.quiet = true → a.d.toNat < deviceEnd → p = s.sidePlace a.home.toNat a.grp.toNat a.d.toNat a.shadowed →
      s.cache.wbs = [] → s.shadow.puts = [] → s.unscathed = true → a.upset = {} → s.cached p = some y → p.kind = .own → s.home p = none → a.shadowed = false →
      ∃ t : State, exec (.sideAccess a) s = .next t ∧ (∀ q, t.home q = s.home q) ∧ s.regsKept t.toDev [] ∧
        t = { s with csr := t.csr, outbox := t.outbox, nextId := t.nextId, cache.lines := t.cache.lines } ∧
        (a.store = none → t.cached p = some y ∧ t.outbox = s.outbox ++ [Msg.sideData a.sender a.txid .ok y]) ∧
        ∀ m x, a.store = some (m, x) → t.outbox = s.outbox ++ [Msg.sideData a.sender a.txid .ok 0] ∧ t.dirtyAt p = true ∧
          t.cached p = some (if m = fullMask then x else mergeMask m.toNat y x)) ∧
  (∀ (e : EscapeRef) (s : State), s.active = true → s.discards e.sender.toNat = false →
      s.quiet = true → s.unscathed = true → e.d.toNat < deviceEnd →
      let mine := fun (i : Nat) => match (s.groupSlots e).getD i none with
        | some v => slotValid v && slotBlock v == e.block.toNat
        | none => false
      let takes := fun (i : Nat) => match (s.groupSlots e).getD i none with
        | some v => !slotValid v || slotBlock v == e.block.toNat
        | none => true
      ((∀ i < e.slots.toNat, takes i = false) →
        exec (.escapeClaimSlot e) s = .next { s with outbox := s.outbox ++ [Msg.slot e.sender e.txid none] }) ∧
      (∀ i < e.slots.toNat, takes i = true → (∀ j < i, takes j = false) → (∀ j < e.slots.toNat, i < j → mine j = false) →
        exec (.escapeClaimSlot e) s = .next { s with
          nextId := s.nextId + 1
          prism.claims := s.prism.claims.filter (fun c => c.1 != (e.grp.toNat, (e.d.toNat + 64 * i) / 64 * 64)) ++
            [((e.grp.toNat, (e.d.toNat + 64 * i) / 64 * 64), e.block.toNat)]
          outbox := s.outbox ++ [Msg.slot e.sender e.txid (some i)] }) ∧
      ((∀ i < e.slots.toNat, mine i = false) →
        exec (.escapeReleaseSlot e) s = .next { s with
          nextId := s.nextId + 1, outbox := s.outbox ++ [Msg.sideData e.sender e.txid .ok 0] }))

/-- PREFETCH_HINT that a miss of this slice sent: dropped where the sector holds a valid sub-block or has a pending line, or where
more than 12 of the facet's 16 pending lines are in use; otherwise, with an empty way in its class, it takes a pending line and
reads the whole sector (R123, R127, R128). Either way the hint is used up. DRAM_READ_COMPLETE without errors: the four sub-blocks
of a fill's sector enter its reserved way, valid and clean, and the pending line frees (R123, R129, R560). Completion, exec
answering a next state under conditions on state and operands alone, is concluded here for: prefetchHint, dramReadComplete. -/
def Obligations.FillsComplete : Prop :=
  (∀ (grp : BitVec 6) (d : BitVec 64) (k : BitVec 3) (sh : Bool) (p : Place) (s : State),
      s.active = true → d.toNat < deviceEnd → p = s.placeAt grp.toNat (d.toNat / 256 * 256) sh → s.cache.hints = [(p, k.toNat)] →
      s.unscathed = true →
      (((∃ x, s.lookup p = some x ∧ x.2.valid ≠ 0) ∨ (s.plrAt p).isSome = true ∨ 13 ≤ (s.plrsOf p.facet).length) →
        exec (.prefetchHint grp d k sh) s = .next { s with cache.hints := [] }) ∧
      ∀ w, s.lookup p = none → s.plrAt p = none → (s.plrsOf p.facet).length ≤ 12 → s.cache.tickets = [] → s.cache.wbs = [] →
        s.victim p.facet p.set k.toNat = some (w, s.toDev) → s.line p.facet p.set w = none →
        ∃ t : State, exec (.prefetchHint grp d k sh) s = .next t ∧ t.cache.hints = [] ∧
          (∃ r, t.stack.reads = s.stack.reads ++ [r] ∧ r.sector = p.d ∧ r.subs = 0xF ∧ r.why = .fill s.nextId) ∧
          ∃ x ∈ t.cache.plrs, x.place = p ∧ x.fetching = 0xF ∧ x.way = some w ∧ x.prefetch = true ∧
            x.waiters = []) ∧
  (∀ (r : DramRead) (x : Plr) (w : Nat) (s : State),
      s.quiet = true → s.unscathed = true → s.stack.reads = [r] → r.issued = true → r.subs = 0xF → r.poison = 0 → r.dead = false →
      r.retry = false → x.gone = 0 → x.bad = 0 → r.why = .fill x.id →
      s.cache.plrs = [x] → x.fetching = 0xF → x.keep = 0xF → x.waiters = [] → x.way = some w → w ∈ s.waysOf x.place.facet x.place.searches →
      x.place.kind = .own → s.lookup x.place = none →
      ∃ t : State, exec (.dramReadComplete r.id []) s = .next t ∧ t.stack.reads = [] ∧ t.cache.plrs = [] ∧
        (∃ l, t.line x.place.facet x.place.set w = some l ∧ l.valid = 0xF ∧ l.dirty = 0 ∧ l.age = x.age ∧ l.tag = x.place.tag ∧
          ∀ i < 4, Sector.sub l.data i = Sector.sub r.words i) ∧
        t = { s with stack.reads := [], cache.plrs := [], cache.lines := t.cache.lines })

/-- PARKED_PART_RESUME in NAK mode: the earliest ticket that holds no reservation and whose bound has room gets RETRY and its
reservation. With no ticket and no parked part the freed resource stays free. TICKET_HOLD_EXPIRY: the lapsed ticket is dropped and
counted, and its reservation passes, with RETRY, to the next ticket of the same bound instance, where one waits (R251, R252,
R255). Completion, exec answering a next state under conditions on state and operands alone, is concluded here for:
parkedPartResume, ticketHoldExpiry. -/
def Obligations.TicketsAreRetried : Prop :=
  (∀ (f : BitVec 6) (t : Ticket) (s : State), s.active = true → s.quiet = true → s.cache.parked = [] →
    (∀ x ∈ s.cache.tickets, x.bound ≠ .directory) → s.nextTicket f.toNat (fun _ => true) = some t → s.fenced t.agent.toNat = false →
    exec (.parkedPartResume f) s = .next { s with
      cache.tickets := s.cache.tickets.map (fun (k : Ticket) =>
        if k.facet == t.facet && k.ticket == t.ticket then { k with reserved := true } else k)
      outbox := s.outbox ++ [Msg.retry t.agent t.ticket t.txid] }) ∧
  (∀ (f : BitVec 6) (s : State), s.active = true → s.quiet = true → s.cache.parked = [] → s.cache.tickets = [] →
    exec (.parkedPartResume f) s = .next s) ∧
  (∀ (f : BitVec 6) (tk : BitVec 16) (t : Ticket) (s : State), s.ticket f.toNat tk = some t → t.reserved = true →
    ((s.dropTicket f.toNat tk).bump (F.fctTicket_LAPSED f.toNat)).nextTicket f.toNat (fun x => x.sameInstance t) = none →
    exec (.ticketHoldExpiry f tk) s = .next { s with toDev :=
      { s.bump (F.fctTicket_LAPSED f.toNat) with
        cache.tickets := s.cache.tickets.filter (fun e => !(e.facet == f.toNat && e.ticket == tk)) } }) ∧
  ∀ (f : BitVec 6) (tk : BitVec 16) (t n : Ticket) (s : State), s.ticket f.toNat tk = some t → t.reserved = true →
    ((s.dropTicket f.toNat tk).bump (F.fctTicket_LAPSED f.toNat)).nextTicket f.toNat (fun x => x.sameInstance t) = some n →
    s.fenced n.agent.toNat = false →
    exec (.ticketHoldExpiry f tk) s = .next { s with toDev :=
      { s.bump (F.fctTicket_LAPSED f.toNat) with
        cache.tickets := (s.cache.tickets.filter (fun e => !(e.facet == f.toNat && e.ticket == tk))).map (fun (k : Ticket) =>
          if k.facet == n.facet && k.ticket == n.ticket then { k with reserved := true } else k)
        outbox := s.outbox ++ [Msg.retry n.agent n.ticket n.txid] } }

/-- PARKED_PART_RESUME in blocking mode: the oldest parked part that meets no bound runs as if it had just come: a READ_ONCE that
hits
is answered, and its place in the ingress list frees (R138, R139, R142). HELD_WAITER_REENTER: the first waiter of a granule that
is no longer held runs as if it had just come: a READ_ONCE that hits is answered, and its hold register frees (R242, R243, R244).
Completion, exec answering a next state under conditions on state and operands alone, is concluded here for: parkedPartResume,
heldWaiterReenter. -/
def Obligations.WaitersGoOn : Prop :=
  (∀ (id n : Nat) (r : Request) (y : Sub) (b : Bound) (u v : Bool) (f : BitVec 6) (s : State),
      ({ s with cache.reqs := [], cache.parked := [] } : State).facetsIdle = true → s.unscathed = true →
      s.reaches .readOnce r n = true → r.len = 0 → s.cache.reqs = [pulledEntry id (s.region n) .readOnce r n] →
      b ≠ .directory → s.cache.parked = [{ facet := f.toNat, reqId := id, index := 0, bound := b, urgent := u, reentered := v }] →
      (s.placeFor r n).facet = f.toNat → s.cached (s.placeFor r n) = some y →
      (s.home (s.placeFor r n)).bind HomeState.owner = none →
      ∃ t : State, exec (.parkedPartResume f) s = .next t ∧ t.outbox = s.outbox ++ [Msg.resp r.src r.txid 0 [.ok] 0 0 [y]] ∧
        t.cache.parked = [] ∧ t.cache.reqs = [] ∧ t.cache.txns = [] ∧ (∀ q, t.home q = s.home q) ∧ (∀ q, t.cached q = s.cached q)) ∧
  (∀ (x : Plr) (id n : Nat) (r : Request) (y : Sub) (d : BitVec 64) (f : BitVec 6) (s : State),
      ({ s with cache.reqs := [], cache.plrs := [] } : State).facetsIdle = true → s.unscathed = true → s.reaches .readOnce r n = true → r.len = 0 →
      s.cache.reqs = [pulledEntry id (s.region n) .readOnce r n] → s.cache.plrs = [x] → x.fetching = 0 → x.waiters = [.part id 0] →
      x.place.facet = f.toNat → (s.placeFor r n).facet = f.toNat → (s.placeFor r n).d = d.toNat / 64 * 64 →
      s.cached (s.placeFor r n) = some y → (s.home (s.placeFor r n)).bind HomeState.owner = none →
      ∃ t : State, exec (.heldWaiterReenter f d) s = .next t ∧ t.outbox = s.outbox ++ [Msg.resp r.src r.txid 0 [.ok] 0 0 [y]] ∧
        t.cache.plrs = [] ∧ t.cache.reqs = [] ∧ t.cache.txns = [] ∧ (∀ q, t.home q = s.home q) ∧ (∀ q, t.cached q = s.cached q))

/-- TAG_SCRUB and DIR_SCRUB: the facet goes on to its next set; an entry with one bad copy is repaired and counted, a pointer list
lost in both copies becomes flare, and an entry lost in both takes the slice to Eclipse (R134, R136, R211, R212, R213). The
operands name the bits that have just been upset. DIR_RECALL_COMPLETE: a victim recalled from the directory, its snoops and
write-back done, leaves its entry free (R214); no part or ticket waits for it here. Completion, exec answering a next state under
conditions on state and operands alone, is concluded here for: tagScrub, dirScrub, dirRecallComplete. -/
def Obligations.ScrubsCheckASet : Prop :=
  (∀ (f : BitVec 6) (s : State), s.active = true → s.fuse.dead f.toNat = false → s.unscathed = true →
      let tagSet := tgetD s.cache.tagScrub f.toNat 0
      let dirSet_ := tgetD s.cache.dirScrub f.toNat 0
      let s1 : State := { s with cache.tagScrub := tput 0 s.cache.tagScrub f.toNat ((tagSet + 1) % 2048) }
      let s2 : State := { s with cache.dirScrub := tput 0 s.cache.dirScrub f.toNat ((dirSet_ + 1) % 4096) }
      exec (.tagScrub f []) s = .next s1 ∧ exec (.dirScrub f []) s = .next s2 ∧
      (∀ (w : BitVec 4) (x0 x1 : BitVec 48), let l := s.tagWord f.toNat tagSet w.toNat
        (checkTag (l ^^^ x0.toNat) (l ^^^ x1.toNat) = .repaired →
          exec (.tagScrub f [(w, x0, x1)]) s = .next { s1 with toDev :=
            ((s1.raise (F.fctErr_TAG_CE f.toNat)).bump (F.fctEccCount_TAG_CE f.toNat)) }) ∧
        (checkTag (l ^^^ x0.toNat) (l ^^^ x1.toNat) = .lost → s.phase = .lit →
          ∃ t : State, exec (.tagScrub f [(w, x0, x1)]) s = .next t ∧ t.phase = .eclipse ∧
            t.get (F.fctErr_TAG_LOST f.toNat) = 1)) ∧
      ∀ (w : BitVec 4) (x0 x1 : BitVec 50) (e : DirEntry), tget s.cache.dir (dirKey f.toNat dirSet_ w.toNat) = some e →
        (checkDir (dirWord e ^^^ x0.toNat) (dirWord e ^^^ x1.toNat) = .repaired →
          exec (.dirScrub f [(w, x0, x1)]) s = .next { s2 with toDev := s2.bump (F.fctDirCount_DIR_CE f.toNat) }) ∧
        (checkDir (dirWord e ^^^ x0.toNat) (dirWord e ^^^ x1.toNat) = .flared →
          exec (.dirScrub f [(w, x0, x1)]) s = .next { s2 with
            cache.dir := tset s.cache.dir (dirKey f.toNat dirSet_ w.toNat) { e with st := .flare } }) ∧
        (checkDir (dirWord e ^^^ x0.toNat) (dirWord e ^^^ x1.toNat) = .lost → s.phase = .lit →
          ∃ t : State, exec (.dirScrub f [(w, x0, x1)]) s = .next t ∧ t.phase = .eclipse)) ∧
  (∀ (u : Txn) (w : Nat) (e : DirEntry) (s : State),
      ({ s with cache.txns := [] } : State).quiet = true → s.cache.txns = [u] → u.stage = .done → u.place.kind = .own →
      s.dirLookup u.place = some (w, e) → s.cache.parked = [] → s.cache.tickets = [] → s.unscathed = true →
      exec (.dirRecallComplete u.id) s = .next { s with
        cache.txns := [], cache.dir := tdel s.cache.dir (dirKey u.place.facet (dirSet u.place.d) w) })

/-- A set-and-way command, or a write of FCT_MAINT_SW of whatever OP, for a way that is not ordinary, or while BUSY is 1, sets
REFUSED
and does nothing else (R155). -/
def Obligations.SetWayMaintenanceIsRefused : Prop :=
  ∀ (f : BitVec 6) (set : BitVec 11) (way : BitVec 4) (s : State), s.fuse.dead f.toNat = false →
    (s.wayClass f.toNat way.toNat ≠ clsOrdinary ∨ s.get (F.fctMaintStatus_BUSY f.toNat) = 1) →
    (s.active = true → ∀ c ∈ [Instr.swClean f set way, .swInvalidate f set way, .swCleanInvalidate f set way],
      exec c s = .next { s with toDev := s.put (F.fctMaintStatus_REFUSED f.toNat) 1 }) ∧
    ∀ v, bitsOf v 14 4 = set.toNat → bitsOf v 3 0 = way.toNat →
      s.csrEffect (R.fctMaintSw f.toNat) v = s.put (F.fctMaintStatus_REFUSED f.toNat) 1

/-! ### Dead agents -/

/-- SNOOP_TIMEOUT: an agent that owes a snoop reply or a COMP_ACK is declared suspect to the leader, once for the transaction, and
the
start of its detection is kept (R259, R260, R273). AGENT_SUSPECT and FENCED at the leader. For a late reply or acknowledgement,
AGENT_DEAD goes to every live slice; for a lost port, once the agent has no other port left on a live slice (R513), and until then
the loss is held (log entry 118). RECLAIM goes out once each live slice has answered FENCED; until then who has answered is held
(R260). AGENT_DEAD: the agent's bit of FCT_FENCE is set, its tickets and forwarded requests go, and FENCED goes to the leader; its
death counts from its detection where this slice began it, else from now (the model's choice, log entry 129) (R260, R261, R273).
Completion, exec answering a next state under conditions on state and operands alone, is concluded here for: snoopTimeout,
agentSuspect, fenced, agentDead. -/
def Obligations.DeathsAreDecided : Prop :=
  (∀ (id : Nat) (a : Agent) (u : Txn) (s : State), s.active = true → s.txn id = some u → a ∉ u.suspect →
      s.fenced a.toNat = false → (a ∈ u.awaiting ∨ (u.stage = .ack ∧ u.src = a)) →
      exec (.snoopTimeout id a) s = .next { s with
        cache.txns := s.cache.txns.map (fun v => if v.id == id then { v with suspect := v.suspect ++ [a] } else v)
        cache.suspected := if s.cache.suspected.any (fun e => e.1 == a) = true then s.cache.suspected
          else s.cache.suspected ++ [(a, u.since)]
        outbox := s.outbox ++ [Msg.ctl s.leader (.agentSuspect a (if u.stage = .ack ∧ u.src = a then 1 else 0))] }) ∧
  ((∀ (q : Pos) (a : Agent) (cause : BitVec 2) (s : State), s.active = true → s.isLeader = true → s.deaf q.toNat = false →
      (cause ≠ 2 → exec (.agentSuspect { sender := q, agent := a } cause) s = .next { s with
        outbox := s.outbox ++ s.livePositions.map (fun p => Msg.ctl p (.agentDead a cause)) }) ∧
      (cause = 2 → s.cache.portsLost = [] → (∀ p ∈ s.agentAt a.toNat, s.isLost p = true ∨ p = q.toNat) →
        exec (.agentSuspect { sender := q, agent := a } cause) s = .next { s with
          outbox := s.outbox ++ s.livePositions.map (fun p => Msg.ctl p (.agentDead a 2)) }) ∧
      (cause = 2 → s.cache.portsLost = [] → (∃ p ∈ s.agentAt a.toNat, s.isLost p = false ∧ p ≠ q.toNat) →
        exec (.agentSuspect { sender := q, agent := a } cause) s = .next { s with cache.portsLost := [(a, q.toNat)] })) ∧
    ∀ (q : Pos) (a : Agent) (s : State), s.active = true → s.isLeader = true → s.deaf q.toNat = false →
      ((∃ p ∈ s.livePositions, p ≠ q.toNat ∧ (a, p) ∉ s.cache.fencedBy) → (a, q.toNat) ∉ s.cache.fencedBy →
        exec (.fenced q a) s = .next { s with cache.fencedBy := s.cache.fencedBy ++ [(a, q.toNat)] }) ∧
      ((∀ p ∈ s.livePositions, p = q.toNat ∨ (a, p) ∈ s.cache.fencedBy) →
        exec (.fenced q a) s = .next { s with
          cache.fencedBy := s.cache.fencedBy.filter (fun e => e.1 != a)
          outbox := s.outbox ++ s.livePositions.map (fun p => Msg.ctl p (.reclaim a)) })) ∧
  (∀ (a : Agent) (cause : BitVec 2) (s : State), s.active = true → a.toNat < 48 →
      s.cache.reqs = [] → s.cache.plrs = [] → s.cache.parked = [] → (∀ k ∈ s.shadow.ports, k.r.src = a → k.r.urgent = false) →
      exec (.agentDead a cause) s = .next { s with toDev :=
        { s.put F.fctFence_MASK (s.get F.fctFence_MASK ||| 2 ^ a.toNat) with
          cache.tickets := s.cache.tickets.filter (fun t => t.agent != a)
          cache.deaths := s.cache.deaths.filter (fun (d : Death) => d.agent != a) ++
            [({ agent := a, cause := cause, start := ((s.cache.suspected.find? (fun e => e.1 == a)).map Prod.snd).getD s.now
                walk := 0, last := none } : Death)]
          cache.suspected := s.cache.suspected.filter (fun e => e.1 != a)
          shadow.ports := s.shadow.ports.filter (fun q => q.r.src != a)
          outbox := s.outbox ++ [Msg.ctl s.leader (.fenced a)] } })

/-- RECLAIM: the walk takes the dead agent off a shared entry, and poisons in the stack a granule that it owned and that the cache
does not hold, which stays held until the poison is written, as urgent demand (R262 to R264). DEATH_WALK_END: once no open
transaction concerns the dead agent, a facet that poisoned any granule writes a record of type 6; with no poison write of the
death left, FCT_DEATH takes the agent, its cause, the time from its detection to its last poison write, or to the walk's end where
it wrote none, and the granules poisoned, and the facet's alert is raised. Until then the death stays open (R262, R265, R273,
R786; log entry 98). Completion, exec answering a next state under conditions on state and operands alone, is concluded here for:
reclaim, deathWalkEnd. -/
def Obligations.DeathsAreReclaimed : Prop :=
  (∀ (a : Agent) (k w : Nat) (e : DirEntry) (s : State), s.active = true → s.fenced a.toNat = true → s.quiet = true →
      s.unscathed = true → s.cache.dir = [(k, e)] → s.dirLookup (s.dirPlace e) = some (w, e) →
      (∀ l, e.st = .shared l → a ∈ l → exec (.reclaim a) s = .next { s with
        cache.dir := (match mkShared (l.filter (fun b => b != a)) with
          | some st => [(k, { e with st := st })]
          | none => [])
        cache.deaths := s.cache.deaths.map (fun (d : Death) => if d.agent == a then { d with walk := max 1 d.walk } else d) }) ∧
      (e.st = .excl a → e.shadowed = false → s.lookup (s.dirPlace e) = none → s.cache.wbs = [] → s.shadow.puts = [] →
        ∃ t : State, exec (.reclaim a) s = .next t ∧ t.held (s.dirPlace e) = true ∧
          ∃ x, t.stack.writes = s.stack.writes ++ [x] ∧ x.d = (s.dirPlace e).d ∧ x.poison = true ∧ x.cls = .urgent)) ∧
  (∀ (x : Death) (s : State), s.cache.deaths.filter (fun d => d.agent == x.agent) = [x] → x.walk < 2 →
      (∀ d ∈ s.cache.deaths, d.agent ≠ x.agent → d.walk < 2) →
      let left := fun (w : Wb) => match w.why with
        | .poison b _ => b == x.agent
        | _ => false
      let at_ := fun (k : Nat) => s.cache.deaths.map (fun (d : Death) =>
        if d.agent == x.agent then { d with walk := k, last := d.last.or (some s.now) } else d)
      let v := fun (n : Nat) => 2 ^ 63 + x.agent.toNat * 2 ^ 50 + x.cause.toNat * 2 ^ 48 +
        min ((x.last.getD s.now - x.start) / 1600) 65535 * 2 ^ 32 + min n (2 ^ 32 - 1)
      (s.deathOpen x.agent = true → exec (.deathWalkEnd x.agent) s = .next { s with cache.deaths := at_ 2 }) ∧
      (s.deathOpen x.agent = false → s.cache.deathCount = [] → s.cache.wbs.any left = true →
        exec (.deathWalkEnd x.agent) s = .next { s with cache.deaths := at_ 3 }) ∧
      (s.deathOpen x.agent = false → s.cache.deathCount = [] → s.cache.wbs.any left = false →
        exec (.deathWalkEnd x.agent) s = .next { s with toDev :=
          { (s.setReg R.fctDeath (v 0)).alert alertFct with cache.deaths := s.cache.deaths.filter (fun d => d.agent != x.agent) } }) ∧
      ∀ f n d, s.deathOpen x.agent = false → s.cache.deathCount = [(x.agent, f, n, d)] → s.cache.wbs.any left = false →
        exec (.deathWalkEnd x.agent) s = .next { s with toDev :=
          { ((s.errorRecord 0x06 f d (x.agent.toNat + x.cause.toNat * 64) n).setReg R.fctDeath (v n)).alert alertFct with
            cache.deaths := s.cache.deaths.filter (fun d => d.agent != x.agent), cache.deathCount := [] } })

/-! ### The stack side, mirrors and parity -/

/-- DRAM_WRITE_COMPLETE of the oldest write of its sub-block: every byte of it is stored, no other byte of the stack changes, and
the
sub-block holds the poison code word just when the write was of poison (R549). RETIREMENT_COPY_DONE with no column lost: the
oldest row copy whose 256 accesses are made is remapped to its spare, counted and reported, and its row health entry reads retired
(R574, R576, R577). CHANNEL_FAIL: the channel's bit is set, and with a second failed channel of the stack the stack has failed;
every read in flight there is lost, and no write there waits any more. STK_ERR tells of it (R580, R581, R586). Completion, exec
answering a next state under conditions on state and operands alone, is concluded here for: dramWriteComplete, retirementCopyDone,
channelFail. -/
def Obligations.StackEventsAreTaken : Prop :=
  (∀ (w : DramWrite) (s : State), s.quiet = true → s.stack.writes.find? (fun x => x.id == w.id) = some w →
      s.stack.writes.find? (fun x => x.d == w.d) = some w → w.issued = true → s.channelFailed (s.groupAt w.d) = false →
      s.memoriesWf = true → (∀ i, w.why ≠ .wb i) → (∀ i, w.why ≠ .parity i) →
      ∃ t : State, exec (.dramWriteComplete w.id) s = .next t ∧
        (∀ a, memGet t.stack.dram a = if w.d ≤ a ∧ a < w.d + 64 then
            (if w.poison = true then 0 else BitVec.ofNat 8 (bitsOf w.data.toNat (8 * (a - w.d) + 7) (8 * (a - w.d))))
          else memGet s.stack.dram a) ∧
        (∀ n, n ∈ t.stack.poison ↔ if n = w.d / 64 then w.poison = true else n ∈ s.stack.poison) ∧
        t = { s with stack.writes := s.stack.writes.filter (fun x => x.id != w.id), stack.dram := t.stack.dram
                     stack.poison := t.stack.poison }) ∧
  (∀ (c : RowCopy) (s : State), s.stack.copies.find? (fun x => 256 ≤ x.moved) = some c →
      ∃ t : State, exec (.retirementCopyDone []) s = .next t ∧ t.stack.copies = s.stack.copies.erase c ∧
        t.stack.remaps = { stack := bitsOf c.rowAddr.toNat 31 31, channel := bitsOf c.rowAddr.toNat 30 26
                           pc := bitsOf c.rowAddr.toNat 25 25, bank := bitsOf c.rowAddr.toNat 24 19
                           row := bitsOf c.rowAddr.toNat 18 7, spare := c.spare } :: s.stack.remaps ∧
        t.get F.stkRows_RETIRED = min (s.get F.stkRows_RETIRED + 1) F.stkRows_RETIRED.max ∧ t.get F.stkErr_ROW_RETIRED = 1 ∧
        (∀ i, s.rowFind c.rowAddr.toNat = some i → t.afterglow =
          memWrite s.afterglow (0x3000 + 8 * i) 8 (2 * 2 ^ 62 + c.spare * 2 ^ 60 + c.rowAddr.toNat)) ∧
        t = { s with csr := t.csr, stack.copies := t.stack.copies, stack.remaps := t.stack.remaps, afterglow := t.afterglow }) ∧
  (∀ (k : Fin 2) (ch : Fin 32) (s : State), s.registersWf = true →
      let chF := if k = 0 then F.stkStatus0_CH_FAILED else F.stkStatus1_CH_FAILED
      let stF := if k = 0 then F.stkStatus0_STATE else F.stkStatus1_STATE
      ∃ t : State, exec (.channelFail k ch) s = .next t ∧ t.get chF = s.get chF ||| 2 ^ ch.val ∧
        t.get stF = (if 2 ≤ popCount 32 (s.get chF ||| 2 ^ ch.val) then 4 else s.get stF) ∧
        t.get F.stkErr_CH_FAILED = 1 ∧
        t.stack.reads = s.stack.reads.map (fun r => if t.channelFailed r.grp = true then { r with dead := true, issued := true } else r) ∧
        t.stack.writes = s.stack.writes.map (fun w => if t.channelFailed (w.pc / 2) = true then { w with issued := true } else w) ∧
        t = { s with csr := t.csr, afterglow := t.afterglow, stack.reads := t.stack.reads, stack.writes := t.stack.writes })

/-- MIRROR_PUT at the buddy: the data is pulled, stored dirty in the sector's mirror way with AGE 0, and its receipt answered; the
put's record is kept. MIRROR_RELEASE of every sub-block the way holds frees the way and its records (R601, R606, R608, R609).
PARITY_DELTA of a sub-block that no update is for: its data is pulled and an update of it opens, which reads the old parity, or,
in a set of 2, writes the copy at once and records it. PARITY_RELEASE drops the record (R597, R598, R600, R601). Completion, exec
answering a next state under conditions on state and operands alone, is concluded here for: mirrorPut, mirrorRelease, parityDelta,
parityRelease. -/
def Obligations.ShadowCopiesAreKept : Prop :=
  (∀ (q : Pos) (txid : BitVec 12) (d : BitVec 64) (i : BitVec 2) (grp : BitVec 6) (x : Sub) (rc : Option AtomicRecord) (w : Nat)
      (s : State), s.active = true → s.deaf q.toNat = false → s.unscathed = true → d.toNat < deviceEnd →
      s.mirrorWay grp.toNat (d.toNat / 256 * 256) = some w →
      (∃ t : State, exec (.mirrorPut q txid d (BitVec.ofNat 4 (2 ^ i.toNat)) grp [x] rc) s = .next t ∧
        t.outbox = s.outbox ++ [Msg.pull (sliceAgent q.toNat) txid, Msg.comp q.toNat txid [.ok]] ∧
        (∃ l, t.line (s.fuse.owner grp.toNat) (setIndex (d.toNat / 256 * 256)) w = some l ∧ l.isDirty i.toNat = true ∧
          Sector.sub l.data i.toNat = x ∧ l.age = 0) ∧
        t.shadow.records = s.shadow.records ++ (rc.map (fun a => (recordKey grp.toNat (d.toNat / 256 * 256), a))).toList ∧
        t = { s with outbox := t.outbox, cache.lines := t.cache.lines, shadow.records := t.shadow.records }) ∧
      ∀ l, q.toNat = s.buddy → s.cache.lines = [(lineKey (s.fuse.owner grp.toNat) (setIndex (d.toNat / 256 * 256)) w, l)] →
        l.tag = (s.placeAt grp.toNat (d.toNat / 256 * 256) true).tag →
        l.group = (s.placeAt grp.toNat (d.toNat / 256 * 256) true).group →
        exec (.mirrorRelease q d 0xF grp) s = .next { s with
          cache.lines := []
          shadow.records := s.shadow.records.filter (fun r => r.1 != recordKey grp.toNat (d.toNat / 256 * 256)) }) ∧
  (∀ (q : Pos) (txid : BitVec 12) (d : BitVec 64) (x : Sub) (bad : Bool) (s : State), s.active = true →
      s.isLost q.toNat = false → d.toNat < deviceEnd → d.toNat % 64 = 0 → s.shadow.parity = [] →
      (s.shadow.deltas.length < 4096 → 2 < s.setSize →
        ∃ t : State, exec (.parityDelta q txid d x bad) s = .next t ∧
          t.outbox = s.outbox ++ [Msg.pull (sliceAgent q.toNat) txid] ∧
          t.shadow.parity = [{ id := s.nextId, d := d.toNat, deltas := [(q, txid, x, bad)], started := true, writing := false
                               recompute := false }] ∧
          (∃ r, t.stack.reads = s.stack.reads ++ [r] ∧ r.why = .parity s.nextId ∧ r.sector = d.toNat / 256 * 256)) ∧
      (s.shadow.deltas.length < 4096 → s.setSize = 2 →
        ∃ t : State, exec (.parityDelta q txid d x bad) s = .next t ∧
          t.outbox = s.outbox ++ [Msg.pull (sliceAgent q.toNat) txid] ∧
          t.shadow.deltas = s.shadow.deltas ++ [{ sender := q, txid := txid, d := d.toNat }] ∧
          (∃ w, t.stack.writes = s.stack.writes ++ [w] ∧ w.why = .parity s.nextId ∧ w.d = d.toNat ∧ w.poison = bad ∧
            (bad = false → w.data = x))) ∧
      exec (.parityRelease q txid d) s = .next { s with shadow.deltas :=
        (s.shadow.deltas.filter (fun r => !(r.sender == q && r.txid == txid && r.d == d.toNat))) })

/-- RECON_READ reads the sub-block for its sender, as urgent demand for an urgent request (R481), and READ_DATA is held while
another
member's answer is awaited (R612). PULL at a slice sends the data of its mirror put. COMP of an evicted sub-block's only delta
sends PARITY_RELEASE and ends the write-back (R468, R598, R601). Completion, exec answering a next state under conditions on state
and operands alone, is concluded here for: reconRead, readData, comp, pull. -/
def Obligations.ShadowAnswersAreTaken : Prop :=
  (∀ (q : Pos) (txid : BitVec 12) (d : BitVec 64) (u : Bool) (a : ReconAnswer) (e : Recon) (s : State), s.active = true → s.deaf q.toNat = false →
      s.deaf a.sender.toNat = false →
      (d.toNat < deviceEnd → d.toNat % 64 = 0 →
        ∃ t : State, exec (.reconRead { pos := q, urgent := u } txid d) s = .next t ∧
          (∃ r, t.stack.reads = s.stack.reads ++ [r] ∧ r.why = .recon q.toNat txid u ∧ r.cls = (if u then .urgent else .demand) ∧ r.sector = d.toNat / 256 * 256 ∧
            r.subs = BitVec.ofNat 4 (2 ^ ((d.toNat / 64) % 4))) ∧ t.outbox = s.outbox ∧ s.regsKept t.toDev []) ∧
      (({ s with shadow.recons := [] } : State).quiet = true → s.shadow.recons = [e] → e.id % 4096 = a.txid.toNat →
        a.sender.toNat ∈ e.waiting → e.waiting.erase a.sender.toNat ≠ [] →
        exec (.readData a) s = .next { s with shadow.recons :=
          [{ e with waiting := e.waiting.erase a.sender.toNat, answers := e.answers ++ [a] }] })) ∧
  (∀ (q : Pos) (txid : BitVec 12) (u : Put) (w : Wb) (k x : Nat) (s : State), s.active = true → s.deaf q.toNat = false → s.quiet = true →
      (q.toNat = s.buddy → s.shadow.puts = [u] → u.txid % 4096 = txid.toNat →
        exec (.pull q txid) s = .next { s with outbox := s.outbox ++ [Msg.writeData q.toNat txid 0 (u.data.map (fun _ => .ok)) u.data u.record] }) ∧
      (s.shadow.puts = [] → s.shadow.deltaOut = [(k, w.id, x)] → k % 4096 = txid.toNat → s.cache.wbs = [w] → w.adopted = false →
        s.isLost (paritySlice w.d s.setSize) = false → s.shadow.order = [] →
        exec (.comp q txid [0]) s = .next { s with
          shadow.deltaOut := [], cache.wbs := []
          outbox := s.outbox ++ [Msg.parityRelease q.toNat k w.d] }))

/-- ADOPTION_WALK_END: the new home tells the other live slices, SHD_TAKEOVER records the takeover, and SHD_STATUS.STATE goes on
to 2;
no request waits for the lost home any more (R621, R623, R640). REBUILD_CHUNK_DONE of the next chunk in the rebuild's order, with
the copies that R631 gives it, this slice's own, if any, being written: the chunk's two copies are known, REBUILD_PCT follows, and
the last of the shadowed chunks ends the rebuild (R630, R631, R632). Completion, exec answering a next state under conditions on
state and operands alone, is concluded here for: adoptionWalkEnd, rebuildChunkDone. -/
def Obligations.FailoverEnds : Prop :=
  (∀ s : State, s.active = true → s.shadow.walking = true →
      ∃ t : State, exec .adoptionWalkEnd s = .next t ∧ t.shadow.walking = false ∧ t.get F.shdStatus_STATE = 2 ∧
        t.get F.shdTakeover_VALID = 1 ∧ t.get F.shdTakeover_LOST = s.get F.shdStatus_ADOPTED ∧
        (∀ q ∈ t.shadow.ports, q.home ≠ s.get F.shdStatus_ADOPTED) ∧
        (∀ p ∈ s.livePositions, p ≠ s.pos → ∃ b, Msg.ctl p (.homeMoved (BitVec.ofNat 3 (s.get F.shdStatus_ADOPTED))
          (BitVec.ofNat 3 s.pos) true b) ∈ t.outbox) ∧
        s.regsKept t.toDev [R.shdStatus, R.shdTakeover] ∧
        t = { s with csr := t.csr, outbox := t.outbox, shadow.walking := false, shadow.ports := t.shadow.ports }) ∧
  (∀ (chunk : BitVec 17) (c0 c1 : Pos × BitVec 17) (s : State), s.active = true → s.rebuilding.isSome = true →
      s.rebuildNext = some chunk.toNat → s.rebuildCopies chunk.toNat = (c0, c1) →
      (s.rebuildHere chunk.toNat = none ∨ (∀ pc < 128, 256 ≤ tgetD s.shadow.rebuildAt pc 0) ∧ s.rebuildOpen = false) →
      let copies := tset s.shadow.copies chunk.toNat (c0, c1)
      let s1 := s.put F.shdStatus_REBUILD_PCT (copies.length * 100 / s.get F.shdConfig_SHADOWED)
      exec (.rebuildChunkDone chunk c0 c1) s = .next { s with toDev :=
        { (if copies.length = s.get F.shdConfig_SHADOWED then (s1.put F.shdErr_REBUILD_DONE 1).put F.shdStatus_STATE 0
           else s1.put F.shdStatus_STATE 3) with shadow.copies := copies, shadow.rebuildAt := [], shadow.bufferWanted := [] } })

/-! ### Planned work -/

/-- WAVE_START of an idle engine whose oldest pending wave no earlier writer holds back, while no flow has started: the wave runs,
LNS_STATUS names it and shows its first tile loading, and a start a slot or more after its issue is counted late (R353, R354,
R355, R365). FLOW_START of an issued flow whose sources what writes them has left: the member takes its own source lines; a leaf
that is not the root sends each at once toward the root (R417, R422, R517). FLOW_LINE_APPLY at the root, to a Shade or tile-store
destination that takes the sum as it is: the sub-block holds the line's sum, or is poisoned where an input was, which
CRD_ERR.POISON_OUT says; a poisoned line does not count in REDUCE_LINES (R410, R413, R418, R419, R433). Completion, exec answering
a next state under conditions on state and operands alone, is concluded here for: waveStart, flowStart, flowLineApply. -/
def Obligations.PlannedWorkStarts : Prop :=
  (∀ (e : Fin 4) (i at_ : Nat) (rest : List (Nat × Nat)) (bad : List (Space × BitVec 64)) (err : List (BitVec 14 × DataErr)) (s : State),
      s.active = true → s.quiet = true → e.val < s.lensCount → i < 4096 → (∀ x ∈ s.frm.items, ∀ k, x.1 ≠ .transfer k) →
      s.lens.engines = [(e.val, { running := none, pending := (i, at_) :: rest })] →
      s.writerBefore (s.itemSlot (.wave e.val i)) (waveOf s.plan i).activations (fun y => y == .wave e.val i) = false →
      s.flowsWait s.frm.items = true →
      ∃ t : State, exec (.waveStart e bad err) s = .next t ∧ (t.engine e.val).pending = rest ∧
        (∃ w, (t.engine e.val).running = some w ∧ w.desc = i ∧ w.taken = false ∧ w.begun = s.now ∧
          ((waveOf s.plan i).wSpace ≠ 0 → (waveOf s.plan i).outMode ≠ 1 → w.out = false ∧ w.loads = [])) ∧
        t.get (F.lnsStatus_WAVE e.val) = i ∧ t.get (F.lnsStatus_STATE e.val) = 2 ∧
        t.get (F.lnsStatus_PENDING e.val) = min 3 rest.length ∧ t.get (F.lnsStatus_TILE e.val) = 0 ∧
        (at_ + s.slotLen ≤ s.now → t.get (F.lnsErr_LATE e.val) = 1 ∧
          t.get (F.lnsLate_LATE_WAVES e.val) = min (s.get (F.lnsLate_LATE_WAVES e.val) + 1) (2 ^ 32 - 1)) ∧
        t.frm = s.frm ∧ t.stack.dram = s.stack.dram ∧
        ((waveOf s.plan i).wSpace ≠ 0 → (waveOf s.plan i).outMode ≠ 1 → (∀ x ∈ bad, x.1 = .mem → s.cachedAt x.2.toNat = none) →
          t = { s with csr := t.csr, afterglow := t.afterglow, cache.dataBad := t.cache.dataBad, lens := t.lens, outbox := t.outbox })) ∧
  (∀ (i : BitVec 12) (r : LineRun) (s : State), s.active = true → s.quiet = true → s.lens.runs = [r] → r.flow = true →
      r.desc = i.toNat → r.started = false → r.handled = [] → s.lens.engines = [] → s.issued (.flow i.toNat) = true →
      (flowOf s.plan i.toNat).contributes s.pos = true → (flowOf s.plan i.toNat).op ≠ 2 →
      (∀ k < (flowOf s.plan i.toNat).srcCount, s.sourceReady i.toNat k = true) → s.unscathed = true → r.taken = [] → r.own = [] →
      let d := flowOf s.plan i.toNat
      let taken := (List.range d.srcCount).map (fun k => (k, (s.sourceLines d k).map (fun x => (x.1, x.2.1))))
      let own := (d.ownLines s.pos taken).map (fun x => (x.1, x.2.1, x.2.2.1))
      (d.root = s.pos → ∃ t : State, exec (.flowStart i) s = .next t ∧
        t = { s with csr := t.csr, lens.runs := [{ r with started := true, taken := taken, own := own }] }) ∧
      (d.root ≠ s.pos → d.children s.pos = [] → ∃ t : State, exec (.flowStart i) s = .next t ∧
        t.outbox = s.outbox ++ own.map (fun x => Msg.latticeLine (s.latticePort (parentOf d.parent s.pos))
          (parentOf d.parent s.pos) (BitVec.ofNat 3 s.pos) true i.toNat x.1 x.2.1 x.2.2) ∧
        t = { s with csr := t.csr, outbox := t.outbox
                     lens.runs := [{ r with started := true, taken := taken, own := own, handled := List.range d.lines }] })) ∧
  (∀ (i : BitVec 12) (l : BitVec 17) (r : LineRun) (x : Sub) (bad : Bool) (fl : ArithFlags) (cls h o : Nat) (s : State),
      s.active = true → s.quiet = true → s.lens.runs = [r] → r.flow = true → r.desc = i.toNat → r.started = true →
      s.issued (.flow i.toNat) = true → (flowOf s.plan i.toNat).root = s.pos → l.toNat < (flowOf s.plan i.toNat).lines →
      l.toNat ∉ r.handled → (flowOf s.plan i.toNat).dstSpace ≠ 0 → (flowOf s.plan i.toNat).op ≠ 2 →
      (flowOf s.plan i.toNat).dstInit = true → s.rootLine (flowOf s.plan i.toNat) r l.toNat = some ([x], bad, fl) →
      s.windowOf (if (flowOf s.plan i.toNat).dstSpace = 1 then .shade else .tile)
        (bitsOf (flowOf s.plan i.toNat).dstAddr 28 0 + 64 * l.toNat) = .store cls h o →
      ∃ t : State, exec (.flowLineApply i l) s = .next t ∧
        t.windowRead (flowOf s.plan i.toNat).dstSpace (bitsOf (flowOf s.plan i.toNat).dstAddr 28 0 + 64 * l.toNat) =
          (if bad = true then none else some x) ∧
        t.lens.runs = [{ r with handled := r.handled ++ [l.toNat] }] ∧
        t.get F.crdCount_REDUCE_LINES = min (s.get F.crdCount_REDUCE_LINES + (if bad = true then 0 else 1)) F.crdCount_REDUCE_LINES.max ∧
        (bad = true → t.get F.crdErr_POISON_OUT = 1) ∧
        t = { s with csr := t.csr, cache.lines := t.cache.lines, lens.runs := t.lens.runs })

/-- WAVE_COMPLETE, FLOW_COMPLETE and TRANSFER_COMPLETE of an item whose work is done, with no other transfer in the frame and no
output of another item to take: the item leaves the plan frame, the engine is free and the wave or flow is counted; with no item
left but background steps whose work is done, and the last slot of the frame begun, FRAME_DONE goes to the leader (R51, R357,
R424, R430, R518). Completion, exec answering a next state under conditions on state and operands alone, is concluded here for:
waveComplete, flowComplete, transferComplete. -/
def Obligations.PlannedItemsComplete : Prop :=
  ∀ (c : Instr) (it : Item) (k : Nat) (rest : List (Item × Nat)) (s : State),
    s.active = true → s.quiet = true → s.frm.items = (it, k) :: rest → (∀ x ∈ rest, ∀ i, x.1 ≠ .transfer i) → s.flowsWait rest = true →
    ((∃ (e : Fin 4) (w : WaveRun) (ps : List (Nat × Nat)), c = .waveComplete e ∧ it = .wave e.val w.desc ∧
        s.lens.engines = [(e.val, { running := some w, pending := ps })] ∧
        ((waveOf s.plan w.desc).outMode = 2 → w.taken = true) ∧ ((waveOf s.plan w.desc).outMode = 1 → w.out = true) ∧
        ∀ x ∈ s.cache.plrs, x.id ∈ w.loads → x.fetching = 0) ∨
     (∃ (i : BitVec 12) (r : LineRun), c = .flowComplete i ∧ it = .flow i.toNat ∧ s.lineRun true i.toNat = some r ∧
        r.started = true ∧ ∀ l ∈ (if (flowOf s.plan i.toNat).root = s.pos then List.range (flowOf s.plan i.toNat).lines
          else (flowOf s.plan i.toNat).handles s.pos), l ∈ r.handled) ∨
     (∃ (i : BitVec 12) (r : LineRun), c = .transferComplete i ∧ it = .transfer i.toNat ∧ s.lineRun false i.toNat = some r ∧
        r.started = true ∧ ∀ l < (transferOf s.img.force.lattice i.toNat).lines, (r.anyLine l).isSome = true ∧
          l ∈ r.handled)) →
    ∃ t : State, exec c s = .next t ∧ t.frm.items = rest ∧
      (∀ (e : Fin 4) (ps : List (Nat × Nat)) (w : Option WaveRun), c = .waveComplete e →
        s.lens.engines = [(e.val, { running := w, pending := ps })] →
        t.engine e.val = { running := none, pending := ps } ∧
        t.get (F.lnsCount_WAVES e.val) = min (s.get (F.lnsCount_WAVES e.val) + 1) (2 ^ 32 - 1)) ∧
      (∀ i, c = .flowComplete i → (flowOf s.plan i.toNat).root = s.pos →
        t.get F.crdFar_FLOWS = min (s.get F.crdFar_FLOWS + 1) (2 ^ 32 - 1)) ∧
      ((∃ x ∈ rest, s.itemOver x.1 = false) → t.outbox = s.outbox ∧ t.frm.doneSent = s.frm.doneSent) ∧
      ((∀ x ∈ rest, s.itemOver x.1 = true) → s.frm.started = true → s.frm.doneSent = false → s.get F.pwrThrottle_THERMAL = 0 →
        (s.frm.frameRunning = false ∨ s.lastIssue < s.frm.slot) →
        t.frm.doneSent = true ∧ t.outbox = s.outbox ++ [Msg.ctl s.leader (.frameDone (BitVec.ofNat 48 s.frameNo)
          (s.get F.frmStatus_HOLDOVER == 0))])

/-! ### Links -/

/-- PORT_TRAINED: a module is up that trained at the port's rate with no more failed lanes than its spares (2, 2, 1 and 1 of its
four
lane groups, PRESUMED of UCIe, log entry 120), PWK_STATUS says so, and with the last port of the boot order the slice starts
discovery (R454, R492, R505, R753). LANE_FAIL, MODULE_RETURN and MODULE_FAIL of a port whose other module works: the module goes
down and the other carries every flit, comes back with its lane repaired and counted, or stays down for good and leaves a half
port that carries no lattice; that a die link then counts as lost for the lattice at once is log entry 121 (R455, R456, R493,
R527). LINK_SILENCE of an agent port: the port is lost with cause 1 and stays so, PWK_ERR, PWK_LOSS and ALERT_N tell of it, and
the other ports work as before (R486, R487, R493, R500). PWK_GLINT sends a glint at every named port that is neither barred nor
training (R66, R489, R499, R619). Completion, exec answering a next state under conditions on state and operands alone, is
concluded here for: portTrained, laneFail, moduleReturn, moduleFail, linkSilence, pwkGlint. -/
def Obligations.PortsTrainAndFail : Prop :=
  (∀ (p : Fin 6) (m0 m1 : ModuleTraining) (x0 x1 : FailedLanes) (s : State), s.registersWf = true →
      (s.phase = .boot 8 ∨ s.phase = .lit ∨ s.phase = .dim ∨ s.phase = .waking) → (s.port p.val).barred = false →
      s.get (F.pwkStatus_STATE p.val) = 1 → (s.port p.val).sidebandOnly = false →
      let u0 := moduleGood m0 x0 s.portRate
      let u1 := moduleGood m1 x1 s.portRate
      ∃ t : State, exec (.portTrained p m0 m1 x0 x1) s = .next t ∧ (t.port p.val).trained = true ∧
        (t.port p.val).up0 = u0 ∧ (t.port p.val).up1 = u1 ∧ (t.port p.val).rxSeq = 0xFFF ∧ (t.port p.val).acked = 0xFFF ∧
        t.get (F.pwkStatus_STATE p.val) = (if u0 = true ∧ u1 = true then 2 else if u0 = true ∨ u1 = true then 3 else 0) ∧
        t.get (F.pwkStatus_REPAIRED0 p.val) = (if u0 = true then moduleRepaired x0 else 0) ∧
        t.get (F.pwkStatus_REPAIRED1 p.val) = (if u1 = true then moduleRepaired x1 else 0) ∧
        t.phase = (if s.phase = .boot 8 ∧ (List.range 6).all (fun q => q == p.val || (s.port q).trained) = true then .boot 9 else s.phase) ∧
        t = { s with csr := t.csr, links := t.links, phase := t.phase, outbox := t.outbox }) ∧
  (∀ (p : Fin 6) (m : Fin 2) (rep : BitVec 4) (s : State), s.active = true → s.get (F.pwkStatus_STATE p.val) = 2 →
      (if m = 0 then (s.port p.val).up1 else (s.port p.val).up0) = true →
      let down := if m = 0 then 2 else 1
      let off := fun (x : Port) => if m = 0 then { x with up0 := false } else { x with up1 := false }
      let on := fun (x : Port) => if m = 0 then { x with up0 := true } else { x with up1 := true }
      ((if m = 0 then (s.port p.val).up0 else (s.port p.val).up1) = true →
        exec (.laneFail p m) s = .next { s with toDev := (s.updPort p.val off).put (F.pwkStatus_MOD_UP p.val) down }) ∧
      ((if m = 0 then (s.port p.val).up0 else (s.port p.val).up1) = false →
        exec (.moduleReturn p m rep) s = .next { s with toDev :=
          (((((s.updPort p.val on).put (F.pwkStatus_MOD_UP p.val) 3).put
            (if m = 0 then F.pwkStatus_REPAIRED0 p.val else F.pwkStatus_REPAIRED1 p.val) rep.toNat).put
            (F.pwkErr_LANE_REPAIRED p.val) 1).bump (F.pwkCount_LANE_REPAIRS p.val)) }) ∧
      ∃ t : State, exec (.moduleFail p m) s = .next t ∧
        (s.isDieLink p.val = false ∨ s.discField 63 63 = 0 ∨ t.phase ≠ .eclipse → t.get (F.pwkStatus_STATE p.val) = 3 ∧
          t.get (F.pwkErr_MODULE_LOST p.val) = 1 ∧ t.get (F.pwkStatus_LATTICE p.val) = 0 ∧ t.port p.val = off (s.port p.val)) ∧
        (s.isDieLink p.val = false ∨ s.discField 63 63 = 0 → t = { s with csr := t.csr, links.ports := t.links.ports }) ∧
        (s.isDieLink p.val = true → s.discField 63 63 = 1 → gridNext s.pos (s.get (F.pwkCfg_NEIGHBOUR p.val)) = true → t.phase ≠ .eclipse →
          bitAt (t.get F.pwkDetour_LOST_LINKS) (linkIndex s.pos (s.get (F.pwkCfg_NEIGHBOUR p.val))) = true)) ∧
  (∀ (p : Fin 6) (s : State), s.active = true → s.registersWf = true → s.portUp p.val = true →
      s.isDieLink p.val = false → s.get F.pwkLoss_VALID = 0 →
      ∃ t : State, exec (.linkSilence p) s = .next t ∧ t.get (F.pwkStatus_STATE p.val) = 4 ∧
        t.get (F.pwkErr_LINK_LOST p.val) = 1 ∧ t.get F.pwkLoss_VALID = 1 ∧ t.get F.pwkLoss_PORT = p.val ∧
        t.get F.pwkLoss_CAUSE = 1 ∧ (t.port p.val).up0 = false ∧ (t.port p.val).up1 = false ∧
        bitAt (t.reg R.gnmAlert) alertPwk = true ∧
        (∀ q, t.portUp q = true ↔ s.portUp q = true ∧ q ≠ p.val) ∧
        t = { s with csr := t.csr, links.ports := t.links.ports, afterglow := t.afterglow, outbox := t.outbox, cache.suspected := t.cache.suspected }) ∧
  (∀ (ports : BitVec 6) (s : State), s.active = true →
      let ps := (onesOf 6 ports.toNat).filter (fun p => !(s.port p).barred && s.get (F.pwkStatus_STATE p) != 1)
      exec (.pwkGlint ports) s = .next { s with outbox := s.outbox ++ ps.map (fun p => Msg.glint p 0xB12E 0x61170000) })

/-- A flit with a bad CRC is counted and asks for a replay; one in sequence is accepted and its sequence number is the next to
acknowledge; the slots of a message that has come whole go back as credits, and a message for another slice goes on; a message of
which only the first slot has come waits; slots without credit lose the port (R458, R459, R466, R471, R472, R475, R476, R477,
R486, R503). LATTICE_FLIT with a bad CRC is counted, and on a die link asks once for the resend of the next number (which one a
bad flit had is log entry 122); a good one of the current plan frame, for a transfer that has not started here, has its lines kept
until it does (R460, R471, R474, R477, R521, R522). An idle step: a full port of a 32 GT/s set with nothing to send, resend or
wait for sends an idle flit in every LCLK cycle of the SCLK cycle, and no other flit goes out (R461, R478; that an idle step is
one SCLK cycle is log entry 2). Completion, exec answering a next state under conditions on state and operands alone, is concluded
here for: flitReceive, latticeFlit. -/
def Obligations.FlitsAreReceived : Prop :=
  (∀ (p : Fin 6) (f : Flit) (s : State), s.active = true → s.portUp p.val = true →
      (flitOk f = false → ∃ t : State, exec (.flitReceive p f) s = .next t ∧
        t.get (F.pwkCount_CRC_ERRORS p.val) = min (s.get (F.pwkCount_CRC_ERRORS p.val) + 1) (2 ^ 32 - 1) ∧
        t.get (F.pwkErr_CRC p.val) = 1 ∧ t.port p.val = { s.port p.val with askReplay := true } ∧
        t = { s with csr := t.csr, links.ports := t.links.ports }) ∧
      (flitOk f = true → flitField f 57 56 < 2 → flitField f 58 58 = 0 → flitField f 59 59 = 0 →
        BitVec.ofNat 12 (flitField f 43 32) = (s.port p.val).rxSeq + 1 →
        let port := { s.port p.val with acked := BitVec.ofNat 12 (flitField f 55 44), askReplay := false
                                        rxSeq := BitVec.ofNat 12 (flitField f 43 32) }
        ∃ t : State, exec (.flitReceive p f) s = .next t ∧
          (flitSlots f = [] → t.port p.val = port ∧ t.outbox = s.outbox ∧
            t = { s with csr := t.csr, links.ports := t.links.ports, links.tx := t.links.tx }) ∧
          (∀ x : BitVec 256, flitSlots f = [(1, true, x)] → 0 < tgetD (s.tx p.val).room 1 0 → tgetD (s.port p.val).rxSlots 1 [] = [] →
            bitsOf x.toNat 3 0 = 2 → 56 ≤ (wireOf 1 [x]).tgt → (wireOf 1 [x]).tgt ≠ 56 + s.pos → s.discards (wireOf 1 [x]).src = false →
            t.port p.val = { port with rxSlots := tset port.rxSlots 1 [] } ∧
            t.outbox = s.outbox ++ [Msg.credit p.val 1 1, Msg.transit (BitVec.ofNat 6 (wireOf 1 [x]).tgt) (wireOf 1 [x])] ∧
            (∀ q, q ≠ p.val → t.tx q = s.tx q) ∧ (t.tx p.val).queue = (s.tx p.val).queue ∧
            tgetD (t.tx p.val).room 1 0 + 1 = tgetD (s.tx p.val).room 1 0 ∧
            t = { s with csr := t.csr, links.ports := t.links.ports, links.tx := t.links.tx, outbox := t.outbox }) ∧
          (∀ x : BitVec 256, flitSlots f = [(2, true, x)] → 0 < tgetD (s.tx p.val).room 2 0 → tgetD (s.port p.val).rxSlots 2 [] = [] →
            t.port p.val = { port with rxSlots := tset port.rxSlots 2 [x] } ∧ t.outbox = s.outbox ∧
            t = { s with csr := t.csr, links.ports := t.links.ports, links.tx := t.links.tx }) ∧
          (s.overRuns p.val f = true → s.isDieLink p.val = false →
            t.get (F.pwkStatus_STATE p.val) = 4 ∧ t.get (F.pwkErr_PROTOCOL p.val) = 1 ∧ t.portUp p.val = false))) ∧
  (∀ (p : Fin 6) (f : Flit) (s : State), s.active = true → s.quiet = true → s.portUp p.val = true →
      (flitOk f = false → s.isDieLink p.val = false → ∃ t : State, exec (.latticeFlit p f) s = .next t ∧
        t.get (F.pwkCount_CRC_ERRORS p.val) = min (s.get (F.pwkCount_CRC_ERRORS p.val) + 1) (2 ^ 32 - 1) ∧ t = { s with csr := t.csr }) ∧
      (flitOk f = false → s.isDieLink p.val = true → BitVec.ofNat 12 (flitField f 43 32) ∉ (s.port p.val).resent →
        ∃ t : State, exec (.latticeFlit p f) s = .next t ∧
          t.get (F.pwkCount_CRC_ERRORS p.val) = min (s.get (F.pwkCount_CRC_ERRORS p.val) + 1) (2 ^ 32 - 1) ∧
          (t.port p.val).lnak = (s.port p.val).lnak ++ [(s.port p.val).rxLseq + 1] ∧
          (t.port p.val).resent = (s.port p.val).resent ++ [(s.port p.val).rxLseq + 1] ∧
          (t.port p.val).rxLseq = (s.port p.val).rxLseq + 1 ∧
          t = { s with csr := t.csr, links.ports := t.links.ports }) ∧
      (flitOk f = true → s.isDieLink p.val = true → s.get (F.pwkStatus_STATE p.val) = 2 → flitField f 99 72 = 0 →
        BitVec.ofNat 12 (flitField f 43 32) = (s.port p.val).rxLseq + 1 → flitField f 1855 1852 = s.get F.prmFrames_FRAMES % 16 → flitField f 1815 1815 = 0 →
        flitField f 1851 1851 = 0 → flitField f 1820 1819 ≠ 0 → s.lens.runs = [] →
        ∃ t : State, exec (.latticeFlit p f) s = .next t ∧
          t.lens.runs = [{ flow := false, desc := flitField f 1850 1838, started := false, handled := [], taken := [], own := []
                           recv := (List.range (flitField f 1820 1819)).map (fun i => (flitField f 1818 1816,
                             flitField f 1837 1821 + i, latticeLineOf f i, bitAt (flitField f 1811 1792) i)) }] ∧
          (t.port p.val).rxLseq = (s.port p.val).rxLseq + 1 ∧ (t.port p.val).lnak = (s.port p.val).lnak ∧
          t = { s with csr := t.csr, links.ports := t.links.ports, links.tx := t.links.tx, lens.runs := t.lens.runs, outbox := t.outbox })) ∧
  (∀ s : State, s.pending = [] → s.active = true → s.clocked = true → s.links.taken = s.outbox.length →
      s.frm.frameRunning = false → s.frm.started = false →
      (∀ p < 6, (s.port p).rxHeld = [] ∧ (s.tx p).queue = [] ∧ (s.tx p).replay = none ∧ (s.tx p).lresend = [] ∧ (s.tx p).deferred = [] ∧
        (s.tx p).detour = [] ∧ (s.tx p).wait = 0) →
      ∃ t : State, step s = .next t ∧ t.outbox = s.outbox ∧
        (∀ e ∈ t.links.wire, e.2.kind = 3 ∧ e.2.body = [] ∧ e.2.lines = []) ∧
        ∀ p < 6, s.portUp p = true → (s.port p).up0 = true → (s.port p).up1 = true → s.get (F.pwkStatus_RATE p) ≠ 1 →
          (t.links.wire.filter (fun e => e.1 == p)).length = (5 * s.frm.counter + 8) / 4 - (5 * s.frm.counter + 3) / 4)

/-- DISCOVERY_ROUND ORs the partners' PRESENT and ERR bits into the discovery word, after STABLE too; a round that finds no slice at
any port changes nothing but the count of unchanged rounds, and the eighth makes the word stable. DISCOVERY_TIMEOUT ends discovery
that is not stable with error 7 (R506, R508, R509, R510). Completion, exec answering a next state under conditions on state and
operands alone, is concluded here for: discoveryRound, discoveryTimeout. -/
def Obligations.DiscoveryRuns : Prop :=
  ∀ s : State, s.phase = .boot 9 ∨ (s.phase = .lit ∨ s.phase = .dim) ∧ s.discField 63 63 = 1 →
    (∀ partners : List PartnerRead, ∃ t : State, exec (.discoveryRound partners) s = .next t ∧
      (let links := ((partners.take 6).zipIdx.filter (fun e => s.portUp e.2 && partnerSlice e.1 &&
          (s.discField 63 63 == 0 || (s.port e.2).dieLink))).map Prod.fst
       bitsOf t.links.disc.toNat 31 24 =
         links.foldl (fun w r => w ||| bitsOf r.disc.toNat 31 24) (bitsOf s.links.disc.toNat 31 24) ∧
       (bitsOf s.links.disc.toNat 62 60 ≠ 0 → bitsOf t.links.disc.toNat 62 60 =
         links.foldl (fun w r => w ||| bitsOf r.disc.toNat 62 60) (bitsOf s.links.disc.toNat 62 60))) ∧
      (s.phase = .boot 9 → s.discField 63 63 = 0 →
        (∀ e ∈ (partners.take 6).zipIdx, ¬ (s.portUp e.2 = true ∧ partnerSlice e.1 = true)) →
        bitsOf s.links.disc.toNat 62 60 = 0 → bitsOf s.links.disc.toNat 59 48 < 4095 →
        bitsOf t.links.disc.toNat 59 48 = bitsOf s.links.disc.toNat 59 48 + 1 ∧
        (bitsOf t.links.disc.toNat 63 63 = 1 ↔ 7 ≤ bitsOf s.links.disc.toNat 59 48))) ∧
    (s.phase = .boot 9 → s.discField 63 63 = 0 → bitsOf s.links.disc.toNat 62 60 = 0 → exec .discoveryTimeout s = .next { s with toDev :=
      { s.alert alertPwk with links.disc := BitVec.ofNat 64 (withBits s.links.disc.toNat 62 60 7) } })

/-! ### Reflections -/

/-- RFL_DONE with status OK, POISON or DENY, and RFL_ENTRY_TIMEOUT, of a direct read: its requester gets the data in the window, or
POISON, or DENY, and the entry is free; the reason is left in RFL_ERR (R650, R654, R657, R667). RFL_ENTRY_TIMEOUT of a posted
write: the write is lost, which RFL_ERR, ALERT_N and a record of type 0x0D tell, and the entry is free (R657, R672, R786).
Completion, exec answering a next state under conditions on state and operands alone, is concluded here for: rflDoneOk,
rflDonePoison, rflDoneDeny, rflEntryTimeout. -/
def Obligations.ReflectionsEnd : Prop :=
  (∀ (c : Instr) (code : Code) (i : BitVec 8) (e : RflEntry) (id n : Nat) (r : Request) (s : State),
      (c, code) ∈ [(Instr.rflDoneOk i, Code.ok), (.rflDonePoison i, .poison), (.rflDoneDeny i, .deny), (.rflEntryTimeout i, .poison)] →
      s.quiet = true → tget s.rfl_.queue i.toNat = some e → e.write = false → e.fills = false → e.waiters = [(id, 0)] →
      s.cache.reqs = [pulledEntry id (s.region n) .readOnceNofill r n] → r.len = 0 → r.urgent = false → r.view = 0 →
      s.fenced r.src.toNat = false → s.cache.pods = [] →
      ∃ t : State, exec c s = .next t ∧
        t.outbox = s.outbox ++ [Msg.resp r.src r.txid 0 [code] 0 0
          [if code = .ok then s.windowSub i.toNat
            (s.placeOf (pulledEntry id (s.region n) .readOnceNofill r n) 0).sub else 0]] ∧
        t.rfl_.queue = tdel s.rfl_.queue i.toNat ∧
        (c = .rflDonePoison i → t.get F.rflErr_REMOTE_POISON = 1) ∧ (c = .rflEntryTimeout i → t.get F.rflErr_READ_TIMEOUT = 1) ∧
        s.regsKept t.toDev [R.rflErr] ∧
        t = { s with csr := t.csr, outbox := t.outbox, cache.reqs := [], rfl_.queue := t.rfl_.queue, rfl_.hues := t.rfl_.hues }) ∧
  (∀ (i : BitVec 8) (e : RflEntry) (s : State), s.quiet = true → tget s.rfl_.queue i.toNat = some e → e.write = true →
      e.fills = false → e.waiters = [] → s.cache.pods = [] →
      ∃ t : State, exec (.rflEntryTimeout i) s = .next t ∧ t.rfl_.queue = tdel s.rfl_.queue i.toNat ∧
        t.get F.rflErr_WRITE_LOST = 1 ∧ bitAt (t.reg R.gnmAlert) alertRfl = true ∧
        t.afterglow = memWrite s.afterglow (32 * s.get F.rstAg3_HEAD) 32
          (errorRecordValue 0x0D s.pos s.frameNo e.addr.toNat i.toNat 1) ∧
        t = { s with csr := t.csr, afterglow := t.afterglow, rfl_.queue := t.rfl_.queue, rfl_.hues := t.rfl_.hues })
end

