-- ==== Sys2Proof/Laws/Memory.lean ====
section
/-! SUPPORT. Laws of the byte memories: what a write changes, and that every operation keeps the canonical form. -/

namespace Sys2Proof.Machine

/-! ### The canonical form -/

theorem memWfFrom_mono {a b : Nat} {m : Memory} (hab : a ≤ b) (h : memWfFrom b m = true) : memWfFrom a m = true := by
  cases m with
  | nil => rfl
  | cons e t =>
    simp only [memWfFrom, Bool.and_eq_true, decide_eq_true_eq] at h ⊢
    exact ⟨⟨by omega, h.1.2⟩, h.2⟩

theorem memDel_wfFrom {b i : Nat} {m : Memory} (h : memWfFrom b m = true) : memWfFrom b (memDel m i) = true := by
  induction m generalizing b with
  | nil => rfl
  | cons e t ih =>
    simp only [memWfFrom, Bool.and_eq_true, decide_eq_true_eq] at h
    unfold memDel
    split
    · exact memWfFrom_mono (by omega) h.2
    · simp only [memWfFrom, Bool.and_eq_true, decide_eq_true_eq]
      exact ⟨h.1, ih h.2⟩

theorem memIns_wfFrom {b i : Nat} {v : Byte} {m : Memory} (hv : v ≠ 0) (hi : b ≤ i) (h : memWfFrom b m = true) :
    memWfFrom b (memIns m i v) = true := by
  induction m generalizing b with
  | nil => simpa [memIns, memWfFrom, hi] using hv
  | cons e t ih =>
    simp only [memWfFrom, Bool.and_eq_true, decide_eq_true_eq] at h
    unfold memIns
    split
    · simp only [memWfFrom, Bool.and_eq_true, decide_eq_true_eq, bne_iff_ne]
      exact ⟨⟨hi, hv⟩, ⟨by omega, by simpa using h.1.2⟩, h.2⟩
    · split
      · rename_i h1 h2
        have : i = e.1 := by simpa using h2
        simp only [memWfFrom, Bool.and_eq_true, decide_eq_true_eq, bne_iff_ne]
        exact ⟨⟨hi, hv⟩, this ▸ h.2⟩
      · rename_i h1 h2
        have : i ≠ e.1 := by simpa using h2
        simp only [memWfFrom, Bool.and_eq_true, decide_eq_true_eq]
        exact ⟨h.1, ih (by omega) h.2⟩

/-- A byte written keeps the canonical form. -/
theorem memPut_wf {m : Memory} {i : Nat} {v : Byte} (h : memWf m = true) : memWf (memPut m i v) = true := by
  unfold memPut
  split
  · exact memDel_wfFrom h
  · exact memIns_wfFrom ‹_› (Nat.zero_le _) h

/-- Bytes written keep the canonical form. -/
theorem memWrite_wf {m : Memory} {a n v : Nat} (h : memWf m = true) : memWf (memWrite m a n v) = true := by
  induction n generalizing m a v with
  | zero => exact h
  | succ n ih => exact ih (memPut_wf h)

/-- A sub-block written keeps the canonical form. -/
theorem memPutSub_wf {m : Memory} {a : Nat} {v : Sub} (h : memWf m = true) : memWf (memPutSub m a v) = true :=
  memWrite_wf h

theorem filter_wfFrom {b : Nat} {p : Nat × Byte → Bool} {m : Memory} (h : memWfFrom b m = true) :
    memWfFrom b (m.filter p) = true := by
  induction m generalizing b with
  | nil => rfl
  | cons e t ih =>
    simp only [memWfFrom, Bool.and_eq_true, decide_eq_true_eq] at h
    rw [List.filter_cons]
    split
    · simp only [memWfFrom, Bool.and_eq_true, decide_eq_true_eq]
      exact ⟨h.1, ih h.2⟩
    · exact memWfFrom_mono (by omega) (ih h.2)

/-- A memory cleared over part of its addresses keeps the canonical form. -/
theorem filter_wf {p : Nat × Byte → Bool} {m : Memory} (h : memWf m = true) : memWf (m.filter p) = true := filter_wfFrom h

/-! ### Reading back -/

theorem memGet_below {b i : Nat} {m : Memory} (h : memWfFrom b m = true) (hi : i < b) : memGet m i = 0 := by
  induction m generalizing b with
  | nil => rfl
  | cons e t ih =>
    simp only [memWfFrom, Bool.and_eq_true, decide_eq_true_eq] at h
    unfold memGet
    split
    · rename_i h1
      have : e.1 = i := by simpa using h1
      omega
    · exact ih h.2 (by omega)

theorem memGet_memIns (m : Memory) (i j : Nat) (v : Byte) : memGet (memIns m i v) j = if j = i then v else memGet m j := by
  induction m with
  | nil =>
    by_cases hj : j = i
    · simp [memIns, memGet, hj]
    · have : ¬ i = j := fun h => hj h.symm
      simp [memIns, memGet, hj, this]
  | cons e t ih =>
    unfold memIns
    split
    · by_cases hj : j = i
      · simp [memGet, hj]
      · have : ¬ i = j := fun h => hj h.symm
        simp [memGet, hj, this]
    · split
      · rename_i h1 h2
        have h2 : i = e.1 := by simpa using h2
        by_cases hj : j = i
        · simp [memGet, hj]
        · have h3 : ¬ e.1 = j := by omega
          have h4 : ¬ i = j := by omega
          simp [memGet, hj, h3, h4]
      · rename_i h1 h2
        have h2 : ¬ i = e.1 := by simpa using h2
        by_cases hj : e.1 = j
        · have : ¬ j = i := by omega
          simp [memGet, hj, this]
        · simp [memGet, hj, ih]

theorem memGet_memDel {b : Nat} {m : Memory} (h : memWfFrom b m = true) (i j : Nat) :
    memGet (memDel m i) j = if j = i then 0 else memGet m j := by
  induction m generalizing b with
  | nil => simp [memDel, memGet]
  | cons e t ih =>
    simp only [memWfFrom, Bool.and_eq_true, decide_eq_true_eq] at h
    unfold memDel
    split
    · rename_i h1
      have h1 : e.1 = i := by simpa using h1
      by_cases hj : j = i
      · rw [if_pos hj]
        exact memGet_below h.2 (by omega)
      · have : ¬ e.1 = j := by omega
        simp [memGet, hj, this]
    · rename_i h1
      have h1 : ¬ e.1 = i := by simpa using h1
      by_cases hj : e.1 = j
      · have : ¬ j = i := by omega
        simp [memGet, hj, this]
      · simp [memGet, hj, ih h.2]

/-- Reading after a write: the byte written, and every other byte as it was. -/
theorem memGet_memPut {m : Memory} (h : memWf m = true) (i j : Nat) (v : Byte) :
    memGet (memPut m i v) j = if j = i then v else memGet m j := by
  unfold memPut
  split
  · rename_i hv
    rw [memGet_memDel h, hv]
  · exact memGet_memIns m i j v

/-- A write of n bytes leaves every byte outside them as it was. -/
theorem memGet_memWrite_other {m : Memory} (h : memWf m = true) (a n v j : Nat) (hj : j < a ∨ a + n ≤ j) :
    memGet (memWrite m a n v) j = memGet m j := by
  induction n generalizing m a v with
  | zero => rfl
  | succ n ih =>
    unfold memWrite
    rw [ih (memPut_wf h) _ _ (by omega), memGet_memPut h, if_neg (by omega)]

/-- A write of n bytes reads back as their value. -/
theorem memRead_memWrite {m : Memory} (h : memWf m = true) (a n v : Nat) :
    memRead (memWrite m a n v) a n = v % 256 ^ n := by
  induction n generalizing m a v with
  | zero => simp [memRead, Nat.mod_one]
  | succ n ih =>
    unfold memWrite memRead
    rw [ih (memPut_wf h), memGet_memWrite_other (memPut_wf h) _ _ _ _ (by omega), memGet_memPut h, if_pos rfl,
      BitVec.toNat_ofNat, show 256 ^ (n + 1) = 256 * 256 ^ n by rw [Nat.pow_succ, Nat.mul_comm], Nat.mod_mul]

end Sys2Proof.Machine
end

