-- ==== Sys2Proof/Laws/State.lean ====
section
/-! SUPPORT. Laws of the state's updates: what the named operations over registers and messages leave of every field, what a
register and a field read after a write, and what a command answers. -/

namespace Sys2Proof.Machine

/-! ### Sparse tables -/

theorem tget_tset {α : Type} (m : SMap α) (i j : Nat) (v : α) : tget (tset m i v) j = if i = j then some v else tget m j := by
  induction m with
  | nil => simp [tset, tget]
  | cons e t ih =>
    unfold tset
    split
    · simp [tget]
    · split
      · rename_i h1 h2
        have h2 : i = e.1 := by simpa using h2
        subst h2
        simp only [tget, beq_iff_eq]
        split <;> rfl
      · rename_i h1 h2
        have h2 : i ≠ e.1 := by simpa using h2
        simp only [tget, beq_iff_eq, ih]
        split
        · rename_i h3
          rw [if_neg (by omega)]
        · rfl

theorem tget_below {b i : Nat} {m : SMap Word} (h : registersWfFrom b m = true) (hi : i < b) : tget m i = none := by
  induction m generalizing b with
  | nil => rfl
  | cons e t ih =>
    simp only [registersWfFrom, Bool.and_eq_true, decide_eq_true_eq] at h
    unfold tget
    split
    · rename_i h1
      have : e.1 = i := by simpa using h1
      omega
    · exact ih h.2 (by omega)

theorem tget_tdel_other {α : Type} (m : SMap α) (i j : Nat) (h : i ≠ j) : tget (tdel m i) j = tget m j := by
  induction m with
  | nil => rfl
  | cons e t ih =>
    unfold tdel
    split
    · rename_i h1
      have : e.1 = i := by simpa using h1
      simp only [tget, beq_iff_eq]
      rw [if_neg (by omega)]
    · simp only [tget, ih]

theorem tget_tdel_same {b : Nat} {m : SMap Word} (h : registersWfFrom b m = true) (i : Nat) : tget (tdel m i) i = none := by
  induction m generalizing b with
  | nil => rfl
  | cons e t ih =>
    simp only [registersWfFrom, Bool.and_eq_true, decide_eq_true_eq] at h
    unfold tdel
    split
    · rename_i h1
      have : e.1 = i := by simpa using h1
      exact tget_below h.2 (by omega)
    · rename_i h1
      simp only [tget, h1]
      exact ih h.2

theorem tget_tput_other {α : Type} [DecidableEq α] (d : α) (m : SMap α) (i j : Nat) (v : α) (h : i ≠ j) :
    tget (tput d m i v) j = tget m j := by
  unfold tput
  split
  · exact tget_tdel_other m i j h
  · rw [tget_tset, if_neg h]

theorem tgetD_tput_same {b : Nat} {m : SMap Word} (hm : registersWfFrom b m = true) (i : Nat) (v : Word) :
    tgetD (tput 0 m i v) i 0 = v := by
  unfold tgetD tput
  split
  · rename_i h
    rw [tget_tdel_same hm, h]
    rfl
  · rw [tget_tset, if_pos rfl]
    rfl

/-! ### The canonical form of the register file -/

theorem registersWfFrom_mono {a b : Nat} {m : SMap Word} (hab : a ≤ b) (h : registersWfFrom b m = true) :
    registersWfFrom a m = true := by
  cases m with
  | nil => rfl
  | cons e t =>
    simp only [registersWfFrom, Bool.and_eq_true, decide_eq_true_eq] at h ⊢
    exact ⟨⟨by omega, h.1.2⟩, h.2⟩

theorem tdel_wfFrom {b i : Nat} {m : SMap Word} (h : registersWfFrom b m = true) : registersWfFrom b (tdel m i) = true := by
  induction m generalizing b with
  | nil => rfl
  | cons e t ih =>
    simp only [registersWfFrom, Bool.and_eq_true, decide_eq_true_eq] at h
    unfold tdel
    split
    · exact registersWfFrom_mono (by omega) h.2
    · simp only [registersWfFrom, Bool.and_eq_true, decide_eq_true_eq]
      exact ⟨h.1, ih h.2⟩

theorem tset_wfFrom {b i : Nat} {v : Word} {m : SMap Word} (hv : v ≠ 0) (hi : b ≤ i) (h : registersWfFrom b m = true) :
    registersWfFrom b (tset m i v) = true := by
  induction m generalizing b with
  | nil => simpa [tset, registersWfFrom, hi] using hv
  | cons e t ih =>
    simp only [registersWfFrom, Bool.and_eq_true, decide_eq_true_eq] at h
    unfold tset
    split
    · simp only [registersWfFrom, Bool.and_eq_true, decide_eq_true_eq, bne_iff_ne]
      exact ⟨⟨hi, hv⟩, ⟨by omega, by simpa using h.1.2⟩, h.2⟩
    · split
      · rename_i h1 h2
        have : i = e.1 := by simpa using h2
        simp only [registersWfFrom, Bool.and_eq_true, decide_eq_true_eq, bne_iff_ne]
        exact ⟨⟨hi, hv⟩, this ▸ h.2⟩
      · rename_i h1 h2
        have : i ≠ e.1 := by simpa using h2
        simp only [registersWfFrom, Bool.and_eq_true, decide_eq_true_eq]
        exact ⟨h.1, ih (by omega) h.2⟩

theorem tput_wfFrom {b i : Nat} {v : Word} {m : SMap Word} (hi : b ≤ i) (h : registersWfFrom b m = true) :
    registersWfFrom b (tput 0 m i v) = true := by
  unfold tput
  split
  · exact tdel_wfFrom h
  · exact tset_wfFrom ‹_› hi h

theorem filter_registersWfFrom {b : Nat} {p : Nat × Word → Bool} {m : SMap Word} (h : registersWfFrom b m = true) :
    registersWfFrom b (m.filter p) = true := by
  induction m generalizing b with
  | nil => rfl
  | cons e t ih =>
    simp only [registersWfFrom, Bool.and_eq_true, decide_eq_true_eq] at h
    rw [List.filter_cons]
    split
    · simp only [registersWfFrom, Bool.and_eq_true, decide_eq_true_eq]
      exact ⟨h.1, ih h.2⟩
    · exact registersWfFrom_mono (by omega) (ih h.2)

/-- Registers taken over from another canonical file, or from part of one. -/
theorem foldl_tset_wf {l m : SMap Word} (hl : ∀ e ∈ l, e.2 ≠ 0) (h : registersWfFrom 0 m = true) :
    registersWfFrom 0 (l.foldl (fun m e => tset m e.1 e.2) m) = true := by
  induction l generalizing m with
  | nil => exact h
  | cons e l ih =>
    exact ih (fun x hx => hl x (List.mem_cons_of_mem _ hx))
      (tset_wfFrom (hl e List.mem_cons_self) (Nat.zero_le _) h)

theorem registersWfFrom_ne {b : Nat} {m : SMap Word} (h : registersWfFrom b m = true) : ∀ e ∈ m, e.2 ≠ 0 := by
  induction m generalizing b with
  | nil => intro e he; cases he
  | cons a t ih =>
    simp only [registersWfFrom, Bool.and_eq_true, decide_eq_true_eq] at h
    intro e he
    cases he with
    | head => simpa using h.1.2
    | tail _ he => exact ih h.2 e he

/-! ### Registers -/

/-- A register that is not written keeps its value. -/
theorem Dev.reg_setReg_other (s : Dev) (a b v : Nat) (h : a ≠ b) : (s.setReg a v).reg b = s.reg b := by
  simp only [Dev.reg, Dev.setReg, tgetD, tget_tput_other _ _ _ _ _ h]

/-- A register that is written holds what was written, in its 64 bits. -/
theorem Dev.reg_setReg (s : Dev) (a v : Nat) {b : Nat} (h : registersWfFrom b s.csr = true) : (s.setReg a v).reg a = v % 2 ^ 64 := by
  simp only [Dev.reg, Dev.setReg, tgetD_tput_same h, BitVec.toNat_ofNat]

theorem Dev.get_put_other (s : Dev) (f g : Field) (v : Nat) (h : f.off ≠ g.off) : (s.put f v).get g = s.get g := by
  simp only [Dev.get, Dev.put, Dev.reg_setReg_other _ _ _ _ h]

theorem Dev.reg_put_other (s : Dev) (f : Field) (off v : Nat) (h : f.off ≠ off) : (s.put f v).reg off = s.reg off :=
  Dev.reg_setReg_other _ _ _ _ h

/-! ### Fields of registers -/

theorem withBits_eq (w hi lo v : Nat) (h : lo ≤ hi + 1) :
    withBits w hi lo v = (w / 2 ^ (hi + 1) * 2 ^ (hi + 1 - lo) + v % 2 ^ (hi + 1 - lo)) * 2 ^ lo + w % 2 ^ lo := by
  have hp : 2 ^ (hi + 1) = 2 ^ lo * 2 ^ (hi + 1 - lo) := by rw [← Nat.pow_add]; congr 1; omega
  unfold withBits bitsOf
  rw [Nat.shiftRight_eq_div_pow, hp, ← Nat.div_div_eq_div_mul]
  have h1 := Nat.div_add_mod w (2 ^ lo)
  have h2 := Nat.div_add_mod (w / 2 ^ lo) (2 ^ (hi + 1 - lo))
  generalize w / 2 ^ lo % 2 ^ (hi + 1 - lo) = b at *
  generalize w / 2 ^ lo / 2 ^ (hi + 1 - lo) = q at *
  generalize w % 2 ^ lo = r at *
  generalize v % 2 ^ (hi + 1 - lo) = x at *
  rw [← h2] at h1
  rw [← h1]
  have : 2 ^ lo * (2 ^ (hi + 1 - lo) * q + b) + r - b * 2 ^ lo = q * 2 ^ (hi + 1 - lo) * 2 ^ lo + r := by
    rw [Nat.mul_add, Nat.mul_comm (2 ^ lo) b, Nat.mul_comm (2^lo), Nat.mul_comm (2^(hi+1-lo)) q]; omega
  rw [this, Nat.add_mul]; omega

theorem bitsOf_withBits (w hi lo v : Nat) (h : lo ≤ hi + 1) : bitsOf (withBits w hi lo v) hi lo = v % 2 ^ (hi + 1 - lo) := by
  rw [withBits_eq _ _ _ _ h, bitsOf, Nat.shiftRight_eq_div_pow, Nat.mul_comm _ (2 ^ lo),
    Nat.mul_add_div (Nat.two_pow_pos lo), Nat.div_eq_of_lt (Nat.mod_lt _ (Nat.two_pow_pos lo)), Nat.add_zero, Nat.add_comm,
    Nat.add_mul_mod_self_right, Nat.mod_mod]

theorem withBits_div (w hi lo v : Nat) (h : lo ≤ hi + 1) : withBits w hi lo v / 2 ^ (hi + 1) = w / 2 ^ (hi + 1) := by
  have hp : 2 ^ (hi + 1) = 2 ^ lo * 2 ^ (hi + 1 - lo) := by rw [← Nat.pow_add]; congr 1; omega
  rw [withBits_eq _ _ _ _ h]
  generalize hq : w / 2 ^ (hi + 1) = q
  rw [hp, ← Nat.div_div_eq_div_mul, Nat.mul_comm _ (2 ^ lo), Nat.mul_add_div (Nat.two_pow_pos lo),
    Nat.div_eq_of_lt (Nat.mod_lt _ (Nat.two_pow_pos lo)), Nat.add_zero, Nat.mul_comm q, Nat.mul_add_div (Nat.two_pow_pos _),
    Nat.div_eq_of_lt (Nat.mod_lt _ (Nat.two_pow_pos _)), Nat.add_zero]

theorem withBits_mod (w hi lo v : Nat) (h : lo ≤ hi + 1) : withBits w hi lo v % 2 ^ lo = w % 2 ^ lo := by
  rw [withBits_eq _ _ _ _ h, Nat.add_comm, Nat.add_mul_mod_self_right, Nat.mod_mod]

theorem bitsOf_withBits_above (w hi lo v hi' lo' : Nat) (h : lo ≤ hi + 1) (hl : hi < lo') :
    bitsOf (withBits w hi lo v) hi' lo' = bitsOf w hi' lo' := by
  unfold bitsOf
  have : ∀ x, x / 2 ^ lo' = x / 2 ^ (hi + 1) / 2 ^ (lo' - (hi + 1)) := by
    intro x; rw [Nat.div_div_eq_div_mul, ← Nat.pow_add]; congr 2; omega
  rw [Nat.shiftRight_eq_div_pow, Nat.shiftRight_eq_div_pow, this, this w, withBits_div _ _ _ _ h]

theorem bitsOf_withBits_below (w hi lo v hi' lo' : Nat) (h : lo ≤ hi + 1) (hl : hi' < lo) :
    bitsOf (withBits w hi lo v) hi' lo' = bitsOf w hi' lo' := by
  unfold bitsOf
  by_cases hh : lo' ≤ hi'
  · have : ∀ x, (x >>> lo') % 2 ^ (hi' + 1 - lo') = x % 2 ^ lo % 2 ^ (hi' + 1) / 2 ^ lo' := by
      intro x
      rw [Nat.mod_mod_of_dvd _ (Nat.pow_dvd_pow 2 (by omega)), Nat.shiftRight_eq_div_pow,
        show 2 ^ (hi' + 1) = 2 ^ lo' * 2 ^ (hi' + 1 - lo') by rw [← Nat.pow_add]; congr 1; omega, Nat.mod_mul_right_div_self]
    rw [this, this w, withBits_mod _ _ _ _ h]
  · rw [show hi' + 1 - lo' = 0 by omega]; simp [Nat.mod_one]

theorem withBits_lt {n w hi lo v : Nat} (h : lo ≤ hi + 1) (hn : hi < n) (hw : w < 2 ^ n) : withBits w hi lo v < 2 ^ n := by
  have h1 := withBits_div w hi lo v h
  have hp : 2 ^ n = 2 ^ (hi + 1) * 2 ^ (n - (hi + 1)) := by rw [← Nat.pow_add]; congr 1; omega
  rw [hp] at hw ⊢
  have h2 := Nat.div_lt_of_lt_mul hw
  rw [← h1] at h2
  have h3 := Nat.lt_mul_of_div_lt h2 (Nat.two_pow_pos _)
  rwa [Nat.mul_comm] at h3

theorem Dev.reg_lt (s : Dev) (off : Nat) : s.reg off < 2 ^ 64 := (tgetD s.csr off 0).isLt

theorem Dev.reg_put (s : Dev) (f : Field) (v : Nat) (h : s.registersWf = true) (h1 : f.lo ≤ f.hi + 1) (h2 : f.hi < 64) :
    (s.put f v).reg f.off = withBits (s.reg f.off) f.hi f.lo v := by
  rw [Dev.put, Dev.reg_setReg _ _ _ h, Nat.mod_eq_of_lt (withBits_lt h1 h2 (s.reg_lt _))]

/-- A field that is set reads as its value, cut to its width. -/
theorem Dev.get_put (s : Dev) (f : Field) (v : Nat) (h : s.registersWf = true) (h1 : f.lo ≤ f.hi + 1) (h2 : f.hi < 64) :
    (s.put f v).get f = v % 2 ^ (f.hi + 1 - f.lo) := by
  rw [Dev.get, Dev.reg_put s f v h h1 h2, bitsOf_withBits _ _ _ _ h1]

/-- Another field of the register keeps its value. -/
theorem Dev.get_put_field (s : Dev) (f g : Field) (v : Nat) (h : s.registersWf = true) (ho : f.off = g.off) (h1 : f.lo ≤ f.hi + 1)
    (h2 : f.hi < 64) (hd : g.hi < f.lo ∨ f.hi < g.lo) : (s.put f v).get g = s.get g := by
  rw [Dev.get, ← ho, Dev.reg_put s f v h h1 h2, Dev.get, ← ho]
  rcases hd with hd | hd
  · exact bitsOf_withBits_below _ _ _ _ _ _ h1 hd
  · exact bitsOf_withBits_above _ _ _ _ _ _ h1 hd

theorem Dev.setReg_registersWf (s : Dev) (off v : Nat) (h : s.registersWf = true) : (s.setReg off v).registersWf = true :=
  tput_wfFrom (Nat.zero_le _) h

theorem Dev.put_registersWf (s : Dev) (f : Field) (v : Nat) (h : s.registersWf = true) : (s.put f v).registersWf = true :=
  s.setReg_registersWf _ _ h

/-! ### Fields of the state after an operation -/

@[simp] theorem Dev.setReg_pins (s : Dev) (off v : Nat) : (s.setReg off v).pins = s.pins := rfl
@[simp] theorem Dev.setReg_phase (s : Dev) (off v : Nat) : (s.setReg off v).phase = s.phase := rfl
@[simp] theorem Dev.setReg_now (s : Dev) (off v : Nat) : (s.setReg off v).now = s.now := rfl
@[simp] theorem Dev.setReg_freeCount (s : Dev) (off v : Nat) : (s.setReg off v).freeCount = s.freeCount := rfl
@[simp] theorem Dev.setReg_nextId (s : Dev) (off v : Nat) : (s.setReg off v).nextId = s.nextId := rfl
@[simp] theorem Dev.setReg_fuse (s : Dev) (off v : Nat) : (s.setReg off v).fuse = s.fuse := rfl
@[simp] theorem Dev.setReg_regions (s : Dev) (off v : Nat) : (s.setReg off v).regions = s.regions := rfl
@[simp] theorem Dev.setReg_frm (s : Dev) (off v : Nat) : (s.setReg off v).frm = s.frm := rfl
@[simp] theorem Dev.setReg_img (s : Dev) (off v : Nat) : (s.setReg off v).img = s.img := rfl
@[simp] theorem Dev.setReg_cache (s : Dev) (off v : Nat) : (s.setReg off v).cache = s.cache := rfl
@[simp] theorem Dev.setReg_stack (s : Dev) (off v : Nat) : (s.setReg off v).stack = s.stack := rfl
@[simp] theorem Dev.setReg_shadow (s : Dev) (off v : Nat) : (s.setReg off v).shadow = s.shadow := rfl
@[simp] theorem Dev.setReg_rfl_ (s : Dev) (off v : Nat) : (s.setReg off v).rfl_ = s.rfl_ := rfl
@[simp] theorem Dev.setReg_prism (s : Dev) (off v : Nat) : (s.setReg off v).prism = s.prism := rfl
@[simp] theorem Dev.setReg_lens (s : Dev) (off v : Nat) : (s.setReg off v).lens = s.lens := rfl
@[simp] theorem Dev.setReg_links (s : Dev) (off v : Nat) : (s.setReg off v).links = s.links := rfl
@[simp] theorem Dev.setReg_mgmt (s : Dev) (off v : Nat) : (s.setReg off v).mgmt = s.mgmt := rfl
@[simp] theorem Dev.setReg_tap (s : Dev) (off v : Nat) : (s.setReg off v).tap = s.tap := rfl
@[simp] theorem Dev.setReg_afterglow (s : Dev) (off v : Nat) : (s.setReg off v).afterglow = s.afterglow := rfl
@[simp] theorem Dev.setReg_outbox (s : Dev) (off v : Nat) : (s.setReg off v).outbox = s.outbox := rfl

@[simp] theorem Dev.put_pins (s : Dev) (f : Field) (v : Nat) : (s.put f v).pins = s.pins := rfl
@[simp] theorem Dev.put_phase (s : Dev) (f : Field) (v : Nat) : (s.put f v).phase = s.phase := rfl
@[simp] theorem Dev.put_now (s : Dev) (f : Field) (v : Nat) : (s.put f v).now = s.now := rfl
@[simp] theorem Dev.put_freeCount (s : Dev) (f : Field) (v : Nat) : (s.put f v).freeCount = s.freeCount := rfl
@[simp] theorem Dev.put_nextId (s : Dev) (f : Field) (v : Nat) : (s.put f v).nextId = s.nextId := rfl
@[simp] theorem Dev.put_fuse (s : Dev) (f : Field) (v : Nat) : (s.put f v).fuse = s.fuse := rfl
@[simp] theorem Dev.put_regions (s : Dev) (f : Field) (v : Nat) : (s.put f v).regions = s.regions := rfl
@[simp] theorem Dev.put_frm (s : Dev) (f : Field) (v : Nat) : (s.put f v).frm = s.frm := rfl
@[simp] theorem Dev.put_img (s : Dev) (f : Field) (v : Nat) : (s.put f v).img = s.img := rfl
@[simp] theorem Dev.put_cache (s : Dev) (f : Field) (v : Nat) : (s.put f v).cache = s.cache := rfl
@[simp] theorem Dev.put_stack (s : Dev) (f : Field) (v : Nat) : (s.put f v).stack = s.stack := rfl
@[simp] theorem Dev.put_shadow (s : Dev) (f : Field) (v : Nat) : (s.put f v).shadow = s.shadow := rfl
@[simp] theorem Dev.put_rfl_ (s : Dev) (f : Field) (v : Nat) : (s.put f v).rfl_ = s.rfl_ := rfl
@[simp] theorem Dev.put_prism (s : Dev) (f : Field) (v : Nat) : (s.put f v).prism = s.prism := rfl
@[simp] theorem Dev.put_lens (s : Dev) (f : Field) (v : Nat) : (s.put f v).lens = s.lens := rfl
@[simp] theorem Dev.put_links (s : Dev) (f : Field) (v : Nat) : (s.put f v).links = s.links := rfl
@[simp] theorem Dev.put_mgmt (s : Dev) (f : Field) (v : Nat) : (s.put f v).mgmt = s.mgmt := rfl
@[simp] theorem Dev.put_tap (s : Dev) (f : Field) (v : Nat) : (s.put f v).tap = s.tap := rfl
@[simp] theorem Dev.put_afterglow (s : Dev) (f : Field) (v : Nat) : (s.put f v).afterglow = s.afterglow := rfl
@[simp] theorem Dev.put_outbox (s : Dev) (f : Field) (v : Nat) : (s.put f v).outbox = s.outbox := rfl

@[simp] theorem Dev.raise_pins (s : Dev) (f : Field) : (s.raise f).pins = s.pins := rfl
@[simp] theorem Dev.raise_phase (s : Dev) (f : Field) : (s.raise f).phase = s.phase := rfl
@[simp] theorem Dev.raise_now (s : Dev) (f : Field) : (s.raise f).now = s.now := rfl
@[simp] theorem Dev.raise_freeCount (s : Dev) (f : Field) : (s.raise f).freeCount = s.freeCount := rfl
@[simp] theorem Dev.raise_nextId (s : Dev) (f : Field) : (s.raise f).nextId = s.nextId := rfl
@[simp] theorem Dev.raise_fuse (s : Dev) (f : Field) : (s.raise f).fuse = s.fuse := rfl
@[simp] theorem Dev.raise_regions (s : Dev) (f : Field) : (s.raise f).regions = s.regions := rfl
@[simp] theorem Dev.raise_frm (s : Dev) (f : Field) : (s.raise f).frm = s.frm := rfl
@[simp] theorem Dev.raise_img (s : Dev) (f : Field) : (s.raise f).img = s.img := rfl
@[simp] theorem Dev.raise_cache (s : Dev) (f : Field) : (s.raise f).cache = s.cache := rfl
@[simp] theorem Dev.raise_stack (s : Dev) (f : Field) : (s.raise f).stack = s.stack := rfl
@[simp] theorem Dev.raise_shadow (s : Dev) (f : Field) : (s.raise f).shadow = s.shadow := rfl
@[simp] theorem Dev.raise_rfl_ (s : Dev) (f : Field) : (s.raise f).rfl_ = s.rfl_ := rfl
@[simp] theorem Dev.raise_prism (s : Dev) (f : Field) : (s.raise f).prism = s.prism := rfl
@[simp] theorem Dev.raise_lens (s : Dev) (f : Field) : (s.raise f).lens = s.lens := rfl
@[simp] theorem Dev.raise_links (s : Dev) (f : Field) : (s.raise f).links = s.links := rfl
@[simp] theorem Dev.raise_mgmt (s : Dev) (f : Field) : (s.raise f).mgmt = s.mgmt := rfl
@[simp] theorem Dev.raise_tap (s : Dev) (f : Field) : (s.raise f).tap = s.tap := rfl
@[simp] theorem Dev.raise_afterglow (s : Dev) (f : Field) : (s.raise f).afterglow = s.afterglow := rfl
@[simp] theorem Dev.raise_outbox (s : Dev) (f : Field) : (s.raise f).outbox = s.outbox := rfl

@[simp] theorem Dev.bump_pins (s : Dev) (f : Field) (n : Nat) : (s.bump f n).pins = s.pins := rfl
@[simp] theorem Dev.bump_phase (s : Dev) (f : Field) (n : Nat) : (s.bump f n).phase = s.phase := rfl
@[simp] theorem Dev.bump_now (s : Dev) (f : Field) (n : Nat) : (s.bump f n).now = s.now := rfl
@[simp] theorem Dev.bump_freeCount (s : Dev) (f : Field) (n : Nat) : (s.bump f n).freeCount = s.freeCount := rfl
@[simp] theorem Dev.bump_nextId (s : Dev) (f : Field) (n : Nat) : (s.bump f n).nextId = s.nextId := rfl
@[simp] theorem Dev.bump_fuse (s : Dev) (f : Field) (n : Nat) : (s.bump f n).fuse = s.fuse := rfl
@[simp] theorem Dev.bump_regions (s : Dev) (f : Field) (n : Nat) : (s.bump f n).regions = s.regions := rfl
@[simp] theorem Dev.bump_frm (s : Dev) (f : Field) (n : Nat) : (s.bump f n).frm = s.frm := rfl
@[simp] theorem Dev.bump_img (s : Dev) (f : Field) (n : Nat) : (s.bump f n).img = s.img := rfl
@[simp] theorem Dev.bump_cache (s : Dev) (f : Field) (n : Nat) : (s.bump f n).cache = s.cache := rfl
@[simp] theorem Dev.bump_stack (s : Dev) (f : Field) (n : Nat) : (s.bump f n).stack = s.stack := rfl
@[simp] theorem Dev.bump_shadow (s : Dev) (f : Field) (n : Nat) : (s.bump f n).shadow = s.shadow := rfl
@[simp] theorem Dev.bump_rfl_ (s : Dev) (f : Field) (n : Nat) : (s.bump f n).rfl_ = s.rfl_ := rfl
@[simp] theorem Dev.bump_prism (s : Dev) (f : Field) (n : Nat) : (s.bump f n).prism = s.prism := rfl
@[simp] theorem Dev.bump_lens (s : Dev) (f : Field) (n : Nat) : (s.bump f n).lens = s.lens := rfl
@[simp] theorem Dev.bump_links (s : Dev) (f : Field) (n : Nat) : (s.bump f n).links = s.links := rfl
@[simp] theorem Dev.bump_mgmt (s : Dev) (f : Field) (n : Nat) : (s.bump f n).mgmt = s.mgmt := rfl
@[simp] theorem Dev.bump_tap (s : Dev) (f : Field) (n : Nat) : (s.bump f n).tap = s.tap := rfl
@[simp] theorem Dev.bump_afterglow (s : Dev) (f : Field) (n : Nat) : (s.bump f n).afterglow = s.afterglow := rfl
@[simp] theorem Dev.bump_outbox (s : Dev) (f : Field) (n : Nat) : (s.bump f n).outbox = s.outbox := rfl

@[simp] theorem Dev.bumpWrap_pins (s : Dev) (f : Field) (n : Nat) : (s.bumpWrap f n).pins = s.pins := rfl
@[simp] theorem Dev.bumpWrap_phase (s : Dev) (f : Field) (n : Nat) : (s.bumpWrap f n).phase = s.phase := rfl
@[simp] theorem Dev.bumpWrap_now (s : Dev) (f : Field) (n : Nat) : (s.bumpWrap f n).now = s.now := rfl
@[simp] theorem Dev.bumpWrap_freeCount (s : Dev) (f : Field) (n : Nat) : (s.bumpWrap f n).freeCount = s.freeCount := rfl
@[simp] theorem Dev.bumpWrap_nextId (s : Dev) (f : Field) (n : Nat) : (s.bumpWrap f n).nextId = s.nextId := rfl
@[simp] theorem Dev.bumpWrap_fuse (s : Dev) (f : Field) (n : Nat) : (s.bumpWrap f n).fuse = s.fuse := rfl
@[simp] theorem Dev.bumpWrap_regions (s : Dev) (f : Field) (n : Nat) : (s.bumpWrap f n).regions = s.regions := rfl
@[simp] theorem Dev.bumpWrap_frm (s : Dev) (f : Field) (n : Nat) : (s.bumpWrap f n).frm = s.frm := rfl
@[simp] theorem Dev.bumpWrap_img (s : Dev) (f : Field) (n : Nat) : (s.bumpWrap f n).img = s.img := rfl
@[simp] theorem Dev.bumpWrap_cache (s : Dev) (f : Field) (n : Nat) : (s.bumpWrap f n).cache = s.cache := rfl
@[simp] theorem Dev.bumpWrap_stack (s : Dev) (f : Field) (n : Nat) : (s.bumpWrap f n).stack = s.stack := rfl
@[simp] theorem Dev.bumpWrap_shadow (s : Dev) (f : Field) (n : Nat) : (s.bumpWrap f n).shadow = s.shadow := rfl
@[simp] theorem Dev.bumpWrap_rfl_ (s : Dev) (f : Field) (n : Nat) : (s.bumpWrap f n).rfl_ = s.rfl_ := rfl
@[simp] theorem Dev.bumpWrap_prism (s : Dev) (f : Field) (n : Nat) : (s.bumpWrap f n).prism = s.prism := rfl
@[simp] theorem Dev.bumpWrap_lens (s : Dev) (f : Field) (n : Nat) : (s.bumpWrap f n).lens = s.lens := rfl
@[simp] theorem Dev.bumpWrap_links (s : Dev) (f : Field) (n : Nat) : (s.bumpWrap f n).links = s.links := rfl
@[simp] theorem Dev.bumpWrap_mgmt (s : Dev) (f : Field) (n : Nat) : (s.bumpWrap f n).mgmt = s.mgmt := rfl
@[simp] theorem Dev.bumpWrap_tap (s : Dev) (f : Field) (n : Nat) : (s.bumpWrap f n).tap = s.tap := rfl
@[simp] theorem Dev.bumpWrap_afterglow (s : Dev) (f : Field) (n : Nat) : (s.bumpWrap f n).afterglow = s.afterglow := rfl
@[simp] theorem Dev.bumpWrap_outbox (s : Dev) (f : Field) (n : Nat) : (s.bumpWrap f n).outbox = s.outbox := rfl

@[simp] theorem Dev.alert_pins (s : Dev) (src : Nat) : (s.alert src).pins = s.pins := rfl
@[simp] theorem Dev.alert_phase (s : Dev) (src : Nat) : (s.alert src).phase = s.phase := rfl
@[simp] theorem Dev.alert_now (s : Dev) (src : Nat) : (s.alert src).now = s.now := rfl
@[simp] theorem Dev.alert_freeCount (s : Dev) (src : Nat) : (s.alert src).freeCount = s.freeCount := rfl
@[simp] theorem Dev.alert_nextId (s : Dev) (src : Nat) : (s.alert src).nextId = s.nextId := rfl
@[simp] theorem Dev.alert_fuse (s : Dev) (src : Nat) : (s.alert src).fuse = s.fuse := rfl
@[simp] theorem Dev.alert_regions (s : Dev) (src : Nat) : (s.alert src).regions = s.regions := rfl
@[simp] theorem Dev.alert_frm (s : Dev) (src : Nat) : (s.alert src).frm = s.frm := rfl
@[simp] theorem Dev.alert_img (s : Dev) (src : Nat) : (s.alert src).img = s.img := rfl
@[simp] theorem Dev.alert_cache (s : Dev) (src : Nat) : (s.alert src).cache = s.cache := rfl
@[simp] theorem Dev.alert_stack (s : Dev) (src : Nat) : (s.alert src).stack = s.stack := rfl
@[simp] theorem Dev.alert_shadow (s : Dev) (src : Nat) : (s.alert src).shadow = s.shadow := rfl
@[simp] theorem Dev.alert_rfl_ (s : Dev) (src : Nat) : (s.alert src).rfl_ = s.rfl_ := rfl
@[simp] theorem Dev.alert_prism (s : Dev) (src : Nat) : (s.alert src).prism = s.prism := rfl
@[simp] theorem Dev.alert_lens (s : Dev) (src : Nat) : (s.alert src).lens = s.lens := rfl
@[simp] theorem Dev.alert_links (s : Dev) (src : Nat) : (s.alert src).links = s.links := rfl
@[simp] theorem Dev.alert_mgmt (s : Dev) (src : Nat) : (s.alert src).mgmt = s.mgmt := rfl
@[simp] theorem Dev.alert_tap (s : Dev) (src : Nat) : (s.alert src).tap = s.tap := rfl
@[simp] theorem Dev.alert_afterglow (s : Dev) (src : Nat) : (s.alert src).afterglow = s.afterglow := rfl
@[simp] theorem Dev.alert_outbox (s : Dev) (src : Nat) : (s.alert src).outbox = s.outbox := rfl

@[simp] theorem Dev.send_pins (s : Dev) (m : Msg) : (s.send m).pins = s.pins := rfl
@[simp] theorem Dev.send_phase (s : Dev) (m : Msg) : (s.send m).phase = s.phase := rfl
@[simp] theorem Dev.send_now (s : Dev) (m : Msg) : (s.send m).now = s.now := rfl
@[simp] theorem Dev.send_freeCount (s : Dev) (m : Msg) : (s.send m).freeCount = s.freeCount := rfl
@[simp] theorem Dev.send_nextId (s : Dev) (m : Msg) : (s.send m).nextId = s.nextId := rfl
@[simp] theorem Dev.send_fuse (s : Dev) (m : Msg) : (s.send m).fuse = s.fuse := rfl
@[simp] theorem Dev.send_csr (s : Dev) (m : Msg) : (s.send m).csr = s.csr := rfl
@[simp] theorem Dev.send_regions (s : Dev) (m : Msg) : (s.send m).regions = s.regions := rfl
@[simp] theorem Dev.send_frm (s : Dev) (m : Msg) : (s.send m).frm = s.frm := rfl
@[simp] theorem Dev.send_img (s : Dev) (m : Msg) : (s.send m).img = s.img := rfl
@[simp] theorem Dev.send_cache (s : Dev) (m : Msg) : (s.send m).cache = s.cache := rfl
@[simp] theorem Dev.send_stack (s : Dev) (m : Msg) : (s.send m).stack = s.stack := rfl
@[simp] theorem Dev.send_shadow (s : Dev) (m : Msg) : (s.send m).shadow = s.shadow := rfl
@[simp] theorem Dev.send_rfl_ (s : Dev) (m : Msg) : (s.send m).rfl_ = s.rfl_ := rfl
@[simp] theorem Dev.send_prism (s : Dev) (m : Msg) : (s.send m).prism = s.prism := rfl
@[simp] theorem Dev.send_lens (s : Dev) (m : Msg) : (s.send m).lens = s.lens := rfl
@[simp] theorem Dev.send_links (s : Dev) (m : Msg) : (s.send m).links = s.links := rfl
@[simp] theorem Dev.send_mgmt (s : Dev) (m : Msg) : (s.send m).mgmt = s.mgmt := rfl
@[simp] theorem Dev.send_tap (s : Dev) (m : Msg) : (s.send m).tap = s.tap := rfl
@[simp] theorem Dev.send_afterglow (s : Dev) (m : Msg) : (s.send m).afterglow = s.afterglow := rfl
@[simp] theorem Dev.send_outbox (s : Dev) (m : Msg) : (s.send m).outbox = s.outbox ++ [m] := rfl

@[simp] theorem Dev.send_reg (s : Dev) (m : Msg) (off : Nat) : (s.send m).reg off = s.reg off := rfl
@[simp] theorem Dev.send_get (s : Dev) (m : Msg) (f : Field) : (s.send m).get f = s.get f := rfl
@[simp] theorem Dev.send_on (s : Dev) (m : Msg) (f : Field) : (s.send m).on f = s.on f := rfl
@[simp] theorem Dev.each_nil {α : Type} (s : Dev) (f : Dev → α → Dev) : s.each [] f = s := rfl
@[simp] theorem Dev.each_cons {α : Type} (s : Dev) (a : α) (l : List α) (f : Dev → α → Dev) :
    s.each (a :: l) f = (f s a).each l f := rfl

/-! ### What a command answers -/

theorem State.onDev_eq (s : State) (f : Dev → Dev) : s.onDev f = .next { s with toDev := f s.toDev } := rfl

/-- A command that names a device offset answers a next state where the offset exists, and else the fault (R95). -/
theorem State.onDevAt_eq (s : State) (d : Nat) (f : Dev → Dev) :
    s.onDevAt d f = if 91552 * 0x200000 ≤ d then .fault (.deviceOffsetOutside d) else .next { s with toDev := f s.toDev } := rfl

end Sys2Proof.Machine
end

