-- ==== Sys2Proof/Laws/Kept.lean ====
section
/-! SUPPORT. What every operation of the slice leaves alone: fuses stay as blown, the model's clock stands, byte memories
keep their canonical form, and what has been sent stays sent. -/

namespace Sys2Proof.Machine

theorem KeySlot.stays_refl (a : KeySlot) : a.stays a := ⟨rfl, rfl, rfl, rfl, id⟩

theorem KeySlot.stays_trans {a b c : KeySlot} (h : a.stays b) (g : b.stays c) : a.stays c :=
  ⟨g.1.trans h.1, g.2.1.trans h.2.1, g.2.2.1.trans h.2.2.1, g.2.2.2.1.trans h.2.2.2.1, fun r => g.2.2.2.2 (h.2.2.2.2 r)⟩

theorem keys_stay_refl (l : List KeySlot) : List.Forall₂ KeySlot.stays l l := by
  induction l with
  | nil => exact .nil
  | cons a l ih => exact .cons a.stays_refl ih

theorem keys_stay_trans {l m n : List KeySlot} (h : List.Forall₂ KeySlot.stays l m) (g : List.Forall₂ KeySlot.stays m n) :
    List.Forall₂ KeySlot.stays l n := by
  induction h generalizing n with
  | nil => cases g; exact .nil
  | cons a _ ih => cases g with
    | cons b t => exact .cons (KeySlot.stays_trans a b) (ih t)

theorem Fuse.stays_refl (u : Fuse) : u.stays u :=
  ⟨rfl, rfl, rfl, rfl, rfl, rfl, rfl, rfl, rfl, rfl, rfl, Nat.le_refl _, id, keys_stay_refl _⟩

theorem Fuse.stays_trans {u v w : Fuse} (h : u.stays v) (g : v.stays w) : u.stays w := by
  obtain ⟨h1, h2, h3, h4, h5, h6, h7, h8, h9, h10, h11, h12, h13, h14⟩ := h
  obtain ⟨g1, g2, g3, g4, g5, g6, g7, g8, g9, g10, g11, g12, g13, g14⟩ := g
  exact ⟨g1.trans h1, g2.trans h2, g3.trans h3, g4.trans h4, g5.trans h5, g6.trans h6, g7.trans h7, g8.trans h8,
    g9.trans h9, g10.trans h10, g11.trans h11, h12.trans g12, fun x => g13 (h13 x), keys_stay_trans h14 g14⟩

/-- What lies between a slice z and a slice s that operations have made of it: fuses as blown, the same model clock,
canonical memories and registers if z's were, and z's messages first among those sent. -/
structure Kept (z s : Dev) : Prop where
  fuse : z.fuse.stays s.fuse
  now : s.now = z.now
  mem : z.memoriesWf = true → s.memoriesWf = true
  sent : z.outbox <+: s.outbox
  regs : z.registersWf = true → s.registersWf = true

theorem Kept.refl (s : Dev) : Kept s s := ⟨s.fuse.stays_refl, rfl, id, List.prefix_refl _, id⟩

theorem Kept.trans {a b c : Dev} (h : Kept a b) (g : Kept b c) : Kept a c :=
  ⟨Fuse.stays_trans h.fuse g.fuse, g.now.trans h.now, fun m => g.mem (h.mem m), h.sent.trans g.sent,
    fun r => g.regs (h.regs r)⟩

/-- A change of the fields that Kept does not speak of, and of the stack and the loader beside their memories. -/
theorem Kept.upd {z s : Dev} (h : Kept z s) {st : Stack} {im : Img} {e : SMap Word} (hd : st.dram = s.stack.dram)
    (hg : im.stage = s.img.stage) (he : e = s.csr) {a b c d f g j k l m n o p q} :
    Kept z { pins := a, phase := b, now := s.now, freeCount := c, nextId := d, fuse := s.fuse, csr := e, regions := f,
             frm := g, img := im, cache := j, stack := st, shadow := k, rfl_ := l, prism := m, lens := n, links := o,
             mgmt := p, tap := q, afterglow := s.afterglow, outbox := s.outbox } :=
  ⟨h.fuse, h.now, fun w => by simpa only [Dev.memoriesWf, hd, hg] using h.mem w, h.sent,
    fun r => by subst he; exact h.regs r⟩

/-- A change that keeps each of the five. -/
theorem Kept.of {z s t : Dev} (h : Kept z s) (hf : s.fuse.stays t.fuse) (hn : t.now = s.now)
    (hm : s.memoriesWf = true → t.memoriesWf = true) (ho : s.outbox <+: t.outbox)
    (hr : s.registersWf = true → t.registersWf = true := by exact id) : Kept z t :=
  h.trans ⟨hf, hn, hm, ho, hr⟩

theorem memoriesWf_iff (s : Dev) :
    s.memoriesWf = true ↔ memWf s.stack.dram = true ∧ memWf s.afterglow = true ∧ memWf s.img.stage = true := by
  simp [Dev.memoriesWf, and_assoc]

theorem kept_ite {z a b : Dev} {c : Prop} [Decidable c] (ha : Kept z a) (hb : Kept z b) : Kept z (if c then a else b) := by
  split <;> assumption

theorem kept_ite_fst {α : Type} {z : Dev} {a b : Dev × α} {c : Prop} [Decidable c] (ha : Kept z a.1) (hb : Kept z b.1) :
    Kept z (if c then a else b).1 := by
  split <;> assumption

theorem kept_ite_snd {α : Type} {z : Dev} {a b : α × Dev} {c : Prop} [Decidable c] (ha : Kept z a.2) (hb : Kept z b.2) :
    Kept z (if c then a else b).2 := by
  split <;> assumption

theorem kept_foldl {α : Type} {z s : Dev} {l : List α} {f : Dev → α → Dev} (hf : ∀ t x, Kept z t → Kept z (f t x))
    (h : Kept z s) : Kept z (l.foldl f s) := by
  induction l generalizing s with
  | nil => exact h
  | cons a l ih => exact ih (hf _ _ h)

theorem kept_foldl_fst {α β : Type} {z : Dev} {l : List α} {f : Dev × β → α → Dev × β} {a : Dev × β}
    (hf : ∀ b x, Kept z b.1 → Kept z (f b x).1) (h : Kept z a.1) : Kept z (l.foldl f a).1 := by
  induction l generalizing a with
  | nil => exact h
  | cons x l ih => exact ih (hf _ _ h)

theorem kept_each {α : Type} {z s : Dev} {l : List α} {f : Dev → α → Dev} (hf : ∀ t x, Kept z t → Kept z (f t x))
    (h : Kept z s) : Kept z (s.each l f) := kept_foldl hf h

theorem kept_getD {z s : Dev} {o : Option Dev} (ho : ∀ t, o = some t → Kept z t) (h : Kept z s) : Kept z (o.getD s) := by
  cases o with
  | none => exact h
  | some t => exact ho t rfl

theorem Dev.send_kept {z : Dev} (s : Dev) (m : Msg) (h : Kept z s) : Kept z (s.send m) :=
  h.of (Fuse.stays_refl _) rfl id (List.prefix_append _ _)

theorem Dev.sendAll_kept {z : Dev} (s : Dev) (ms : List Msg) (h : Kept z s) : Kept z (s.sendAll ms) :=
  h.of (Fuse.stays_refl _) rfl id (List.prefix_append _ _)

end Sys2Proof.Machine
end

