-- ==== Sys2Proof/Laws/KeptCache.lean ====
section
/-! SUPPORT. What the operations over registers, responses, cache, directory, stack and stripes leave alone. -/

namespace Sys2Proof.Machine

theorem Dev.setReg_kept {z : Dev} (s : Dev) (off v : Nat) (hz : Kept z s) : Kept z (Dev.setReg s off v) :=
  hz.of (Fuse.stays_refl _) rfl id (List.prefix_refl _) (fun r => tput_wfFrom (Nat.zero_le _) r)

theorem Dev.put_kept {z : Dev} (s : Dev) (f : Field) (v : Nat)  (hz : Kept z s) : Kept z (Dev.put s f v) := by
  unfold Dev.put
  try dsimp only
  repeat' first
    | with_reducible assumption
    | with_reducible apply Dev.setReg_kept

theorem Dev.bump_kept {z : Dev} (s : Dev) (f : Field) (n : Nat)  (hz : Kept z s) : Kept z (Dev.bump s f n) := by
  unfold Dev.bump
  try dsimp only
  repeat' first
    | with_reducible assumption
    | with_reducible apply Dev.put_kept

theorem Dev.bumpWrap_kept {z : Dev} (s : Dev) (f : Field) (n : Nat)  (hz : Kept z s) : Kept z (Dev.bumpWrap s f n) := by
  unfold Dev.bumpWrap
  try dsimp only
  repeat' first
    | with_reducible assumption
    | with_reducible apply Dev.put_kept

theorem Dev.raise_kept {z : Dev} (s : Dev) (f : Field)  (hz : Kept z s) : Kept z (Dev.raise s f) := by
  unfold Dev.raise
  try dsimp only
  repeat' first
    | with_reducible assumption
    | with_reducible apply Dev.put_kept

theorem Dev.peak_kept {z : Dev} (s : Dev) (f : Field) (v : Nat)  (hz : Kept z s) : Kept z (Dev.peak s f v) := by
  unfold Dev.peak
  try dsimp only
  repeat' first
    | with_reducible assumption
    | (with_reducible refine kept_ite ?_ ?_)
    | with_reducible apply Dev.put_kept

theorem Dev.raiseIf_kept {z : Dev} (s : Dev) (b : Bool) (f : Field)  (hz : Kept z s) : Kept z (Dev.raiseIf s b f) := by
  unfold Dev.raiseIf
  try dsimp only
  repeat' first
    | with_reducible assumption
    | (with_reducible refine kept_ite ?_ ?_)
    | with_reducible apply Dev.raise_kept

theorem Dev.free_kept {z : Dev} (s : Dev)  (hz : Kept z s) : Kept z (Dev.free s).2 := by
  unfold Dev.free
  try dsimp only
  repeat' first
    | with_reducible assumption
    | (fail_if_no_progress with_reducible refine Kept.upd ?_ (by rfl) (by rfl) (by rfl))

theorem Dev.newId_kept {z : Dev} (s : Dev)  (hz : Kept z s) : Kept z (Dev.newId s).2 := by
  unfold Dev.newId
  try dsimp only
  repeat' first
    | with_reducible assumption
    | (fail_if_no_progress with_reducible refine Kept.upd ?_ (by rfl) (by rfl) (by rfl))

theorem Dev.alert_kept {z : Dev} (s : Dev) (src : Nat)  (hz : Kept z s) : Kept z (Dev.alert s src) := by
  unfold Dev.alert
  try dsimp only
  repeat' first
    | with_reducible assumption
    | with_reducible apply Dev.setReg_kept

/-- A change of the afterglow memory that keeps its canonical form. -/
theorem Kept.glow {z s : Dev} (h : Kept z s) {g : Memory} (hg : memWf s.afterglow = true → memWf g = true) :
    Kept z { s with afterglow := g } :=
  h.of (Fuse.stays_refl _) rfl
    (fun w => by
      have := (memoriesWf_iff s).1 w
      exact (memoriesWf_iff _).2 ⟨this.1, hg this.2.1, this.2.2⟩) (List.prefix_refl _)

theorem Dev.errorRecord_kept {z : Dev} (s : Dev) (type unit addr info : Nat) (count : Nat) (h : Kept z s) :
    Kept z (Dev.errorRecord s type unit addr info count) := by
  have h1 := Dev.put_kept _ F.rstAg3_COUNT (min 256 (s.get F.rstAg3_COUNT + 1))
    (Dev.put_kept _ F.rstAg3_HEAD (s.get F.rstAg3_HEAD + 1) (h.glow (g := memWrite s.afterglow (32 * s.get F.rstAg3_HEAD) 32
      (errorRecordValue type unit s.frameNo addr info count)) memWrite_wf))
  unfold Dev.errorRecord
  dsimp only
  split
  · exact Dev.alert_kept _ _ h1
  · exact h1

theorem foldl_memWrite_wf {α : Type} (f : α → Nat × Nat × Nat) (l : List α) {m : Memory} (h : memWf m = true) :
    memWf (l.foldl (fun m e => memWrite m (f e).1 (f e).2.1 (f e).2.2) m) = true := by
  induction l generalizing m with
  | nil => exact h
  | cons e l ih => exact ih (memWrite_wf h)

theorem Dev.orderRecords_kept {z : Dev} (s : Dev) (hz : Kept z s) : Kept z (Dev.orderRecords s) := by
  unfold Dev.orderRecords
  dsimp only
  refine kept_ite (Kept.upd hz rfl rfl rfl) (hz.of (Fuse.stays_refl _) rfl (fun w => ?_) (List.prefix_refl _))
  have h := (memoriesWf_iff s).1 w
  refine (memoriesWf_iff _).2 ⟨h.1, ?_, h.2.2⟩
  exact foldl_memWrite_wf (fun (e : Nat × Nat) => (_, 32, e.1)) _ h.2.1

theorem Dev.denialRecord_kept {z : Dev} (s : Dev) (addr info : Nat) (h : Kept z s) : Kept z (Dev.denialRecord s addr info) := by
  unfold Dev.denialRecord
  split
  · exact h.glow memWrite_wf
  · exact Kept.upd (Dev.errorRecord_kept s _ _ _ _ _ h) rfl rfl rfl

theorem Dev.eventRecord_kept {z : Dev} (s : Dev) (kind frame duration info : Nat) (h : Kept z s) :
    Kept z (Dev.eventRecord s kind frame duration info) :=
  Kept.glow (s := { s with mgmt.eventSeq := BitVec.ofNat 32 (s.mgmt.eventSeq.toNat + 1) }) (Kept.upd h rfl rfl rfl) memWrite_wf

theorem Dev.countAdd_kept {z : Dev} (s : Dev) (g k n : Nat)  (hz : Kept z s) : Kept z (Dev.countAdd s g k n) := by
  unfold Dev.countAdd
  try dsimp only
  repeat' first
    | with_reducible assumption
    | (with_reducible refine kept_ite ?_ ?_)
    | with_reducible apply Dev.put_kept
    | with_reducible apply Dev.setReg_kept

theorem Dev.event_kept {z : Dev} (s : Dev) (code unit : Nat) (hue : Option Hue) (n : Nat)  (hz : Kept z s) : Kept z (Dev.event s code unit hue n) := by
  unfold Dev.event
  try dsimp only
  repeat' first
    | with_reducible assumption
    | (with_reducible refine kept_each (fun s x hz => ?_) ?_)
    | with_reducible apply Dev.each_kept
    | with_reducible apply Dev.countAdd_kept

theorem Dev.updReq_kept {z : Dev} (s : Dev) (id : Nat) (f : ReqEntry → ReqEntry)  (hz : Kept z s) : Kept z (Dev.updReq s id f) := by
  unfold Dev.updReq
  try dsimp only
  repeat' first
    | with_reducible assumption
    | (with_reducible refine kept_ite ?_ ?_)
    | (fail_if_no_progress with_reducible refine Kept.upd ?_ (by rfl) (by rfl) (by rfl))

theorem Dev.dropReq_kept {z : Dev} (s : Dev) (id : Nat)  (hz : Kept z s) : Kept z (Dev.dropReq s id) := by
  unfold Dev.dropReq
  try dsimp only
  repeat' first
    | with_reducible assumption
    | (fail_if_no_progress with_reducible refine Kept.upd ?_ (by rfl) (by rfl) (by rfl))

theorem Dev.respond_kept {z : Dev} (s : Dev) (dst : Agent) (txid : BitVec 12) (off : Nat) (codes : List Code) (grant : BitVec 2) (ticket : BitVec 16) (data : List Sub)  (hz : Kept z s) : Kept z (Dev.respond s dst txid off codes grant ticket data) := by
  unfold Dev.respond
  try dsimp only
  repeat' first
    | with_reducible assumption
    | (with_reducible refine kept_ite ?_ ?_)
    | with_reducible apply Dev.send_kept

theorem Dev.noteUrgent_kept {z : Dev} (s : Dev) (r : Request)  (hz : Kept z s) : Kept z (Dev.noteUrgent s r) := by
  unfold Dev.noteUrgent
  try dsimp only
  repeat' first
    | with_reducible assumption
    | (with_reducible refine kept_ite ?_ ?_)
    | (fail_if_no_progress with_reducible refine Kept.upd ?_ (by rfl) (by rfl) (by rfl))

theorem Dev.sendUnit_kept {z : Dev} (s : Dev) (e : ReqEntry) (u : Nat)  (hz : Kept z s) : Kept z (Dev.sendUnit s e u) := by
  unfold Dev.sendUnit
  try dsimp only
  repeat' first
    | with_reducible assumption
    | (with_reducible refine kept_ite ?_ ?_)
    | with_reducible apply Dev.respond_kept
    | with_reducible apply Dev.noteUrgent_kept

theorem Dev.urgentDone_kept {z : Dev} (s : Dev) (r : Request)  (hz : Kept z s) : Kept z (Dev.urgentDone s r) := by
  unfold Dev.urgentDone
  try dsimp only
  repeat' first
    | with_reducible assumption
    | (with_reducible refine kept_ite ?_ ?_)
    | with_reducible apply Dev.put_kept
    | (fail_if_no_progress with_reducible refine Kept.upd ?_ (by rfl) (by rfl) (by rfl))
    | split

theorem Dev.endHolds_kept {z : Dev} (s : Dev) (e : ReqEntry) (us : List Nat)  (hz : Kept z s) : Kept z (Dev.endHolds s e us) := by
  unfold Dev.endHolds
  try dsimp only
  repeat' first
    | with_reducible assumption
    | with_reducible apply Dev.request_kept
    | (fail_if_no_progress with_reducible refine Kept.upd ?_ (by rfl) (by rfl) (by rfl))

theorem Dev.flush_kept {z : Dev} (s : Dev) (id : Nat)  (hz : Kept z s) : Kept z (Dev.flush s id) := by
  unfold Dev.flush
  try dsimp only
  repeat' first
    | with_reducible assumption
    | (with_reducible refine kept_ite ?_ ?_)
    | (with_reducible refine kept_each (fun s x hz => ?_) ?_)
    | with_reducible apply Dev.each_kept
    | with_reducible apply Dev.sendUnit_kept
    | with_reducible apply Dev.endHolds_kept
    | with_reducible apply Dev.dropReq_kept
    | with_reducible apply Dev.urgentDone_kept
    | with_reducible apply Dev.updReq_kept
    | (fail_if_no_progress with_reducible refine Kept.upd ?_ (by rfl) (by rfl) (by rfl))
    | split

theorem Dev.answer_kept {z : Dev} (s : Dev) (id i : Nat) (c : Code) (data : Option Sub)  (hz : Kept z s) : Kept z (Dev.answer s id i c data) := by
  unfold Dev.answer
  try dsimp only
  repeat' first
    | with_reducible assumption
    | with_reducible apply Dev.updReq_kept

theorem Dev.finish_kept {z : Dev} (s : Dev) (id i : Nat) (c : Code) (data : Option Sub)  (hz : Kept z s) : Kept z (Dev.finish s id i c data) := by
  unfold Dev.finish
  try dsimp only
  repeat' first
    | with_reducible assumption
    | with_reducible apply Dev.answer_kept
    | with_reducible apply Dev.flush_kept

theorem Dev.answerRest_kept {z : Dev} (s : Dev) (id : Nat) (c : Code)  (hz : Kept z s) : Kept z (Dev.answerRest s id c) := by
  unfold Dev.answerRest
  try dsimp only
  repeat' first
    | with_reducible assumption
    | (with_reducible refine kept_each (fun s x hz => ?_) ?_)
    | with_reducible apply Dev.each_kept
    | with_reducible apply Dev.answer_kept
    | with_reducible apply Dev.flush_kept
    | (fail_if_no_progress with_reducible refine Kept.upd ?_ (by rfl) (by rfl) (by rfl))
    | split

theorem Dev.dropTicket_kept {z : Dev} (s : Dev) (f : Nat) (t : BitVec 16)  (hz : Kept z s) : Kept z (Dev.dropTicket s f t) := by
  unfold Dev.dropTicket
  try dsimp only
  repeat' first
    | with_reducible assumption
    | (fail_if_no_progress with_reducible refine Kept.upd ?_ (by rfl) (by rfl) (by rfl))

theorem Dev.park_kept {z : Dev} (s : Dev) (f id i : Nat) (b : Bound)  (hz : Kept z s) : Kept z (Dev.park s f id i b) := by
  unfold Dev.park
  try dsimp only
  repeat' first
    | with_reducible assumption
    | (with_reducible refine kept_ite ?_ ?_)
    | (fail_if_no_progress with_reducible refine Kept.upd ?_ (by rfl) (by rfl) (by rfl))

theorem Dev.unpark_kept {z : Dev} (s : Dev) (id i : Nat)  (hz : Kept z s) : Kept z (Dev.unpark s id i) := by
  unfold Dev.unpark
  try dsimp only
  repeat' first
    | with_reducible assumption
    | (fail_if_no_progress with_reducible refine Kept.upd ?_ (by rfl) (by rfl) (by rfl))

theorem Dev.nakWith_kept {z : Dev} (s0 : Dev) (f : Nat) (e : ReqEntry) (i : Nat) (d : Nat) (b : Bound)  (hz : Kept z s0) : Kept z (Dev.nakWith s0 f e i d b) := by
  unfold Dev.nakWith
  try dsimp only
  repeat' first
    | with_reducible assumption
    | (with_reducible refine kept_ite ?_ ?_)
    | (with_reducible refine kept_each (fun s x hz => ?_) ?_)
    | with_reducible apply Dev.unpark_kept
    | with_reducible apply Dev.each_kept
    | with_reducible apply Dev.answer_kept
    | with_reducible apply Dev.flush_kept
    | with_reducible apply Dev.updReq_kept
    | with_reducible apply Dev.event_kept
    | (fail_if_no_progress with_reducible refine Kept.upd ?_ (by rfl) (by rfl) (by rfl))
    | split

theorem Dev.parkAt_kept {z : Dev} (s : Dev) (f : Nat) (e : ReqEntry) (i : Nat) (b : Bound)  (hz : Kept z s) : Kept z (Dev.parkAt s f e i b) := by
  unfold Dev.parkAt
  try dsimp only
  repeat' first
    | with_reducible assumption
    | (with_reducible refine kept_ite ?_ ?_)
    | with_reducible apply Dev.bump_kept
    | with_reducible apply Dev.park_kept

theorem Dev.atBound_kept {z : Dev} (s : Dev) (f id i d : Nat) (b : Bound)  (hz : Kept z s) : Kept z (Dev.atBound s f id i d b) := by
  unfold Dev.atBound
  try dsimp only
  repeat' first
    | with_reducible assumption
    | (with_reducible refine kept_ite ?_ ?_)
    | with_reducible apply Dev.nakWith_kept
    | with_reducible apply Dev.parkAt_kept
    | (fail_if_no_progress with_reducible refine Kept.upd ?_ (by rfl) (by rfl) (by rfl))
    | split

theorem Dev.nakAll_kept {z : Dev} (s : Dev) (id f d : Nat) (b : Bound)  (hz : Kept z s) : Kept z (Dev.nakAll s id f d b) := by
  unfold Dev.nakAll
  try dsimp only
  repeat' first
    | with_reducible assumption
    | (with_reducible refine kept_ite ?_ ?_)
    | (with_reducible refine kept_each (fun s x hz => ?_) ?_)
    | with_reducible apply Dev.each_kept
    | with_reducible apply Dev.nakWith_kept
    | (fail_if_no_progress with_reducible refine Kept.upd ?_ (by rfl) (by rfl) (by rfl))
    | split

theorem Dev.retry_kept {z : Dev} (s : Dev) (t : Ticket)  (hz : Kept z s) : Kept z (Dev.retry s t) := by
  unfold Dev.retry
  try dsimp only
  repeat' first
    | with_reducible assumption
    | (with_reducible refine kept_ite ?_ ?_)
    | with_reducible apply Dev.send_kept
    | (fail_if_no_progress with_reducible refine Kept.upd ?_ (by rfl) (by rfl) (by rfl))

theorem Dev.setLine_kept {z : Dev} (s : Dev) (f set way : Nat) (l : Line)  (hz : Kept z s) : Kept z (Dev.setLine s f set way l) := by
  unfold Dev.setLine
  try dsimp only
  repeat' first
    | with_reducible assumption
    | (fail_if_no_progress with_reducible refine Kept.upd ?_ (by rfl) (by rfl) (by rfl))

theorem Dev.delLine_kept {z : Dev} (s : Dev) (f set way : Nat)  (hz : Kept z s) : Kept z (Dev.delLine s f set way) := by
  unfold Dev.delLine
  try dsimp only
  repeat' first
    | with_reducible assumption
    | (fail_if_no_progress with_reducible refine Kept.upd ?_ (by rfl) (by rfl) (by rfl))

theorem Dev.heal_kept {z : Dev} (s : Dev) (f set way i : Nat)  (hz : Kept z s) : Kept z (Dev.heal s f set way i) := by
  unfold Dev.heal
  try dsimp only
  repeat' first
    | with_reducible assumption
    | (fail_if_no_progress with_reducible refine Kept.upd ?_ (by rfl) (by rfl) (by rfl))

theorem Dev.updLine_kept {z : Dev} (s : Dev) (f set way : Nat) (g : Line → Line)  (hz : Kept z s) : Kept z (Dev.updLine s f set way g) := by
  unfold Dev.updLine
  try dsimp only
  repeat' first
    | with_reducible assumption
    | (with_reducible refine kept_ite ?_ ?_)
    | with_reducible apply Dev.delLine_kept
    | with_reducible apply Dev.setLine_kept
    | (fail_if_no_progress with_reducible refine Kept.upd ?_ (by rfl) (by rfl) (by rfl))
    | split

theorem Dev.updAt_kept {z : Dev} (s : Dev) (p : Place) (g : Line → Line)  (hz : Kept z s) : Kept z (Dev.updAt s p g) := by
  unfold Dev.updAt
  try dsimp only
  repeat' first
    | with_reducible assumption
    | with_reducible apply Dev.updLine_kept
    | (fail_if_no_progress with_reducible refine Kept.upd ?_ (by rfl) (by rfl) (by rfl))
    | split

theorem Dev.victim_kept {z s t : Dev} {f set k w : Nat} (e : s.victim f set k = some (w, t)) (h : Kept z s) : Kept z t := by
  unfold Dev.victim at e
  dsimp only at e
  split at e
  · cases e; exact h
  · split at e
    · cases e
    · split at e
      · cases e
        exact kept_each (fun s x h => Dev.updLine_kept s _ _ _ _ h) h
      · cases e

theorem Dev.touch_kept {z : Dev} (s : Dev) (p : Place)  (hz : Kept z s) : Kept z (Dev.touch s p) := by
  unfold Dev.touch
  try dsimp only
  repeat' first
    | with_reducible assumption
    | with_reducible apply Dev.updAt_kept

theorem Dev.filterAdd_kept {z : Dev} (s : Dev) (f set : Nat) (l : Line)  (hz : Kept z s) : Kept z (Dev.filterAdd s f set l) := by
  unfold Dev.filterAdd
  try dsimp only
  repeat' first
    | with_reducible assumption
    | (fail_if_no_progress with_reducible refine Kept.upd ?_ (by rfl) (by rfl) (by rfl))

theorem Dev.filterMiss_kept {z : Dev} (s : Dev) (p : Place)  (hz : Kept z s) : Kept z (Dev.filterMiss s p) := by
  unfold Dev.filterMiss
  try dsimp only
  repeat' first
    | with_reducible assumption
    | (with_reducible refine kept_ite ?_ ?_)
    | with_reducible apply Dev.event_kept
    | (fail_if_no_progress with_reducible refine Kept.upd ?_ (by rfl) (by rfl) (by rfl))
    | split

theorem Dev.updPlr_kept {z : Dev} (s : Dev) (id : Nat) (g : Plr → Plr)  (hz : Kept z s) : Kept z (Dev.updPlr s id g) := by
  unfold Dev.updPlr
  try dsimp only
  repeat' first
    | with_reducible assumption
    | (with_reducible refine kept_ite ?_ ?_)
    | (fail_if_no_progress with_reducible refine Kept.upd ?_ (by rfl) (by rfl) (by rfl))

theorem Dev.freePlr_kept {z : Dev} (s : Dev) (id : Nat)  (hz : Kept z s) : Kept z (Dev.freePlr s id) := by
  unfold Dev.freePlr
  try dsimp only
  repeat' first
    | with_reducible assumption
    | (fail_if_no_progress with_reducible refine Kept.upd ?_ (by rfl) (by rfl) (by rfl))

theorem Dev.setDir_kept {z : Dev} (s : Dev) (f set w : Nat) (e : Option DirEntry)  (hz : Kept z s) : Kept z (Dev.setDir s f set w e) := by
  unfold Dev.setDir
  try dsimp only
  repeat' first
    | with_reducible assumption
    | (fail_if_no_progress with_reducible refine Kept.upd ?_ (by rfl) (by rfl) (by rfl))

theorem Dev.setHome_kept {z : Dev} (s : Dev) (p : Place) (st : Option HomeState) (way : Option Nat)  (hz : Kept z s) : Kept z (Dev.setHome s p st way) := by
  unfold Dev.setHome
  try dsimp only
  repeat' first
    | with_reducible assumption
    | with_reducible apply Dev.setDir_kept
    | (fail_if_no_progress with_reducible refine Kept.upd ?_ (by rfl) (by rfl) (by rfl))
    | split

theorem Dev.setStoreSub_kept {z : Dev} (s : Dev) (cls h x : Nat) (v : Option Sub)  (hz : Kept z s) : Kept z (Dev.setStoreSub s cls h x v) := by
  unfold Dev.setStoreSub
  try dsimp only
  repeat' first
    | with_reducible assumption
    | with_reducible apply Dev.setLine_kept
    | with_reducible apply Dev.heal_kept

theorem Dev.selfRefresh_kept {z : Dev} (s : Dev) (enter : Bool)  (hz : Kept z s) : Kept z (Dev.selfRefresh s enter) := by
  unfold Dev.selfRefresh
  try dsimp only
  repeat' first
    | with_reducible assumption
    | (with_reducible refine kept_ite ?_ ?_)
    | with_reducible apply Dev.put_kept
    | with_reducible apply Dev.send_kept
    | (fail_if_no_progress with_reducible refine Kept.upd ?_ (by rfl) (by rfl) (by rfl))

theorem Dev.portsIdle_kept {z : Dev} (s : Dev) (state : Nat)  (hz : Kept z s) : Kept z (Dev.portsIdle s state) := by
  unfold Dev.portsIdle
  try dsimp only
  repeat' first
    | with_reducible assumption
    | (with_reducible refine kept_ite ?_ ?_)
    | (with_reducible refine kept_each (fun s x hz => ?_) ?_)
    | with_reducible apply Dev.each_kept
    | with_reducible apply Dev.put_kept

theorem Dev.dropWork_kept {z : Dev} (s : Dev)  (hz : Kept z s) : Kept z (Dev.dropWork s) := by
  unfold Dev.dropWork
  try dsimp only
  repeat' first
    | with_reducible assumption
    | (fail_if_no_progress with_reducible refine Kept.upd ?_ (by rfl) (by rfl) (by rfl))

theorem Dev.dropPlan_kept {z : Dev} (s : Dev)  (hz : Kept z s) : Kept z (Dev.dropPlan s) := by
  unfold Dev.dropPlan
  try dsimp only
  repeat' first
    | with_reducible assumption
    | (fail_if_no_progress with_reducible refine Kept.upd ?_ (by rfl) (by rfl) (by rfl))

theorem Dev.enterEclipse_kept {z : Dev} (s : Dev) (cause origin : Nat)  (hz : Kept z s) : Kept z (Dev.enterEclipse s cause origin) := by
  unfold Dev.enterEclipse
  try dsimp only
  repeat' first
    | with_reducible assumption
    | (with_reducible refine kept_ite ?_ ?_)
    | (with_reducible refine kept_each (fun s x hz => ?_) ?_)
    | with_reducible apply Dev.each_kept
    | with_reducible apply Dev.answerRest_kept
    | with_reducible apply Dev.send_kept
    | with_reducible apply Dev.portsIdle_kept
    | with_reducible apply Dev.selfRefresh_kept
    | with_reducible apply Dev.dropWork_kept
    | with_reducible apply Dev.dropPlan_kept
    | with_reducible apply Dev.setReg_kept
    | with_reducible apply Dev.eventRecord_kept
    | with_reducible apply Dev.put_kept
    | (fail_if_no_progress with_reducible refine Kept.upd ?_ (by rfl) (by rfl) (by rfl))

theorem Dev.busUse_kept {z : Dev} (s : Dev) (pc : Nat) (c : DramClass) (n : Nat)  (hz : Kept z s) : Kept z (Dev.busUse s pc c n) := by
  unfold Dev.busUse
  try dsimp only
  repeat' first
    | with_reducible assumption
    | with_reducible apply Dev.event_kept
    | (fail_if_no_progress with_reducible refine Kept.upd ?_ (by rfl) (by rfl) (by rfl))

theorem Dev.letGo_kept {z : Dev} (s : Dev) (id : Nat)  (hz : Kept z s) : Kept z (Dev.letGo s id) := by
  unfold Dev.letGo
  try dsimp only
  repeat' first
    | with_reducible assumption
    | (with_reducible refine kept_ite ?_ ?_)
    | (fail_if_no_progress with_reducible refine Kept.upd ?_ (by rfl) (by rfl) (by rfl))

theorem Dev.issueWaiting_kept {z : Dev} (s : Dev)  (hz : Kept z s) : Kept z (Dev.issueWaiting s) := by
  unfold Dev.issueWaiting
  try dsimp only
  repeat' first
    | with_reducible assumption
    | (with_reducible refine kept_ite ?_ ?_)
    | (with_reducible refine kept_each (fun s x hz => ?_) ?_)
    | with_reducible apply Dev.each_kept
    | with_reducible apply Dev.letGo_kept
    | with_reducible apply Dev.busUse_kept

theorem Dev.hasten_kept {z : Dev} (s : Dev) (plr : Nat)  (hz : Kept z s) : Kept z (Dev.hasten s plr) := by
  unfold Dev.hasten
  try dsimp only
  repeat' first
    | with_reducible assumption
    | (with_reducible refine kept_each (fun s x hz => ?_) ?_)
    | with_reducible apply Dev.each_kept
    | with_reducible apply Dev.letGo_kept
    | with_reducible apply Dev.busUse_kept

theorem Dev.issueRead_kept {z : Dev} (s : Dev) (grp sector : Nat) (subs : BitVec 4) (shadowed : Bool) (c : DramClass) (why : ReadFor)  (hz : Kept z s) : Kept z (Dev.issueRead s grp sector subs shadowed c why).2 := by
  unfold Dev.issueRead
  try dsimp only
  repeat' first
    | with_reducible assumption
    | (with_reducible refine kept_ite ?_ ?_)
    | (with_reducible refine kept_ite_fst ?_ ?_)
    | (with_reducible refine kept_ite_snd ?_ ?_)
    | (with_reducible refine kept_foldl (fun s x hz => ?_) ?_)
    | (with_reducible refine kept_foldl_fst (fun s x hz => ?_) ?_)
    | with_reducible apply Dev.put_kept
    | with_reducible apply Dev.busUse_kept
    | (fail_if_no_progress with_reducible refine Kept.upd ?_ (by rfl) (by rfl) (by rfl))

theorem Dev.issueWrite_kept {z : Dev} (s : Dev) (grp d : Nat) (data : Sub) (poison : Bool) (c : DramClass) (why : WriteFor)  (hz : Kept z s) : Kept z (Dev.issueWrite s grp d data poison c why).2 := by
  unfold Dev.issueWrite
  try dsimp only
  repeat' first
    | with_reducible assumption
    | (with_reducible refine kept_ite ?_ ?_)
    | (with_reducible refine kept_ite_fst ?_ ?_)
    | (with_reducible refine kept_ite_snd ?_ ?_)
    | with_reducible apply Dev.busUse_kept
    | (fail_if_no_progress with_reducible refine Kept.upd ?_ (by rfl) (by rfl) (by rfl))

/-- A change of the stack's contents that keeps their canonical form. -/
theorem Kept.dram {z s : Dev} (h : Kept z s) {t : Stack} (hg : memWf s.stack.dram = true → memWf t.dram = true) :
    Kept z { s with stack := t } :=
  h.of (Fuse.stays_refl _) rfl
    (fun w => by
      have := (memoriesWf_iff s).1 w
      exact (memoriesWf_iff _).2 ⟨hg this.1, this.2.1, this.2.2⟩) (List.prefix_refl _)

theorem Dev.commitWrite_kept {z : Dev} (s : Dev) (w : DramWrite) (hz : Kept z s) : Kept z (Dev.commitWrite s w) :=
  hz.dram memPutSub_wf

theorem Dev.zeroSub_kept {z : Dev} (s : Dev) (d : Nat) (hz : Kept z s) : Kept z (Dev.zeroSub s d) := by
  unfold Dev.zeroSub
  generalize (0 : Sub) = v
  exact hz.dram memPutSub_wf

theorem Dev.setRowEntry_kept {z : Dev} (s : Dev) (i v : Nat) (hz : Kept z s) : Kept z (Dev.setRowEntry s i v) :=
  hz.glow memWrite_wf

theorem Dev.stkErr_kept {z : Dev} (s : Dev) (f : Field)  (hz : Kept z s) : Kept z (Dev.stkErr s f) := by
  unfold Dev.stkErr
  try dsimp only
  repeat' first
    | with_reducible assumption
    | (with_reducible refine kept_ite ?_ ?_)
    | with_reducible apply Dev.raise_kept
    | with_reducible apply Dev.alert_kept

theorem Dev.retireRow_kept {z : Dev} (s : Dev) (i : Nat)  (hz : Kept z s) : Kept z (Dev.retireRow s i) := by
  unfold Dev.retireRow
  try dsimp only
  repeat' first
    | with_reducible assumption
    | (with_reducible refine kept_ite ?_ ?_)
    | with_reducible apply Dev.setRowEntry_kept
    | with_reducible apply Dev.stkErr_kept
    | with_reducible apply Dev.bump_kept
    | (fail_if_no_progress with_reducible refine Kept.upd ?_ (by rfl) (by rfl) (by rfl))
    | split

theorem Dev.countRow_kept {z : Dev} (s : Dev) (grp d : Nat) (ue : Bool)  (hz : Kept z s) : Kept z (Dev.countRow s grp d ue) := by
  unfold Dev.countRow
  try dsimp only
  repeat' first
    | with_reducible assumption
    | (with_reducible refine kept_ite ?_ ?_)
    | with_reducible apply Dev.bump_kept
    | with_reducible apply Dev.setRowEntry_kept
    | with_reducible apply Dev.retireRow_kept
    | (fail_if_no_progress with_reducible refine Kept.upd ?_ (by rfl) (by rfl) (by rfl))
    | split

theorem Dev.corrected_kept {z : Dev} (s : Dev) (grp d : Nat)  (hz : Kept z s) : Kept z (Dev.corrected s grp d) := by
  unfold Dev.corrected
  try dsimp only
  repeat' first
    | with_reducible assumption
    | with_reducible apply Dev.stkErr_kept
    | with_reducible apply Dev.bump_kept
    | with_reducible apply Dev.countRow_kept
    | with_reducible apply Dev.event_kept

theorem Dev.channelFail_kept {z : Dev} (s : Dev) (stack ch : Nat)  (hz : Kept z s) : Kept z (Dev.channelFail s stack ch) := by
  unfold Dev.channelFail
  try dsimp only
  repeat' first
    | with_reducible assumption
    | (with_reducible refine kept_ite ?_ ?_)
    | with_reducible apply Dev.put_kept
    | with_reducible apply Dev.stkErr_kept
    | with_reducible apply Dev.errorRecord_kept
    | with_reducible apply Dev.raise_kept
    | with_reducible apply Dev.alert_kept
    | (fail_if_no_progress with_reducible refine Kept.upd ?_ (by rfl) (by rfl) (by rfl))

theorem Dev.failedRead_kept {z : Dev} (s : Dev) (grp d : Nat) (addr : Bool)  (hz : Kept z s) : Kept z (Dev.failedRead s grp d addr) := by
  unfold Dev.failedRead
  try dsimp only
  repeat' first
    | with_reducible assumption
    | (with_reducible refine kept_ite ?_ ?_)
    | with_reducible apply Dev.stkErr_kept
    | with_reducible apply Dev.bump_kept
    | with_reducible apply Dev.setReg_kept
    | with_reducible apply Dev.countRow_kept
    | with_reducible apply Dev.channelFail_kept
    | (fail_if_no_progress with_reducible refine Kept.upd ?_ (by rfl) (by rfl) (by rfl))

theorem Dev.poisonWrite_kept {z : Dev} (s : Dev) (grp d : Nat)  (hz : Kept z s) : Kept z (Dev.poisonWrite s grp d) := by
  unfold Dev.poisonWrite
  try dsimp only
  repeat' first
    | with_reducible assumption
    | with_reducible apply Dev.issueWrite_kept
    | with_reducible apply Dev.stkErr_kept
    | with_reducible apply Dev.errorRecord_kept

theorem Dev.inject_kept {z : Dev} (s : Dev) (u : Upset)  (hz : Kept z s) : Kept z (Dev.inject s u) := by
  unfold Dev.inject
  try dsimp only
  repeat' first
    | with_reducible assumption
    | (with_reducible refine kept_foldl (fun s x hz => ?_) ?_)
    | (with_reducible refine kept_foldl_fst (fun s x hz => ?_) ?_)
    | (fail_if_no_progress with_reducible refine Kept.upd ?_ (by rfl) (by rfl) (by rfl))

theorem Dev.entryLost_kept {z : Dev} (s : Dev) (f d : Nat) (tag : Bool)  (hz : Kept z s) : Kept z (Dev.entryLost s f d tag) := by
  unfold Dev.entryLost
  try dsimp only
  repeat' first
    | with_reducible assumption
    | (with_reducible refine kept_ite ?_ ?_)
    | with_reducible apply Dev.raise_kept
    | with_reducible apply Dev.alert_kept
    | with_reducible apply Dev.errorRecord_kept
    | with_reducible apply Dev.enterEclipse_kept

theorem Dev.checkTagAt_kept {z : Dev} (s : Dev) (f set w : Nat)  (hz : Kept z s) : Kept z (Dev.checkTagAt s f set w) := by
  unfold Dev.checkTagAt
  try dsimp only
  repeat' first
    | with_reducible assumption
    | with_reducible apply Dev.raise_kept
    | with_reducible apply Dev.bump_kept
    | with_reducible apply Dev.entryLost_kept
    | (fail_if_no_progress with_reducible refine Kept.upd ?_ (by rfl) (by rfl) (by rfl))
    | split

theorem Dev.checkDirAt_kept {z : Dev} (s : Dev) (f set w : Nat)  (hz : Kept z s) : Kept z (Dev.checkDirAt s f set w) := by
  unfold Dev.checkDirAt
  try dsimp only
  repeat' first
    | with_reducible assumption
    | with_reducible apply Dev.bump_kept
    | with_reducible apply Dev.setDir_kept
    | with_reducible apply Dev.entryLost_kept
    | (fail_if_no_progress with_reducible refine Kept.upd ?_ (by rfl) (by rfl) (by rfl))
    | split

theorem Dev.readTags_kept {z : Dev} (s : Dev) (f set : Nat)  (hz : Kept z s) : Kept z (Dev.readTags s f set) := by
  unfold Dev.readTags
  try dsimp only
  repeat' first
    | with_reducible assumption
    | (with_reducible refine kept_ite ?_ ?_)
    | (with_reducible refine kept_each (fun s x hz => ?_) ?_)
    | with_reducible apply Dev.each_kept
    | with_reducible apply Dev.checkTagAt_kept

theorem Dev.readDirs_kept {z : Dev} (s : Dev) (f set : Nat)  (hz : Kept z s) : Kept z (Dev.readDirs s f set) := by
  unfold Dev.readDirs
  try dsimp only
  repeat' first
    | with_reducible assumption
    | (with_reducible refine kept_ite ?_ ?_)
    | (with_reducible refine kept_each (fun s x hz => ?_) ?_)
    | with_reducible apply Dev.each_kept
    | with_reducible apply Dev.checkDirAt_kept

theorem Dev.readSets_kept {z : Dev} (s : Dev) (p : Place)  (hz : Kept z s) : Kept z (Dev.readSets s p) := by
  unfold Dev.readSets
  try dsimp only
  repeat' first
    | with_reducible assumption
    | (with_reducible refine kept_ite ?_ ?_)
    | with_reducible apply Dev.readTags_kept
    | with_reducible apply Dev.readDirs_kept

theorem Dev.dataLost_kept {z : Dev} (s : Dev) (f d : Nat)  (hz : Kept z s) : Kept z (Dev.dataLost s f d) := by
  unfold Dev.dataLost
  try dsimp only
  repeat' first
    | with_reducible assumption
    | with_reducible apply Dev.raise_kept
    | with_reducible apply Dev.alert_kept
    | with_reducible apply Dev.errorRecord_kept

theorem Dev.dataUe_kept {z : Dev} (s : Dev) (f d : Nat)  (hz : Kept z s) : Kept z (Dev.dataUe s f d) := by
  unfold Dev.dataUe
  try dsimp only
  repeat' first
    | with_reducible assumption
    | (with_reducible refine kept_ite ?_ ?_)
    | with_reducible apply Dev.raise_kept
    | with_reducible apply Dev.bump_kept
    | with_reducible apply Dev.put_kept

theorem Dev.dataCe_kept {z : Dev} (s : Dev) (f : Nat)  (hz : Kept z s) : Kept z (Dev.dataCe s f) := by
  unfold Dev.dataCe
  try dsimp only
  repeat' first
    | with_reducible assumption
    | with_reducible apply Dev.raise_kept
    | with_reducible apply Dev.bump_kept

theorem Dev.dataCheck_kept {z : Dev} (s : Dev) (f set w i : Nat)  (hz : Kept z s) : Kept z (Dev.dataCheck s f set w i).1 := by
  unfold Dev.dataCheck
  try dsimp only
  repeat' first
    | with_reducible assumption
    | (with_reducible refine kept_ite ?_ ?_)
    | (with_reducible refine kept_ite_fst ?_ ?_)
    | (with_reducible refine kept_ite_snd ?_ ?_)
    | with_reducible apply Dev.heal_kept
    | with_reducible apply Dev.dataCe_kept
    | with_reducible apply Dev.dataUe_kept
    | with_reducible apply Dev.dataLost_kept
    | (fail_if_no_progress with_reducible refine Kept.upd ?_ (by rfl) (by rfl) (by rfl))
    | split

theorem Dev.storeCheck_kept {z : Dev} (s : Dev) (cls h x : Nat)  (hz : Kept z s) : Kept z (Dev.storeCheck s cls h x) := by
  unfold Dev.storeCheck
  try dsimp only
  repeat' first
    | with_reducible assumption
    | (with_reducible refine kept_ite ?_ ?_)
    | with_reducible apply Dev.heal_kept
    | with_reducible apply Dev.dataCe_kept
    | with_reducible apply Dev.setStoreSub_kept
    | with_reducible apply Dev.dataUe_kept
    | with_reducible apply Dev.raise_kept
    | with_reducible apply Dev.alert_kept
    | with_reducible apply Dev.errorRecord_kept
    | (fail_if_no_progress with_reducible refine Kept.upd ?_ (by rfl) (by rfl) (by rfl))
    | split

theorem Dev.chordFlags_kept {z : Dev} (s : Dev) (f : ArithFlags)  (hz : Kept z s) : Kept z (Dev.chordFlags s f) := by
  unfold Dev.chordFlags
  try dsimp only
  repeat' first
    | with_reducible assumption
    | with_reducible apply Dev.raiseIf_kept

theorem Dev.putMirror_kept {z : Dev} (s : Dev) (p : Place) (data : Sub) (record : Option AtomicRecord) (txn : Nat)  (hz : Kept z s) : Kept z (Dev.putMirror s p data record txn) := by
  unfold Dev.putMirror
  try dsimp only
  repeat' first
    | with_reducible assumption
    | (with_reducible refine kept_ite ?_ ?_)
    | with_reducible apply Dev.send_kept
    | (fail_if_no_progress with_reducible refine Kept.upd ?_ (by rfl) (by rfl) (by rfl))

theorem Dev.releaseMirror_kept {z : Dev} (s : Dev) (grp sector : Nat) (subs : List Nat)  (hz : Kept z s) : Kept z (Dev.releaseMirror s grp sector subs) := by
  unfold Dev.releaseMirror
  try dsimp only
  repeat' first
    | with_reducible assumption
    | (with_reducible refine kept_ite ?_ ?_)
    | (with_reducible refine kept_foldl (fun s x hz => ?_) ?_)
    | (with_reducible refine kept_foldl_fst (fun s x hz => ?_) ?_)
    | with_reducible apply Dev.send_kept
    | (fail_if_no_progress with_reducible refine Kept.upd ?_ (by rfl) (by rfl) (by rfl))

theorem Dev.startRecon_kept {z : Dev} (s : Dev) (h grp d : Nat) (writeBack : Bool) (why : ReconFor)  (hz : Kept z s) : Kept z (Dev.startRecon s h grp d writeBack why) := by
  unfold Dev.startRecon
  try dsimp only
  repeat' first
    | with_reducible assumption
    | (with_reducible refine kept_ite ?_ ?_)
    | (with_reducible refine kept_each (fun s x hz => ?_) ?_)
    | with_reducible apply Dev.each_kept
    | with_reducible apply Dev.send_kept
    | with_reducible apply Dev.reconRead_kept
    | (fail_if_no_progress with_reducible refine Kept.upd ?_ (by rfl) (by rfl) (by rfl))

theorem Dev.doubleFault_kept {z : Dev} (s : Dev) (grp d : Nat)  (hz : Kept z s) : Kept z (Dev.doubleFault s grp d) := by
  unfold Dev.doubleFault
  try dsimp only
  repeat' first
    | with_reducible assumption
    | (with_reducible refine kept_ite ?_ ?_)
    | with_reducible apply Dev.raise_kept
    | with_reducible apply Dev.alert_kept
    | with_reducible apply Dev.errorRecord_kept
    | with_reducible apply Dev.setReg_kept

theorem Dev.dropRecon_kept {z : Dev} (s : Dev) (id : Nat)  (hz : Kept z s) : Kept z (Dev.dropRecon s id) := by
  unfold Dev.dropRecon
  try dsimp only
  repeat' first
    | with_reducible assumption
    | (fail_if_no_progress with_reducible refine Kept.upd ?_ (by rfl) (by rfl) (by rfl))

theorem Dev.updWb_kept {z : Dev} (s : Dev) (id : Nat) (f : Wb → Wb)  (hz : Kept z s) : Kept z (Dev.updWb s id f) := by
  unfold Dev.updWb
  try dsimp only
  repeat' first
    | with_reducible assumption
    | (with_reducible refine kept_ite ?_ ?_)
    | (fail_if_no_progress with_reducible refine Kept.upd ?_ (by rfl) (by rfl) (by rfl))

theorem Dev.dropWb_kept {z : Dev} (s : Dev) (id : Nat)  (hz : Kept z s) : Kept z (Dev.dropWb s id) := by
  unfold Dev.dropWb
  try dsimp only
  repeat' first
    | with_reducible assumption
    | (fail_if_no_progress with_reducible refine Kept.upd ?_ (by rfl) (by rfl) (by rfl))

theorem Dev.wbWrite_kept {z : Dev} (s : Dev) (w : Wb)  (hz : Kept z s) : Kept z (Dev.wbWrite s w) := by
  unfold Dev.wbWrite
  try dsimp only
  repeat' first
    | with_reducible assumption
    | with_reducible apply Dev.updWb_kept
    | with_reducible apply Dev.issueWrite_kept

theorem Dev.wbDelta_kept {z : Dev} (s : Dev) (w : Wb)  (hz : Kept z s) : Kept z (Dev.wbDelta s w) := by
  unfold Dev.wbDelta
  try dsimp only
  repeat' first
    | with_reducible assumption
    | (with_reducible refine kept_ite ?_ ?_)
    | (with_reducible refine kept_foldl (fun s x hz => ?_) ?_)
    | (with_reducible refine kept_foldl_fst (fun s x hz => ?_) ?_)
    | with_reducible apply Dev.send_kept
    | with_reducible apply Dev.updWb_kept
    | (fail_if_no_progress with_reducible refine Kept.upd ?_ (by rfl) (by rfl) (by rfl))

theorem Dev.wbBegin_kept {z : Dev} (s : Dev) (w : Wb)  (hz : Kept z s) : Kept z (Dev.wbBegin s w) := by
  unfold Dev.wbBegin
  try dsimp only
  repeat' first
    | with_reducible assumption
    | (with_reducible refine kept_ite ?_ ?_)
    | with_reducible apply Dev.wbWrite_kept
    | with_reducible apply Dev.updWb_kept
    | with_reducible apply Dev.wbDelta_kept
    | with_reducible apply Dev.startRecon_kept
    | with_reducible apply Dev.issueRead_kept

theorem Dev.startWb_kept {z : Dev} (s : Dev) (p : Place) (data : Sub) (poison : Bool) (why : WbFor)  (hz : Kept z s) : Kept z (Dev.startWb s p data poison why) := by
  unfold Dev.startWb
  try dsimp only
  repeat' first
    | with_reducible assumption
    | (with_reducible refine kept_ite ?_ ?_)
    | with_reducible apply Dev.event_kept
    | with_reducible apply Dev.wbBegin_kept
    | (fail_if_no_progress with_reducible refine Kept.upd ?_ (by rfl) (by rfl) (by rfl))

theorem Dev.poisonDone_kept {z : Dev} (s : Dev) (w : Wb)  (hz : Kept z s) : Kept z (Dev.poisonDone s w) := by
  unfold Dev.poisonDone
  try dsimp only
  repeat' first
    | with_reducible assumption
    | (with_reducible refine kept_ite ?_ ?_)
    | (fail_if_no_progress with_reducible refine Kept.upd ?_ (by rfl) (by rfl) (by rfl))
    | split

theorem Dev.wbEnd_kept {z : Dev} (s : Dev) (w : Wb)  (hz : Kept z s) : Kept z (Dev.wbEnd s w) := by
  unfold Dev.wbEnd
  try dsimp only
  repeat' first
    | with_reducible assumption
    | (with_reducible refine kept_ite ?_ ?_)
    | with_reducible apply Dev.dropWb_kept
    | with_reducible apply Dev.poisonDone_kept
    | with_reducible apply Dev.releaseMirror_kept
    | with_reducible apply Dev.wbBegin_kept
    | (fail_if_no_progress with_reducible refine Kept.upd ?_ (by rfl) (by rfl) (by rfl))
    | split

theorem Dev.wbWritten_kept {z : Dev} (s : Dev) (id : Nat)  (hz : Kept z s) : Kept z (Dev.wbWritten s id) := by
  unfold Dev.wbWritten
  try dsimp only
  repeat' first
    | with_reducible assumption
    | (with_reducible refine kept_ite ?_ ?_)
    | with_reducible apply Dev.wbEnd_kept
    | with_reducible apply Dev.wbDelta_kept
    | (fail_if_no_progress with_reducible refine Kept.upd ?_ (by rfl) (by rfl) (by rfl))
    | split

theorem Dev.wbOld_kept {z : Dev} (s : Dev) (id : Nat) (old : Sub) (poison : Bool)  (hz : Kept z s) : Kept z (Dev.wbOld s id old poison) := by
  unfold Dev.wbOld
  try dsimp only
  repeat' first
    | with_reducible assumption
    | (with_reducible refine kept_ite ?_ ?_)
    | with_reducible apply Dev.updWb_kept
    | with_reducible apply Dev.wbWritten_kept
    | with_reducible apply Dev.wbWrite_kept
    | (fail_if_no_progress with_reducible refine Kept.upd ?_ (by rfl) (by rfl) (by rfl))
    | split

theorem Dev.deltaComp_kept {z : Dev} (s : Dev) (sender txid : Nat)  (hz : Kept z s) : Kept z (Dev.deltaComp s sender txid) := by
  unfold Dev.deltaComp
  try dsimp only
  repeat' first
    | with_reducible assumption
    | (with_reducible refine kept_ite ?_ ?_)
    | with_reducible apply Dev.send_kept
    | with_reducible apply Dev.wbEnd_kept
    | (fail_if_no_progress with_reducible refine Kept.upd ?_ (by rfl) (by rfl) (by rfl))
    | split

theorem Dev.recordDeltas_kept {z : Dev} (s : Dev) (o : ParityOp)  (hz : Kept z s) : Kept z (Dev.recordDeltas s o) := by
  unfold Dev.recordDeltas
  try dsimp only
  repeat' first
    | with_reducible assumption
    | with_reducible apply Dev.peak_kept
    | (fail_if_no_progress with_reducible refine Kept.upd ?_ (by rfl) (by rfl) (by rfl))

theorem Dev.updParity_kept {z : Dev} (s : Dev) (id : Nat) (g : ParityOp → ParityOp)  (hz : Kept z s) : Kept z (Dev.updParity s id g) := by
  unfold Dev.updParity
  try dsimp only
  repeat' first
    | with_reducible assumption
    | (with_reducible refine kept_ite ?_ ?_)
    | (fail_if_no_progress with_reducible refine Kept.upd ?_ (by rfl) (by rfl) (by rfl))

theorem Dev.parityBegin_kept {z : Dev} (s : Dev) (o : ParityOp)  (hz : Kept z s) : Kept z (Dev.parityBegin s o) := by
  unfold Dev.parityBegin
  try dsimp only
  repeat' first
    | with_reducible assumption
    | (with_reducible refine kept_ite ?_ ?_)
    | with_reducible apply Dev.updParity_kept
    | with_reducible apply Dev.issueWrite_kept
    | with_reducible apply Dev.recordDeltas_kept
    | with_reducible apply Dev.issueRead_kept

theorem Dev.parityRun_kept {z : Dev} (s : Dev)  (hz : Kept z s) : Kept z (Dev.parityRun s) := by
  unfold Dev.parityRun
  try dsimp only
  repeat' first
    | with_reducible assumption
    | (with_reducible refine kept_each (fun s x hz => ?_) ?_)
    | with_reducible apply Dev.each_kept
    | with_reducible apply Dev.parityBegin_kept

theorem Dev.parityArrive_kept {z : Dev} (s : Dev) (sender : Pos) (txid : BitVec 12) (d : Nat) (delta : Sub) (poison pulled : Bool)  (hz : Kept z s) : Kept z (Dev.parityArrive s sender txid d delta poison pulled) := by
  unfold Dev.parityArrive
  try dsimp only
  repeat' first
    | with_reducible assumption
    | (with_reducible refine kept_ite ?_ ?_)
    | with_reducible apply Dev.send_kept
    | with_reducible apply Dev.updParity_kept
    | with_reducible apply Dev.parityRun_kept
    | (fail_if_no_progress with_reducible refine Kept.upd ?_ (by rfl) (by rfl) (by rfl))
    | split

theorem Dev.parityWrite_kept {z : Dev} (s : Dev) (o : ParityOp) (data : Sub) (poison : Bool)  (hz : Kept z s) : Kept z (Dev.parityWrite s o data poison) := by
  unfold Dev.parityWrite
  try dsimp only
  repeat' first
    | with_reducible assumption
    | with_reducible apply Dev.updParity_kept
    | with_reducible apply Dev.issueWrite_kept
    | with_reducible apply Dev.recordDeltas_kept

theorem Dev.parityOld_kept {z : Dev} (s : Dev) (id : Nat) (old : Sub) (poison : Bool)  (hz : Kept z s) : Kept z (Dev.parityOld s id old poison) := by
  unfold Dev.parityOld
  try dsimp only
  repeat' first
    | with_reducible assumption
    | (with_reducible refine kept_foldl (fun s x hz => ?_) ?_)
    | (with_reducible refine kept_foldl_fst (fun s x hz => ?_) ?_)
    | with_reducible apply Dev.parityWrite_kept
    | (fail_if_no_progress with_reducible refine Kept.upd ?_ (by rfl) (by rfl) (by rfl))
    | split

theorem Dev.parityLost_kept {z : Dev} (s : Dev) (id : Nat)  (hz : Kept z s) : Kept z (Dev.parityLost s id) := by
  unfold Dev.parityLost
  try dsimp only
  repeat' first
    | with_reducible assumption
    | with_reducible apply Dev.updParity_kept
    | with_reducible apply Dev.startRecon_kept
    | (fail_if_no_progress with_reducible refine Kept.upd ?_ (by rfl) (by rfl) (by rfl))
    | split

theorem Dev.parityRepair_kept {z : Dev} (s : Dev) (d : Nat)  (hz : Kept z s) : Kept z (Dev.parityRepair s d) := by
  unfold Dev.parityRepair
  try dsimp only
  repeat' first
    | with_reducible assumption
    | (with_reducible refine kept_ite ?_ ?_)
    | with_reducible apply Dev.parityLost_kept
    | (fail_if_no_progress with_reducible refine Kept.upd ?_ (by rfl) (by rfl) (by rfl))

theorem Dev.parityRecomputed_kept {z : Dev} (s : Dev) (id : Nat) (as : List ReconAnswer)  (hz : Kept z s) : Kept z (Dev.parityRecomputed s id as) := by
  unfold Dev.parityRecomputed
  try dsimp only
  repeat' first
    | with_reducible assumption
    | (with_reducible refine kept_ite ?_ ?_)
    | (with_reducible refine kept_foldl (fun s x hz => ?_) ?_)
    | (with_reducible refine kept_foldl_fst (fun s x hz => ?_) ?_)
    | with_reducible apply Dev.doubleFault_kept
    | with_reducible apply Dev.parityWrite_kept
    | (fail_if_no_progress with_reducible refine Kept.upd ?_ (by rfl) (by rfl) (by rfl))
    | split

theorem Dev.parityDone_kept {z : Dev} (s : Dev) (id : Nat)  (hz : Kept z s) : Kept z (Dev.parityDone s id) := by
  unfold Dev.parityDone
  try dsimp only
  repeat' first
    | with_reducible assumption
    | (with_reducible refine kept_each (fun s x hz => ?_) ?_)
    | with_reducible apply Dev.each_kept
    | with_reducible apply Dev.send_kept
    | with_reducible apply Dev.parityRun_kept
    | (fail_if_no_progress with_reducible refine Kept.upd ?_ (by rfl) (by rfl) (by rfl))
    | split

theorem Dev.parityReleased_kept {z : Dev} (s : Dev) (sender : Pos) (txid : BitVec 12) (d : Nat)  (hz : Kept z s) : Kept z (Dev.parityReleased s sender txid d) := by
  unfold Dev.parityReleased
  try dsimp only
  repeat' first
    | with_reducible assumption
    | with_reducible apply Dev.parityRun_kept
    | (fail_if_no_progress with_reducible refine Kept.upd ?_ (by rfl) (by rfl) (by rfl))

theorem Dev.reconAnswer_kept {z : Dev} (s : Dev) (dst : Nat) (txid : BitVec 12) (d : Nat) (readable urgent : Bool)  (hz : Kept z s) : Kept z (Dev.reconAnswer s dst txid d readable urgent) := by
  unfold Dev.reconAnswer
  try dsimp only
  repeat' first
    | with_reducible assumption
    | (with_reducible refine kept_ite ?_ ?_)
    | with_reducible apply Dev.send_kept

theorem Dev.mirrorStore_kept {z t : Dev} {s : Dev} {grp sector : Nat} {subs : BitVec 4} {data : List Sub} {record : Option AtomicRecord} (e : Dev.mirrorStore s grp sector subs data record = some t) (hz : Kept z s) : Kept z t := by
  unfold Dev.mirrorStore at e
  try dsimp only at e
  repeat' split at e
  all_goals cases e
  repeat' first
    | with_reducible assumption
    | (with_reducible refine kept_each (fun s x hz => ?_) ?_)
    | (with_reducible refine kept_foldl (fun s x hz => ?_) ?_)
    | (with_reducible refine kept_foldl_fst (fun s x hz => ?_) ?_)
    | with_reducible apply Dev.setLine_kept
    | with_reducible apply Dev.each_kept
    | with_reducible apply Dev.heal_kept
    | (fail_if_no_progress with_reducible refine Kept.upd ?_ (by rfl) (by rfl) (by rfl))

theorem Dev.mirrorFree_kept {z : Dev} (s : Dev) (grp sector : Nat) (subs : BitVec 4)  (hz : Kept z s) : Kept z (Dev.mirrorFree s grp sector subs) := by
  unfold Dev.mirrorFree
  try dsimp only
  repeat' first
    | with_reducible assumption
    | (with_reducible refine kept_ite ?_ ?_)
    | (with_reducible refine kept_foldl (fun s x hz => ?_) ?_)
    | (with_reducible refine kept_foldl_fst (fun s x hz => ?_) ?_)
    | with_reducible apply Dev.updLine_kept
    | (fail_if_no_progress with_reducible refine Kept.upd ?_ (by rfl) (by rfl) (by rfl))
    | split

theorem Dev.wbOf_kept {z : Dev} (s : Dev) (f set w : Nat) (l : Line) (i : Nat) (why : WbFor)  (hz : Kept z s) : Kept z (Dev.wbOf s f set w l i why) := by
  unfold Dev.wbOf
  try dsimp only
  repeat' first
    | with_reducible assumption
    | (with_reducible refine kept_ite ?_ ?_)
    | with_reducible apply Dev.dataCheck_kept
    | with_reducible apply Dev.startWb_kept

theorem Dev.evict_kept {z : Dev} (s : Dev) (f set w : Nat) (filter : Bool)  (hz : Kept z s) : Kept z (Dev.evict s f set w filter) := by
  unfold Dev.evict
  try dsimp only
  repeat' first
    | with_reducible assumption
    | (with_reducible refine kept_ite ?_ ?_)
    | (with_reducible refine kept_each (fun s x hz => ?_) ?_)
    | with_reducible apply Dev.each_kept
    | with_reducible apply Dev.wbOf_kept
    | with_reducible apply Dev.delLine_kept
    | with_reducible apply Dev.filterAdd_kept
    | (fail_if_no_progress with_reducible refine Kept.upd ?_ (by rfl) (by rfl) (by rfl))
    | split

theorem Dev.allocWay_kept {z t : Dev} {w : Nat} {s : Dev} {p : Place} {cls : Nat} {filter : Bool} (e : Dev.allocWay s p cls filter = .ok (w, t)) (hz : Kept z s) : Kept z t := by
  unfold Dev.allocWay at e
  try dsimp only at e
  repeat' split at e
  all_goals cases e
  repeat' first
    | with_reducible assumption
    | (refine Dev.victim_kept (by assumption) ?_)
    | with_reducible apply Dev.evict_kept

theorem Dev.fillRead_kept {z : Dev} (s : Dev) (p : Place) (plr : Nat) (subs : List Nat) (c : DramClass)  (hz : Kept z s) : Kept z (Dev.fillRead s p plr subs c) := by
  unfold Dev.fillRead
  try dsimp only
  repeat' first
    | with_reducible assumption
    | (with_reducible refine kept_ite ?_ ?_)
    | (with_reducible refine kept_each (fun s x hz => ?_) ?_)
    | with_reducible apply Dev.each_kept
    | with_reducible apply Dev.send_kept
    | with_reducible apply Dev.startRecon_kept
    | with_reducible apply Dev.issueRead_kept
    | (fail_if_no_progress with_reducible refine Kept.upd ?_ (by rfl) (by rfl) (by rfl))
    | split

theorem Dev.fillSub_kept {z : Dev} (s : Dev) (id i : Nat) (v0 : Option Sub)  (hz : Kept z s) : Kept z (Dev.fillSub s id i v0) := by
  unfold Dev.fillSub
  try dsimp only
  repeat' first
    | with_reducible assumption
    | (with_reducible refine kept_ite ?_ ?_)
    | with_reducible apply Dev.updPlr_kept
    | with_reducible apply Dev.put_kept
    | with_reducible apply Dev.setLine_kept
    | with_reducible apply Dev.heal_kept
    | (fail_if_no_progress with_reducible refine Kept.upd ?_ (by rfl) (by rfl) (by rfl))
    | split

theorem Dev.fillStart_kept {z : Dev} (s : Dev) (p : Place) (id : Nat) (subs : List Nat) (c : DramClass)  (hz : Kept z s) : Kept z (Dev.fillStart s p id subs c) := by
  unfold Dev.fillStart
  try dsimp only
  repeat' first
    | with_reducible assumption
    | (with_reducible refine kept_ite ?_ ?_)
    | (with_reducible refine kept_each (fun s x hz => ?_) ?_)
    | with_reducible apply Dev.updPlr_kept
    | with_reducible apply Dev.each_kept
    | with_reducible apply Dev.fillSub_kept
    | with_reducible apply Dev.fillRead_kept
    | (fail_if_no_progress with_reducible refine Kept.upd ?_ (by rfl) (by rfl) (by rfl))
    | split

theorem Dev.fetch_kept {z t : Dev} {s : Dev} {p : Place} {cls : Nat} {age : BitVec 2} {why : FetchFor} {w : Option Waiter} (e : Dev.fetch s p cls age why w = .ok t) (hz : Kept z s) : Kept z t := by
  unfold Dev.fetch at e
  try dsimp only at e
  repeat' split at e
  all_goals cases e
  repeat' first
    | with_reducible assumption
    | (with_reducible refine kept_ite ?_ ?_)
    | with_reducible apply Dev.updPlr_kept
    | with_reducible apply Dev.hasten_kept
    | with_reducible apply Dev.fillStart_kept
    | (refine Dev.allocWay_kept (by assumption) ?_)
    | with_reducible apply Dev.event_kept
    | with_reducible apply Dev.filterMiss_kept
    | (fail_if_no_progress with_reducible refine Kept.upd ?_ (by rfl) (by rfl) (by rfl))

theorem Dev.holdWait_kept {z t : Dev} {s : Dev} {p : Place} {w : Waiter} (e : Dev.holdWait s p w = .ok t) (hz : Kept z s) : Kept z t := by
  unfold Dev.holdWait at e
  try dsimp only at e
  repeat' split at e
  all_goals cases e
  repeat' first
    | with_reducible assumption
    | with_reducible apply Dev.updPlr_kept
    | (fail_if_no_progress with_reducible refine Kept.upd ?_ (by rfl) (by rfl) (by rfl))

theorem Dev.prefetchAt_kept {z : Dev} (s0 : Dev) (p : Place) (cls : Nat)  (hz : Kept z s0) : Kept z (Dev.prefetchAt s0 p cls) := by
  unfold Dev.prefetchAt
  try dsimp only
  repeat' first
    | with_reducible assumption
    | (with_reducible refine kept_ite ?_ ?_)
    | (with_reducible refine kept_each (fun s x hz => ?_) ?_)
    | with_reducible apply Dev.readTags_kept
    | (refine Dev.fetch_kept (by assumption) ?_)
    | with_reducible apply Dev.each_kept
    | with_reducible apply Dev.freePlr_kept
    | (fail_if_no_progress with_reducible refine Kept.upd ?_ (by rfl) (by rfl) (by rfl))
    | split

theorem Dev.prefetchNext_kept {z : Dev} (s : Dev) (p : Place) (cls : Nat)  (hz : Kept z s) : Kept z (Dev.prefetchNext s p cls) := by
  unfold Dev.prefetchNext
  try dsimp only
  repeat' first
    | with_reducible assumption
    | (with_reducible refine kept_ite ?_ ?_)
    | with_reducible apply Dev.prefetchAt_kept
    | with_reducible apply Dev.send_kept
    | (fail_if_no_progress with_reducible refine Kept.upd ?_ (by rfl) (by rfl) (by rfl))
    | split

theorem Dev.hintArrive_kept {z : Dev} (s : Dev) (grp d cls : Nat) (shadowed : Bool)  (hz : Kept z s) : Kept z (Dev.hintArrive s grp d cls shadowed) := by
  unfold Dev.hintArrive
  try dsimp only
  repeat' first
    | with_reducible assumption
    | with_reducible apply Dev.prefetchAt_kept
    | (fail_if_no_progress with_reducible refine Kept.upd ?_ (by rfl) (by rfl) (by rfl))
    | split

theorem Dev.placeDirty_kept {z t : Dev} {s : Dev} {p : Place} {cls : Nat} {filled : Bool} {data : Sub} (e : Dev.placeDirty s p cls filled data = .ok t) (hz : Kept z s) : Kept z t := by
  unfold Dev.placeDirty at e
  try dsimp only at e
  repeat' split at e
  all_goals cases e
  repeat' first
    | with_reducible assumption
    | (with_reducible refine kept_ite ?_ ?_)
    | with_reducible apply Dev.setLine_kept
    | with_reducible apply Dev.heal_kept
    | (refine Dev.allocWay_kept (by assumption) ?_)

theorem Dev.writeBackSub_kept {z : Dev} (s : Dev) (p : Place) (drop : Bool) (why : WbFor)  (hz : Kept z s) : Kept z (Dev.writeBackSub s p drop why) := by
  unfold Dev.writeBackSub
  try dsimp only
  repeat' first
    | with_reducible assumption
    | (with_reducible refine kept_ite ?_ ?_)
    | with_reducible apply Dev.dataCheck_kept
    | with_reducible apply Dev.updLine_kept
    | with_reducible apply Dev.startWb_kept
    | (fail_if_no_progress with_reducible refine Kept.upd ?_ (by rfl) (by rfl) (by rfl))
    | split

theorem Dev.earlyWb_kept {z : Dev} (s : Dev) (p : Place)  (hz : Kept z s) : Kept z (Dev.earlyWb s p) := by
  unfold Dev.earlyWb
  try dsimp only
  repeat' first
    | with_reducible assumption
    | (with_reducible refine kept_ite ?_ ?_)
    | (with_reducible refine kept_each (fun s x hz => ?_) ?_)
    | with_reducible apply Dev.each_kept
    | with_reducible apply Dev.writeBackSub_kept
    | with_reducible apply Dev.bump_kept
    | (fail_if_no_progress with_reducible refine Kept.upd ?_ (by rfl) (by rfl) (by rfl))
    | split

theorem Dev.poisonGranule_kept {z : Dev} (s : Dev) (p : Place) (why : WbFor)  (hz : Kept z s) : Kept z (Dev.poisonGranule s p why) := by
  unfold Dev.poisonGranule
  try dsimp only
  repeat' first
    | with_reducible assumption
    | (with_reducible refine kept_ite ?_ ?_)
    | with_reducible apply Dev.updAt_kept
    | with_reducible apply Dev.updPlr_kept
    | with_reducible apply Dev.releaseMirror_kept
    | with_reducible apply Dev.startWb_kept
    | (fail_if_no_progress with_reducible refine Kept.upd ?_ (by rfl) (by rfl) (by rfl))
    | split

theorem Dev.readCheck_kept {z : Dev} (s : Dev) (p : Place)  (hz : Kept z s) : Kept z (Dev.readCheck s p) := by
  unfold Dev.readCheck
  try dsimp only
  repeat' first
    | with_reducible assumption
    | (with_reducible refine kept_ite ?_ ?_)
    | with_reducible apply Dev.dataCheck_kept
    | with_reducible apply Dev.poisonGranule_kept
    | with_reducible apply Dev.updAt_kept
    | (fail_if_no_progress with_reducible refine Kept.upd ?_ (by rfl) (by rfl) (by rfl))
    | split

end Sys2Proof.Machine
end

