-- ==== Sys2Proof/Laws/KeptCoherence.lean ====
section
/-! SUPPORT. What the operations of the coherence protocol and of Prism leave alone. -/

namespace Sys2Proof.Machine

theorem Dev.updTxn_kept {z : Dev} (s : Dev) (id : Nat) (f : Txn → Txn)  (hz : Kept z s) : Kept z (Dev.updTxn s id f) := by
  unfold Dev.updTxn
  try dsimp only
  repeat' first
    | with_reducible assumption
    | (with_reducible refine kept_ite ?_ ?_)
    | (fail_if_no_progress with_reducible refine Kept.upd ?_ (by rfl) (by rfl) (by rfl))

theorem Dev.dropTxn_kept {z : Dev} (s : Dev) (id : Nat)  (hz : Kept z s) : Kept z (Dev.dropTxn s id) := by
  unfold Dev.dropTxn
  try dsimp only
  repeat' first
    | with_reducible assumption
    | (fail_if_no_progress with_reducible refine Kept.upd ?_ (by rfl) (by rfl) (by rfl))

theorem Dev.txnAnswer_kept {z : Dev} (s : Dev) (t : Txn)  (hz : Kept z s) : Kept z (Dev.txnAnswer s t) := by
  unfold Dev.txnAnswer
  try dsimp only
  repeat' first
    | with_reducible assumption
    | (with_reducible refine kept_ite ?_ ?_)
    | with_reducible apply Dev.request_kept
    | with_reducible apply Dev.updReq_kept
    | with_reducible apply Dev.finish_kept
    | with_reducible apply Dev.send_kept
    | (fail_if_no_progress with_reducible refine Kept.upd ?_ (by rfl) (by rfl) (by rfl))
    | split

theorem Dev.countPoisoned_kept {z : Dev} (s : Dev) (agent : Agent) (facet d : Nat)  (hz : Kept z s) : Kept z (Dev.countPoisoned s agent facet d) := by
  unfold Dev.countPoisoned
  try dsimp only
  repeat' first
    | with_reducible assumption
    | (with_reducible refine kept_ite ?_ ?_)
    | (fail_if_no_progress with_reducible refine Kept.upd ?_ (by rfl) (by rfl) (by rfl))

theorem Dev.poisonOwner_kept {z : Dev} (s : Dev) (t : Txn) (st : Option HomeState) (agent : Agent)  (hz : Kept z s) : Kept z (Dev.poisonOwner s t st agent) := by
  unfold Dev.poisonOwner
  try dsimp only
  repeat' first
    | with_reducible assumption
    | (with_reducible refine kept_ite ?_ ?_)
    | (with_reducible refine kept_each (fun s x hz => ?_) ?_)
    | with_reducible apply Dev.updTxn_kept
    | with_reducible apply Dev.each_kept
    | with_reducible apply Dev.send_kept
    | with_reducible apply Dev.event_kept
    | with_reducible apply Dev.bump_kept
    | with_reducible apply Dev.countPoisoned_kept
    | with_reducible apply Dev.poisonGranule_kept

theorem Dev.txnLeave_kept {z : Dev} (s : Dev) (t : Txn) (id i : Nat)  (hz : Kept z s) : Kept z (Dev.txnLeave s t id i) := by
  unfold Dev.txnLeave
  try dsimp only
  repeat' first
    | with_reducible assumption
    | (with_reducible refine kept_ite ?_ ?_)
    | with_reducible apply Dev.setHome_kept
    | with_reducible apply Dev.updTxn_kept
    | with_reducible apply Dev.dropTxn_kept

theorem Dev.txnEnd_kept {z : Dev} (s : Dev) (t : Txn)  (hz : Kept z s) : Kept z (Dev.txnEnd s t) := by
  unfold Dev.txnEnd
  try dsimp only
  repeat' first
    | with_reducible assumption
    | (with_reducible refine kept_ite ?_ ?_)
    | with_reducible apply Dev.updTxn_kept
    | with_reducible apply Dev.txnAnswer_kept
    | with_reducible apply Dev.dropTxn_kept
    | with_reducible apply Dev.request_kept
    | with_reducible apply Dev.poisonOwner_kept
    | with_reducible apply Dev.txnLeave_kept
    | with_reducible apply Dev.setHome_kept
    | (fail_if_no_progress with_reducible refine Kept.upd ?_ (by rfl) (by rfl) (by rfl))
    | split

theorem Dev.txnOwed_kept {z : Dev} (s : Dev) (t : Txn)  (hz : Kept z s) : Kept z (Dev.txnOwed s t) := by
  unfold Dev.txnOwed
  try dsimp only
  repeat' first
    | with_reducible assumption
    | (with_reducible refine kept_ite ?_ ?_)
    | with_reducible apply Dev.updTxn_kept
    | with_reducible apply Dev.txnEnd_kept

theorem Dev.afterDirty_kept {z : Dev} (s : Dev) (t : Txn) (data : Sub) (record : Option AtomicRecord)  (hz : Kept z s) : Kept z (Dev.afterDirty s t data record) := by
  unfold Dev.afterDirty
  try dsimp only
  repeat' first
    | with_reducible assumption
    | (with_reducible refine kept_ite ?_ ?_)
    | with_reducible apply Dev.putMirror_kept
    | with_reducible apply Dev.writeBackSub_kept

theorem Dev.txnStore_kept {z : Dev} (s : Dev) (t : Txn) (data : Sub) (resp : Option Sub)  (hz : Kept z s) : Kept z (Dev.txnStore s t data resp) := by
  unfold Dev.txnStore
  try dsimp only
  repeat' first
    | with_reducible assumption
    | (with_reducible refine kept_ite ?_ ?_)
    | (refine Dev.placeDirty_kept (by assumption) ?_)
    | with_reducible apply Dev.earlyWb_kept
    | with_reducible apply Dev.updTxn_kept
    | with_reducible apply Dev.afterDirty_kept
    | with_reducible apply Dev.txnOwed_kept
    | (fail_if_no_progress with_reducible refine Kept.upd ?_ (by rfl) (by rfl) (by rfl))
    | split

theorem Dev.txnCode_kept {z : Dev} (s : Dev) (t : Txn) (c : Code) (data : Option Sub)  (hz : Kept z s) : Kept z (Dev.txnCode s t c data) := by
  unfold Dev.txnCode
  try dsimp only
  repeat' first
    | with_reducible assumption
    | with_reducible apply Dev.txnOwed_kept

theorem Dev.txnPoison_kept {z : Dev} (s : Dev) (t : Txn)  (hz : Kept z s) : Kept z (Dev.txnPoison s t) := by
  unfold Dev.txnPoison
  try dsimp only
  repeat' first
    | with_reducible assumption
    | with_reducible apply Dev.poisonGranule_kept
    | with_reducible apply Dev.txnOwed_kept

theorem Dev.poisonOut_kept {z : Dev} (s : Dev) (t : Txn)  (hz : Kept z s) : Kept z (Dev.poisonOut s t) := by
  unfold Dev.poisonOut
  try dsimp only
  repeat' first
    | with_reducible assumption
    | with_reducible apply Dev.raise_kept
    | with_reducible apply Dev.raiseIf_kept
    | (fail_if_no_progress with_reducible refine Kept.upd ?_ (by rfl) (by rfl) (by rfl))
    | split

theorem Dev.txnApply_kept {z : Dev} (s : Dev) (t : Txn) (base : Option Sub)  (hz : Kept z s) : Kept z (Dev.txnApply s t base) := by
  unfold Dev.txnApply
  try dsimp only
  repeat' first
    | with_reducible assumption
    | (with_reducible refine kept_ite ?_ ?_)
    | with_reducible apply Dev.event_kept
    | with_reducible apply Dev.raise_kept
    | with_reducible apply Dev.txnPoison_kept
    | with_reducible apply Dev.bump_kept
    | with_reducible apply Dev.chordFlags_kept
    | with_reducible apply Dev.txnStore_kept
    | with_reducible apply Dev.poisonOut_kept
    | with_reducible apply Dev.txnCode_kept
    | with_reducible apply Dev.request_kept
    | with_reducible apply Dev.updReq_kept
    | with_reducible apply Dev.txnOwed_kept
    | (fail_if_no_progress with_reducible refine Kept.upd ?_ (by rfl) (by rfl) (by rfl))
    | split

theorem Dev.rmwRead_kept {z : Dev} (s : Dev) (id : Nat) (old : Option Sub)  (hz : Kept z s) : Kept z (Dev.rmwRead s id old) := by
  unfold Dev.rmwRead
  try dsimp only
  repeat' first
    | with_reducible assumption
    | with_reducible apply Dev.request_kept
    | with_reducible apply Dev.chordFlags_kept
    | with_reducible apply Dev.bump_kept
    | with_reducible apply Dev.issueWrite_kept
    | with_reducible apply Dev.txnCode_kept
    | with_reducible apply Dev.raise_kept
    | (fail_if_no_progress with_reducible refine Kept.upd ?_ (by rfl) (by rfl) (by rfl))
    | split

theorem Dev.txnRmw_kept {z : Dev} (s : Dev) (t : Txn)  (hz : Kept z s) : Kept z (Dev.txnRmw s t) := by
  unfold Dev.txnRmw
  try dsimp only
  repeat' first
    | with_reducible assumption
    | (with_reducible refine kept_ite ?_ ?_)
    | with_reducible apply Dev.updTxn_kept
    | with_reducible apply Dev.issueRead_kept
    | (fail_if_no_progress with_reducible refine Kept.upd ?_ (by rfl) (by rfl) (by rfl))

theorem Dev.markerRead_kept {z : Dev} (s : Dev) (p : Place) (hue : Option Hue)  (hz : Kept z s) : Kept z (Dev.markerRead s p hue) := by
  unfold Dev.markerRead
  try dsimp only
  repeat' first
    | with_reducible assumption
    | (with_reducible refine kept_ite ?_ ?_)
    | with_reducible apply Dev.bump_kept
    | with_reducible apply Dev.raise_kept
    | with_reducible apply Dev.event_kept
    | with_reducible apply Dev.put_kept
    | (fail_if_no_progress with_reducible refine Kept.upd ?_ (by rfl) (by rfl) (by rfl))
    | split

theorem Dev.countMarker_kept {z : Dev} (s : Dev) (t : Txn)  (hz : Kept z s) : Kept z (Dev.countMarker s t) := by
  unfold Dev.countMarker
  try dsimp only
  repeat' first
    | with_reducible assumption
    | (with_reducible refine kept_ite ?_ ?_)
    | with_reducible apply Dev.markerRead_kept

theorem Dev.txnNoGrant_kept {z : Dev} (s : Dev) (t : Txn)  (hz : Kept z s) : Kept z (Dev.txnNoGrant s t) := by
  unfold Dev.txnNoGrant
  try dsimp only
  repeat' first
    | with_reducible assumption
    | (with_reducible refine kept_ite ?_ ?_)
    | with_reducible apply Dev.txnOwed_kept

theorem Dev.txnBase_kept {z : Dev} (s : Dev) (t : Txn) (v : Option Sub)  (hz : Kept z s) : Kept z (Dev.txnBase s t v) := by
  unfold Dev.txnBase
  try dsimp only
  repeat' first
    | with_reducible assumption
    | (with_reducible refine kept_ite ?_ ?_)
    | with_reducible apply Dev.txnCode_kept
    | with_reducible apply Dev.txnNoGrant_kept
    | with_reducible apply Dev.updTxn_kept
    | with_reducible apply Dev.txnOwed_kept
    | with_reducible apply Dev.txnApply_kept
    | (fail_if_no_progress with_reducible refine Kept.upd ?_ (by rfl) (by rfl) (by rfl))
    | split

theorem Dev.leavePlr_kept {z : Dev} (s : Dev) (p : Place) (id : Nat)  (hz : Kept z s) : Kept z (Dev.leavePlr s p id) := by
  unfold Dev.leavePlr
  try dsimp only
  repeat' first
    | with_reducible assumption
    | with_reducible apply Dev.updPlr_kept
    | with_reducible apply Dev.freePlr_kept
    | (fail_if_no_progress with_reducible refine Kept.upd ?_ (by rfl) (by rfl) (by rfl))
    | split

theorem Dev.txnFetch_kept {z : Dev} (s00 : Dev) (t : Txn)  (hz : Kept z s00) : Kept z (Dev.txnFetch s00 t) := by
  unfold Dev.txnFetch
  try dsimp only
  repeat' first
    | with_reducible assumption
    | (with_reducible refine kept_ite ?_ ?_)
    | with_reducible apply Dev.readCheck_kept
    | with_reducible apply Dev.touch_kept
    | with_reducible apply Dev.event_kept
    | with_reducible apply Dev.txnBase_kept
    | with_reducible apply Dev.countMarker_kept
    | with_reducible apply Dev.updTxn_kept
    | (refine Dev.fetch_kept (by assumption) ?_)
    | with_reducible apply Dev.prefetchNext_kept
    | with_reducible apply Dev.leavePlr_kept
    | (fail_if_no_progress with_reducible refine Kept.upd ?_ (by rfl) (by rfl) (by rfl))
    | split

theorem Dev.txnServe_kept {z : Dev} (s : Dev) (t : Txn)  (hz : Kept z s) : Kept z (Dev.txnServe s t) := by
  unfold Dev.txnServe
  try dsimp only
  repeat' first
    | with_reducible assumption
    | (with_reducible refine kept_ite ?_ ?_)
    | with_reducible apply Dev.updTxn_kept
    | with_reducible apply Dev.writeBackSub_kept
    | with_reducible apply Dev.txnOwed_kept
    | with_reducible apply Dev.updAt_kept
    | with_reducible apply Dev.releaseMirror_kept
    | with_reducible apply Dev.startWb_kept
    | with_reducible apply Dev.txnRmw_kept
    | with_reducible apply Dev.txnApply_kept
    | with_reducible apply Dev.txnFetch_kept
    | with_reducible apply Dev.txnBase_kept
    | (fail_if_no_progress with_reducible refine Kept.upd ?_ (by rfl) (by rfl) (by rfl))
    | split

theorem Dev.txnPlace_kept {z : Dev} (s : Dev) (t : Txn)  (hz : Kept z s) : Kept z (Dev.txnPlace s t) := by
  unfold Dev.txnPlace
  try dsimp only
  repeat' first
    | with_reducible assumption
    | (with_reducible refine kept_ite ?_ ?_)
    | with_reducible apply Dev.txnServe_kept
    | (refine Dev.placeDirty_kept (by assumption) ?_)
    | with_reducible apply Dev.earlyWb_kept
    | with_reducible apply Dev.updTxn_kept
    | with_reducible apply Dev.afterDirty_kept
    | (fail_if_no_progress with_reducible refine Kept.upd ?_ (by rfl) (by rfl) (by rfl))
    | split

theorem Dev.podStart_kept {z : Dev} (s : Dev) (src : Agent) (id : Nat)  (hz : Kept z s) : Kept z (Dev.podStart s src id).1 := by
  unfold Dev.podStart
  try dsimp only
  repeat' first
    | with_reducible assumption
    | (with_reducible refine kept_ite ?_ ?_)
    | (with_reducible refine kept_ite_fst ?_ ?_)
    | (with_reducible refine kept_ite_snd ?_ ?_)
    | (with_reducible refine kept_each (fun s x hz => ?_) ?_)
    | with_reducible apply Dev.each_kept
    | with_reducible apply Dev.send_kept
    | (fail_if_no_progress with_reducible refine Kept.upd ?_ (by rfl) (by rfl) (by rfl))

theorem Dev.txnPod_kept {z : Dev} (s : Dev) (t : Txn)  (hz : Kept z s) : Kept z (Dev.txnPod s t) := by
  unfold Dev.txnPod
  try dsimp only
  repeat' first
    | with_reducible assumption
    | (with_reducible refine kept_ite ?_ ?_)
    | with_reducible apply Dev.request_kept
    | with_reducible apply Dev.txnPlace_kept
    | with_reducible apply Dev.podStart_kept
    | with_reducible apply Dev.updTxn_kept

theorem Dev.deadOwner_kept {z : Dev} (s : Dev) (t : Txn) (agent : Agent)  (hz : Kept z s) : Kept z (Dev.deadOwner s t agent) := by
  unfold Dev.deadOwner
  try dsimp only
  repeat' first
    | with_reducible assumption
    | (with_reducible refine kept_ite ?_ ?_)
    | with_reducible apply Dev.updTxn_kept
    | with_reducible apply Dev.txnPod_kept
    | with_reducible apply Dev.poisonOwner_kept
    | with_reducible apply Dev.poisonOut_kept
    | with_reducible apply Dev.txnOwed_kept
    | (fail_if_no_progress with_reducible refine Kept.upd ?_ (by rfl) (by rfl) (by rfl))
    | split

theorem Dev.txnDecide_kept {z : Dev} (s : Dev) (t : Txn)  (hz : Kept z s) : Kept z (Dev.txnDecide s t) := by
  unfold Dev.txnDecide
  try dsimp only
  repeat' first
    | with_reducible assumption
    | (with_reducible refine kept_ite ?_ ?_)
    | with_reducible apply Dev.deadOwner_kept
    | with_reducible apply Dev.txnAnswer_kept
    | with_reducible apply Dev.errorRecord_kept
    | with_reducible apply Dev.updTxn_kept
    | with_reducible apply Dev.poisonOut_kept
    | with_reducible apply Dev.poisonGranule_kept
    | with_reducible apply Dev.txnOwed_kept
    | with_reducible apply Dev.txnPod_kept
    | (fail_if_no_progress with_reducible refine Kept.upd ?_ (by rfl) (by rfl) (by rfl))
    | split

theorem Dev.advance_kept {z : Dev} (s : Dev) (id : Nat)  (hz : Kept z s) : Kept z (Dev.advance s id) := by
  unfold Dev.advance
  try dsimp only
  repeat' first
    | with_reducible assumption
    | (with_reducible refine kept_ite ?_ ?_)
    | with_reducible apply Dev.txnDecide_kept
    | with_reducible apply Dev.txnPlace_kept
    | with_reducible apply Dev.txnServe_kept
    | with_reducible apply Dev.txnFetch_kept
    | with_reducible apply Dev.txnStore_kept
    | with_reducible apply Dev.txnOwed_kept
    | with_reducible apply Dev.txnRmw_kept
    | (fail_if_no_progress with_reducible refine Kept.upd ?_ (by rfl) (by rfl) (by rfl))
    | split

theorem Dev.openTxn_kept {z : Dev} (s00 : Dev) (cause : Cause) (op : Op) (src : Agent) (p : Place) (cls : Nat) (aged strict prefetch : Bool)  (hz : Kept z s00) : Kept z (Dev.openTxn s00 cause op src p cls aged strict prefetch) := by
  unfold Dev.openTxn
  try dsimp only
  repeat' first
    | with_reducible assumption
    | (with_reducible refine kept_ite ?_ ?_)
    | (with_reducible refine kept_each (fun s x hz => ?_) ?_)
    | with_reducible apply Dev.readSets_kept
    | with_reducible apply Dev.request_kept
    | with_reducible apply Dev.each_kept
    | with_reducible apply Dev.send_kept
    | with_reducible apply Dev.event_kept
    | with_reducible apply Dev.bump_kept
    | with_reducible apply Dev.advance_kept
    | (fail_if_no_progress with_reducible refine Kept.upd ?_ (by rfl) (by rfl) (by rfl))

theorem Dev.listUrgent_kept {z : Dev} (s0 s : Dev) (e : ReqEntry) (i : Nat) (p : Place) (hz : Kept z s) :
    Kept z (Dev.listUrgent s0 s e i p) :=
  kept_ite hz (Kept.upd hz rfl rfl rfl)

theorem Dev.putAhead_kept {z : Dev} (s : Dev) (e : ReqEntry) (i : Nat) (p : Place)  (hz : Kept z s) : Kept z (Dev.putAhead s e i p) := by
  unfold Dev.putAhead
  try dsimp only
  repeat' first
    | with_reducible assumption
    | (fail_if_no_progress with_reducible refine Kept.upd ?_ (by rfl) (by rfl) (by rfl))

theorem Dev.recallFor_kept {z : Dev} (s : Dev) (id i : Nat) (f set : Nat)  (hz : Kept z s) : Kept z (Dev.recallFor s id i f set) := by
  unfold Dev.recallFor
  try dsimp only
  repeat' first
    | with_reducible assumption
    | (with_reducible refine kept_ite ?_ ?_)
    | with_reducible apply Dev.bump_kept
    | with_reducible apply Dev.openTxn_kept
    | (fail_if_no_progress with_reducible refine Kept.upd ?_ (by rfl) (by rfl) (by rfl))
    | split

theorem Dev.meetBound_kept {z : Dev} (s : Dev) (e : ReqEntry) (i : Nat) (b : Bound) (reenter : Bool)  (hz : Kept z s) : Kept z (Dev.meetBound s e i b reenter) := by
  unfold Dev.meetBound
  try dsimp only
  repeat' first
    | with_reducible assumption
    | (with_reducible refine kept_ite ?_ ?_)
    | with_reducible apply Dev.listUrgent_kept
    | with_reducible apply Dev.earlyWb_kept
    | with_reducible apply Dev.atBound_kept
    | with_reducible apply Dev.putAhead_kept

theorem Dev.leaveList_kept {z : Dev} (s : Dev) (e : ReqEntry) (i : Nat)  (hz : Kept z s) : Kept z (Dev.leaveList s e i) := by
  unfold Dev.leaveList
  try dsimp only
  repeat' first
    | with_reducible assumption
    | (with_reducible refine kept_ite ?_ ?_)
    | with_reducible apply Dev.unpark_kept
    | with_reducible apply Dev.dropTicket_kept
    | (fail_if_no_progress with_reducible refine Kept.upd ?_ (by rfl) (by rfl) (by rfl))
    | split

theorem Dev.openPart_kept {z : Dev} (s : Dev) (e : ReqEntry) (i : Nat)  (hz : Kept z s) : Kept z (Dev.openPart s e i) := by
  unfold Dev.openPart
  try dsimp only
  repeat' first
    | with_reducible assumption
    | with_reducible apply Dev.openTxn_kept

theorem Dev.startPart_kept {z : Dev} (s00 : Dev) (id i : Nat) (again : Bool)  (hz : Kept z s00) : Kept z (Dev.startPart s00 id i again) := by
  unfold Dev.startPart
  try dsimp only
  repeat' first
    | with_reducible assumption
    | (with_reducible refine kept_ite ?_ ?_)
    | with_reducible apply Dev.readSets_kept
    | with_reducible apply Dev.meetBound_kept
    | with_reducible apply Dev.recallFor_kept
    | with_reducible apply Dev.leaveList_kept
    | (refine Dev.holdWait_kept (by assumption) ?_)
    | with_reducible apply Dev.openPart_kept
    | (fail_if_no_progress with_reducible refine Kept.upd ?_ (by rfl) (by rfl) (by rfl))
    | split

theorem Dev.openTyped_kept {z : Dev} (s : Dev) (e : ReqEntry) (u : Nat)  (hz : Kept z s) : Kept z (Dev.openTyped s e u) := by
  unfold Dev.openTyped
  try dsimp only
  repeat' first
    | with_reducible assumption
    | (fail_if_no_progress with_reducible refine Kept.upd ?_ (by rfl) (by rfl) (by rfl))

/-- A fold that stops at the first error keeps what each of its steps keeps. -/
theorem kept_tryFold {z : Dev} {ε α : Type} {f : Except ε Dev → α → Except ε Dev}
    (hf : ∀ a x t, f a x = .ok t → (∀ u, a = .ok u → Kept z u) → Kept z t) (l : List α) {a : Except ε Dev} {t : Dev}
    (h : l.foldl f a = .ok t) (ha : ∀ u, a = .ok u → Kept z u) : Kept z t := by
  induction l generalizing a with
  | nil => exact ha t h
  | cons x l ih => exact ih h (fun u hu => hf a x u hu ha)

theorem Dev.viewStart_kept {z t : Dev} {s : Dev} {e : ReqEntry} {i : Nat} {reenter : Bool} (h : s.viewStart e i reenter = .ok t)
    (hz : Kept z s) : Kept z t := by
  unfold Dev.viewStart at h
  dsimp only at h
  split at h
  · cases h
  · repeat' split at h
    all_goals cases h
    exact Dev.holdWait_kept (by assumption) (Dev.leaveList_kept _ _ _ hz)
  · refine kept_tryFold (fun a x u hu ha => ?_) _ h (fun u hu => ?_)
    · repeat' split at hu
      all_goals cases hu
      exact Dev.openPart_kept _ _ _ (ha _ rfl)
    · cases hu
      exact Dev.openTyped_kept _ _ _ (Dev.leaveList_kept _ _ _ hz)

theorem Dev.viewPart_kept {z : Dev} (s00 : Dev) (id i : Nat) (again : Bool)  (hz : Kept z s00) : Kept z (Dev.viewPart s00 id i again) := by
  unfold Dev.viewPart
  try dsimp only
  repeat' first
    | with_reducible assumption
    | (with_reducible refine kept_ite ?_ ?_)
    | (with_reducible refine kept_each (fun s x hz => ?_) ?_)
    | with_reducible apply Dev.each_kept
    | with_reducible apply Dev.readSets_kept
    | (refine Dev.viewStart_kept (by assumption) ?_)
    | with_reducible apply Dev.meetBound_kept
    | (fail_if_no_progress with_reducible refine Kept.upd ?_ (by rfl) (by rfl) (by rfl))
    | split

theorem Dev.serveWaiter_kept {z : Dev} (s : Dev) (x : Plr) (w : Waiter)  (hz : Kept z s) : Kept z (Dev.serveWaiter s x w) := by
  unfold Dev.serveWaiter
  try dsimp only
  repeat' first
    | with_reducible assumption
    | (with_reducible refine kept_ite ?_ ?_)
    | with_reducible apply Dev.updPlr_kept
    | with_reducible apply Dev.updTxn_kept
    | with_reducible apply Dev.txnBase_kept
    | with_reducible apply Dev.viewPart_kept
    | with_reducible apply Dev.startPart_kept
    | (fail_if_no_progress with_reducible refine Kept.upd ?_ (by rfl) (by rfl) (by rfl))
    | split

theorem Dev.serveSub_kept {z : Dev} (s : Dev) (id i : Nat)  (hz : Kept z s) : Kept z (Dev.serveSub s id i) := by
  unfold Dev.serveSub
  try dsimp only
  repeat' first
    | with_reducible assumption
    | (with_reducible refine kept_ite ?_ ?_)
    | (with_reducible refine kept_each (fun s x hz => ?_) ?_)
    | with_reducible apply Dev.each_kept
    | with_reducible apply Dev.serveWaiter_kept
    | (fail_if_no_progress with_reducible refine Kept.upd ?_ (by rfl) (by rfl) (by rfl))
    | split

theorem Dev.plrDone_kept {z : Dev} (s : Dev) (id : Nat)  (hz : Kept z s) : Kept z (Dev.plrDone s id) := by
  unfold Dev.plrDone
  try dsimp only
  repeat' first
    | with_reducible assumption
    | (with_reducible refine kept_ite ?_ ?_)
    | (with_reducible refine kept_each (fun s x hz => ?_) ?_)
    | with_reducible apply Dev.updPlr_kept
    | with_reducible apply Dev.each_kept
    | with_reducible apply Dev.advance_kept
    | with_reducible apply Dev.serveWaiter_kept
    | with_reducible apply Dev.freePlr_kept
    | (fail_if_no_progress with_reducible refine Kept.upd ?_ (by rfl) (by rfl) (by rfl))
    | split

theorem Dev.fillArrive_kept {z : Dev} (s : Dev) (plr i : Nat) (v : Option Sub)  (hz : Kept z s) : Kept z (Dev.fillArrive s plr i v) := by
  unfold Dev.fillArrive
  try dsimp only
  repeat' first
    | with_reducible assumption
    | with_reducible apply Dev.fillSub_kept
    | with_reducible apply Dev.serveSub_kept
    | with_reducible apply Dev.plrDone_kept

theorem Dev.prmAdd_kept {z : Dev} (s : Dev) (off hi lo n : Nat)  (hz : Kept z s) : Kept z (Dev.prmAdd s off hi lo n) := by
  unfold Dev.prmAdd
  try dsimp only
  repeat' first
    | with_reducible assumption
    | with_reducible apply Dev.bump_kept

theorem Dev.countBlock_kept {z : Dev} (s : Dev) (r facet : Nat) (x : Option Nat) (amax : Exact) (sats nans : Nat) (escaped full : Bool)  (hz : Kept z s) : Kept z (Dev.countBlock s r facet x amax sats nans escaped full) := by
  unfold Dev.countBlock
  try dsimp only
  repeat' first
    | with_reducible assumption
    | (with_reducible refine kept_ite ?_ ?_)
    | with_reducible apply Dev.bump_kept
    | with_reducible apply Dev.peak_kept
    | with_reducible apply Dev.prmAdd_kept
    | with_reducible apply Dev.raiseIf_kept
    | with_reducible apply Dev.event_kept
    | (fail_if_no_progress with_reducible refine Kept.upd ?_ (by rfl) (by rfl) (by rfl))
    | split

theorem Dev.countWide_kept {z : Dev} (s : Dev) (r n : Nat)  (hz : Kept z s) : Kept z (Dev.countWide s r n) := by
  unfold Dev.countWide
  try dsimp only
  repeat' first
    | with_reducible assumption
    | (with_reducible refine kept_ite ?_ ?_)
    | with_reducible apply Dev.bump_kept
    | with_reducible apply Dev.raise_kept

theorem Dev.updTyped_kept {z : Dev} (s : Dev) (id : Nat) (g : TypedReq → TypedReq)  (hz : Kept z s) : Kept z (Dev.updTyped s id g) := by
  unfold Dev.updTyped
  try dsimp only
  repeat' first
    | with_reducible assumption
    | (with_reducible refine kept_ite ?_ ?_)
    | (fail_if_no_progress with_reducible refine Kept.upd ?_ (by rfl) (by rfl) (by rfl))

theorem Dev.dropTyped_kept {z : Dev} (s : Dev) (id : Nat)  (hz : Kept z s) : Kept z (Dev.dropTyped s id) := by
  unfold Dev.dropTyped
  try dsimp only
  repeat' first
    | with_reducible assumption
    | (fail_if_no_progress with_reducible refine Kept.upd ?_ (by rfl) (by rfl) (by rfl))

theorem Dev.sideReads_kept {z : Dev} (s : Dev) (q : TypedReq) (shadowed : Bool) (at_ : List (Nat × Nat × Nat))  (hz : Kept z s) : Kept z (Dev.sideReads s q shadowed at_) := by
  unfold Dev.sideReads
  try dsimp only
  repeat' first
    | with_reducible assumption
    | (with_reducible refine kept_each (fun s x hz => ?_) ?_)
    | with_reducible apply Dev.each_kept
    | with_reducible apply Dev.updTyped_kept
    | with_reducible apply Dev.send_kept
    | (fail_if_no_progress with_reducible refine Kept.upd ?_ (by rfl) (by rfl) (by rfl))

theorem Dev.typedAnswer_kept {z : Dev} (s : Dev) (q : TypedReq) (e : ReqEntry)  (hz : Kept z s) : Kept z (Dev.typedAnswer s q e) := by
  unfold Dev.typedAnswer
  try dsimp only
  repeat' first
    | with_reducible assumption
    | (with_reducible refine kept_ite ?_ ?_)
    | (with_reducible refine kept_each (fun s x hz => ?_) ?_)
    | with_reducible apply Dev.each_kept
    | with_reducible apply Dev.raise_kept
    | with_reducible apply Dev.alert_kept
    | with_reducible apply Dev.countWide_kept
    | with_reducible apply Dev.event_kept
    | with_reducible apply Dev.answer_kept
    | with_reducible apply Dev.dropTxn_kept
    | with_reducible apply Dev.dropTyped_kept
    | with_reducible apply Dev.flush_kept

theorem Dev.typedRead_kept {z : Dev} (s : Dev) (q : TypedReq) (e : ReqEntry)  (hz : Kept z s) : Kept z (Dev.typedRead s q e) := by
  unfold Dev.typedRead
  try dsimp only
  repeat' first
    | with_reducible assumption
    | (with_reducible refine kept_ite ?_ ?_)
    | with_reducible apply Dev.typedAnswer_kept
    | with_reducible apply Dev.updTyped_kept
    | with_reducible apply Dev.sideReads_kept
    | (fail_if_no_progress with_reducible refine Kept.upd ?_ (by rfl) (by rfl) (by rfl))
    | split

theorem Dev.setDemand_kept {z : Dev} (s : Dev) (f v : Nat)  (hz : Kept z s) : Kept z (Dev.setDemand s f v) := by
  unfold Dev.setDemand
  try dsimp only
  repeat' first
    | with_reducible assumption
    | (fail_if_no_progress with_reducible refine Kept.upd ?_ (by rfl) (by rfl) (by rfl))

theorem Dev.storeNarrow_kept {z : Dev} (s : Dev) (q : TypedReq) (e : ReqEntry) (n : Nat) (amax : Exact) (enc : Nat × Nat × Nat × Nat) (full : Bool)  (hz : Kept z s) : Kept z (Dev.storeNarrow s q e n amax enc full) := by
  unfold Dev.storeNarrow
  try dsimp only
  repeat' first
    | with_reducible assumption
    | with_reducible apply Dev.updTyped_kept
    | with_reducible apply Dev.countBlock_kept

theorem Dev.storeEscaped_kept {z : Dev} (s : Dev) (q : TypedReq) (e : ReqEntry) (n slot : Nat) (v : List Exact) (amax : Exact)  (hz : Kept z s) : Kept z (Dev.storeEscaped s q e n slot v amax) := by
  unfold Dev.storeEscaped
  try dsimp only
  repeat' first
    | with_reducible assumption
    | with_reducible apply Dev.setDemand_kept
    | with_reducible apply Dev.updTyped_kept
    | with_reducible apply Dev.countBlock_kept

theorem Dev.typedBlock_kept {z : Dev} (s : Dev) (q : TypedReq) (e : ReqEntry)  (hz : Kept z s) : Kept z (Dev.typedBlock s q e).1 := by
  unfold Dev.typedBlock
  try dsimp only
  repeat' first
    | with_reducible assumption
    | (with_reducible refine kept_ite ?_ ?_)
    | (with_reducible refine kept_ite_fst ?_ ?_)
    | (with_reducible refine kept_ite_snd ?_ ?_)
    | with_reducible apply Dev.setDemand_kept
    | with_reducible apply Dev.updTyped_kept
    | with_reducible apply Dev.countBlock_kept
    | with_reducible apply Dev.storeEscaped_kept
    | with_reducible apply Dev.storeNarrow_kept
    | with_reducible apply Dev.send_kept
    | (fail_if_no_progress with_reducible refine Kept.upd ?_ (by rfl) (by rfl) (by rfl))
    | split

theorem Dev.typedBlocks_kept {z : Dev} (fuel : Nat) (s : Dev) (id : Nat) (e : ReqEntry) (hz : Kept z s) :
    Kept z (Dev.typedBlocks fuel s id e) := by
  induction fuel generalizing s with
  | zero => exact hz
  | succ fuel ih =>
    unfold Dev.typedBlocks
    split
    · exact hz
    · refine kept_ite hz (kept_ite (ih _ ?_) ?_) <;> exact Dev.typedBlock_kept _ _ _ hz

theorem Dev.typedFinish_kept {z : Dev} (s : Dev) (q : TypedReq) (e : ReqEntry)  (hz : Kept z s) : Kept z (Dev.typedFinish s q e) := by
  unfold Dev.typedFinish
  try dsimp only
  repeat' first
    | with_reducible assumption
    | (with_reducible refine kept_ite ?_ ?_)
    | (with_reducible refine kept_foldl (fun s x hz => ?_) ?_)
    | (with_reducible refine kept_foldl_fst (fun s x hz => ?_) ?_)
    | with_reducible apply Dev.txnStore_kept
    | with_reducible apply Dev.txnOwed_kept
    | with_reducible apply Dev.dropTyped_kept

theorem Dev.typedEncoded_kept {z : Dev} (s1 : Dev) (id : Nat) (e : ReqEntry)  (hz : Kept z s1) : Kept z (Dev.typedEncoded s1 id e) := by
  unfold Dev.typedEncoded
  try dsimp only
  repeat' first
    | with_reducible assumption
    | (with_reducible refine kept_ite ?_ ?_)
    | (with_reducible refine kept_each (fun s x hz => ?_) ?_)
    | with_reducible apply Dev.updTyped_kept
    | with_reducible apply Dev.each_kept
    | with_reducible apply Dev.send_kept
    | with_reducible apply Dev.typedFinish_kept
    | (fail_if_no_progress with_reducible refine Kept.upd ?_ (by rfl) (by rfl) (by rfl))
    | split

theorem Dev.typedWrite_kept {z : Dev} (s : Dev) (q : TypedReq) (e : ReqEntry)  (hz : Kept z s) : Kept z (Dev.typedWrite s q e) := by
  unfold Dev.typedWrite
  try dsimp only
  repeat' first
    | with_reducible assumption
    | (with_reducible refine kept_ite ?_ ?_)
    | with_reducible apply Dev.updTyped_kept
    | with_reducible apply Dev.typedBlocks_kept
    | with_reducible apply Dev.typedEncoded_kept
    | with_reducible apply Dev.typedFinish_kept

theorem Dev.typedRun_kept {z : Dev} (s : Dev) (id : Nat)  (hz : Kept z s) : Kept z (Dev.typedRun s id) := by
  unfold Dev.typedRun
  try dsimp only
  repeat' first
    | with_reducible assumption
    | (with_reducible refine kept_ite ?_ ?_)
    | with_reducible apply Dev.dropTyped_kept
    | with_reducible apply Dev.typedWrite_kept
    | with_reducible apply Dev.typedRead_kept
    | (fail_if_no_progress with_reducible refine Kept.upd ?_ (by rfl) (by rfl) (by rfl))
    | split

theorem Dev.typedData_kept {z : Dev} (s : Dev) (txid : Nat) (v : Option Sub)  (hz : Kept z s) : Kept z (Dev.typedData s txid v) := by
  unfold Dev.typedData
  try dsimp only
  repeat' first
    | with_reducible assumption
    | with_reducible apply Dev.updTyped_kept
    | with_reducible apply Dev.typedRun_kept
    | (fail_if_no_progress with_reducible refine Kept.upd ?_ (by rfl) (by rfl) (by rfl))
    | split

theorem Dev.typedStored_kept {z : Dev} (s : Dev) (txid : Nat) (c : Code)  (hz : Kept z s) : Kept z (Dev.typedStored s txid c) := by
  unfold Dev.typedStored
  try dsimp only
  repeat' first
    | with_reducible assumption
    | (with_reducible refine kept_ite ?_ ?_)
    | with_reducible apply Dev.updTyped_kept
    | with_reducible apply Dev.typedRun_kept
    | (fail_if_no_progress with_reducible refine Kept.upd ?_ (by rfl) (by rfl) (by rfl))
    | split

theorem Dev.typedSlot_kept {z : Dev} (s : Dev) (txid : Nat) (slot : Option Nat)  (hz : Kept z s) : Kept z (Dev.typedSlot s txid slot) := by
  unfold Dev.typedSlot
  try dsimp only
  repeat' first
    | with_reducible assumption
    | with_reducible apply Dev.updTyped_kept
    | with_reducible apply Dev.typedRun_kept
    | (fail_if_no_progress with_reducible refine Kept.upd ?_ (by rfl) (by rfl) (by rfl))
    | split

theorem Dev.endClaim_kept {z : Dev} (s : Dev) (grp d : Nat)  (hz : Kept z s) : Kept z (Dev.endClaim s grp d) := by
  unfold Dev.endClaim
  try dsimp only
  repeat' first
    | with_reducible assumption
    | (fail_if_no_progress with_reducible refine Kept.upd ?_ (by rfl) (by rfl) (by rfl))

theorem Dev.sideAccess_kept {z : Dev} (s00 : Dev) (a : SideAccess)  (hz : Kept z s00) : Kept z (Dev.sideAccess s00 a) := by
  unfold Dev.sideAccess
  try dsimp only
  repeat' first
    | with_reducible assumption
    | (with_reducible refine kept_ite ?_ ?_)
    | with_reducible apply Dev.endClaim_kept
    | with_reducible apply Dev.openTxn_kept

theorem Dev.groupRead_kept {z : Dev} (s : Dev) (e : EscapeRef)  (hz : Kept z s) : Kept z (Dev.groupRead s e) := by
  unfold Dev.groupRead
  try dsimp only
  repeat' first
    | with_reducible assumption
    | (with_reducible refine kept_ite ?_ ?_)
    | (with_reducible refine kept_each (fun s x hz => ?_) ?_)
    | with_reducible apply Dev.each_kept
    | with_reducible apply Dev.readSets_kept
    | with_reducible apply Dev.readCheck_kept

theorem Dev.zeroSlot_kept {z : Dev} (s : Dev) (e : EscapeRef) (run i : Nat)  (hz : Kept z s) : Kept z (Dev.zeroSlot s e run i) := by
  unfold Dev.zeroSlot
  try dsimp only
  repeat' first
    | with_reducible assumption
    | with_reducible apply Dev.endClaim_kept
    | with_reducible apply Dev.openTxn_kept

theorem Dev.slotsRun_kept {z : Dev} (s : Dev)  (hz : Kept z s) : Kept z (Dev.slotsRun s) := by
  unfold Dev.slotsRun
  try dsimp only
  repeat' first
    | with_reducible assumption
    | (with_reducible refine kept_each (fun s x hz => ?_) ?_)
    | with_reducible apply Dev.each_kept
    | with_reducible apply Dev.send_kept
    | (fail_if_no_progress with_reducible refine Kept.upd ?_ (by rfl) (by rfl) (by rfl))
    | split

theorem Dev.startSlots_kept {z : Dev} (s : Dev) (e : EscapeRef) (l : List Nat) (slot : Option (Option Nat))  (hz : Kept z s) : Kept z (Dev.startSlots s e l slot) := by
  unfold Dev.startSlots
  try dsimp only
  repeat' first
    | with_reducible assumption
    | (with_reducible refine kept_each (fun s x hz => ?_) ?_)
    | with_reducible apply Dev.each_kept
    | with_reducible apply Dev.zeroSlot_kept
    | with_reducible apply Dev.slotsRun_kept
    | (fail_if_no_progress with_reducible refine Kept.upd ?_ (by rfl) (by rfl) (by rfl))

theorem Dev.claimAt_kept {z : Dev} (s0 : Dev) (e : EscapeRef)  (hz : Kept z s0) : Kept z (Dev.claimAt s0 e) := by
  unfold Dev.claimAt
  try dsimp only
  repeat' first
    | with_reducible assumption
    | (with_reducible refine kept_ite ?_ ?_)
    | with_reducible apply Dev.groupRead_kept
    | with_reducible apply Dev.send_kept
    | with_reducible apply Dev.endClaim_kept
    | with_reducible apply Dev.startSlots_kept
    | (fail_if_no_progress with_reducible refine Kept.upd ?_ (by rfl) (by rfl) (by rfl))
    | split

theorem Dev.releaseAt_kept {z : Dev} (s0 : Dev) (e : EscapeRef)  (hz : Kept z s0) : Kept z (Dev.releaseAt s0 e) := by
  unfold Dev.releaseAt
  try dsimp only
  repeat' first
    | with_reducible assumption
    | (with_reducible refine kept_ite ?_ ?_)
    | with_reducible apply Dev.groupRead_kept
    | with_reducible apply Dev.startSlots_kept

end Sys2Proof.Machine
end

