-- ==== Sys2Proof/Laws/KeptPlan.lean ====
section
/-! SUPPORT. What the operations of planned items leave alone. -/

namespace Sys2Proof.Machine

theorem Dev.setEngine_kept {z : Dev} (s : Dev) (e : Nat) (x : Engine)  (hz : Kept z s) : Kept z (Dev.setEngine s e x) := by
  unfold Dev.setEngine
  try dsimp only
  repeat' first
    | with_reducible assumption
    | (fail_if_no_progress with_reducible refine Kept.upd ?_ (by rfl) (by rfl) (by rfl))

theorem Dev.setAcc_kept {z : Dev} (s : Dev) (k v : Nat)  (hz : Kept z s) : Kept z (Dev.setAcc s k v) := by
  unfold Dev.setAcc
  try dsimp only
  repeat' first
    | with_reducible assumption
    | (fail_if_no_progress with_reducible refine Kept.upd ?_ (by rfl) (by rfl) (by rfl))

theorem Dev.setMark_kept {z : Dev} (s : Dev) (k : Nat) (m : Bool)  (hz : Kept z s) : Kept z (Dev.setMark s k m) := by
  unfold Dev.setMark
  try dsimp only
  repeat' first
    | with_reducible assumption
    | (fail_if_no_progress with_reducible refine Kept.upd ?_ (by rfl) (by rfl) (by rfl))

theorem Dev.accPoison_kept {z : Dev} (s : Dev) (e y mask : Nat)  (hz : Kept z s) : Kept z (Dev.accPoison s e y mask) := by
  unfold Dev.accPoison
  try dsimp only
  repeat' first
    | with_reducible assumption
    | (with_reducible refine kept_each (fun s x hz => ?_) ?_)
    | with_reducible apply Dev.each_kept
    | with_reducible apply Dev.setMark_kept

theorem Dev.accWrite_kept {z : Dev} (s0 : Dev) (e y : Nat) (mask : Nat) (v : Sub)  (hz : Kept z s0) : Kept z (Dev.accWrite s0 e y mask v) := by
  unfold Dev.accWrite
  try dsimp only
  repeat' first
    | with_reducible assumption
    | (with_reducible refine kept_ite ?_ ?_)
    | (with_reducible refine kept_each (fun s x hz => ?_) ?_)
    | (with_reducible refine kept_foldl (fun s x hz => ?_) ?_)
    | (with_reducible refine kept_foldl_fst (fun s x hz => ?_) ?_)
    | with_reducible apply Dev.each_kept
    | with_reducible apply Dev.setAcc_kept
    | with_reducible apply Dev.setMark_kept
    | (fail_if_no_progress with_reducible refine Kept.upd ?_ (by rfl) (by rfl) (by rfl))

theorem Dev.poisonEntry_kept {z : Dev} (s : Dev) (e k wave : Nat)  (hz : Kept z s) : Kept z (Dev.poisonEntry s e k wave) := by
  unfold Dev.poisonEntry
  try dsimp only
  repeat' first
    | with_reducible assumption
    | (with_reducible refine kept_ite ?_ ?_)
    | with_reducible apply Dev.setMark_kept
    | with_reducible apply Dev.bump_kept
    | with_reducible apply Dev.put_kept
    | with_reducible apply Dev.raise_kept

theorem Dev.accCheck_kept {z : Dev} (s : Dev) (e word : Nat)  (hz : Kept z s) : Kept z (Dev.accCheck s e word) := by
  unfold Dev.accCheck
  try dsimp only
  repeat' first
    | with_reducible assumption
    | (with_reducible refine kept_ite ?_ ?_)
    | with_reducible apply Dev.raise_kept
    | with_reducible apply Dev.poisonEntry_kept
    | with_reducible apply Dev.alert_kept
    | with_reducible apply Dev.errorRecord_kept
    | (fail_if_no_progress with_reducible refine Kept.upd ?_ (by rfl) (by rfl) (by rfl))
    | split

theorem Dev.accSpan_kept {z : Dev} (s : Dev) (e y n : Nat)  (hz : Kept z s) : Kept z (Dev.accSpan s e y n) := by
  unfold Dev.accSpan
  try dsimp only
  repeat' first
    | with_reducible assumption
    | (with_reducible refine kept_each (fun s x hz => ?_) ?_)
    | with_reducible apply Dev.each_kept
    | with_reducible apply Dev.accCheck_kept

theorem Dev.accPartial_kept {z : Dev} (s : Dev) (e y mask : Nat)  (hz : Kept z s) : Kept z (Dev.accPartial s e y mask) := by
  unfold Dev.accPartial
  try dsimp only
  repeat' first
    | with_reducible assumption
    | (with_reducible refine kept_ite ?_ ?_)
    | (with_reducible refine kept_each (fun s x hz => ?_) ?_)
    | with_reducible apply Dev.each_kept
    | with_reducible apply Dev.accCheck_kept

theorem Dev.windowTags_kept {z : Dev} (s : Dev) (space b : Nat)  (hz : Kept z s) : Kept z (Dev.windowTags s space b) := by
  unfold Dev.windowTags
  try dsimp only
  repeat' first
    | with_reducible assumption
    | (with_reducible refine kept_ite ?_ ?_)
    | with_reducible apply Dev.readTags_kept
    | (fail_if_no_progress with_reducible refine Kept.upd ?_ (by rfl) (by rfl) (by rfl))
    | split

theorem Dev.windowCheck_kept {z : Dev} (s : Dev) (space b : Nat)  (hz : Kept z s) : Kept z (Dev.windowCheck s space b) := by
  unfold Dev.windowCheck
  try dsimp only
  repeat' first
    | with_reducible assumption
    | (with_reducible refine kept_ite ?_ ?_)
    | with_reducible apply Dev.windowTags_kept
    | with_reducible apply Dev.storeCheck_kept
    | with_reducible apply Dev.accSpan_kept
    | (fail_if_no_progress with_reducible refine Kept.upd ?_ (by rfl) (by rfl) (by rfl))
    | split

theorem Dev.spanCheck_kept {z : Dev} (s : Dev) (space off n : Nat)  (hz : Kept z s) : Kept z (Dev.spanCheck s space off n) := by
  unfold Dev.spanCheck
  try dsimp only
  repeat' first
    | with_reducible assumption
    | (with_reducible refine kept_ite ?_ ?_)
    | (with_reducible refine kept_each (fun s x hz => ?_) ?_)
    | with_reducible apply Dev.each_kept
    | with_reducible apply Dev.windowCheck_kept

theorem Dev.windowWrite_kept {z : Dev} (s : Dev) (space : Nat) (l : Outs)  (hz : Kept z s) : Kept z (Dev.windowWrite s space l) := by
  unfold Dev.windowWrite
  try dsimp only
  repeat' first
    | with_reducible assumption
    | (with_reducible refine kept_ite ?_ ?_)
    | (with_reducible refine kept_each (fun s x hz => ?_) ?_)
    | with_reducible apply Dev.each_kept
    | with_reducible apply Dev.setStoreSub_kept
    | with_reducible apply Dev.storeCheck_kept
    | with_reducible apply Dev.accPoison_kept
    | with_reducible apply Dev.accWrite_kept
    | (fail_if_no_progress with_reducible refine Kept.upd ?_ (by rfl) (by rfl) (by rfl))
    | split

theorem Dev.setPlanned_kept {z : Dev} (s : Dev) (f v : Nat)  (hz : Kept z s) : Kept z (Dev.setPlanned s f v) := by
  unfold Dev.setPlanned
  try dsimp only
  repeat' first
    | with_reducible assumption
    | (fail_if_no_progress with_reducible refine Kept.upd ?_ (by rfl) (by rfl) (by rfl))

theorem Dev.seedLanes_kept {z : Dev} (s : Dev)  (hz : Kept z s) : Kept z (Dev.seedLanes s) := by
  unfold Dev.seedLanes
  try dsimp only
  repeat' first
    | with_reducible assumption
    | (with_reducible refine kept_each (fun s x hz => ?_) ?_)
    | with_reducible apply Dev.each_kept
    | with_reducible apply Dev.setPlanned_kept

theorem Dev.seedDemandLanes_kept {z : Dev} (s : Dev)  (hz : Kept z s) : Kept z (Dev.seedDemandLanes s) := by
  unfold Dev.seedDemandLanes
  try dsimp only
  repeat' first
    | with_reducible assumption
    | (with_reducible refine kept_each (fun s x hz => ?_) ?_)
    | with_reducible apply Dev.each_kept
    | with_reducible apply Dev.setDemand_kept

theorem Dev.countBuffer_kept {z : Dev} (s : Dev) (r : Option Nat) (f : Nat) (x : Option Nat) (amax : Exact) (sats nans : Nat)  (hz : Kept z s) : Kept z (Dev.countBuffer s r f x amax sats nans) := by
  unfold Dev.countBuffer
  try dsimp only
  repeat' first
    | with_reducible assumption
    | with_reducible apply Dev.countBlock_kept
    | (fail_if_no_progress with_reducible refine Kept.upd ?_ (by rfl) (by rfl) (by rfl))
    | split

theorem Dev.bufferBlock_kept {z : Dev} (s : Dev) (space : Nat) (r : Option Nat) (w base sbase i : Nat) (v : List Exact) (same : Option Nat) (poison : Bool) (l : Outs)  (hz : Kept z s) : Kept z (Dev.bufferBlock s space r w base sbase i v same poison l).1 := by
  unfold Dev.bufferBlock
  try dsimp only
  repeat' first
    | with_reducible assumption
    | (with_reducible refine kept_ite ?_ ?_)
    | (with_reducible refine kept_ite_fst ?_ ?_)
    | (with_reducible refine kept_ite_snd ?_ ?_)
    | with_reducible apply Dev.setPlanned_kept
    | with_reducible apply Dev.countBuffer_kept
    | (fail_if_no_progress with_reducible refine Kept.upd ?_ (by rfl) (by rfl) (by rfl))
    | split

theorem Dev.memBlock_kept {z : Dev} (s0 : Dev) (r w : Nat) (k : PlanBlock) (pay sides : Outs)  (hz : Kept z s0) : Kept z (Dev.memBlock s0 r w k pay sides).1 := by
  unfold Dev.memBlock
  try dsimp only
  repeat' first
    | with_reducible assumption
    | (with_reducible refine kept_ite ?_ ?_)
    | (with_reducible refine kept_ite_fst ?_ ?_)
    | (with_reducible refine kept_ite_snd ?_ ?_)
    | (with_reducible refine kept_foldl (fun s x hz => ?_) ?_)
    | (with_reducible refine kept_foldl_fst (fun s x hz => ?_) ?_)
    | with_reducible apply Dev.groupRead_kept
    | with_reducible apply Dev.setPlanned_kept
    | with_reducible apply Dev.countBlock_kept
    | (fail_if_no_progress with_reducible refine Kept.upd ?_ (by rfl) (by rfl) (by rfl))
    | split

theorem Dev.updJob_kept {z : Dev} (s : Dev) (id : Nat) (f : PlanJob → PlanJob)  (hz : Kept z s) : Kept z (Dev.updJob s id f) := by
  unfold Dev.updJob
  try dsimp only
  repeat' first
    | with_reducible assumption
    | (with_reducible refine kept_ite ?_ ?_)
    | (fail_if_no_progress with_reducible refine Kept.upd ?_ (by rfl) (by rfl) (by rfl))

theorem Dev.plannedApply_kept {z : Dev} (s : Dev) (t : Txn)  (hz : Kept z s) : Kept z (Dev.plannedApply s t) := by
  unfold Dev.plannedApply
  try dsimp only
  repeat' first
    | with_reducible assumption
    | (with_reducible refine kept_ite ?_ ?_)
    | with_reducible apply Dev.txnPoison_kept
    | with_reducible apply Dev.txnApply_kept
    | with_reducible apply Dev.txnFetch_kept
    | (fail_if_no_progress with_reducible refine Kept.upd ?_ (by rfl) (by rfl) (by rfl))
    | split

theorem Dev.jobConvert_kept {z : Dev} (s : Dev) (j : PlanJob)  (hz : Kept z s) : Kept z (Dev.jobConvert s j) := by
  unfold Dev.jobConvert
  try dsimp only
  repeat' first
    | with_reducible assumption
    | (with_reducible refine kept_ite ?_ ?_)
    | (with_reducible refine kept_each (fun s x hz => ?_) ?_)
    | (with_reducible refine kept_foldl (fun s x hz => ?_) ?_)
    | (with_reducible refine kept_foldl_fst (fun s x hz => ?_) ?_)
    | with_reducible apply Dev.memBlock_kept
    | with_reducible apply Dev.updJob_kept
    | with_reducible apply Dev.each_kept
    | with_reducible apply Dev.endClaim_kept
    | with_reducible apply Dev.openTxn_kept
    | (fail_if_no_progress with_reducible refine Kept.upd ?_ (by rfl) (by rfl) (by rfl))

theorem Dev.jobRun_kept {z : Dev} (s : Dev) (id : Nat)  (hz : Kept z s) : Kept z (Dev.jobRun s id) := by
  unfold Dev.jobRun
  try dsimp only
  repeat' first
    | with_reducible assumption
    | (with_reducible refine kept_ite ?_ ?_)
    | (with_reducible refine kept_each (fun s x hz => ?_) ?_)
    | with_reducible apply Dev.each_kept
    | with_reducible apply Dev.updJob_kept
    | with_reducible apply Dev.openTxn_kept
    | with_reducible apply Dev.jobConvert_kept
    | with_reducible apply Dev.plannedApply_kept
    | (fail_if_no_progress with_reducible refine Kept.upd ?_ (by rfl) (by rfl) (by rfl))
    | split

theorem Dev.startJob_kept {z : Dev} (s : Dev) (owner rgn word : Nat) (pay : Outs) (todo : List PlanBlock)  (hz : Kept z s) : Kept z (Dev.startJob s owner rgn word pay todo) := by
  unfold Dev.startJob
  try dsimp only
  repeat' first
    | with_reducible assumption
    | with_reducible apply Dev.jobRun_kept
    | (fail_if_no_progress with_reducible refine Kept.upd ?_ (by rfl) (by rfl) (by rfl))

theorem Dev.startBlocks_kept {z : Dev} (s : Dev) (owner rgn word : Nat) (todo : List PlanBlock)  (hz : Kept z s) : Kept z (Dev.startBlocks s owner rgn word todo) := by
  unfold Dev.startBlocks
  try dsimp only
  repeat' first
    | with_reducible assumption
    | (with_reducible refine kept_foldl (fun s x hz => ?_) ?_)
    | (with_reducible refine kept_foldl_fst (fun s x hz => ?_) ?_)
    | with_reducible apply Dev.startJob_kept

theorem Dev.keepRun_kept {z : Dev} (s : Dev)  (hz : Kept z s) : Kept z (Dev.keepRun s) := by
  unfold Dev.keepRun
  try dsimp only
  repeat' first
    | with_reducible assumption
    | (with_reducible refine kept_ite ?_ ?_)
    | (with_reducible refine kept_each (fun s x hz => ?_) ?_)
    | with_reducible apply Dev.each_kept
    | (refine Dev.fetch_kept (by assumption) ?_)
    | with_reducible apply Dev.setEngine_kept
    | (fail_if_no_progress with_reducible refine Kept.upd ?_ (by rfl) (by rfl) (by rfl))
    | split

theorem Dev.promoteEntry_kept {z : Dev} (s : Dev) (e wave : Nat) (d : Wave) (key : Nat) (ws : List WBlock) (as : List ABlock)  (hz : Kept z s) : Kept z (Dev.promoteEntry s e wave d key ws as) := by
  unfold Dev.promoteEntry
  try dsimp only
  repeat' first
    | with_reducible assumption
    | (with_reducible refine kept_ite ?_ ?_)
    | with_reducible apply Dev.poisonEntry_kept
    | with_reducible apply Dev.setAcc_kept
    | with_reducible apply Dev.bump_kept
    | with_reducible apply Dev.raise_kept
    | with_reducible apply Dev.put_kept

theorem Dev.runTile_kept {z : Dev} (s : Dev) (e wave : Nat) (d : Wave) (bad : List (Space × BitVec 64)) (nt kt : Nat)  (hz : Kept z s) : Kept z (Dev.runTile s e wave d bad nt kt) := by
  unfold Dev.runTile
  try dsimp only
  repeat' first
    | with_reducible assumption
    | (with_reducible refine kept_ite ?_ ?_)
    | (with_reducible refine kept_each (fun s x hz => ?_) ?_)
    | with_reducible apply Dev.raiseIf_kept
    | with_reducible apply Dev.event_kept
    | with_reducible apply Dev.bump_kept
    | with_reducible apply Dev.raise_kept
    | with_reducible apply Dev.each_kept
    | with_reducible apply Dev.promoteEntry_kept

theorem Dev.zeroColumns_kept {z : Dev} (s : Dev) (e : Nat) (d : Wave)  (hz : Kept z s) : Kept z (Dev.zeroColumns s e d) := by
  unfold Dev.zeroColumns
  try dsimp only
  repeat' first
    | with_reducible assumption
    | (with_reducible refine kept_each (fun s x hz => ?_) ?_)
    | with_reducible apply Dev.each_kept
    | with_reducible apply Dev.setAcc_kept
    | with_reducible apply Dev.setMark_kept
    | (fail_if_no_progress with_reducible refine Kept.upd ?_ (by rfl) (by rfl) (by rfl))

theorem Dev.strikeAcc_kept {z : Dev} (s : Dev) (e : Nat) (l : List (BitVec 14 × DataErr))  (hz : Kept z s) : Kept z (Dev.strikeAcc s e l) := by
  unfold Dev.strikeAcc
  try dsimp only
  repeat' first
    | with_reducible assumption
    | with_reducible apply Dev.inject_kept

theorem Dev.waveOutput_kept {z : Dev} (s : Dev) (e : Nat) (d : Wave)  (hz : Kept z s) : Kept z (Dev.waveOutput s e d) := by
  unfold Dev.waveOutput
  try dsimp only
  repeat' first
    | with_reducible assumption
    | (with_reducible refine kept_ite ?_ ?_)
    | (with_reducible refine kept_foldl (fun s x hz => ?_) ?_)
    | (with_reducible refine kept_foldl_fst (fun s x hz => ?_) ?_)
    | with_reducible apply Dev.startBlocks_kept
    | with_reducible apply Dev.bufferBlock_kept
    | with_reducible apply Dev.windowWrite_kept
    | (fail_if_no_progress with_reducible refine Kept.upd ?_ (by rfl) (by rfl) (by rfl))
    | split

theorem Dev.showEngine_kept {z : Dev} (s : Dev) (e : Nat)  (hz : Kept z s) : Kept z (Dev.showEngine s e) := by
  unfold Dev.showEngine
  try dsimp only
  repeat' first
    | with_reducible assumption
    | (with_reducible refine kept_ite ?_ ?_)
    | with_reducible apply Dev.put_kept

theorem Dev.endItem_kept {z : Dev} (s : Dev) (it : Item)  (hz : Kept z s) : Kept z (Dev.endItem s it) := by
  unfold Dev.endItem
  try dsimp only
  repeat' first
    | with_reducible assumption
    | (fail_if_no_progress with_reducible refine Kept.upd ?_ (by rfl) (by rfl) (by rfl))

theorem Dev.issueWave_kept {z : Dev} (s : Dev) (e i slot : Nat)  (hz : Kept z s) : Kept z (Dev.issueWave s e i slot) := by
  unfold Dev.issueWave
  try dsimp only
  repeat' first
    | with_reducible assumption
    | (with_reducible refine kept_ite ?_ ?_)
    | with_reducible apply Dev.bump_kept
    | with_reducible apply Dev.setEngine_kept
    | with_reducible apply Dev.showEngine_kept
    | (fail_if_no_progress with_reducible refine Kept.upd ?_ (by rfl) (by rfl) (by rfl))

theorem Dev.weightReads_kept {z : Dev} (s : Dev) (e : Nat) (d : Wave) (bad : List (Space × BitVec 64))  (hz : Kept z s) : Kept z (Dev.weightReads s e d bad) := by
  unfold Dev.weightReads
  try dsimp only
  repeat' first
    | with_reducible assumption
    | (with_reducible refine kept_ite ?_ ?_)
    | (with_reducible refine kept_each (fun s x hz => ?_) ?_)
    | with_reducible apply Dev.each_kept
    | with_reducible apply Dev.readTags_kept
    | with_reducible apply Dev.markerRead_kept
    | with_reducible apply Dev.touch_kept
    | with_reducible apply Dev.keepRun_kept
    | (fail_if_no_progress with_reducible refine Kept.upd ?_ (by rfl) (by rfl) (by rfl))

theorem Dev.findBad_kept {z : Dev} (s : Dev) (bad : List (Space × BitVec 64))  (hz : Kept z s) : Kept z (Dev.findBad s bad) := by
  unfold Dev.findBad
  try dsimp only
  repeat' first
    | with_reducible assumption
    | (with_reducible refine kept_each (fun s x hz => ?_) ?_)
    | with_reducible apply Dev.each_kept
    | with_reducible apply Dev.readCheck_kept
    | with_reducible apply Dev.storeCheck_kept
    | (fail_if_no_progress with_reducible refine Kept.upd ?_ (by rfl) (by rfl) (by rfl))
    | split

theorem Dev.waveReads_kept {z : Dev} (s : Dev) (d : Wave) (bad : List (Space × BitVec 64))  (hz : Kept z s) : Kept z (Dev.waveReads s d bad) := by
  unfold Dev.waveReads
  try dsimp only
  repeat' first
    | with_reducible assumption
    | (with_reducible refine kept_ite ?_ ?_)
    | (with_reducible refine kept_each (fun s x hz => ?_) ?_)
    | (with_reducible refine kept_foldl (fun s x hz => ?_) ?_)
    | (with_reducible refine kept_foldl_fst (fun s x hz => ?_) ?_)
    | with_reducible apply Dev.spanCheck_kept
    | with_reducible apply Dev.each_kept
    | with_reducible apply Dev.readCheck_kept

theorem Dev.showWave_kept {z : Dev} (s : Dev) (e : Nat)  (hz : Kept z s) : Kept z (Dev.showWave s e) := by
  unfold Dev.showWave
  try dsimp only
  repeat' first
    | with_reducible assumption
    | with_reducible apply Dev.put_kept
    | (fail_if_no_progress with_reducible refine Kept.upd ?_ (by rfl) (by rfl) (by rfl))
    | split

theorem Dev.waveOut_kept {z : Dev} (s : Dev) (e : Nat)  (hz : Kept z s) : Kept z (Dev.waveOut s e) := by
  unfold Dev.waveOut
  try dsimp only
  repeat' first
    | with_reducible assumption
    | (with_reducible refine kept_ite ?_ ?_)
    | with_reducible apply Dev.setEngine_kept
    | with_reducible apply Dev.waveOutput_kept
    | (fail_if_no_progress with_reducible refine Kept.upd ?_ (by rfl) (by rfl) (by rfl))
    | split

theorem Dev.startWave_kept {z : Dev} (s : Dev) (e : Nat) (found : List (Space × BitVec 64)) (struck : List (BitVec 14 × DataErr))  (hz : Kept z s) : Kept z (Dev.startWave s e found struck) := by
  unfold Dev.startWave
  try dsimp only
  repeat' first
    | with_reducible assumption
    | (with_reducible refine kept_ite ?_ ?_)
    | (with_reducible refine kept_each (fun s x hz => ?_) ?_)
    | with_reducible apply Dev.setEngine_kept
    | with_reducible apply Dev.put_kept
    | with_reducible apply Dev.bump_kept
    | with_reducible apply Dev.peak_kept
    | with_reducible apply Dev.raise_kept
    | with_reducible apply Dev.zeroColumns_kept
    | with_reducible apply Dev.strikeAcc_kept
    | with_reducible apply Dev.accSpan_kept
    | with_reducible apply Dev.findBad_kept
    | with_reducible apply Dev.waveReads_kept
    | with_reducible apply Dev.alert_kept
    | with_reducible apply Dev.each_kept
    | with_reducible apply Dev.runTile_kept
    | with_reducible apply Dev.weightReads_kept
    | with_reducible apply Dev.showEngine_kept
    | with_reducible apply Dev.showWave_kept
    | with_reducible apply Dev.waveOut_kept
    | (fail_if_no_progress with_reducible refine Kept.upd ?_ (by rfl) (by rfl) (by rfl))
    | split

theorem Dev.endWave_kept {z : Dev} (s : Dev) (e : Nat)  (hz : Kept z s) : Kept z (Dev.endWave s e) := by
  unfold Dev.endWave
  try dsimp only
  repeat' first
    | with_reducible assumption
    | (with_reducible refine kept_ite ?_ ?_)
    | with_reducible apply Dev.setEngine_kept
    | with_reducible apply Dev.bump_kept
    | with_reducible apply Dev.put_kept
    | with_reducible apply Dev.endItem_kept
    | with_reducible apply Dev.showEngine_kept
    | (fail_if_no_progress with_reducible refine Kept.upd ?_ (by rfl) (by rfl) (by rfl))
    | split

theorem Dev.resetEngine_kept {z : Dev} (s : Dev) (e : Nat)  (hz : Kept z s) : Kept z (Dev.resetEngine s e) := by
  unfold Dev.resetEngine
  try dsimp only
  repeat' first
    | with_reducible assumption
    | (with_reducible refine kept_each (fun s x hz => ?_) ?_)
    | with_reducible apply Dev.each_kept
    | with_reducible apply Dev.setMark_kept
    | with_reducible apply Dev.setEngine_kept
    | with_reducible apply Dev.showEngine_kept
    | (fail_if_no_progress with_reducible refine Kept.upd ?_ (by rfl) (by rfl) (by rfl))
    | split

theorem Dev.sendLine_kept {z : Dev} (s : Dev) (q sender : Nat) (flow : Bool) (desc line : Nat) (x : Sub) (poison : Bool)  (hz : Kept z s) : Kept z (Dev.sendLine s q sender flow desc line x poison) := by
  unfold Dev.sendLine
  try dsimp only
  repeat' first
    | with_reducible assumption
    | with_reducible apply Dev.send_kept

theorem Dev.updRun_kept {z : Dev} (s : Dev) (flow : Bool) (i : Nat) (g : LineRun → LineRun)  (hz : Kept z s) : Kept z (Dev.updRun s flow i g) := by
  unfold Dev.updRun
  try dsimp only
  repeat' first
    | with_reducible assumption
    | (with_reducible refine kept_ite ?_ ?_)
    | (fail_if_no_progress with_reducible refine Kept.upd ?_ (by rfl) (by rfl) (by rfl))
    | split

theorem Dev.peakLines_kept {z : Dev} (s : Dev)  (hz : Kept z s) : Kept z (Dev.peakLines s) := by
  unfold Dev.peakLines
  try dsimp only
  repeat' first
    | with_reducible assumption
    | (with_reducible refine kept_foldl (fun s x hz => ?_) ?_)
    | (with_reducible refine kept_foldl_fst (fun s x hz => ?_) ?_)
    | with_reducible apply Dev.peak_kept

theorem Dev.flowForward_kept {z : Dev} (s : Dev) (i : Nat)  (hz : Kept z s) : Kept z (Dev.flowForward s i) := by
  unfold Dev.flowForward
  try dsimp only
  repeat' first
    | with_reducible assumption
    | (with_reducible refine kept_ite ?_ ?_)
    | (with_reducible refine kept_each (fun s x hz => ?_) ?_)
    | with_reducible apply Dev.each_kept
    | with_reducible apply Dev.updRun_kept
    | with_reducible apply Dev.chordFlags_kept
    | with_reducible apply Dev.sendLine_kept
    | (fail_if_no_progress with_reducible refine Kept.upd ?_ (by rfl) (by rfl) (by rfl))
    | split

theorem Dev.issueFlow_kept {z : Dev} (s : Dev) (i slot : Nat)  (hz : Kept z s) : Kept z (Dev.issueFlow s i slot) := by
  unfold Dev.issueFlow
  try dsimp only
  repeat' first
    | with_reducible assumption
    | (with_reducible refine kept_ite ?_ ?_)
    | with_reducible apply Dev.updRun_kept
    | with_reducible apply Dev.peakLines_kept
    | (fail_if_no_progress with_reducible refine Kept.upd ?_ (by rfl) (by rfl) (by rfl))
    | split

theorem Dev.takeSource_kept {z : Dev} (s00 : Dev) (i k : Nat)  (hz : Kept z s00) : Kept z (Dev.takeSource s00 i k) := by
  unfold Dev.takeSource
  try dsimp only
  repeat' first
    | with_reducible assumption
    | (with_reducible refine kept_ite ?_ ?_)
    | (with_reducible refine kept_foldl (fun s x hz => ?_) ?_)
    | (with_reducible refine kept_foldl_fst (fun s x hz => ?_) ?_)
    | with_reducible apply Dev.spanCheck_kept
    | with_reducible apply Dev.updRun_kept
    | with_reducible apply Dev.chordFlags_kept
    | with_reducible apply Dev.setEngine_kept
    | (fail_if_no_progress with_reducible refine Kept.upd ?_ (by rfl) (by rfl) (by rfl))
    | split

theorem Dev.takeSources_kept {z : Dev} (s : Dev) (i : Nat)  (hz : Kept z s) : Kept z (Dev.takeSources s i) := by
  unfold Dev.takeSources
  try dsimp only
  repeat' first
    | with_reducible assumption
    | (with_reducible refine kept_ite ?_ ?_)
    | (with_reducible refine kept_each (fun s x hz => ?_) ?_)
    | with_reducible apply Dev.each_kept
    | with_reducible apply Dev.takeSource_kept
    | with_reducible apply Dev.flowForward_kept

theorem Dev.startFlow_kept {z : Dev} (s : Dev) (i : Nat)  (hz : Kept z s) : Kept z (Dev.startFlow s i) := by
  unfold Dev.startFlow
  try dsimp only
  repeat' first
    | with_reducible assumption
    | (with_reducible refine kept_ite ?_ ?_)
    | with_reducible apply Dev.updRun_kept
    | with_reducible apply Dev.takeSources_kept

theorem Dev.flowTakes_kept {z : Dev} (s : Dev)  (hz : Kept z s) : Kept z (Dev.flowTakes s) := by
  unfold Dev.flowTakes
  try dsimp only
  repeat' first
    | with_reducible assumption
    | (with_reducible refine kept_each (fun s x hz => ?_) ?_)
    | with_reducible apply Dev.each_kept
    | with_reducible apply Dev.takeSources_kept
    | (fail_if_no_progress with_reducible refine Kept.upd ?_ (by rfl) (by rfl) (by rfl))
    | split

theorem Dev.flowWindow_kept {z : Dev} (s : Dev) (d : Flow) (l : Nat) (mode : Nat) (lines : List Sub)  (hz : Kept z s) : Kept z (Dev.flowWindow s d l mode lines) := by
  unfold Dev.flowWindow
  try dsimp only
  repeat' first
    | with_reducible assumption
    | (with_reducible refine kept_ite ?_ ?_)
    | with_reducible apply Dev.windowCheck_kept
    | with_reducible apply Dev.event_kept
    | with_reducible apply Dev.raise_kept
    | with_reducible apply Dev.windowWrite_kept
    | with_reducible apply Dev.bump_kept
    | with_reducible apply Dev.chordFlags_kept
    | (fail_if_no_progress with_reducible refine Kept.upd ?_ (by rfl) (by rfl) (by rfl))
    | split

theorem Dev.flowBlock_kept {z : Dev} (s : Dev) (i : Nat) (d : Flow) (rgn n : Nat) (lines : List (Sub × Bool))  (hz : Kept z s) : Kept z (Dev.flowBlock s i d rgn n lines) := by
  unfold Dev.flowBlock
  try dsimp only
  repeat' first
    | with_reducible assumption
    | (with_reducible refine kept_ite ?_ ?_)
    | with_reducible apply Dev.raiseIf_kept
    | with_reducible apply Dev.startBlocks_kept

theorem Dev.applyFlow_kept {z : Dev} (s : Dev) (i l : Nat)  (hz : Kept z s) : Kept z (Dev.applyFlow s i l) := by
  unfold Dev.applyFlow
  try dsimp only
  repeat' first
    | with_reducible assumption
    | (with_reducible refine kept_ite ?_ ?_)
    | with_reducible apply Dev.updRun_kept
    | with_reducible apply Dev.chordFlags_kept
    | with_reducible apply Dev.flowWindow_kept
    | with_reducible apply Dev.openTxn_kept
    | with_reducible apply Dev.flowBlock_kept
    | (fail_if_no_progress with_reducible refine Kept.upd ?_ (by rfl) (by rfl) (by rfl))
    | split

theorem Dev.endFlow_kept {z : Dev} (s : Dev) (i : Nat)  (hz : Kept z s) : Kept z (Dev.endFlow s i) := by
  unfold Dev.endFlow
  try dsimp only
  repeat' first
    | with_reducible assumption
    | (with_reducible refine kept_ite ?_ ?_)
    | with_reducible apply Dev.endItem_kept
    | with_reducible apply Dev.put_kept
    | with_reducible apply Dev.bump_kept
    | (fail_if_no_progress with_reducible refine Kept.upd ?_ (by rfl) (by rfl) (by rfl))
    | split

theorem Dev.transferWrite_kept {z : Dev} (fuel : Nat) (s : Dev) (i : Nat)  (hz : Kept z s) : Kept z (Dev.transferWrite fuel s i) := by
  induction fuel generalizing s with
  | zero => exact hz
  | succ fuel ih =>
    unfold Dev.transferWrite
    try dsimp only
    repeat' first
      | with_reducible assumption
      | with_reducible apply ih
      | (with_reducible refine kept_ite ?_ ?_)
      | (with_reducible refine kept_each (fun s x hz => ?_) ?_)
      | with_reducible apply Dev.each_kept
      | with_reducible apply Dev.windowWrite_kept
      | with_reducible apply Dev.updRun_kept
      | with_reducible apply Dev.bufferBlock_kept
      | (fail_if_no_progress with_reducible refine Kept.upd ?_ (by rfl) (by rfl) (by rfl))
      | split

theorem Dev.transferForward_kept {z : Dev} (s : Dev) (i l : Nat) (x : Sub) (poison : Bool)  (hz : Kept z s) : Kept z (Dev.transferForward s i l x poison) := by
  unfold Dev.transferForward
  try dsimp only
  repeat' first
    | with_reducible assumption
    | (with_reducible refine kept_each (fun s x hz => ?_) ?_)
    | with_reducible apply Dev.each_kept
    | with_reducible apply Dev.sendLine_kept

theorem Dev.takeTransfer_kept {z : Dev} (s00 : Dev) (i : Nat)  (hz : Kept z s00) : Kept z (Dev.takeTransfer s00 i) := by
  unfold Dev.takeTransfer
  try dsimp only
  repeat' first
    | with_reducible assumption
    | (with_reducible refine kept_ite ?_ ?_)
    | (with_reducible refine kept_each (fun s x hz => ?_) ?_)
    | with_reducible apply Dev.spanCheck_kept
    | with_reducible apply Dev.updRun_kept
    | with_reducible apply Dev.each_kept
    | with_reducible apply Dev.transferForward_kept
    | with_reducible apply Dev.transferWrite_kept

theorem Dev.issueTransfer_kept {z : Dev} (s : Dev) (i slot : Nat)  (hz : Kept z s) : Kept z (Dev.issueTransfer s i slot) := by
  unfold Dev.issueTransfer
  try dsimp only
  repeat' first
    | with_reducible assumption
    | (with_reducible refine kept_ite ?_ ?_)
    | (with_reducible refine kept_each (fun s x hz => ?_) ?_)
    | with_reducible apply Dev.updRun_kept
    | with_reducible apply Dev.peakLines_kept
    | with_reducible apply Dev.takeTransfer_kept
    | with_reducible apply Dev.each_kept
    | with_reducible apply Dev.transferForward_kept
    | with_reducible apply Dev.transferWrite_kept
    | (fail_if_no_progress with_reducible refine Kept.upd ?_ (by rfl) (by rfl) (by rfl))
    | split

theorem Dev.endTransfer_kept {z : Dev} (s : Dev) (i : Nat)  (hz : Kept z s) : Kept z (Dev.endTransfer s i) := by
  unfold Dev.endTransfer
  try dsimp only
  repeat' first
    | with_reducible assumption
    | (with_reducible refine kept_ite ?_ ?_)
    | with_reducible apply Dev.endItem_kept
    | (fail_if_no_progress with_reducible refine Kept.upd ?_ (by rfl) (by rfl) (by rfl))
    | split

theorem Dev.lineIn_kept {z : Dev} (s : Dev) (flow : Bool) (i l q : Nat) (x : Sub) (poison : Bool)  (hz : Kept z s) : Kept z (Dev.lineIn s flow i l q x poison) := by
  unfold Dev.lineIn
  try dsimp only
  repeat' first
    | with_reducible assumption
    | (with_reducible refine kept_ite ?_ ?_)
    | with_reducible apply Dev.updRun_kept
    | with_reducible apply Dev.flowForward_kept
    | with_reducible apply Dev.transferForward_kept
    | with_reducible apply Dev.transferWrite_kept

theorem Dev.retakes_kept {z : Dev} (s : Dev)  (hz : Kept z s) : Kept z (Dev.retakes s) := by
  unfold Dev.retakes
  try dsimp only
  repeat' first
    | with_reducible assumption
    | (with_reducible refine kept_each (fun s x hz => ?_) ?_)
    | with_reducible apply Dev.each_kept
    | with_reducible apply Dev.takeSources_kept
    | with_reducible apply Dev.takeTransfer_kept
    | with_reducible apply Dev.transferWrite_kept
    | (fail_if_no_progress with_reducible refine Kept.upd ?_ (by rfl) (by rfl) (by rfl))
    | split

theorem Dev.conversionsRun_kept {z : Dev} (s : Dev)  (hz : Kept z s) : Kept z (Dev.conversionsRun s) := by
  unfold Dev.conversionsRun
  try dsimp only
  repeat' first
    | with_reducible assumption
    | (with_reducible refine kept_each (fun s x hz => ?_) ?_)
    | with_reducible apply Dev.each_kept
    | with_reducible apply Dev.waveOut_kept
    | with_reducible apply Dev.transferWrite_kept
    | (fail_if_no_progress with_reducible refine Kept.upd ?_ (by rfl) (by rfl) (by rfl))
    | split

theorem Dev.resendLines_kept {z : Dev} (s : Dev) (q : Nat)  (hz : Kept z s) : Kept z (Dev.resendLines s q) := by
  unfold Dev.resendLines
  try dsimp only
  repeat' first
    | with_reducible assumption
    | (with_reducible refine kept_ite ?_ ?_)
    | (with_reducible refine kept_each (fun s x hz => ?_) ?_)
    | with_reducible apply Dev.each_kept
    | with_reducible apply Dev.sendLine_kept
    | (fail_if_no_progress with_reducible refine Kept.upd ?_ (by rfl) (by rfl) (by rfl))
    | split

theorem Dev.cutJob_kept {z : Dev} (s : Dev) (owner : Nat) (keep : Bool)  (hz : Kept z s) : Kept z (Dev.cutJob s owner keep) := by
  unfold Dev.cutJob
  try dsimp only
  repeat' first
    | with_reducible assumption
    | (with_reducible refine kept_ite ?_ ?_)
    | (fail_if_no_progress with_reducible refine Kept.upd ?_ (by rfl) (by rfl) (by rfl))

theorem Dev.dropJob_kept {z : Dev} (s : Dev) (e : Nat)  (hz : Kept z s) : Kept z (Dev.dropJob s e) := by
  unfold Dev.dropJob
  try dsimp only
  repeat' first
    | with_reducible assumption
    | with_reducible apply Dev.cutJob_kept

theorem Dev.dropRun_kept {z : Dev} (s : Dev) (flow : Bool) (i : Nat)  (hz : Kept z s) : Kept z (Dev.dropRun s flow i) := by
  unfold Dev.dropRun
  try dsimp only
  repeat' first
    | with_reducible assumption
    | (fail_if_no_progress with_reducible refine Kept.upd ?_ (by rfl) (by rfl) (by rfl))

theorem Dev.poisonSteps_kept {z : Dev} (s : Dev) (i : Nat)  (hz : Kept z s) : Kept z (Dev.poisonSteps s i) := by
  unfold Dev.poisonSteps
  try dsimp only
  repeat' first
    | with_reducible assumption
    | (with_reducible refine kept_ite ?_ ?_)
    | (fail_if_no_progress with_reducible refine Kept.upd ?_ (by rfl) (by rfl) (by rfl))

theorem Dev.dropFlow_kept {z : Dev} (s : Dev) (i : Nat)  (hz : Kept z s) : Kept z (Dev.dropFlow s i) := by
  unfold Dev.dropFlow
  try dsimp only
  repeat' first
    | with_reducible assumption
    | (with_reducible refine kept_ite ?_ ?_)
    | (with_reducible refine kept_each (fun s x hz => ?_) ?_)
    | (with_reducible refine kept_foldl (fun s x hz => ?_) ?_)
    | (with_reducible refine kept_foldl_fst (fun s x hz => ?_) ?_)
    | with_reducible apply Dev.cutJob_kept
    | with_reducible apply Dev.poisonSteps_kept
    | with_reducible apply Dev.each_kept
    | with_reducible apply Dev.flowWindow_kept
    | with_reducible apply Dev.raise_kept
    | with_reducible apply Dev.startJob_kept
    | with_reducible apply Dev.dropRun_kept
    | with_reducible apply Dev.endItem_kept
    | (fail_if_no_progress with_reducible refine Kept.upd ?_ (by rfl) (by rfl) (by rfl))
    | split

theorem Dev.dropTransfer_kept {z : Dev} (s : Dev) (i : Nat)  (hz : Kept z s) : Kept z (Dev.dropTransfer s i) := by
  unfold Dev.dropTransfer
  try dsimp only
  repeat' first
    | with_reducible assumption
    | (with_reducible refine kept_ite ?_ ?_)
    | (with_reducible refine kept_foldl (fun s x hz => ?_) ?_)
    | (with_reducible refine kept_foldl_fst (fun s x hz => ?_) ?_)
    | with_reducible apply Dev.windowWrite_kept
    | with_reducible apply Dev.dropRun_kept
    | with_reducible apply Dev.endItem_kept

end Sys2Proof.Machine
end

