-- ==== Sys2Proof/Laws/KeptServe.lean ====
section
/-! SUPPORT. What the operations of reflections, served events, deaths and failover leave alone. -/

namespace Sys2Proof.Machine

theorem Dev.setAreaWord_kept {z : Dev} (s : Dev) (g : Region) (d v : Nat)  (hz : Kept z s) : Kept z (Dev.setAreaWord s g d v) := by
  unfold Dev.setAreaWord
  try dsimp only
  repeat' first
    | with_reducible assumption
    | with_reducible apply Dev.issueWrite_kept

theorem Dev.areaDrop_kept {z : Dev} (s : Dev) (g : Region) (idx d : Nat) (hue : Option Hue)  (hz : Kept z s) : Kept z (Dev.areaDrop s g idx d hue) := by
  unfold Dev.areaDrop
  try dsimp only
  repeat' first
    | with_reducible assumption
    | (with_reducible refine kept_ite ?_ ?_)
    | with_reducible apply Dev.setAreaWord_kept
    | (fail_if_no_progress with_reducible refine Kept.upd ?_ (by rfl) (by rfl) (by rfl))
    | split

theorem Dev.areaFill_kept {z : Dev} (s : Dev) (g : Region) (idx d : Nat) (hue : Hue) (x : Sector)  (hz : Kept z s) : Kept z (Dev.areaFill s g idx d hue x) := by
  unfold Dev.areaFill
  try dsimp only
  repeat' first
    | with_reducible assumption
    | (with_reducible refine kept_ite ?_ ?_)
    | (with_reducible refine kept_each (fun s x hz => ?_) ?_)
    | with_reducible apply Dev.setAreaWord_kept
    | with_reducible apply Dev.each_kept
    | with_reducible apply Dev.issueWrite_kept

theorem Dev.eachReflLine_kept {z : Dev} (s : Dev) (p : Place) (hue : Option Hue) (f : Line → Line)  (hz : Kept z s) : Kept z (Dev.eachReflLine s p hue f) := by
  unfold Dev.eachReflLine
  try dsimp only
  repeat' first
    | with_reducible assumption
    | (with_reducible refine kept_ite ?_ ?_)
    | (with_reducible refine kept_each (fun s x hz => ?_) ?_)
    | with_reducible apply Dev.each_kept
    | with_reducible apply Dev.updLine_kept

theorem Dev.reflFill_kept {z : Dev} (s : Dev) (p : Place) (way : Option Nat) (age : BitVec 2) (x : Sector)  (hz : Kept z s) : Kept z (Dev.reflFill s p way age x) := by
  unfold Dev.reflFill
  try dsimp only
  repeat' first
    | with_reducible assumption
    | (with_reducible refine kept_each (fun s x hz => ?_) ?_)
    | with_reducible apply Dev.setLine_kept
    | with_reducible apply Dev.each_kept
    | with_reducible apply Dev.heal_kept
    | (refine Dev.allocWay_kept (by assumption) ?_)
    | (fail_if_no_progress with_reducible refine Kept.upd ?_ (by rfl) (by rfl) (by rfl))
    | split

theorem Dev.rflPost_kept {z t : Dev} {w : Nat} {s : Dev} {e : RflEntry} (e : Dev.rflPost s e = some (w, t)) (hz : Kept z s) : Kept z t := by
  unfold Dev.rflPost at e
  try dsimp only at e
  repeat' split at e
  all_goals cases e
  repeat' first
    | with_reducible assumption
    | (with_reducible refine kept_ite ?_ ?_)
    | (with_reducible refine kept_ite_fst ?_ ?_)
    | (with_reducible refine kept_ite_snd ?_ ?_)
    | with_reducible apply Dev.bump_kept
    | with_reducible apply Dev.event_kept
    | (fail_if_no_progress with_reducible refine Kept.upd ?_ (by rfl) (by rfl) (by rfl))

theorem Dev.setWindowSub_kept {z : Dev} (s : Dev) (e i : Nat) (v : Sub)  (hz : Kept z s) : Kept z (Dev.setWindowSub s e i v) := by
  unfold Dev.setWindowSub
  try dsimp only
  repeat' first
    | with_reducible assumption
    | (with_reducible refine kept_each (fun s x hz => ?_) ?_)
    | with_reducible apply Dev.each_kept
    | (fail_if_no_progress with_reducible refine Kept.upd ?_ (by rfl) (by rfl) (by rfl))

theorem Dev.rflReadOnce_kept {z : Dev} (s00 : Dev) (e : ReqEntry) (i : Nat)  (hz : Kept z s00) : Kept z (Dev.rflReadOnce s00 e i) := by
  unfold Dev.rflReadOnce
  try dsimp only
  repeat' first
    | with_reducible assumption
    | (with_reducible refine kept_ite ?_ ?_)
    | with_reducible apply Dev.readCheck_kept
    | with_reducible apply Dev.touch_kept
    | with_reducible apply Dev.event_kept
    | with_reducible apply Dev.finish_kept
    | with_reducible apply Dev.updPlr_kept
    | with_reducible apply Dev.raiseIf_kept
    | with_reducible apply Dev.bump_kept
    | with_reducible apply Dev.reflFill_kept
    | with_reducible apply Dev.filterMiss_kept
    | (refine Dev.allocWay_kept (by assumption) ?_)
    | (refine Dev.rflPost_kept (by assumption) ?_)
    | (fail_if_no_progress with_reducible refine Kept.upd ?_ (by rfl) (by rfl) (by rfl))
    | split

theorem Dev.rflWrite_kept {z : Dev} (s : Dev) (e : ReqEntry) (i : Nat) (idx : List Nat)  (hz : Kept z s) : Kept z (Dev.rflWrite s e i idx) := by
  unfold Dev.rflWrite
  try dsimp only
  repeat' first
    | with_reducible assumption
    | (with_reducible refine kept_ite ?_ ?_)
    | (with_reducible refine kept_each (fun s x hz => ?_) ?_)
    | (with_reducible refine kept_foldl (fun s x hz => ?_) ?_)
    | (with_reducible refine kept_foldl_fst (fun s x hz => ?_) ?_)
    | (refine Dev.rflPost_kept (by assumption) ?_)
    | with_reducible apply Dev.each_kept
    | with_reducible apply Dev.setWindowSub_kept
    | with_reducible apply Dev.eachReflLine_kept
    | with_reducible apply Dev.areaDrop_kept
    | with_reducible apply Dev.answer_kept
    | with_reducible apply Dev.flush_kept
    | (fail_if_no_progress with_reducible refine Kept.upd ?_ (by rfl) (by rfl) (by rfl))
    | split

theorem Dev.rflAtBound_kept {z : Dev} (s : Dev) (e : ReqEntry) (i : Nat) (b : Bound)  (hz : Kept z s) : Kept z (Dev.rflAtBound s e i b) := by
  unfold Dev.rflAtBound
  try dsimp only
  repeat' first
    | with_reducible assumption
    | (with_reducible refine kept_ite ?_ ?_)
    | (with_reducible refine kept_each (fun s x hz => ?_) ?_)
    | with_reducible apply Dev.atBound_kept

theorem Dev.rflPart_kept {z : Dev} (s00 : Dev) (id i : Nat)  (hz : Kept z s00) : Kept z (Dev.rflPart s00 id i) := by
  unfold Dev.rflPart
  try dsimp only
  repeat' first
    | with_reducible assumption
    | (with_reducible refine kept_ite ?_ ?_)
    | (with_reducible refine kept_each (fun s x hz => ?_) ?_)
    | (with_reducible refine kept_foldl (fun s x hz => ?_) ?_)
    | (with_reducible refine kept_foldl_fst (fun s x hz => ?_) ?_)
    | with_reducible apply Dev.readTags_kept
    | with_reducible apply Dev.listUrgent_kept
    | with_reducible apply Dev.rflAtBound_kept
    | with_reducible apply Dev.leaveList_kept
    | (refine Dev.holdWait_kept (by assumption) ?_)
    | with_reducible apply Dev.atBound_kept
    | with_reducible apply Dev.rflReadOnce_kept
    | (refine Dev.rflPost_kept (by assumption) ?_)
    | with_reducible apply Dev.rflWrite_kept
    | with_reducible apply Dev.eachReflLine_kept
    | with_reducible apply Dev.areaDrop_kept
    | with_reducible apply Dev.finish_kept
    | (fail_if_no_progress with_reducible refine Kept.upd ?_ (by rfl) (by rfl) (by rfl))
    | split

theorem Dev.anyPart_kept {z : Dev} (s : Dev) (id i : Nat)  (hz : Kept z s) : Kept z (Dev.anyPart s id i) := by
  unfold Dev.anyPart
  try dsimp only
  repeat' first
    | with_reducible assumption
    | (with_reducible refine kept_ite ?_ ?_)
    | with_reducible apply Dev.rflPart_kept
    | with_reducible apply Dev.viewPart_kept
    | with_reducible apply Dev.startPart_kept
    | (fail_if_no_progress with_reducible refine Kept.upd ?_ (by rfl) (by rfl) (by rfl))
    | split

theorem Dev.podDoneAt_kept {z : Dev} (s : Dev) (sender : Nat) (src : Agent) (txid : Nat)  (hz : Kept z s) : Kept z (Dev.podDoneAt s sender src txid) := by
  unfold Dev.podDoneAt
  try dsimp only
  repeat' first
    | with_reducible assumption
    | (with_reducible refine kept_ite ?_ ?_)
    | with_reducible apply Dev.updTxn_kept
    | with_reducible apply Dev.advance_kept
    | (fail_if_no_progress with_reducible refine Kept.upd ?_ (by rfl) (by rfl) (by rfl))
    | split

theorem Dev.podRun_kept {z : Dev} (s : Dev)  (hz : Kept z s) : Kept z (Dev.podRun s) := by
  unfold Dev.podRun
  try dsimp only
  repeat' first
    | with_reducible assumption
    | (with_reducible refine kept_ite ?_ ?_)
    | (with_reducible refine kept_each (fun s x hz => ?_) ?_)
    | with_reducible apply Dev.each_kept
    | with_reducible apply Dev.podDoneAt_kept
    | with_reducible apply Dev.send_kept
    | (fail_if_no_progress with_reducible refine Kept.upd ?_ (by rfl) (by rfl) (by rfl))

theorem Dev.freeHues_kept {z : Dev} (s : Dev)  (hz : Kept z s) : Kept z (Dev.freeHues s) := by
  unfold Dev.freeHues
  try dsimp only
  repeat' first
    | with_reducible assumption
    | (with_reducible refine kept_ite ?_ ?_)
    | (fail_if_no_progress with_reducible refine Kept.upd ?_ (by rfl) (by rfl) (by rfl))

theorem Dev.rflFree_kept {z : Dev} (s : Dev) (i : Nat)  (hz : Kept z s) : Kept z (Dev.rflFree s i) := by
  unfold Dev.rflFree
  try dsimp only
  repeat' first
    | with_reducible assumption
    | (fail_if_no_progress with_reducible refine Kept.upd ?_ (by rfl) (by rfl) (by rfl))

theorem Dev.rflPlrFree_kept {z : Dev} (s : Dev) (p : Place) (ws : List (Nat × Nat))  (hz : Kept z s) : Kept z (Dev.rflPlrFree s p ws) := by
  unfold Dev.rflPlrFree
  try dsimp only
  repeat' first
    | with_reducible assumption
    | (with_reducible refine kept_ite ?_ ?_)
    | (with_reducible refine kept_each (fun s x hz => ?_) ?_)
    | with_reducible apply Dev.each_kept
    | with_reducible apply Dev.rflPart_kept
    | (fail_if_no_progress with_reducible refine Kept.upd ?_ (by rfl) (by rfl) (by rfl))
    | split

theorem Dev.rflEnd_kept {z : Dev} (s : Dev) (i : Nat) (c : Code)  (hz : Kept z s) : Kept z (Dev.rflEnd s i c) := by
  unfold Dev.rflEnd
  try dsimp only
  repeat' first
    | with_reducible assumption
    | (with_reducible refine kept_ite ?_ ?_)
    | (with_reducible refine kept_each (fun s x hz => ?_) ?_)
    | (with_reducible refine kept_foldl (fun s x hz => ?_) ?_)
    | (with_reducible refine kept_foldl_fst (fun s x hz => ?_) ?_)
    | with_reducible apply Dev.rflFree_kept
    | with_reducible apply Dev.put_kept
    | with_reducible apply Dev.reflFill_kept
    | with_reducible apply Dev.areaFill_kept
    | with_reducible apply Dev.rflPlrFree_kept
    | with_reducible apply Dev.each_kept
    | with_reducible apply Dev.finish_kept
    | with_reducible apply Dev.freeHues_kept
    | with_reducible apply Dev.podRun_kept
    | (fail_if_no_progress with_reducible refine Kept.upd ?_ (by rfl) (by rfl) (by rfl))
    | split

theorem Dev.rflDone_kept {z : Dev} (s : Dev) (i status : Nat)  (hz : Kept z s) : Kept z (Dev.rflDone s i status) := by
  unfold Dev.rflDone
  try dsimp only
  repeat' first
    | with_reducible assumption
    | (with_reducible refine kept_ite ?_ ?_)
    | with_reducible apply Dev.rflEnd_kept
    | with_reducible apply Dev.raise_kept
    | (fail_if_no_progress with_reducible refine Kept.upd ?_ (by rfl) (by rfl) (by rfl))
    | split

theorem Dev.rflTimeout_kept {z : Dev} (s : Dev) (i : Nat)  (hz : Kept z s) : Kept z (Dev.rflTimeout s i) := by
  unfold Dev.rflTimeout
  try dsimp only
  repeat' first
    | with_reducible assumption
    | (with_reducible refine kept_ite ?_ ?_)
    | with_reducible apply Dev.raise_kept
    | with_reducible apply Dev.alert_kept
    | with_reducible apply Dev.errorRecord_kept
    | with_reducible apply Dev.rflEnd_kept
    | (fail_if_no_progress with_reducible refine Kept.upd ?_ (by rfl) (by rfl) (by rfl))
    | split

theorem Dev.podSyncIn_kept {z : Dev} (s : Dev) (sender : Nat) (src : Agent) (txid : BitVec 12)  (hz : Kept z s) : Kept z (Dev.podSyncIn s sender src txid) := by
  unfold Dev.podSyncIn
  try dsimp only
  repeat' first
    | with_reducible assumption
    | (with_reducible refine kept_ite ?_ ?_)
    | with_reducible apply Dev.podRun_kept
    | (fail_if_no_progress with_reducible refine Kept.upd ?_ (by rfl) (by rfl) (by rfl))

theorem Dev.podDoneIn_kept {z : Dev} (s : Dev) (sender : Nat) (src : Agent) (txid : BitVec 12)  (hz : Kept z s) : Kept z (Dev.podDoneIn s sender src txid) := by
  unfold Dev.podDoneIn
  try dsimp only
  repeat' first
    | with_reducible assumption
    | with_reducible apply Dev.podDoneAt_kept

theorem Dev.patchHues_kept {z : Dev} (s : Dev) (regions : List Byte)  (hz : Kept z s) : Kept z (Dev.patchHues s regions) := by
  unfold Dev.patchHues
  try dsimp only
  repeat' first
    | with_reducible assumption
    | (with_reducible refine kept_ite ?_ ?_)
    | (fail_if_no_progress with_reducible refine Kept.upd ?_ (by rfl) (by rfl) (by rfl))

theorem Dev.dropReflSet_kept {z : Dev} (s : Dev) (set : Nat) (gone : Nat → Bool)  (hz : Kept z s) : Kept z (Dev.dropReflSet s set gone) := by
  unfold Dev.dropReflSet
  try dsimp only
  repeat' first
    | with_reducible assumption
    | (with_reducible refine kept_ite ?_ ?_)
    | (with_reducible refine kept_each (fun s x hz => ?_) ?_)
    | with_reducible apply Dev.each_kept
    | with_reducible apply Dev.delLine_kept
    | (fail_if_no_progress with_reducible refine Kept.upd ?_ (by rfl) (by rfl) (by rfl))
    | split

theorem Dev.clearHeaders_kept {z : Dev} (s : Dev) (x : Nat × Nat) (gone : Nat → Bool)  (hz : Kept z s) : Kept z (Dev.clearHeaders s x gone) := by
  unfold Dev.clearHeaders
  try dsimp only
  repeat' first
    | with_reducible assumption
    | (with_reducible refine kept_ite ?_ ?_)
    | (with_reducible refine kept_each (fun s x hz => ?_) ?_)
    | with_reducible apply Dev.each_kept
    | with_reducible apply Dev.setAreaWord_kept
    | (fail_if_no_progress with_reducible refine Kept.upd ?_ (by rfl) (by rfl) (by rfl))
    | split

theorem Dev.dropHeaders_kept {z : Dev} (s : Dev) (gone : Nat → Bool)  (hz : Kept z s) : Kept z (Dev.dropHeaders s gone) := by
  unfold Dev.dropHeaders
  try dsimp only
  repeat' first
    | with_reducible assumption
    | (with_reducible refine kept_each (fun s x hz => ?_) ?_)
    | with_reducible apply Dev.each_kept
    | with_reducible apply Dev.clearHeaders_kept

theorem Dev.sweepHeaders_kept {z : Dev} (s : Dev) (pc n : Nat) (gone : Nat → Bool)  (hz : Kept z s) : Kept z (Dev.sweepHeaders s pc n gone) := by
  unfold Dev.sweepHeaders
  try dsimp only
  repeat' first
    | with_reducible assumption
    | (with_reducible refine kept_each (fun s x hz => ?_) ?_)
    | with_reducible apply Dev.each_kept
    | with_reducible apply Dev.clearHeaders_kept
    | with_reducible apply Dev.busUse_kept
    | (fail_if_no_progress with_reducible refine Kept.upd ?_ (by rfl) (by rfl) (by rfl))

theorem Dev.sweepSlot_kept {z : Dev} (s : Dev)  (hz : Kept z s) : Kept z (Dev.sweepSlot s) := by
  unfold Dev.sweepSlot
  try dsimp only
  repeat' first
    | with_reducible assumption
    | (with_reducible refine kept_ite ?_ ?_)
    | (with_reducible refine kept_each (fun s x hz => ?_) ?_)
    | (with_reducible refine kept_foldl (fun s x hz => ?_) ?_)
    | (with_reducible refine kept_foldl_fst (fun s x hz => ?_) ?_)
    | with_reducible apply Dev.each_kept
    | with_reducible apply Dev.dropReflSet_kept
    | with_reducible apply Dev.sweepHeaders_kept
    | with_reducible apply Dev.put_kept
    | with_reducible apply Dev.bump_kept
    | with_reducible apply Dev.freeHues_kept
    | (fail_if_no_progress with_reducible refine Kept.upd ?_ (by rfl) (by rfl) (by rfl))

theorem Dev.dropReflections_kept {z : Dev} (s : Dev)  (hz : Kept z s) : Kept z (Dev.dropReflections s) := by
  unfold Dev.dropReflections
  try dsimp only
  repeat' first
    | with_reducible assumption
    | (fail_if_no_progress with_reducible refine Kept.upd ?_ (by rfl) (by rfl) (by rfl))

theorem Dev.rebuildWrite_kept {z : Dev} (s : Dev) (e : Recon) (d : Nat)  (hz : Kept z s) : Kept z (Dev.rebuildWrite s e d) := by
  unfold Dev.rebuildWrite
  try dsimp only
  repeat' first
    | with_reducible assumption
    | (with_reducible refine kept_ite ?_ ?_)
    | with_reducible apply Dev.issueWrite_kept

theorem Dev.reconEnd_kept {z : Dev} (s : Dev) (e : Recon)  (hz : Kept z s) : Kept z (Dev.reconEnd s e) := by
  unfold Dev.reconEnd
  try dsimp only
  repeat' first
    | with_reducible assumption
    | (with_reducible refine kept_ite ?_ ?_)
    | with_reducible apply Dev.dropRecon_kept
    | with_reducible apply Dev.parityRecomputed_kept
    | with_reducible apply Dev.doubleFault_kept
    | with_reducible apply Dev.raise_kept
    | with_reducible apply Dev.bump_kept
    | with_reducible apply Dev.issueWrite_kept
    | with_reducible apply Dev.rebuildWrite_kept
    | with_reducible apply Dev.fillArrive_kept
    | with_reducible apply Dev.wbOld_kept
    | (fail_if_no_progress with_reducible refine Kept.upd ?_ (by rfl) (by rfl) (by rfl))
    | split

theorem Dev.maintRun_kept {z : Dev} (s : Dev) (m : Maint)  (hz : Kept z s) : Kept z (Dev.maintRun s m) := by
  unfold Dev.maintRun
  try dsimp only
  repeat' first
    | with_reducible assumption
    | (with_reducible refine kept_ite ?_ ?_)
    | (with_reducible refine kept_each (fun s x hz => ?_) ?_)
    | with_reducible apply Dev.delLine_kept
    | with_reducible apply Dev.releaseMirror_kept
    | with_reducible apply Dev.each_kept
    | with_reducible apply Dev.writeBackSub_kept
    | (fail_if_no_progress with_reducible refine Kept.upd ?_ (by rfl) (by rfl) (by rfl))
    | split

theorem Dev.maintWake_kept {z : Dev} (s : Dev)  (hz : Kept z s) : Kept z (Dev.maintWake s) := by
  unfold Dev.maintWake
  try dsimp only
  repeat' first
    | with_reducible assumption
    | (with_reducible refine kept_ite ?_ ?_)
    | (with_reducible refine kept_each (fun s x hz => ?_) ?_)
    | with_reducible apply Dev.each_kept
    | with_reducible apply Dev.maintRun_kept
    | (fail_if_no_progress with_reducible refine Kept.upd ?_ (by rfl) (by rfl) (by rfl))

theorem Dev.deathOver_kept {z : Dev} (s : Dev) (d : Death)  (hz : Kept z s) : Kept z (Dev.deathOver s d) := by
  unfold Dev.deathOver
  try dsimp only
  repeat' first
    | with_reducible assumption
    | (with_reducible refine kept_foldl (fun s x hz => ?_) ?_)
    | (with_reducible refine kept_foldl_fst (fun s x hz => ?_) ?_)
    | with_reducible apply Dev.setReg_kept
    | with_reducible apply Dev.alert_kept
    | (fail_if_no_progress with_reducible refine Kept.upd ?_ (by rfl) (by rfl) (by rfl))

theorem Dev.deathRecords_kept {z : Dev} (s : Dev) (d : Death)  (hz : Kept z s) : Kept z (Dev.deathRecords s d) := by
  unfold Dev.deathRecords
  try dsimp only
  repeat' first
    | with_reducible assumption
    | (with_reducible refine kept_ite ?_ ?_)
    | (with_reducible refine kept_each (fun s x hz => ?_) ?_)
    | with_reducible apply Dev.each_kept
    | with_reducible apply Dev.errorRecord_kept
    | (fail_if_no_progress with_reducible refine Kept.upd ?_ (by rfl) (by rfl) (by rfl))

theorem Dev.deathsRun_kept {z : Dev} (s : Dev)  (hz : Kept z s) : Kept z (Dev.deathsRun s) := by
  unfold Dev.deathsRun
  try dsimp only
  repeat' first
    | with_reducible assumption
    | (with_reducible refine kept_each (fun s x hz => ?_) ?_)
    | with_reducible apply Dev.each_kept
    | with_reducible apply Dev.deathRecords_kept
    | with_reducible apply Dev.deathOver_kept

theorem Dev.windowChord_kept {z : Dev} (s : Dev) (id : Nat) (e : ReqEntry)  (hz : Kept z s) : Kept z (Dev.windowChord s id e) := by
  unfold Dev.windowChord
  try dsimp only
  repeat' first
    | with_reducible assumption
    | (with_reducible refine kept_ite ?_ ?_)
    | (with_reducible refine kept_each (fun s x hz => ?_) ?_)
    | with_reducible apply Dev.each_kept
    | with_reducible apply Dev.windowCheck_kept
    | with_reducible apply Dev.windowWrite_kept
    | with_reducible apply Dev.raise_kept
    | with_reducible apply Dev.answer_kept
    | with_reducible apply Dev.chordFlags_kept
    | with_reducible apply Dev.bump_kept
    | with_reducible apply Dev.event_kept
    | with_reducible apply Dev.flush_kept
    | (fail_if_no_progress with_reducible refine Kept.upd ?_ (by rfl) (by rfl) (by rfl))
    | split

theorem Dev.podOpsRun_kept {z : Dev} (s : Dev)  (hz : Kept z s) : Kept z (Dev.podOpsRun s) := by
  unfold Dev.podOpsRun
  try dsimp only
  repeat' first
    | with_reducible assumption
    | (with_reducible refine kept_each (fun s x hz => ?_) ?_)
    | with_reducible apply Dev.each_kept
    | with_reducible apply Dev.windowChord_kept
    | (fail_if_no_progress with_reducible refine Kept.upd ?_ (by rfl) (by rfl) (by rfl))
    | split

theorem Dev.settle_kept {z : Dev} (s : Dev)  (hz : Kept z s) : Kept z (Dev.settle s) := by
  unfold Dev.settle
  try dsimp only
  repeat' first
    | with_reducible assumption
    | (with_reducible refine kept_each (fun s x hz => ?_) ?_)
    | with_reducible apply Dev.each_kept
    | with_reducible apply Dev.reconEnd_kept
    | with_reducible apply Dev.typedRun_kept
    | with_reducible apply Dev.jobRun_kept
    | with_reducible apply Dev.conversionsRun_kept
    | with_reducible apply Dev.keepRun_kept
    | with_reducible apply Dev.advance_kept
    | with_reducible apply Dev.maintWake_kept
    | with_reducible apply Dev.deathsRun_kept
    | with_reducible apply Dev.slotsRun_kept
    | with_reducible apply Dev.podOpsRun_kept
    | with_reducible apply Dev.put_kept
    | (fail_if_no_progress with_reducible refine Kept.upd ?_ (by rfl) (by rfl) (by rfl))

theorem Dev.mirrorTags_kept {z : Dev} (s : Dev) (grp sector : Nat)  (hz : Kept z s) : Kept z (Dev.mirrorTags s grp sector) := by
  unfold Dev.mirrorTags
  try dsimp only
  repeat' first
    | with_reducible assumption
    | with_reducible apply Dev.readTags_kept

theorem Dev.snoopReply_kept {z : Dev} (s : Dev) (r : SnoopReply) (data : Option Sub)  (hz : Kept z s) : Kept z (Dev.snoopReply s r data) := by
  unfold Dev.snoopReply
  try dsimp only
  repeat' first
    | with_reducible assumption
    | with_reducible apply Dev.updTxn_kept
    | with_reducible apply Dev.advance_kept
    | (fail_if_no_progress with_reducible refine Kept.upd ?_ (by rfl) (by rfl) (by rfl))
    | split

theorem Dev.snoopArrive_kept {z : Dev} (s : Dev) (r : SnoopReply) (data : Option Sub)  (hz : Kept z s) : Kept z (Dev.snoopArrive s r data) := by
  unfold Dev.snoopArrive
  try dsimp only
  repeat' first
    | with_reducible assumption
    | (with_reducible refine kept_ite ?_ ?_)
    | with_reducible apply Dev.snoopReply_kept
    | with_reducible apply Dev.settle_kept
    | with_reducible apply Dev.mirrorTags_kept
    | (refine Dev.mirrorStore_kept (by assumption) ?_)
    | (with_reducible refine kept_getD (fun t e => Dev.mirrorStore_kept e ?_) ?_)
    | with_reducible apply Dev.send_kept
    | (fail_if_no_progress with_reducible refine Kept.upd ?_ (by rfl) (by rfl) (by rfl))
    | split

theorem Dev.compAck_kept {z : Dev} (s : Dev) (src : Agent) (txid : BitVec 12)  (hz : Kept z s) : Kept z (Dev.compAck s src txid) := by
  unfold Dev.compAck
  try dsimp only
  repeat' first
    | with_reducible assumption
    | (with_reducible refine kept_ite ?_ ?_)
    | with_reducible apply Dev.dropTxn_kept
    | with_reducible apply Dev.settle_kept
    | with_reducible apply Dev.updTxn_kept
    | (fail_if_no_progress with_reducible refine Kept.upd ?_ (by rfl) (by rfl) (by rfl))
    | split

theorem Dev.deliver_kept {z : Dev} (s : Dev) (r : DramRead) (i : Nat) (v : Option Sub)  (hz : Kept z s) : Kept z (Dev.deliver s r i v) := by
  unfold Dev.deliver
  try dsimp only
  repeat' first
    | with_reducible assumption
    | with_reducible apply Dev.fillArrive_kept
    | with_reducible apply Dev.rmwRead_kept
    | with_reducible apply Dev.wbOld_kept
    | with_reducible apply Dev.parityOld_kept
    | with_reducible apply Dev.reconAnswer_kept
    | (fail_if_no_progress with_reducible refine Kept.upd ?_ (by rfl) (by rfl) (by rfl))
    | split

theorem Dev.facetCopy_kept {z : Dev} (s : Dev) (grp d : Nat)  (hz : Kept z s) : Kept z (Dev.facetCopy s grp d).1 := by
  unfold Dev.facetCopy
  try dsimp only
  repeat' first
    | with_reducible assumption
    | (with_reducible refine kept_ite ?_ ?_)
    | (with_reducible refine kept_ite_fst ?_ ?_)
    | (with_reducible refine kept_ite_snd ?_ ?_)
    | with_reducible apply Dev.readTags_kept
    | with_reducible apply Dev.readCheck_kept

theorem Dev.readFailed_kept {z : Dev} (s : Dev) (r : DramRead) (i : Nat) (addr : Bool)  (hz : Kept z s) : Kept z (Dev.readFailed s r i addr) := by
  unfold Dev.readFailed
  try dsimp only
  repeat' first
    | with_reducible assumption
    | (with_reducible refine kept_ite ?_ ?_)
    | with_reducible apply Dev.failedRead_kept
    | with_reducible apply Dev.reconAnswer_kept
    | with_reducible apply Dev.parityLost_kept
    | with_reducible apply Dev.startRecon_kept
    | with_reducible apply Dev.poisonWrite_kept
    | with_reducible apply Dev.rmwRead_kept
    | with_reducible apply Dev.fillArrive_kept
    | with_reducible apply Dev.parityRepair_kept
    | with_reducible apply Dev.facetCopy_kept
    | with_reducible apply Dev.issueWrite_kept
    | (fail_if_no_progress with_reducible refine Kept.upd ?_ (by rfl) (by rfl) (by rfl))
    | split

theorem Dev.readSub_kept {z : Dev} (s : Dev) (r : DramRead) (i : Nat) (errs : List SymErr)  (hz : Kept z s) : Kept z (Dev.readSub s r i errs) := by
  unfold Dev.readSub
  try dsimp only
  repeat' first
    | with_reducible assumption
    | (with_reducible refine kept_ite ?_ ?_)
    | with_reducible apply Dev.readFailed_kept
    | with_reducible apply Dev.retry_kept
    | with_reducible apply Dev.corrected_kept
    | with_reducible apply Dev.stkErr_kept
    | with_reducible apply Dev.deliver_kept
    | with_reducible apply Dev.issueWrite_kept
    | with_reducible apply Dev.put_kept
    | (fail_if_no_progress with_reducible refine Kept.upd ?_ (by rfl) (by rfl) (by rfl))
    | split

theorem Dev.dramReadDone_kept {z : Dev} (s : Dev) (id : Nat) (errs : List (List SymErr))  (hz : Kept z s) : Kept z (Dev.dramReadDone s id errs) := by
  unfold Dev.dramReadDone
  try dsimp only
  repeat' first
    | with_reducible assumption
    | (with_reducible refine kept_each (fun s x hz => ?_) ?_)
    | with_reducible apply Dev.each_kept
    | with_reducible apply Dev.readSub_kept
    | with_reducible apply Dev.settle_kept
    | (fail_if_no_progress with_reducible refine Kept.upd ?_ (by rfl) (by rfl) (by rfl))
    | split

theorem Dev.dramWriteDone_kept {z : Dev} (s : Dev) (id : Nat)  (hz : Kept z s) : Kept z (Dev.dramWriteDone s id) := by
  unfold Dev.dramWriteDone
  try dsimp only
  repeat' first
    | with_reducible assumption
    | (with_reducible refine kept_ite ?_ ?_)
    | with_reducible apply Dev.commitWrite_kept
    | with_reducible apply Dev.wbWritten_kept
    | with_reducible apply Dev.parityDone_kept
    | with_reducible apply Dev.settle_kept
    | (fail_if_no_progress with_reducible refine Kept.upd ?_ (by rfl) (by rfl) (by rfl))
    | split

theorem Dev.parkedResume_kept {z : Dev} (s : Dev) (f : Nat)  (hz : Kept z s) : Kept z (Dev.parkedResume s f) := by
  unfold Dev.parkedResume
  try dsimp only
  repeat' first
    | with_reducible assumption
    | (with_reducible refine kept_each (fun s x hz => ?_) ?_)
    | with_reducible apply Dev.each_kept
    | with_reducible apply Dev.advance_kept
    | with_reducible apply Dev.recallFor_kept
    | with_reducible apply Dev.retry_kept
    | with_reducible apply Dev.settle_kept
    | with_reducible apply Dev.anyPart_kept
    | with_reducible apply Dev.unpark_kept
    | (fail_if_no_progress with_reducible refine Kept.upd ?_ (by rfl) (by rfl) (by rfl))
    | split

theorem Dev.ticketLapse_kept {z : Dev} (s : Dev) (f : Nat) (tk : BitVec 16)  (hz : Kept z s) : Kept z (Dev.ticketLapse s f tk) := by
  unfold Dev.ticketLapse
  try dsimp only
  repeat' first
    | with_reducible assumption
    | (with_reducible refine kept_ite ?_ ?_)
    | with_reducible apply Dev.dropTicket_kept
    | with_reducible apply Dev.bump_kept
    | with_reducible apply Dev.retry_kept
    | (fail_if_no_progress with_reducible refine Kept.upd ?_ (by rfl) (by rfl) (by rfl))
    | split

theorem Dev.heldReenter_kept {z : Dev} (s : Dev) (f d : Nat)  (hz : Kept z s) : Kept z (Dev.heldReenter s f d) := by
  unfold Dev.heldReenter
  try dsimp only
  repeat' first
    | with_reducible assumption
    | with_reducible apply Dev.serveWaiter_kept
    | with_reducible apply Dev.freePlr_kept
    | with_reducible apply Dev.settle_kept
    | (fail_if_no_progress with_reducible refine Kept.upd ?_ (by rfl) (by rfl) (by rfl))
    | split

theorem Dev.tagScrubRun_kept {z : Dev} (s : Dev) (f : Nat) (ups : List (BitVec 4 × BitVec 48 × BitVec 48))  (hz : Kept z s) : Kept z (Dev.tagScrubRun s f ups) := by
  unfold Dev.tagScrubRun
  try dsimp only
  repeat' first
    | with_reducible assumption
    | (with_reducible refine kept_ite ?_ ?_)
    | with_reducible apply Dev.inject_kept
    | with_reducible apply Dev.readTags_kept
    | (fail_if_no_progress with_reducible refine Kept.upd ?_ (by rfl) (by rfl) (by rfl))

theorem Dev.dirScrubRun_kept {z : Dev} (s : Dev) (f : Nat) (ups : List (BitVec 4 × BitVec 50 × BitVec 50))  (hz : Kept z s) : Kept z (Dev.dirScrubRun s f ups) := by
  unfold Dev.dirScrubRun
  try dsimp only
  repeat' first
    | with_reducible assumption
    | (with_reducible refine kept_ite ?_ ?_)
    | with_reducible apply Dev.inject_kept
    | with_reducible apply Dev.readDirs_kept
    | (fail_if_no_progress with_reducible refine Kept.upd ?_ (by rfl) (by rfl) (by rfl))

theorem Dev.dirFreed_kept {z : Dev} (s : Dev) (f set : Nat)  (hz : Kept z s) : Kept z (Dev.dirFreed s f set) := by
  unfold Dev.dirFreed
  try dsimp only
  repeat' first
    | with_reducible assumption
    | with_reducible apply Dev.retry_kept
    | with_reducible apply Dev.anyPart_kept
    | (fail_if_no_progress with_reducible refine Kept.upd ?_ (by rfl) (by rfl) (by rfl))
    | split

theorem Dev.recallDone_kept {z : Dev} (s : Dev) (txn : Nat)  (hz : Kept z s) : Kept z (Dev.recallDone s txn) := by
  unfold Dev.recallDone
  try dsimp only
  repeat' first
    | with_reducible assumption
    | (with_reducible refine kept_ite ?_ ?_)
    | with_reducible apply Dev.setHome_kept
    | with_reducible apply Dev.dropTxn_kept
    | with_reducible apply Dev.dirFreed_kept
    | with_reducible apply Dev.settle_kept
    | (fail_if_no_progress with_reducible refine Kept.upd ?_ (by rfl) (by rfl) (by rfl))
    | split

theorem Dev.maintSw_kept {z : Dev} (s00 : Dev) (f op set way : Nat)  (hz : Kept z s00) : Kept z (Dev.maintSw s00 f op set way) := by
  unfold Dev.maintSw
  try dsimp only
  repeat' first
    | with_reducible assumption
    | (with_reducible refine kept_ite ?_ ?_)
    | with_reducible apply Dev.raise_kept
    | with_reducible apply Dev.readTags_kept
    | with_reducible apply Dev.put_kept
    | with_reducible apply Dev.maintRun_kept
    | with_reducible apply Dev.settle_kept
    | (fail_if_no_progress with_reducible refine Kept.upd ?_ (by rfl) (by rfl) (by rfl))

theorem Dev.mirrorPutIn_kept {z : Dev} (s : Dev) (sender : Pos) (txid : BitVec 12) (sector : Nat) (subs : BitVec 4) (grp : Nat)
    (data : List Sub) (record : Option AtomicRecord) (pulled : Bool) (hz : Kept z s) :
    Kept z (Dev.mirrorPutIn s sender txid sector subs grp data record pulled) := by
  have h0 := Dev.mirrorTags_kept s grp sector hz
  unfold Dev.mirrorPutIn
  dsimp only
  split
  · exact h0
  · rename_i s1 h
    have h1 : Kept z s1 := by
      split at h
      · cases h
      · exact Dev.mirrorStore_kept h h0
    exact Dev.send_kept _ _ (kept_ite h1 (Dev.send_kept _ _ h1))

theorem Dev.mirrorReleaseIn_kept {z : Dev} (s : Dev) (grp sector : Nat) (subs : BitVec 4)  (hz : Kept z s) : Kept z (Dev.mirrorReleaseIn s grp sector subs) := by
  unfold Dev.mirrorReleaseIn
  try dsimp only
  repeat' first
    | with_reducible assumption
    | (with_reducible refine kept_ite ?_ ?_)
    | with_reducible apply Dev.mirrorTags_kept
    | with_reducible apply Dev.mirrorFree_kept

theorem Dev.reconRead_kept {z : Dev} (s : Dev) (sender : Pos) (txid : BitVec 12) (d : Nat) (urgent : Bool)  (hz : Kept z s) : Kept z (Dev.reconRead s sender txid d urgent) := by
  unfold Dev.reconRead
  try dsimp only
  repeat' first
    | with_reducible assumption
    | (with_reducible refine kept_ite ?_ ?_)
    | with_reducible apply Dev.issueRead_kept

theorem Dev.readDataIn_kept {z : Dev} (s : Dev) (a : ReconAnswer)  (hz : Kept z s) : Kept z (Dev.readDataIn s a) := by
  unfold Dev.readDataIn
  try dsimp only
  repeat' first
    | with_reducible assumption
    | (with_reducible refine kept_ite ?_ ?_)
    | with_reducible apply Dev.typedSlot_kept
    | with_reducible apply Dev.settle_kept
    | with_reducible apply Dev.typedData_kept
    | (fail_if_no_progress with_reducible refine Kept.upd ?_ (by rfl) (by rfl) (by rfl))
    | split

theorem Dev.compIn_kept {z : Dev} (s : Dev) (sender : Nat) (txid : Nat) (code : Code)  (hz : Kept z s) : Kept z (Dev.compIn s sender txid code) := by
  unfold Dev.compIn
  try dsimp only
  repeat' first
    | with_reducible assumption
    | (with_reducible refine kept_ite ?_ ?_)
    | with_reducible apply Dev.releaseMirror_kept
    | with_reducible apply Dev.advance_kept
    | with_reducible apply Dev.settle_kept
    | with_reducible apply Dev.deltaComp_kept
    | with_reducible apply Dev.typedSlot_kept
    | with_reducible apply Dev.typedStored_kept
    | (fail_if_no_progress with_reducible refine Kept.upd ?_ (by rfl) (by rfl) (by rfl))
    | split

theorem Dev.pullIn_kept {z : Dev} (s : Dev) (sender txid : Nat)  (hz : Kept z s) : Kept z (Dev.pullIn s sender txid) := by
  unfold Dev.pullIn
  try dsimp only
  repeat' first
    | with_reducible assumption
    | (with_reducible refine kept_ite ?_ ?_)
    | with_reducible apply Dev.send_kept
    | (fail_if_no_progress with_reducible refine Kept.upd ?_ (by rfl) (by rfl) (by rfl))
    | split

theorem Dev.copyDone_kept {z : Dev} (s : Dev) (bad : List (BitVec 7))  (hz : Kept z s) : Kept z (Dev.copyDone s bad) := by
  unfold Dev.copyDone
  try dsimp only
  repeat' first
    | with_reducible assumption
    | (with_reducible refine kept_ite ?_ ?_)
    | (with_reducible refine kept_each (fun s x hz => ?_) ?_)
    | with_reducible apply Dev.each_kept
    | with_reducible apply Dev.failedRead_kept
    | with_reducible apply Dev.startRecon_kept
    | with_reducible apply Dev.poisonWrite_kept
    | with_reducible apply Dev.bump_kept
    | with_reducible apply Dev.stkErr_kept
    | with_reducible apply Dev.setRowEntry_kept
    | (fail_if_no_progress with_reducible refine Kept.upd ?_ (by rfl) (by rfl) (by rfl))
    | split

theorem Dev.ctlAll_kept {z : Dev} (s : Dev) (m : Ctl)  (hz : Kept z s) : Kept z (Dev.ctlAll s m) := by
  unfold Dev.ctlAll
  try dsimp only
  repeat' first
    | with_reducible assumption
    | (with_reducible refine kept_each (fun s x hz => ?_) ?_)
    | with_reducible apply Dev.each_kept
    | with_reducible apply Dev.send_kept

theorem Dev.ctlOthers_kept {z : Dev} (s : Dev) (m : Ctl)  (hz : Kept z s) : Kept z (Dev.ctlOthers s m) := by
  unfold Dev.ctlOthers
  try dsimp only
  repeat' first
    | with_reducible assumption
    | (with_reducible refine kept_each (fun s x hz => ?_) ?_)
    | with_reducible apply Dev.each_kept
    | with_reducible apply Dev.send_kept

theorem Dev.suspect_kept {z : Dev} (s : Dev) (agent : Agent) (cause : BitVec 2) (start : Nat)  (hz : Kept z s) : Kept z (Dev.suspect s agent cause start) := by
  unfold Dev.suspect
  try dsimp only
  repeat' first
    | with_reducible assumption
    | (with_reducible refine kept_ite ?_ ?_)
    | with_reducible apply Dev.send_kept
    | (fail_if_no_progress with_reducible refine Kept.upd ?_ (by rfl) (by rfl) (by rfl))

theorem Dev.snoopTimeout_kept {z : Dev} (s : Dev) (txn : Nat) (agent : Agent)  (hz : Kept z s) : Kept z (Dev.snoopTimeout s txn agent) := by
  unfold Dev.snoopTimeout
  try dsimp only
  repeat' first
    | with_reducible assumption
    | (with_reducible refine kept_ite ?_ ?_)
    | with_reducible apply Dev.suspect_kept
    | with_reducible apply Dev.updTxn_kept
    | (fail_if_no_progress with_reducible refine Kept.upd ?_ (by rfl) (by rfl) (by rfl))
    | split

theorem Dev.portDeaths_kept {z : Dev} (s : Dev)  (hz : Kept z s) : Kept z (Dev.portDeaths s) := by
  unfold Dev.portDeaths
  try dsimp only
  repeat' first
    | with_reducible assumption
    | (with_reducible refine kept_each (fun s x hz => ?_) ?_)
    | with_reducible apply Dev.each_kept
    | with_reducible apply Dev.ctlAll_kept
    | (fail_if_no_progress with_reducible refine Kept.upd ?_ (by rfl) (by rfl) (by rfl))

theorem Dev.agentSuspectIn_kept {z : Dev} (s : Dev) (sender : Nat) (agent : Agent) (cause : BitVec 2)  (hz : Kept z s) : Kept z (Dev.agentSuspectIn s sender agent cause) := by
  unfold Dev.agentSuspectIn
  try dsimp only
  repeat' first
    | with_reducible assumption
    | (with_reducible refine kept_ite ?_ ?_)
    | with_reducible apply Dev.ctlAll_kept
    | with_reducible apply Dev.portDeaths_kept
    | (fail_if_no_progress with_reducible refine Kept.upd ?_ (by rfl) (by rfl) (by rfl))

theorem Dev.forgetPorts_kept {z : Dev} (s : Dev) (agent : Agent)  (hz : Kept z s) : Kept z (Dev.forgetPorts s agent) := by
  unfold Dev.forgetPorts
  try dsimp only
  repeat' first
    | with_reducible assumption
    | (with_reducible refine kept_each (fun s x hz => ?_) ?_)
    | with_reducible apply Dev.each_kept
    | with_reducible apply Dev.urgentDone_kept
    | (fail_if_no_progress with_reducible refine Kept.upd ?_ (by rfl) (by rfl) (by rfl))

theorem Dev.agentDeadIn_kept {z : Dev} (s : Dev) (agent : Agent) (cause : BitVec 2)  (hz : Kept z s) : Kept z (Dev.agentDeadIn s agent cause) := by
  unfold Dev.agentDeadIn
  try dsimp only
  repeat' first
    | with_reducible assumption
    | (with_reducible refine kept_ite ?_ ?_)
    | (with_reducible refine kept_each (fun s x hz => ?_) ?_)
    | with_reducible apply Dev.put_kept
    | with_reducible apply Dev.each_kept
    | with_reducible apply Dev.answer_kept
    | with_reducible apply Dev.flush_kept
    | with_reducible apply Dev.forgetPorts_kept
    | with_reducible apply Dev.send_kept
    | (fail_if_no_progress with_reducible refine Kept.upd ?_ (by rfl) (by rfl) (by rfl))
    | split

theorem Dev.fencedIn_kept {z : Dev} (s : Dev) (sender : Nat) (agent : Agent)  (hz : Kept z s) : Kept z (Dev.fencedIn s sender agent) := by
  unfold Dev.fencedIn
  try dsimp only
  repeat' first
    | with_reducible assumption
    | (with_reducible refine kept_ite ?_ ?_)
    | with_reducible apply Dev.ctlAll_kept
    | (fail_if_no_progress with_reducible refine Kept.upd ?_ (by rfl) (by rfl) (by rfl))

theorem Dev.keepReply_kept {z : Dev} (s : Dev) (t : Txn) (agent : Agent) (data : Sub)  (hz : Kept z s) : Kept z (Dev.keepReply s t agent data) := by
  unfold Dev.keepReply
  try dsimp only
  repeat' first
    | with_reducible assumption
    | (with_reducible refine kept_ite ?_ ?_)
    | with_reducible apply Dev.updTxn_kept
    | with_reducible apply Dev.setHome_kept
    | (refine Dev.placeDirty_kept (by assumption) ?_)
    | with_reducible apply Dev.afterDirty_kept
    | (fail_if_no_progress with_reducible refine Kept.upd ?_ (by rfl) (by rfl) (by rfl))
    | split

theorem Dev.deadTxn_kept {z : Dev} (s : Dev) (id : Nat) (agent : Agent)  (hz : Kept z s) : Kept z (Dev.deadTxn s id agent) := by
  unfold Dev.deadTxn
  try dsimp only
  repeat' first
    | with_reducible assumption
    | (with_reducible refine kept_ite ?_ ?_)
    | with_reducible apply Dev.dropTxn_kept
    | with_reducible apply Dev.updTxn_kept
    | with_reducible apply Dev.deadOwner_kept
    | with_reducible apply Dev.advance_kept
    | with_reducible apply Dev.keepReply_kept
    | (fail_if_no_progress with_reducible refine Kept.upd ?_ (by rfl) (by rfl) (by rfl))
    | split

theorem Dev.deadEntry_kept {z : Dev} (s : Dev) (e : DirEntry) (agent : Agent)  (hz : Kept z s) : Kept z (Dev.deadEntry s e agent) := by
  unfold Dev.deadEntry
  try dsimp only
  repeat' first
    | with_reducible assumption
    | (with_reducible refine kept_ite ?_ ?_)
    | with_reducible apply Dev.updTxn_kept
    | with_reducible apply Dev.poisonOwner_kept
    | with_reducible apply Dev.txnOwed_kept
    | (fail_if_no_progress with_reducible refine Kept.upd ?_ (by rfl) (by rfl) (by rfl))
    | split

theorem Dev.walkEntry_kept {z : Dev} (s : Dev) (e : DirEntry) (agent : Agent)  (hz : Kept z s) : Kept z (Dev.walkEntry s e agent) := by
  unfold Dev.walkEntry
  try dsimp only
  repeat' first
    | with_reducible assumption
    | (with_reducible refine kept_ite ?_ ?_)
    | with_reducible apply Dev.setHome_kept
    | with_reducible apply Dev.deadEntry_kept
    | (fail_if_no_progress with_reducible refine Kept.upd ?_ (by rfl) (by rfl) (by rfl))
    | split

theorem Dev.walkReads_kept {z : Dev} (s : Dev)  (hz : Kept z s) : Kept z (Dev.walkReads s) := by
  unfold Dev.walkReads
  try dsimp only
  repeat' first
    | with_reducible assumption
    | (with_reducible refine kept_ite ?_ ?_)
    | (with_reducible refine kept_each (fun s x hz => ?_) ?_)
    | with_reducible apply Dev.each_kept
    | with_reducible apply Dev.checkDirAt_kept

theorem Dev.reclaimIn_kept {z : Dev} (s0 : Dev) (agent : Agent)  (hz : Kept z s0) : Kept z (Dev.reclaimIn s0 agent) := by
  unfold Dev.reclaimIn
  try dsimp only
  repeat' first
    | with_reducible assumption
    | (with_reducible refine kept_ite ?_ ?_)
    | (with_reducible refine kept_each (fun s x hz => ?_) ?_)
    | with_reducible apply Dev.walkReads_kept
    | with_reducible apply Dev.each_kept
    | with_reducible apply Dev.deadTxn_kept
    | with_reducible apply Dev.walkEntry_kept
    | with_reducible apply Dev.settle_kept
    | (fail_if_no_progress with_reducible refine Kept.upd ?_ (by rfl) (by rfl) (by rfl))

theorem Dev.deathEnd_kept {z : Dev} (s : Dev) (agent : Agent)  (hz : Kept z s) : Kept z (Dev.deathEnd s agent) := by
  unfold Dev.deathEnd
  try dsimp only
  repeat' first
    | with_reducible assumption
    | (with_reducible refine kept_ite ?_ ?_)
    | with_reducible apply Dev.deathsRun_kept
    | (fail_if_no_progress with_reducible refine Kept.upd ?_ (by rfl) (by rfl) (by rfl))

theorem Dev.ctlSet_kept {z : Dev} (s : Dev) (m : Ctl)  (hz : Kept z s) : Kept z (Dev.ctlSet s m) := by
  unfold Dev.ctlSet
  try dsimp only
  repeat' first
    | with_reducible assumption
    | (with_reducible refine kept_each (fun s x hz => ?_) ?_)
    | with_reducible apply Dev.each_kept
    | with_reducible apply Dev.send_kept

theorem Dev.normalRoutes_kept {z : Dev} (s : Dev)  (hz : Kept z s) : Kept z (Dev.normalRoutes s) := by
  unfold Dev.normalRoutes
  try dsimp only
  repeat' first
    | with_reducible assumption
    | with_reducible apply Dev.put_kept

theorem Dev.loseBuddy_kept {z : Dev} (s : Dev)  (hz : Kept z s) : Kept z (Dev.loseBuddy s) := by
  unfold Dev.loseBuddy
  try dsimp only
  repeat' first
    | with_reducible assumption
    | (with_reducible refine kept_ite ?_ ?_)
    | (with_reducible refine kept_each (fun s x hz => ?_) ?_)
    | with_reducible apply Dev.put_kept
    | with_reducible apply Dev.each_kept
    | with_reducible apply Dev.writeBackSub_kept
    | (fail_if_no_progress with_reducible refine Kept.upd ?_ (by rfl) (by rfl) (by rfl))

theorem Dev.forgetSlice_kept {z : Dev} (s : Dev) (x : Nat)  (hz : Kept z s) : Kept z (Dev.forgetSlice s x) := by
  unfold Dev.forgetSlice
  try dsimp only
  repeat' first
    | with_reducible assumption
    | (with_reducible refine kept_ite ?_ ?_)
    | (with_reducible refine kept_each (fun s x hz => ?_) ?_)
    | with_reducible apply Dev.each_kept
    | with_reducible apply Dev.wbEnd_kept
    | (fail_if_no_progress with_reducible refine Kept.upd ?_ (by rfl) (by rfl) (by rfl))
    | split

theorem Dev.loseSlice_kept {z : Dev} (s : Dev) (x : Nat)  (hz : Kept z s) : Kept z (Dev.loseSlice s x) := by
  unfold Dev.loseSlice
  try dsimp only
  repeat' first
    | with_reducible assumption
    | (with_reducible refine kept_ite ?_ ?_)
    | with_reducible apply Dev.put_kept
    | with_reducible apply Dev.raise_kept
    | with_reducible apply Dev.alert_kept
    | with_reducible apply Dev.errorRecord_kept
    | with_reducible apply Dev.loseBuddy_kept
    | with_reducible apply Dev.forgetSlice_kept
    | with_reducible apply Dev.settle_kept

theorem Dev.holdLost_kept {z : Dev} (s : Dev) (x : Nat)  (hz : Kept z s) : Kept z (Dev.holdLost s x) := by
  unfold Dev.holdLost
  try dsimp only
  repeat' first
    | with_reducible assumption
    | (with_reducible refine kept_ite ?_ ?_)
    | with_reducible apply Dev.loseSlice_kept
    | with_reducible apply Dev.ctlAll_kept
    | with_reducible apply Dev.portDeaths_kept

theorem Dev.updPort_kept {z : Dev} (s : Dev) (p : Nat) (g : Port → Port)  (hz : Kept z s) : Kept z (Dev.updPort s p g) := by
  unfold Dev.updPort
  try dsimp only
  repeat' first
    | with_reducible assumption
    | (fail_if_no_progress with_reducible refine Kept.upd ?_ (by rfl) (by rfl) (by rfl))

theorem Dev.barPorts_kept {z : Dev} (s : Dev) (x : Nat)  (hz : Kept z s) : Kept z (Dev.barPorts s x) := by
  unfold Dev.barPorts
  try dsimp only
  repeat' first
    | with_reducible assumption
    | with_reducible apply Dev.updPort_kept
    | with_reducible apply Dev.put_kept
    | (fail_if_no_progress with_reducible refine Kept.upd ?_ (by rfl) (by rfl) (by rfl))
    | split

theorem Dev.answerAll_kept {z : Dev} (s : Dev) (op : Op) (r : Request) (c : Code) (ticket : BitVec 16)  (hz : Kept z s) : Kept z (Dev.answerAll s op r c ticket) := by
  unfold Dev.answerAll
  try dsimp only
  repeat' first
    | with_reducible assumption
    | (with_reducible refine kept_ite ?_ ?_)
    | (with_reducible refine kept_each (fun s x hz => ?_) ?_)
    | with_reducible apply Dev.each_kept
    | with_reducible apply Dev.respond_kept
    | with_reducible apply Dev.noteUrgent_kept

theorem Dev.portNak_kept {z : Dev} (s : Dev) (q : PortReq)  (hz : Kept z s) : Kept z (Dev.portNak s q) := by
  unfold Dev.portNak
  try dsimp only
  repeat' first
    | with_reducible assumption
    | (with_reducible refine kept_ite ?_ ?_)
    | with_reducible apply Dev.answerAll_kept
    | with_reducible apply Dev.urgentDone_kept
    | (fail_if_no_progress with_reducible refine Kept.upd ?_ (by rfl) (by rfl) (by rfl))

theorem Dev.homeMovedIn_kept {z : Dev} (s : Dev) (lost newHome : Nat) (boundary : Frame)  (hz : Kept z s) : Kept z (Dev.homeMovedIn s lost newHome boundary) := by
  unfold Dev.homeMovedIn
  try dsimp only
  repeat' first
    | with_reducible assumption
    | (with_reducible refine kept_ite ?_ ?_)
    | (with_reducible refine kept_each (fun s x hz => ?_) ?_)
    | with_reducible apply Dev.loseSlice_kept
    | with_reducible apply Dev.barPorts_kept
    | with_reducible apply Dev.parityRun_kept
    | with_reducible apply Dev.each_kept
    | with_reducible apply Dev.portNak_kept
    | (fail_if_no_progress with_reducible refine Kept.upd ?_ (by rfl) (by rfl) (by rfl))

theorem Dev.passBack_kept {z : Dev} (s : Dev) (dst txid n : Nat)  (hz : Kept z s) : Kept z (Dev.passBack s dst txid n) := by
  unfold Dev.passBack
  try dsimp only
  repeat' first
    | with_reducible assumption
    | (with_reducible refine kept_ite ?_ ?_)
    | with_reducible apply Dev.urgentDone_kept
    | (fail_if_no_progress with_reducible refine Kept.upd ?_ (by rfl) (by rfl) (by rfl))
    | split

theorem Dev.walkEnded_kept {z : Dev} (s : Dev) (lost : Nat)  (hz : Kept z s) : Kept z (Dev.walkEnded s lost) := by
  unfold Dev.walkEnded
  try dsimp only
  repeat' first
    | with_reducible assumption
    | (with_reducible refine kept_ite ?_ ?_)
    | (with_reducible refine kept_each (fun s x hz => ?_) ?_)
    | with_reducible apply Dev.put_kept
    | with_reducible apply Dev.each_kept
    | with_reducible apply Dev.send_kept
    | with_reducible apply Dev.retry_kept
    | (fail_if_no_progress with_reducible refine Kept.upd ?_ (by rfl) (by rfl) (by rfl))
    | split

theorem Dev.homeMoved_kept {z : Dev} (s : Dev) (lost newHome : Nat) (notice : Bool) (boundary : Frame)  (hz : Kept z s) : Kept z (Dev.homeMoved s lost newHome notice boundary) := by
  unfold Dev.homeMoved
  try dsimp only
  repeat' first
    | with_reducible assumption
    | (with_reducible refine kept_ite ?_ ?_)
    | with_reducible apply Dev.homeMovedIn_kept
    | with_reducible apply Dev.walkEnded_kept

theorem Dev.walkEnd_kept {z : Dev} (s : Dev)  (hz : Kept z s) : Kept z (Dev.walkEnd s) := by
  unfold Dev.walkEnd
  try dsimp only
  repeat' first
    | with_reducible assumption
    | (with_reducible refine kept_ite ?_ ?_)
    | with_reducible apply Dev.ctlOthers_kept
    | with_reducible apply Dev.homeMoved_kept
    | with_reducible apply Dev.walkEnded_kept
    | (fail_if_no_progress with_reducible refine Kept.upd ?_ (by rfl) (by rfl) (by rfl))

theorem Dev.rebuildRun_kept {z : Dev} (c x t pc n : Nat) (s : Dev) (hz : Kept z s) : Kept z (Dev.rebuildRun c x t pc n s) := by
  induction n generalizing s with
  | zero => exact hz
  | succ n ih =>
    unfold Dev.rebuildRun
    refine kept_ite hz (kept_ite (Kept.upd hz rfl rfl rfl) (ih _ (Dev.startRecon_kept _ _ _ _ _ _ ?_)))
    exact Kept.upd hz rfl rfl rfl

theorem Dev.rebuildSlot_kept {z : Dev} (s : Dev)  (hz : Kept z s) : Kept z (Dev.rebuildSlot s) := by
  unfold Dev.rebuildSlot
  try dsimp only
  repeat' first
    | with_reducible assumption
    | (with_reducible refine kept_each (fun s x hz => ?_) ?_)
    | with_reducible apply Dev.put_kept
    | with_reducible apply Dev.each_kept
    | with_reducible apply Dev.rebuildRun_kept
    | (fail_if_no_progress with_reducible refine Kept.upd ?_ (by rfl) (by rfl) (by rfl))
    | split

theorem Dev.rebuildDone_kept {z : Dev} (s : Dev) (chunk : Nat) (c0 c1 : Pos × BitVec 17)  (hz : Kept z s) : Kept z (Dev.rebuildDone s chunk c0 c1) := by
  unfold Dev.rebuildDone
  try dsimp only
  repeat' first
    | with_reducible assumption
    | (with_reducible refine kept_ite ?_ ?_)
    | with_reducible apply Dev.put_kept
    | with_reducible apply Dev.raise_kept
    | (fail_if_no_progress with_reducible refine Kept.upd ?_ (by rfl) (by rfl) (by rfl))

theorem Dev.setMode_kept {z : Dev} (s : Dev) (m : Nat)  (hz : Kept z s) : Kept z (Dev.setMode s m) := by
  unfold Dev.setMode
  try dsimp only
  repeat' first
    | with_reducible assumption
    | (with_reducible refine kept_ite ?_ ?_)
    | with_reducible apply Dev.put_kept
    | with_reducible apply Dev.alert_kept

theorem Dev.reroute_kept {z : Dev} (s : Dev) (lost : Nat) (comp : List Nat)  (hz : Kept z s) : Kept z (Dev.reroute s lost comp) := by
  unfold Dev.reroute
  try dsimp only
  repeat' first
    | with_reducible assumption
    | (with_reducible refine kept_ite ?_ ?_)
    | with_reducible apply Dev.put_kept
    | with_reducible apply Dev.setMode_kept
    | (fail_if_no_progress with_reducible refine Kept.upd ?_ (by rfl) (by rfl) (by rfl))
    | split

theorem Dev.mergeLinks_kept {z : Dev} (s : Dev) (bits : Nat)  (hz : Kept z s) : Kept z (Dev.mergeLinks s bits) := by
  unfold Dev.mergeLinks
  try dsimp only
  repeat' first
    | with_reducible assumption
    | (with_reducible refine kept_ite ?_ ?_)
    | (with_reducible refine kept_each (fun s x hz => ?_) ?_)
    | with_reducible apply Dev.put_kept
    | with_reducible apply Dev.setMode_kept
    | with_reducible apply Dev.enterEclipse_kept
    | with_reducible apply Dev.reroute_kept
    | with_reducible apply Dev.each_kept
    | with_reducible apply Dev.holdLost_kept
    | (fail_if_no_progress with_reducible refine Kept.upd ?_ (by rfl) (by rfl) (by rfl))
    | split

theorem Dev.linkBeat_kept {z : Dev} (s : Dev) (but : Option Nat) (ackLink : Nat) (ackSeq : BitVec 12)  (hz : Kept z s) : Kept z (Dev.linkBeat s but ackLink ackSeq) := by
  unfold Dev.linkBeat
  try dsimp only
  repeat' first
    | with_reducible assumption
    | (with_reducible refine kept_ite ?_ ?_)
    | (with_reducible refine kept_each (fun s x hz => ?_) ?_)
    | with_reducible apply Dev.each_kept
    | with_reducible apply Dev.send_kept
    | (fail_if_no_progress with_reducible refine Kept.upd ?_ (by rfl) (by rfl) (by rfl))
    | split

theorem Dev.linkLost_kept {z : Dev} (s : Dev) (port : Nat)  (hz : Kept z s) : Kept z (Dev.linkLost s port) := by
  unfold Dev.linkLost
  try dsimp only
  repeat' first
    | with_reducible assumption
    | (with_reducible refine kept_ite ?_ ?_)
    | with_reducible apply Dev.put_kept
    | with_reducible apply Dev.mergeLinks_kept
    | with_reducible apply Dev.linkBeat_kept
    | with_reducible apply Dev.resendLines_kept

theorem Dev.beatLinks_kept {z : Dev} (s : Dev) (sender bits ackLink : Nat) (ackSeq : BitVec 12)  (hz : Kept z s) : Kept z (Dev.beatLinks s sender bits ackLink ackSeq) := by
  unfold Dev.beatLinks
  try dsimp only
  repeat' first
    | with_reducible assumption
    | (with_reducible refine kept_ite ?_ ?_)
    | with_reducible apply Dev.mergeLinks_kept
    | with_reducible apply Dev.linkBeat_kept
    | with_reducible apply Dev.send_kept
    | (fail_if_no_progress with_reducible refine Kept.upd ?_ (by rfl) (by rfl) (by rfl))
    | split

theorem Dev.updTx_kept {z : Dev} (s : Dev) (p : Nat) (g : Tx → Tx)  (hz : Kept z s) : Kept z (Dev.updTx s p g) := by
  unfold Dev.updTx
  try dsimp only
  repeat' first
    | with_reducible assumption
    | (fail_if_no_progress with_reducible refine Kept.upd ?_ (by rfl) (by rfl) (by rfl))

theorem Dev.showModules_kept {z : Dev} (s : Dev) (p : Nat)  (hz : Kept z s) : Kept z (Dev.showModules s p) := by
  unfold Dev.showModules
  try dsimp only
  repeat' first
    | with_reducible assumption
    | with_reducible apply Dev.put_kept

theorem Dev.portLoss_kept {z : Dev} (s : Dev) (p cause : Nat)  (hz : Kept z s) : Kept z (Dev.portLoss s p cause) := by
  unfold Dev.portLoss
  try dsimp only
  repeat' first
    | with_reducible assumption
    | (with_reducible refine kept_ite ?_ ?_)
    | (with_reducible refine kept_each (fun s x hz => ?_) ?_)
    | with_reducible apply Dev.updPort_kept
    | with_reducible apply Dev.showModules_kept
    | with_reducible apply Dev.put_kept
    | with_reducible apply Dev.raise_kept
    | with_reducible apply Dev.raiseIf_kept
    | with_reducible apply Dev.alert_kept
    | with_reducible apply Dev.setReg_kept
    | with_reducible apply Dev.errorRecord_kept
    | with_reducible apply Dev.linkLost_kept
    | with_reducible apply Dev.each_kept
    | with_reducible apply Dev.suspect_kept

theorem Dev.portsTrained_kept {z : Dev} (s : Dev)  (hz : Kept z s) : Kept z (Dev.portsTrained s) := by
  unfold Dev.portsTrained
  try dsimp only
  repeat' first
    | with_reducible assumption
    | (with_reducible refine kept_ite ?_ ?_)
    | (fail_if_no_progress with_reducible refine Kept.upd ?_ (by rfl) (by rfl) (by rfl))
    | split

theorem Dev.portTrainedIn_kept {z : Dev} (s : Dev) (p : Nat) (m0 m1 : ModuleTraining) (x0 x1 : FailedLanes)  (hz : Kept z s) : Kept z (Dev.portTrainedIn s p m0 m1 x0 x1) := by
  unfold Dev.portTrainedIn
  try dsimp only
  repeat' first
    | with_reducible assumption
    | (with_reducible refine kept_ite ?_ ?_)
    | (with_reducible refine kept_each (fun s x hz => ?_) ?_)
    | with_reducible apply Dev.updPort_kept
    | with_reducible apply Dev.showModules_kept
    | with_reducible apply Dev.put_kept
    | with_reducible apply Dev.updTx_kept
    | with_reducible apply Dev.setReg_kept
    | with_reducible apply Dev.each_kept
    | with_reducible apply Dev.send_kept
    | with_reducible apply Dev.portsTrained_kept

theorem Dev.laneFail_kept {z : Dev} (s : Dev) (p m : Nat)  (hz : Kept z s) : Kept z (Dev.laneFail s p m) := by
  unfold Dev.laneFail
  try dsimp only
  repeat' first
    | with_reducible assumption
    | (with_reducible refine kept_ite ?_ ?_)
    | with_reducible apply Dev.portLoss_kept
    | with_reducible apply Dev.updPort_kept
    | with_reducible apply Dev.showModules_kept

theorem Dev.moduleReturn_kept {z : Dev} (s : Dev) (p m repaired : Nat)  (hz : Kept z s) : Kept z (Dev.moduleReturn s p m repaired) := by
  unfold Dev.moduleReturn
  try dsimp only
  repeat' first
    | with_reducible assumption
    | (with_reducible refine kept_ite ?_ ?_)
    | with_reducible apply Dev.updPort_kept
    | with_reducible apply Dev.showModules_kept
    | with_reducible apply Dev.put_kept
    | with_reducible apply Dev.raise_kept
    | with_reducible apply Dev.bump_kept

theorem Dev.latticeLost_kept {z : Dev} (s : Dev) (p : Nat)  (hz : Kept z s) : Kept z (Dev.latticeLost s p) := by
  unfold Dev.latticeLost
  try dsimp only
  repeat' first
    | with_reducible assumption
    | (with_reducible refine kept_ite ?_ ?_)
    | with_reducible apply Dev.mergeLinks_kept
    | with_reducible apply Dev.linkBeat_kept
    | with_reducible apply Dev.resendLines_kept

theorem Dev.moduleFail_kept {z : Dev} (s : Dev) (p m : Nat)  (hz : Kept z s) : Kept z (Dev.moduleFail s p m) := by
  unfold Dev.moduleFail
  try dsimp only
  repeat' first
    | with_reducible assumption
    | (with_reducible refine kept_ite ?_ ?_)
    | with_reducible apply Dev.updPort_kept
    | with_reducible apply Dev.showModules_kept
    | with_reducible apply Dev.raise_kept
    | with_reducible apply Dev.alert_kept
    | with_reducible apply Dev.put_kept
    | with_reducible apply Dev.latticeLost_kept
    | with_reducible apply Dev.portLoss_kept

theorem Dev.badFlit_kept {z : Dev} (s : Dev) (p : Nat)  (hz : Kept z s) : Kept z (Dev.badFlit s p) := by
  unfold Dev.badFlit
  try dsimp only
  repeat' first
    | with_reducible assumption
    | with_reducible apply Dev.bump_kept
    | with_reducible apply Dev.raise_kept
    | with_reducible apply Dev.event_kept

theorem Dev.takeCredits_kept {z : Dev} (s : Dev) (p : Nat) (f : Flit)  (hz : Kept z s) : Kept z (Dev.takeCredits s p f) := by
  unfold Dev.takeCredits
  try dsimp only
  repeat' first
    | with_reducible assumption
    | (with_reducible refine kept_each (fun s x hz => ?_) ?_)
    | with_reducible apply Dev.each_kept
    | with_reducible apply Dev.bump_kept

theorem Dev.flitHeader_kept {z : Dev} (s : Dev) (p : Nat) (f : Flit)  (hz : Kept z s) : Kept z (Dev.flitHeader s p f) := by
  unfold Dev.flitHeader
  try dsimp only
  repeat' first
    | with_reducible assumption
    | (with_reducible refine kept_ite ?_ ?_)
    | with_reducible apply Dev.updPort_kept
    | with_reducible apply Dev.takeCredits_kept
    | with_reducible apply Dev.updTx_kept
    | with_reducible apply Dev.raise_kept
    | with_reducible apply Dev.bump_kept
    | with_reducible apply Dev.send_kept

theorem Dev.badLattice_kept {z : Dev} (s : Dev) (p : Nat) (f : Flit)  (hz : Kept z s) : Kept z (Dev.badLattice s p f) := by
  unfold Dev.badLattice
  try dsimp only
  repeat' first
    | with_reducible assumption
    | (with_reducible refine kept_ite ?_ ?_)
    | with_reducible apply Dev.badFlit_kept
    | with_reducible apply Dev.portLoss_kept
    | with_reducible apply Dev.updPort_kept

theorem Dev.latticeIn_kept {z : Dev} (s : Dev) (p : Nat) (f : Flit)  (hz : Kept z s) : Kept z (Dev.latticeIn s p f) := by
  unfold Dev.latticeIn
  try dsimp only
  repeat' first
    | with_reducible assumption
    | (with_reducible refine kept_ite ?_ ?_)
    | (with_reducible refine kept_each (fun s x hz => ?_) ?_)
    | with_reducible apply Dev.badLattice_kept
    | with_reducible apply Dev.portLoss_kept
    | with_reducible apply Dev.flitHeader_kept
    | with_reducible apply Dev.updPort_kept
    | with_reducible apply Dev.each_kept
    | with_reducible apply Dev.sendLine_kept
    | with_reducible apply Dev.lineIn_kept
    | with_reducible apply Dev.settle_kept

theorem Dev.setDisc_kept {z : Dev} (s : Dev) (hi lo v : Nat)  (hz : Kept z s) : Kept z (Dev.setDisc s hi lo v) := by
  unfold Dev.setDisc
  try dsimp only
  repeat' first
    | with_reducible assumption
    | (fail_if_no_progress with_reducible refine Kept.upd ?_ (by rfl) (by rfl) (by rfl))

theorem Dev.discErr_kept {z : Dev} (s : Dev) (code : Nat)  (hz : Kept z s) : Kept z (Dev.discErr s code) := by
  unfold Dev.discErr
  try dsimp only
  repeat' first
    | with_reducible assumption
    | (with_reducible refine kept_ite ?_ ?_)
    | with_reducible apply Dev.setDisc_kept
    | with_reducible apply Dev.alert_kept

theorem Dev.classPorts_kept {z : Dev} (s : Dev) (ps : List (PartnerRead × Nat))  (hz : Kept z s) : Kept z (Dev.classPorts s ps) := by
  unfold Dev.classPorts
  try dsimp only
  repeat' first
    | with_reducible assumption
    | (with_reducible refine kept_ite ?_ ?_)
    | (with_reducible refine kept_each (fun s x hz => ?_) ?_)
    | with_reducible apply Dev.each_kept
    | with_reducible apply Dev.setReg_kept
    | with_reducible apply Dev.updPort_kept

theorem Dev.discStable_kept {z : Dev} (s : Dev)  (hz : Kept z s) : Kept z (Dev.discStable s) := by
  unfold Dev.discStable
  try dsimp only
  repeat' first
    | with_reducible assumption
    | (with_reducible refine kept_ite ?_ ?_)
    | with_reducible apply Dev.setDisc_kept
    | with_reducible apply Dev.discErr_kept
    | with_reducible apply Dev.normalRoutes_kept
    | (fail_if_no_progress with_reducible refine Kept.upd ?_ (by rfl) (by rfl) (by rfl))

theorem Dev.mergeWords_kept {z : Dev} (s : Dev) (links : List PartnerRead)  (hz : Kept z s) : Kept z (Dev.mergeWords s links) := by
  unfold Dev.mergeWords
  try dsimp only
  repeat' first
    | with_reducible assumption
    | (with_reducible refine kept_ite ?_ ?_)
    | (with_reducible refine kept_foldl (fun s x hz => ?_) ?_)
    | (with_reducible refine kept_foldl_fst (fun s x hz => ?_) ?_)
    | with_reducible apply Dev.discErr_kept
    | with_reducible apply Dev.setDisc_kept
    | with_reducible apply Dev.alert_kept
    | (fail_if_no_progress with_reducible refine Kept.upd ?_ (by rfl) (by rfl) (by rfl))
    | split

theorem Dev.discoveryRound_kept {z : Dev} (s : Dev) (partners : List PartnerRead)  (hz : Kept z s) : Kept z (Dev.discoveryRound s partners) := by
  unfold Dev.discoveryRound
  try dsimp only
  repeat' first
    | with_reducible assumption
    | (with_reducible refine kept_ite ?_ ?_)
    | with_reducible apply Dev.classPorts_kept
    | with_reducible apply Dev.mergeWords_kept
    | with_reducible apply Dev.discStable_kept

theorem Dev.discoveryTimeout_kept {z : Dev} (s : Dev)  (hz : Kept z s) : Kept z (Dev.discoveryTimeout s) := by
  unfold Dev.discoveryTimeout
  try dsimp only
  repeat' first
    | with_reducible assumption
    | (with_reducible refine kept_ite ?_ ?_)
    | with_reducible apply Dev.discErr_kept

theorem Dev.sendGlint_kept {z : Dev} (s : Dev) (p : Nat)  (hz : Kept z s) : Kept z (Dev.sendGlint s p) := by
  unfold Dev.sendGlint
  try dsimp only
  repeat' first
    | with_reducible assumption
    | (with_reducible refine kept_ite ?_ ?_)
    | with_reducible apply Dev.send_kept

theorem Dev.sendGlints_kept {z : Dev} (s : Dev) (ports : Nat)  (hz : Kept z s) : Kept z (Dev.sendGlints s ports) := by
  unfold Dev.sendGlints
  try dsimp only
  repeat' first
    | with_reducible assumption
    | (with_reducible refine kept_each (fun s x hz => ?_) ?_)
    | with_reducible apply Dev.each_kept
    | with_reducible apply Dev.sendGlint_kept

end Sys2Proof.Machine
end

