-- ==== Sys2Proof/Laws/KeptPower.lean ====
section
/-! SUPPORT. What the operations of power, reset, the loader and management leave alone. -/

namespace Sys2Proof.Machine

theorem Dev.trainStack_kept {z : Dev} (s : Dev) (id : Nat) (state : Field) (r : StackReport) (rate : Nat)  (hz : Kept z s) : Kept z (Dev.trainStack s id state r rate) := by
  unfold Dev.trainStack
  try dsimp only
  repeat' first
    | with_reducible assumption
    | (with_reducible refine kept_ite ?_ ?_)
    | with_reducible apply Dev.setReg_kept
    | with_reducible apply Dev.put_kept
    | with_reducible apply Dev.stkErr_kept

theorem Dev.trainStacks_kept {z : Dev} (s : Dev) (b : BootInputs)  (hz : Kept z s) : Kept z (Dev.trainStacks s b) := by
  unfold Dev.trainStacks
  try dsimp only
  repeat' first
    | with_reducible assumption
    | with_reducible apply Dev.trainStack_kept
    | with_reducible apply Dev.put_kept

theorem Dev.finishWrites_kept {z : Dev} (s : Dev)  (hz : Kept z s) : Kept z (Dev.finishWrites s) := by
  unfold Dev.finishWrites
  try dsimp only
  repeat' first
    | with_reducible assumption
    | (with_reducible refine kept_ite ?_ ?_)
    | (with_reducible refine kept_each (fun s x hz => ?_) ?_)
    | with_reducible apply Dev.each_kept
    | with_reducible apply Dev.commitWrite_kept
    | (fail_if_no_progress with_reducible refine Kept.upd ?_ (by rfl) (by rfl) (by rfl))

theorem resetCsr_wf : registersWfFrom 0 resetCsr = true := by decide

theorem Dev.cleared_kept {z : Dev} (s : Dev) (cold : Bool) (hz : Kept z s) : Kept z (Dev.cleared s cold) := by
  have h0 : Kept z (if cold || s.phase == .eclipse then s else s.finishWrites) :=
    kept_ite hz (Dev.finishWrites_kept _ hz)
  unfold Dev.cleared
  have key : ∀ t : Dev, Kept z t → Kept z ((t.setReg R.rstStrap (s.reg R.rstStrap)).setReg R.secNonce
      (Config.freeValue (if cold || s.phase == .eclipse then s else s.finishWrites).freeCount).toNat) := fun t ht =>
    Dev.setReg_kept _ _ _ (Dev.setReg_kept _ _ _ ht)
  refine kept_ite (key _ ?_) (Dev.put_kept _ _ _ (key _ ?_))
  all_goals
    exact h0.of (Fuse.stays_refl _) rfl id (List.prefix_refl _) (fun r =>
      foldl_tset_wf (fun e he => registersWfFrom_ne r e (List.mem_of_mem_filter he)) resetCsr_wf)

theorem Dev.noteReset_kept {z : Dev} (s : Dev) (source kind block : Nat)  (hz : Kept z s) : Kept z (Dev.noteReset s source kind block) := by
  unfold Dev.noteReset
  try dsimp only
  repeat' first
    | with_reducible assumption
    | with_reducible apply Dev.bump_kept
    | with_reducible apply Dev.put_kept

theorem Dev.sampleStrap_kept {z : Dev} (s : Dev)  (hz : Kept z s) : Kept z (Dev.sampleStrap s) := by
  unfold Dev.sampleStrap
  try dsimp only
  repeat' first
    | with_reducible assumption
    | with_reducible apply Dev.setReg_kept
    | with_reducible apply Dev.reset_kept
    | (fail_if_no_progress with_reducible refine Kept.upd ?_ (by rfl) (by rfl) (by rfl))

theorem Dev.trainPorts_kept {z : Dev} (s : Dev)  (hz : Kept z s) : Kept z (Dev.trainPorts s) := by
  unfold Dev.trainPorts
  try dsimp only
  repeat' first
    | with_reducible assumption
    | (with_reducible refine kept_each (fun s x hz => ?_) ?_)
    | with_reducible apply Dev.each_kept
    | with_reducible apply Dev.updPort_kept
    | with_reducible apply Dev.updTx_kept
    | with_reducible apply Dev.put_kept

theorem Dev.bootOn_kept {z : Dev} (s : Dev)  (hz : Kept z s) : Kept z (Dev.bootOn s) := by
  unfold Dev.bootOn
  try dsimp only
  repeat' first
    | with_reducible assumption
    | (with_reducible refine kept_ite ?_ ?_)
    | with_reducible apply Dev.put_kept
    | with_reducible apply Dev.trainStacks_kept
    | with_reducible apply Dev.trainPorts_kept
    | (fail_if_no_progress with_reducible refine Kept.upd ?_ (by rfl) (by rfl) (by rfl))
    | split

theorem Dev.checkAfterglow_kept {z : Dev} (s : Dev) (hz : Kept z s) : Kept z (Dev.checkAfterglow s) := by
  unfold Dev.checkAfterglow
  split
  · exact hz
  · exact Kept.upd (hz.glow filter_wf) rfl rfl rfl

theorem Dev.startReset_kept {z : Dev} (s : Dev) (cold : Bool) (source : Nat)  (hz : Kept z s) : Kept z (Dev.startReset s cold source) := by
  unfold Dev.startReset
  try dsimp only
  repeat' first
    | with_reducible assumption
    | (with_reducible refine kept_ite ?_ ?_)
    | with_reducible apply Dev.cleared_kept
    | with_reducible apply Dev.checkAfterglow_kept
    | with_reducible apply Dev.noteReset_kept
    | with_reducible apply Dev.sampleStrap_kept
    | with_reducible apply Dev.put_kept
    | with_reducible apply Dev.bootOn_kept
    | (fail_if_no_progress with_reducible refine Kept.upd ?_ (by rfl) (by rfl) (by rfl))

theorem Dev.requestReset_kept {z : Dev} (s : Dev) (cold : Bool) (source : Nat)  (hz : Kept z s) : Kept z (Dev.requestReset s cold source) := by
  unfold Dev.requestReset
  try dsimp only
  repeat' first
    | with_reducible assumption
    | (with_reducible refine kept_ite ?_ ?_)
    | with_reducible apply Dev.startReset_kept
    | (fail_if_no_progress with_reducible refine Kept.upd ?_ (by rfl) (by rfl) (by rfl))
    | split

theorem Dev.hold_kept {z : Dev} (s : Dev) (source : Nat)  (hz : Kept z s) : Kept z (Dev.hold s source) := by
  unfold Dev.hold
  try dsimp only
  repeat' first
    | with_reducible assumption
    | with_reducible apply Dev.cleared_kept
    | (fail_if_no_progress with_reducible refine Kept.upd ?_ (by rfl) (by rfl) (by rfl))

theorem Dev.release_kept {z : Dev} (s : Dev)  (hz : Kept z s) : Kept z (Dev.release s) := by
  unfold Dev.release
  try dsimp only
  repeat' first
    | with_reducible assumption
    | (with_reducible refine kept_ite ?_ ?_)
    | with_reducible apply Dev.droop_kept
    | with_reducible apply Dev.startReset_kept

theorem Dev.sense_kept {z : Dev} (s : Dev) (b : BootInputs)  (hz : Kept z s) : Kept z (Dev.sense s b) := by
  unfold Dev.sense
  try dsimp only
  repeat' first
    | with_reducible assumption
    | (fail_if_no_progress with_reducible refine Kept.upd ?_ (by rfl) (by rfl) (by rfl))

theorem Dev.pwrGoodRise_kept {z : Dev} (s : Dev) (b : BootInputs)  (hz : Kept z s) : Kept z (Dev.pwrGoodRise s b) := by
  unfold Dev.pwrGoodRise
  try dsimp only
  repeat' first
    | with_reducible assumption
    | (with_reducible refine kept_ite ?_ ?_)
    | with_reducible apply Dev.sense_kept
    | with_reducible apply Dev.hold_kept
    | with_reducible apply Dev.release_kept
    | (fail_if_no_progress with_reducible refine Kept.upd ?_ (by rfl) (by rfl) (by rfl))

theorem Dev.pwrGoodFall_kept {z : Dev} (s : Dev)  (hz : Kept z s) : Kept z (Dev.pwrGoodFall s) := by
  unfold Dev.pwrGoodFall
  try dsimp only
  repeat' first
    | with_reducible assumption
    | (with_reducible refine kept_ite ?_ ?_)
    | with_reducible apply Dev.hold_kept
    | with_reducible apply Dev.droop_kept
    | (fail_if_no_progress with_reducible refine Kept.upd ?_ (by rfl) (by rfl) (by rfl))

theorem Dev.rstAssert_kept {z : Dev} (s : Dev)  (hz : Kept z s) : Kept z (Dev.rstAssert s) := by
  unfold Dev.rstAssert
  try dsimp only
  repeat' first
    | with_reducible assumption
    | (with_reducible refine kept_ite ?_ ?_)
    | with_reducible apply Dev.hold_kept
    | with_reducible apply Dev.droop_kept
    | (fail_if_no_progress with_reducible refine Kept.upd ?_ (by rfl) (by rfl) (by rfl))

theorem Dev.rstRelease_kept {z : Dev} (s : Dev) (b : BootInputs)  (hz : Kept z s) : Kept z (Dev.rstRelease s b) := by
  unfold Dev.rstRelease
  try dsimp only
  repeat' first
    | with_reducible assumption
    | (with_reducible refine kept_ite ?_ ?_)
    | with_reducible apply Dev.droop_kept
    | with_reducible apply Dev.sense_kept
    | with_reducible apply Dev.release_kept
    | (fail_if_no_progress with_reducible refine Kept.upd ?_ (by rfl) (by rfl) (by rfl))

theorem Dev.clockLoss_kept {z : Dev} (s : Dev)  (hz : Kept z s) : Kept z (Dev.clockLoss s) := by
  unfold Dev.clockLoss
  try dsimp only
  repeat' first
    | with_reducible assumption
    | (with_reducible refine kept_ite ?_ ?_)
    | with_reducible apply Dev.enterEclipse_kept
    | (fail_if_no_progress with_reducible refine Kept.upd ?_ (by rfl) (by rfl) (by rfl))

theorem Dev.refclkBack_kept {z : Dev} (s : Dev)  (hz : Kept z s) : Kept z (Dev.refclkBack s) := by
  unfold Dev.refclkBack
  try dsimp only
  repeat' first
    | with_reducible assumption
    | with_reducible apply Dev.bootOn_kept
    | with_reducible apply Dev.put_kept
    | (fail_if_no_progress with_reducible refine Kept.upd ?_ (by rfl) (by rfl) (by rfl))
    | split

theorem Dev.powerLoss_kept {z : Dev} (s : Dev) (hz : Kept z s) : Kept z (Dev.powerLoss s) :=
  hz.of (Fuse.stays_refl _) rfl (fun _ => rfl) (List.prefix_refl _) (fun _ => resetCsr_wf)

theorem Dev.throttleOn_kept {z : Dev} (s : Dev) (reason : Nat)  (hz : Kept z s) : Kept z (Dev.throttleOn s reason) := by
  unfold Dev.throttleOn
  try dsimp only
  repeat' first
    | with_reducible assumption
    | (with_reducible refine kept_ite ?_ ?_)
    | with_reducible apply Dev.raise_kept
    | with_reducible apply Dev.alert_kept
    | (fail_if_no_progress with_reducible refine Kept.upd ?_ (by rfl) (by rfl) (by rfl))

theorem Dev.throttleOff_kept {z : Dev} (s : Dev) (reason : Nat)  (hz : Kept z s) : Kept z (Dev.throttleOff s reason) := by
  unfold Dev.throttleOff
  try dsimp only
  repeat' first
    | with_reducible assumption
    | (with_reducible refine kept_ite ?_ ?_)
    | with_reducible apply Dev.put_kept
    | with_reducible apply Dev.bump_kept
    | (fail_if_no_progress with_reducible refine Kept.upd ?_ (by rfl) (by rfl) (by rfl))
    | split

theorem Dev.throttleRecords_kept {z : Dev} (s : Dev)  (hz : Kept z s) : Kept z (Dev.throttleRecords s) := by
  unfold Dev.throttleRecords
  try dsimp only
  repeat' first
    | with_reducible assumption
    | (with_reducible refine kept_ite ?_ ?_)
    | (with_reducible refine kept_each (fun s x hz => ?_) ?_)
    | with_reducible apply Dev.each_kept
    | with_reducible apply Dev.eventRecord_kept
    | (fail_if_no_progress with_reducible refine Kept.upd ?_ (by rfl) (by rfl) (by rfl))
    | split

theorem Dev.tempSample_kept {z : Dev} (s : Dev) (t : Nat)  (hz : Kept z s) : Kept z (Dev.tempSample s t) := by
  unfold Dev.tempSample
  try dsimp only
  repeat' first
    | with_reducible assumption
    | (with_reducible refine kept_ite ?_ ?_)
    | with_reducible apply Dev.put_kept
    | with_reducible apply Dev.peak_kept
    | with_reducible apply Dev.throttleOn_kept
    | with_reducible apply Dev.throttleOff_kept

theorem Dev.thermalBoundary_kept {z : Dev} (s : Dev)  (hz : Kept z s) : Kept z (Dev.thermalBoundary s) := by
  unfold Dev.thermalBoundary
  try dsimp only
  repeat' first
    | with_reducible assumption
    | (with_reducible refine kept_ite ?_ ?_)
    | with_reducible apply Dev.throttleOff_kept

theorem Dev.droop_kept {z : Dev} (s : Dev)  (hz : Kept z s) : Kept z (Dev.droop s) := by
  unfold Dev.droop
  try dsimp only
  repeat' first
    | with_reducible assumption
    | (with_reducible refine kept_ite ?_ ?_)
    | with_reducible apply Dev.throttleOn_kept
    | (fail_if_no_progress with_reducible refine Kept.upd ?_ (by rfl) (by rfl) (by rfl))

theorem Dev.brownout_kept {z : Dev} (s : Dev)  (hz : Kept z s) : Kept z (Dev.brownout s) := by
  unfold Dev.brownout
  try dsimp only
  repeat' first
    | with_reducible assumption
    | (with_reducible refine kept_ite ?_ ?_)
    | with_reducible apply Dev.raise_kept
    | with_reducible apply Dev.enterEclipse_kept
    | with_reducible apply Dev.hold_kept
    | with_reducible apply Dev.droop_kept
    | (fail_if_no_progress with_reducible refine Kept.upd ?_ (by rfl) (by rfl) (by rfl))
    | split

theorem Dev.vddRecover_kept {z : Dev} (s : Dev) (b : BootInputs)  (hz : Kept z s) : Kept z (Dev.vddRecover s b) := by
  unfold Dev.vddRecover
  try dsimp only
  repeat' first
    | with_reducible assumption
    | (with_reducible refine kept_ite ?_ ?_)
    | with_reducible apply Dev.droop_kept
    | with_reducible apply Dev.sense_kept
    | with_reducible apply Dev.release_kept
    | with_reducible apply Dev.throttleOff_kept
    | (fail_if_no_progress with_reducible refine Kept.upd ?_ (by rfl) (by rfl) (by rfl))

theorem Dev.startBlock_kept {z : Dev} (s : Dev) (code source : Nat)  (hz : Kept z s) : Kept z (Dev.startBlock s code source) := by
  unfold Dev.startBlock
  try dsimp only
  repeat' first
    | with_reducible assumption
    | with_reducible apply Dev.raise_kept
    | with_reducible apply Dev.put_kept
    | (fail_if_no_progress with_reducible refine Kept.upd ?_ (by rfl) (by rfl) (by rfl))

theorem Dev.resetRange_kept {z : Dev} (s : Dev) (lo hi : Nat) (hz : Kept z s) : Kept z (Dev.resetRange s lo hi) :=
  hz.of (Fuse.stays_refl _) rfl id (List.prefix_refl _) (fun r =>
    foldl_tset_wf (fun e he => registersWfFrom_ne resetCsr_wf e (List.mem_of_mem_filter he)) (filter_registersWfFrom r))

theorem Dev.facetTimeout_kept {z : Dev} (s : Dev) (f : Nat)  (hz : Kept z s) : Kept z (Dev.facetTimeout s f) := by
  unfold Dev.facetTimeout
  try dsimp only
  repeat' first
    | with_reducible assumption
    | (with_reducible refine kept_ite ?_ ?_)
    | (with_reducible refine kept_each (fun s x hz => ?_) ?_)
    | with_reducible apply Dev.each_kept
    | with_reducible apply Dev.answer_kept
    | with_reducible apply Dev.flush_kept
    | with_reducible apply Dev.entryLost_kept
    | (fail_if_no_progress with_reducible refine Kept.upd ?_ (by rfl) (by rfl) (by rfl))
    | split

theorem Dev.resetFacet_kept {z : Dev} (s : Dev) (f : Nat)  (hz : Kept z s) : Kept z (Dev.resetFacet s f) := by
  unfold Dev.resetFacet
  try dsimp only
  repeat' first
    | with_reducible assumption
    | with_reducible apply Dev.resetRange_kept
    | (fail_if_no_progress with_reducible refine Kept.upd ?_ (by rfl) (by rfl) (by rfl))

theorem Dev.resetPort_kept {z : Dev} (s : Dev) (p : Nat)  (hz : Kept z s) : Kept z (Dev.resetPort s p) := by
  unfold Dev.resetPort
  try dsimp only
  repeat' first
    | with_reducible assumption
    | (with_reducible refine kept_ite ?_ ?_)
    | (with_reducible refine kept_each (fun s x hz => ?_) ?_)
    | with_reducible apply Dev.updPort_kept
    | with_reducible apply Dev.updTx_kept
    | with_reducible apply Dev.resetRange_kept
    | with_reducible apply Dev.setReg_kept
    | with_reducible apply Dev.put_kept
    | with_reducible apply Dev.linkLost_kept
    | with_reducible apply Dev.each_kept
    | with_reducible apply Dev.suspect_kept

theorem Dev.restartCore_kept {z : Dev} (s : Dev) (c : Nat)  (hz : Kept z s) : Kept z (Dev.restartCore s c) := by
  unfold Dev.restartCore
  try dsimp only
  repeat' first
    | with_reducible assumption
    | with_reducible apply Dev.bump_kept
    | with_reducible apply Dev.put_kept
    | (fail_if_no_progress with_reducible refine Kept.upd ?_ (by rfl) (by rfl) (by rfl))

theorem Dev.endCommand_kept {z : Dev} (s : Dev) (code result : Nat)  (hz : Kept z s) : Kept z (Dev.endCommand s code result) := by
  unfold Dev.endCommand
  try dsimp only
  repeat' first
    | with_reducible assumption
    | with_reducible apply Dev.put_kept
    | with_reducible apply Dev.raise_kept
    | (fail_if_no_progress with_reducible refine Kept.upd ?_ (by rfl) (by rfl) (by rfl))

theorem Dev.blockTimeout_kept {z : Dev} (s : Dev) (code : Nat)  (hz : Kept z s) : Kept z (Dev.blockTimeout s code) := by
  unfold Dev.blockTimeout
  try dsimp only
  repeat' first
    | with_reducible assumption
    | (with_reducible refine kept_ite ?_ ?_)
    | (with_reducible refine kept_each (fun s x hz => ?_) ?_)
    | with_reducible apply Dev.facetTimeout_kept
    | with_reducible apply Dev.channelFail_kept
    | with_reducible apply Dev.portLoss_kept
    | with_reducible apply Dev.each_kept
    | with_reducible apply Dev.answer_kept
    | with_reducible apply Dev.flush_kept
    | with_reducible apply Dev.endCommand_kept
    | (fail_if_no_progress with_reducible refine Kept.upd ?_ (by rfl) (by rfl) (by rfl))
    | split

theorem Dev.engineReset_kept {z : Dev} (s : Dev) (e : Nat)  (hz : Kept z s) : Kept z (Dev.engineReset s e) := by
  unfold Dev.engineReset
  try dsimp only
  repeat' first
    | with_reducible assumption
    | with_reducible apply Dev.resetRange_kept
    | with_reducible apply Dev.resetEngine_kept

theorem Dev.resetBlock_kept {z : Dev} (s : Dev) (code : Nat)  (hz : Kept z s) : Kept z (Dev.resetBlock s code) := by
  unfold Dev.resetBlock
  try dsimp only
  repeat' first
    | with_reducible assumption
    | (with_reducible refine kept_ite ?_ ?_)
    | with_reducible apply Dev.resetFacet_kept
    | with_reducible apply Dev.resetPort_kept
    | with_reducible apply Dev.engineReset_kept
    | with_reducible apply Dev.restartCore_kept
    | (fail_if_no_progress with_reducible refine Kept.upd ?_ (by rfl) (by rfl) (by rfl))
    | split

theorem Dev.endBlock_kept {z : Dev} (s : Dev) (r : BlockRun)  (hz : Kept z s) : Kept z (Dev.endBlock s r) := by
  unfold Dev.endBlock
  try dsimp only
  repeat' first
    | with_reducible assumption
    | (with_reducible refine kept_ite ?_ ?_)
    | with_reducible apply Dev.resetBlock_kept
    | with_reducible apply Dev.noteReset_kept
    | with_reducible apply Dev.put_kept
    | (fail_if_no_progress with_reducible refine Kept.upd ?_ (by rfl) (by rfl) (by rfl))

theorem Dev.blockIdle_kept {z : Dev} (s : Dev)  (hz : Kept z s) : Kept z (Dev.blockIdle s) := by
  unfold Dev.blockIdle
  try dsimp only
  repeat' first
    | with_reducible assumption
    | (with_reducible refine kept_ite ?_ ?_)
    | with_reducible apply Dev.endBlock_kept
    | with_reducible apply Dev.settle_kept
    | (fail_if_no_progress with_reducible refine Kept.upd ?_ (by rfl) (by rfl) (by rfl))
    | split

theorem Dev.blockTimedOut_kept {z : Dev} (s : Dev)  (hz : Kept z s) : Kept z (Dev.blockTimedOut s) := by
  unfold Dev.blockTimedOut
  try dsimp only
  repeat' first
    | with_reducible assumption
    | with_reducible apply Dev.raise_kept
    | with_reducible apply Dev.alert_kept
    | with_reducible apply Dev.blockTimeout_kept
    | with_reducible apply Dev.endBlock_kept
    | with_reducible apply Dev.settle_kept
    | (fail_if_no_progress with_reducible refine Kept.upd ?_ (by rfl) (by rfl) (by rfl))
    | split

theorem Dev.rstBlockWrite_kept {z : Dev} (s : Dev) (code : Nat)  (hz : Kept z s) : Kept z (Dev.rstBlockWrite s code) := by
  unfold Dev.rstBlockWrite
  try dsimp only
  repeat' first
    | with_reducible assumption
    | with_reducible apply Dev.raise_kept
    | with_reducible apply Dev.startBlock_kept
    | (fail_if_no_progress with_reducible refine Kept.upd ?_ (by rfl) (by rfl) (by rfl))
    | split

theorem Dev.coreExpiry_kept {z : Dev} (s : Dev) (c : Nat)  (hz : Kept z s) : Kept z (Dev.coreExpiry s c) := by
  unfold Dev.coreExpiry
  try dsimp only
  repeat' first
    | with_reducible assumption
    | (with_reducible refine kept_ite ?_ ?_)
    | with_reducible apply Dev.startBlock_kept
    | (fail_if_no_progress with_reducible refine Kept.upd ?_ (by rfl) (by rfl) (by rfl))
    | split

theorem Dev.cpExpiry_kept {z : Dev} (s : Dev)  (hz : Kept z s) : Kept z (Dev.cpExpiry s) := by
  unfold Dev.cpExpiry
  try dsimp only
  repeat' first
    | with_reducible assumption
    | with_reducible apply Dev.enterEclipse_kept
    | (fail_if_no_progress with_reducible refine Kept.upd ?_ (by rfl) (by rfl) (by rfl))
    | split

theorem Dev.eclipseExit_kept {z : Dev} (s : Dev)  (hz : Kept z s) : Kept z (Dev.eclipseExit s) := by
  unfold Dev.eclipseExit
  try dsimp only
  repeat' first
    | with_reducible assumption
    | (with_reducible refine kept_ite ?_ ?_)
    | with_reducible apply Dev.startReset_kept

theorem Dev.dropStores_kept {z : Dev} (s : Dev) (ret : Bool)  (hz : Kept z s) : Kept z (Dev.dropStores s ret) := by
  unfold Dev.dropStores
  try dsimp only
  repeat' first
    | with_reducible assumption
    | (fail_if_no_progress with_reducible refine Kept.upd ?_ (by rfl) (by rfl) (by rfl))

theorem Dev.flushWays_kept {z : Dev} (s : Dev) (why : WbFor)  (hz : Kept z s) : Kept z (Dev.flushWays s why) := by
  unfold Dev.flushWays
  try dsimp only
  repeat' first
    | with_reducible assumption
    | (with_reducible refine kept_ite ?_ ?_)
    | (with_reducible refine kept_each (fun s x hz => ?_) ?_)
    | with_reducible apply Dev.each_kept
    | with_reducible apply Dev.writeBackSub_kept
    | with_reducible apply Dev.delLine_kept

theorem Dev.duskBegin_kept {z : Dev} (s : Dev)  (hz : Kept z s) : Kept z (Dev.duskBegin s) := by
  unfold Dev.duskBegin
  try dsimp only
  repeat' first
    | with_reducible assumption
    | (with_reducible refine kept_ite ?_ ?_)
    | (with_reducible refine kept_each (fun s x hz => ?_) ?_)
    | with_reducible apply Dev.put_kept
    | with_reducible apply Dev.each_kept
    | with_reducible apply Dev.openTxn_kept
    | with_reducible apply Dev.flushWays_kept
    | with_reducible apply Dev.dropReflections_kept
    | with_reducible apply Dev.settle_kept
    | (fail_if_no_progress with_reducible refine Kept.upd ?_ (by rfl) (by rfl) (by rfl))

theorem Dev.enterDusk_kept {z : Dev} (s : Dev)  (hz : Kept z s) : Kept z (Dev.enterDusk s) := by
  unfold Dev.enterDusk
  try dsimp only
  repeat' first
    | with_reducible assumption
    | with_reducible apply Dev.finishWrites_kept
    | with_reducible apply Dev.selfRefresh_kept
    | with_reducible apply Dev.portsIdle_kept
    | with_reducible apply Dev.dropStores_kept
    | with_reducible apply Dev.dropWork_kept
    | with_reducible apply Dev.dropPlan_kept
    | with_reducible apply Dev.put_kept
    | (fail_if_no_progress with_reducible refine Kept.upd ?_ (by rfl) (by rfl) (by rfl))

/-- A change that empties the stack. -/
theorem Kept.emptied {z s : Dev} {p : Phase} {im : Img} (h : Kept z s) (hg : im.stage = s.img.stage) :
    Kept z { s with phase := p, img := im, stack.dram := [], stack.poison := [] } :=
  h.of (Fuse.stays_refl _) rfl
    (fun w => by
      have := (memoriesWf_iff s).1 w
      exact (memoriesWf_iff _).2 ⟨rfl, this.2.1, hg ▸ this.2.2⟩) (List.prefix_refl _)

theorem Dev.enterNight_kept {z : Dev} (s : Dev) (hz : Kept z s) : Kept z (Dev.enterNight s) := by
  have h1 : Kept z ((((s.selfRefresh true).portsIdle 0).cleared true).raise F.rstAg2_NIGHT) :=
    Dev.raise_kept _ _ (Dev.cleared_kept _ _ (Dev.portsIdle_kept _ _ (Dev.selfRefresh_kept _ _ hz)))
  unfold Dev.enterNight
  dsimp only
  generalize (((s.selfRefresh true).portsIdle 0).cleared true).raise F.rstAg2_NIGHT = t at h1 ⊢
  refine h1.of (Fuse.stays_refl _) rfl (fun w => ?_) (List.prefix_refl _)
  have := (memoriesWf_iff t).1 w
  exact (memoriesWf_iff _).2 ⟨rfl, this.2.1, this.2.2⟩

theorem Dev.retentionLost_kept {z : Dev} (s : Dev)  (hz : Kept z s) : Kept z (Dev.retentionLost s) := by
  unfold Dev.retentionLost
  try dsimp only
  repeat' first
    | with_reducible assumption
    | (with_reducible refine kept_ite ?_ ?_)
    | with_reducible apply Dev.dropStores_kept
    | with_reducible apply Dev.raise_kept
    | with_reducible apply Dev.alert_kept

theorem Dev.glintLinks_kept {z : Dev} (s : Dev)  (hz : Kept z s) : Kept z (Dev.glintLinks s) := by
  unfold Dev.glintLinks
  try dsimp only
  repeat' first
    | with_reducible assumption
    | (with_reducible refine kept_each (fun s x hz => ?_) ?_)
    | with_reducible apply Dev.each_kept
    | with_reducible apply Dev.sendGlint_kept

theorem Dev.glintIn_kept {z : Dev} (s : Dev) (training : Bool)  (hz : Kept z s) : Kept z (Dev.glintIn s training) := by
  unfold Dev.glintIn
  try dsimp only
  repeat' first
    | with_reducible assumption
    | (with_reducible refine kept_ite ?_ ?_)
    | (with_reducible refine kept_each (fun s x hz => ?_) ?_)
    | with_reducible apply Dev.put_kept
    | with_reducible apply Dev.dropStores_kept
    | with_reducible apply Dev.raise_kept
    | with_reducible apply Dev.each_kept
    | with_reducible apply Dev.glintLinks_kept
    | with_reducible apply Dev.alert_kept
    | (fail_if_no_progress with_reducible refine Kept.upd ?_ (by rfl) (by rfl) (by rfl))
    | split

theorem Dev.wakeLit_kept {z : Dev} (s : Dev)  (hz : Kept z s) : Kept z (Dev.wakeLit s) := by
  unfold Dev.wakeLit
  try dsimp only
  repeat' first
    | with_reducible assumption
    | (with_reducible refine kept_ite ?_ ?_)
    | with_reducible apply Dev.selfRefresh_kept
    | with_reducible apply Dev.put_kept
    | with_reducible apply Dev.send_kept
    | with_reducible apply Dev.issueWaiting_kept
    | (fail_if_no_progress with_reducible refine Kept.upd ?_ (by rfl) (by rfl) (by rfl))

theorem Dev.installTopology_kept {z : Dev} (s : Dev)  (hz : Kept z s) : Kept z (Dev.installTopology s) := by
  unfold Dev.installTopology
  try dsimp only
  repeat' first
    | with_reducible assumption
    | (with_reducible refine kept_ite ?_ ?_)
    | (with_reducible refine kept_each (fun s x hz => ?_) ?_)
    | with_reducible apply Dev.put_kept
    | with_reducible apply Dev.each_kept
    | with_reducible apply Dev.setReg_kept
    | with_reducible apply Dev.updPort_kept

theorem Dev.installShadow_kept {z : Dev} (s : Dev)  (hz : Kept z s) : Kept z (Dev.installShadow s) := by
  unfold Dev.installShadow
  try dsimp only
  repeat' first
    | with_reducible assumption
    | with_reducible apply Dev.put_kept

theorem Dev.installPlan_kept {z : Dev} (s : Dev)  (hz : Kept z s) : Kept z (Dev.installPlan s) := by
  unfold Dev.installPlan
  try dsimp only
  repeat' first
    | with_reducible assumption
    | with_reducible apply Dev.setReg_kept
    | with_reducible apply Dev.put_kept
    | (fail_if_no_progress with_reducible refine Kept.upd ?_ (by rfl) (by rfl) (by rfl))

theorem Dev.under_kept {z : Dev} (s : Dev) (n : Sections)  (hz : Kept z s) : Kept z (Dev.under s n) := by
  unfold Dev.under
  try dsimp only
  repeat' first
    | with_reducible assumption
    | with_reducible apply Dev.raise_kept
    | with_reducible apply Dev.installTopology_kept
    | with_reducible apply Dev.installShadow_kept
    | with_reducible apply Dev.installPlan_kept
    | with_reducible apply Dev.setReg_kept
    | (fail_if_no_progress with_reducible refine Kept.upd ?_ (by rfl) (by rfl) (by rfl))

theorem Dev.refuse_kept {z : Dev} (s : Dev) (code type off : Nat)  (hz : Kept z s) : Kept z (Dev.refuse s code type off) := by
  unfold Dev.refuse
  try dsimp only
  repeat' first
    | with_reducible assumption
    | with_reducible apply Dev.setReg_kept
    | with_reducible apply Dev.alert_kept
    | with_reducible apply Dev.errorRecord_kept

theorem Dev.toLeader_kept {z : Dev} (s : Dev) (op code arg : Nat)  (hz : Kept z s) : Kept z (Dev.toLeader s op code arg) := by
  unfold Dev.toLeader
  try dsimp only
  repeat' first
    | with_reducible assumption
    | with_reducible apply Dev.send_kept

theorem Dev.toAll_kept {z : Dev} (s : Dev) (op code arg : Nat)  (hz : Kept z s) : Kept z (Dev.toAll s op code arg) := by
  unfold Dev.toAll
  try dsimp only
  repeat' first
    | with_reducible assumption
    | with_reducible apply Dev.ctlSet_kept
    | with_reducible apply Dev.send_kept

theorem Dev.runLoad_kept {z : Dev} (s : Dev) (patch : Bool)  (hz : Kept z s) : Kept z (Dev.runLoad s patch) := by
  unfold Dev.runLoad
  try dsimp only
  repeat' first
    | with_reducible assumption
    | (with_reducible refine kept_ite ?_ ?_)
    | with_reducible apply Dev.refuse_kept
    | with_reducible apply Dev.toLeader_kept
    | with_reducible apply Dev.put_kept
    | with_reducible apply Dev.enterEclipse_kept
    | (fail_if_no_progress with_reducible refine Kept.upd ?_ (by rfl) (by rfl) (by rfl))
    | split

theorem Dev.endIf_kept {z : Dev} (s : Dev) (codes : List Nat) (result : Nat)  (hz : Kept z s) : Kept z (Dev.endIf s codes result) := by
  unfold Dev.endIf
  try dsimp only
  repeat' first
    | with_reducible assumption
    | (with_reducible refine kept_ite ?_ ?_)
    | with_reducible apply Dev.endCommand_kept
    | (fail_if_no_progress with_reducible refine Kept.upd ?_ (by rfl) (by rfl) (by rfl))
    | split

theorem Dev.decideLoad_kept {z : Dev} (s : Dev)  (hz : Kept z s) : Kept z (Dev.decideLoad s) := by
  unfold Dev.decideLoad
  try dsimp only
  repeat' first
    | with_reducible assumption
    | (with_reducible refine kept_ite ?_ ?_)
    | with_reducible apply Dev.toAll_kept
    | with_reducible apply Dev.setReg_kept
    | with_reducible apply Dev.alert_kept
    | (fail_if_no_progress with_reducible refine Kept.upd ?_ (by rfl) (by rfl) (by rfl))
    | split

theorem Dev.readyIn_kept {z : Dev} (s : Dev) (sender : Nat)  (hz : Kept z s) : Kept z (Dev.readyIn s sender) := by
  unfold Dev.readyIn
  try dsimp only
  repeat' first
    | with_reducible assumption
    | (with_reducible refine kept_ite ?_ ?_)
    | with_reducible apply Dev.toAll_kept
    | with_reducible apply Dev.decideLoad_kept
    | (fail_if_no_progress with_reducible refine Kept.upd ?_ (by rfl) (by rfl) (by rfl))

theorem Dev.refusedIn_kept {z : Dev} (s : Dev) (sender : Nat) (code : BitVec 8)  (hz : Kept z s) : Kept z (Dev.refusedIn s sender code) := by
  unfold Dev.refusedIn
  try dsimp only
  repeat' first
    | with_reducible assumption
    | with_reducible apply Dev.decideLoad_kept
    | (fail_if_no_progress with_reducible refine Kept.upd ?_ (by rfl) (by rfl) (by rfl))

theorem Dev.abortIn_kept {z : Dev} (s : Dev) (code : Nat)  (hz : Kept z s) : Kept z (Dev.abortIn s code) := by
  unfold Dev.abortIn
  try dsimp only
  repeat' first
    | with_reducible assumption
    | (with_reducible refine kept_ite ?_ ?_)
    | with_reducible apply Dev.put_kept
    | with_reducible apply Dev.endIf_kept
    | with_reducible apply Dev.ctlSet_kept
    | with_reducible apply Dev.send_kept
    | (fail_if_no_progress with_reducible refine Kept.upd ?_ (by rfl) (by rfl) (by rfl))

theorem Dev.sealIn_kept {z : Dev} (s : Dev) (frame : Frame)  (hz : Kept z s) : Kept z (Dev.sealIn s frame) := by
  unfold Dev.sealIn
  try dsimp only
  repeat' first
    | with_reducible assumption
    | (with_reducible refine kept_ite ?_ ?_)
    | (fail_if_no_progress with_reducible refine Kept.upd ?_ (by rfl) (by rfl) (by rfl))

theorem Dev.reportSeal_kept {z : Dev} (s : Dev)  (hz : Kept z s) : Kept z (Dev.reportSeal s) := by
  unfold Dev.reportSeal
  try dsimp only
  repeat' first
    | with_reducible assumption
    | (with_reducible refine kept_ite ?_ ?_)
    | with_reducible apply Dev.toLeader_kept
    | (fail_if_no_progress with_reducible refine Kept.upd ?_ (by rfl) (by rfl) (by rfl))

theorem Dev.imgSealWrite_kept {z : Dev} (s : Dev) (v : Nat)  (hz : Kept z s) : Kept z (Dev.imgSealWrite s v) := by
  unfold Dev.imgSealWrite
  try dsimp only
  repeat' first
    | with_reducible assumption
    | (with_reducible refine kept_ite ?_ ?_)
    | with_reducible apply Dev.reportSeal_kept
    | (fail_if_no_progress with_reducible refine Kept.upd ?_ (by rfl) (by rfl) (by rfl))

theorem Dev.clearStores_kept {z : Dev} (s : Dev)  (hz : Kept z s) : Kept z (Dev.clearStores s) := by
  unfold Dev.clearStores
  try dsimp only
  repeat' first
    | with_reducible assumption
    | (fail_if_no_progress with_reducible refine Kept.upd ?_ (by rfl) (by rfl) (by rfl))

theorem Dev.zeroFillDone_kept {z : Dev} (s : Dev)  (hz : Kept z s) : Kept z (Dev.zeroFillDone s) := by
  unfold Dev.zeroFillDone
  try dsimp only
  repeat' first
    | with_reducible assumption
    | (with_reducible refine kept_ite ?_ ?_)
    | with_reducible apply Dev.clearStores_kept
    | with_reducible apply Dev.raise_kept
    | with_reducible apply Dev.reportSeal_kept
    | (fail_if_no_progress with_reducible refine Kept.upd ?_ (by rfl) (by rfl) (by rfl))

theorem Dev.memoryInitDone_kept {z : Dev} (s : Dev) (us : Nat) (hz : Kept z s) : Kept z (Dev.memoryInitDone s us) := by
  have h1 := fun (t : Dev) (ht : Kept z t) => Dev.reportSeal_kept _ (Kept.emptied (p := .boot 12)
    (im := { t.img with initDone := true }) ht rfl)
  exact kept_ite hz (h1 _ (Dev.put_kept _ _ _ (Dev.put_kept _ _ _ (Dev.raise_kept _ _ hz))))

theorem Dev.installPower_kept {z : Dev} (s : Dev)  (hz : Kept z s) : Kept z (Dev.installPower s) := by
  unfold Dev.installPower
  try dsimp only
  repeat' first
    | with_reducible assumption
    | with_reducible apply Dev.setReg_kept

theorem Dev.installCounters_kept {z : Dev} (s : Dev)  (hz : Kept z s) : Kept z (Dev.installCounters s) := by
  unfold Dev.installCounters
  try dsimp only
  repeat' first
    | with_reducible assumption
    | (with_reducible refine kept_ite ?_ ?_)
    | (with_reducible refine kept_each (fun s x hz => ?_) ?_)
    | with_reducible apply Dev.each_kept
    | with_reducible apply Dev.setReg_kept
    | with_reducible apply Dev.put_kept

theorem Dev.installRemaps_kept {z : Dev} (s : Dev)  (hz : Kept z s) : Kept z (Dev.installRemaps s) := by
  unfold Dev.installRemaps
  try dsimp only
  repeat' first
    | with_reducible assumption
    | (with_reducible refine kept_ite ?_ ?_)
    | (with_reducible refine kept_each (fun s x hz => ?_) ?_)
    | with_reducible apply Dev.each_kept
    | with_reducible apply Dev.bump_kept
    | (fail_if_no_progress with_reducible refine Kept.upd ?_ (by rfl) (by rfl) (by rfl))

theorem Dev.hardRepairs_kept {z : Dev} (s : Dev)  (hz : Kept z s) : Kept z (Dev.hardRepairs s) := by
  unfold Dev.hardRepairs
  try dsimp only
  repeat' first
    | with_reducible assumption
    | (with_reducible refine kept_ite ?_ ?_)
    | (with_reducible refine kept_each (fun s x hz => ?_) ?_)
    | with_reducible apply Dev.each_kept
    | with_reducible apply Dev.send_kept
    | with_reducible apply Dev.bump_kept

theorem Dev.startFirmware_kept {z : Dev} (s : Dev)  (hz : Kept z s) : Kept z (Dev.startFirmware s) := by
  unfold Dev.startFirmware
  try dsimp only
  repeat' first
    | with_reducible assumption
    | (with_reducible refine kept_each (fun s x hz => ?_) ?_)
    | with_reducible apply Dev.each_kept
    | with_reducible apply Dev.put_kept
    | (fail_if_no_progress with_reducible refine Kept.upd ?_ (by rfl) (by rfl) (by rfl))

theorem Dev.leaveDim_kept {z : Dev} (s : Dev)  (hz : Kept z s) : Kept z (Dev.leaveDim s) := by
  unfold Dev.leaveDim
  try dsimp only
  repeat' first
    | with_reducible assumption
    | (with_reducible refine kept_ite ?_ ?_)
    | with_reducible apply Dev.put_kept
    | (fail_if_no_progress with_reducible refine Kept.upd ?_ (by rfl) (by rfl) (by rfl))

theorem Dev.installImage_kept {z : Dev} (s : Dev) (n : Sections)  (hz : Kept z s) : Kept z (Dev.installImage s n) := by
  unfold Dev.installImage
  try dsimp only
  repeat' first
    | with_reducible assumption
    | (with_reducible refine kept_ite ?_ ?_)
    | with_reducible apply Dev.setReg_kept
    | with_reducible apply Dev.put_kept
    | with_reducible apply Dev.raise_kept
    | with_reducible apply Dev.installTopology_kept
    | with_reducible apply Dev.installShadow_kept
    | with_reducible apply Dev.installPlan_kept
    | with_reducible apply Dev.installPower_kept
    | with_reducible apply Dev.installCounters_kept
    | with_reducible apply Dev.installRemaps_kept
    | with_reducible apply Dev.hardRepairs_kept
    | with_reducible apply Dev.dropHeaders_kept
    | with_reducible apply Dev.startFirmware_kept
    | with_reducible apply Dev.leaveDim_kept
    | (fail_if_no_progress with_reducible refine Kept.upd ?_ (by rfl) (by rfl) (by rfl))
    | split

theorem Dev.installPatch_kept {z : Dev} (s : Dev) (n : Sections) (types : List Nat)  (hz : Kept z s) : Kept z (Dev.installPatch s n types) := by
  unfold Dev.installPatch
  try dsimp only
  repeat' first
    | with_reducible assumption
    | (with_reducible refine kept_ite ?_ ?_)
    | with_reducible apply Dev.bumpWrap_kept
    | with_reducible apply Dev.put_kept
    | with_reducible apply Dev.patchHues_kept
    | with_reducible apply Dev.installShadow_kept
    | with_reducible apply Dev.installPlan_kept
    | with_reducible apply Dev.leaveDim_kept
    | with_reducible apply Dev.installCounters_kept
    | with_reducible apply Dev.installPower_kept
    | (fail_if_no_progress with_reducible refine Kept.upd ?_ (by rfl) (by rfl) (by rfl))

theorem Dev.commitIn_kept {z : Dev} (s : Dev) (frame : Frame)  (hz : Kept z s) : Kept z (Dev.commitIn s frame) := by
  unfold Dev.commitIn
  try dsimp only
  repeat' first
    | with_reducible assumption
    | (with_reducible refine kept_ite ?_ ?_)
    | with_reducible apply Dev.endIf_kept
    | with_reducible apply Dev.installImage_kept
    | (fail_if_no_progress with_reducible refine Kept.upd ?_ (by rfl) (by rfl) (by rfl))
    | split

/-- A change of the fuses that stays within what fuses may do. -/
theorem Kept.fuses {z s : Dev} (h : Kept z s) {u : Fuse} (hu : s.fuse.stays u) : Kept z { s with fuse := u } :=
  h.of hu rfl id (List.prefix_refl _)

theorem Fuse.stays_sealed (u : Fuse) : u.stays { u with sealedOnce := true } :=
  ⟨rfl, rfl, rfl, rfl, rfl, rfl, rfl, rfl, rfl, rfl, rfl, Nat.le_refl _, fun _ => rfl, keys_stay_refl _⟩

theorem Dev.sealNow_kept {z : Dev} (s : Dev) (hz : Kept z s) : Kept z (Dev.sealNow s) := by
  have h2 : Kept z ((((s.raise F.imgStatus_SEALED).put F.imgStatus_QUIESCED 0).put F.imgStatus_STEP 0).put
      F.prmFrames_FRAMES 0).seedDemandLanes :=
    Dev.seedDemandLanes_kept _ (Dev.put_kept _ _ _ (Dev.put_kept _ _ _ (Dev.put_kept _ _ _ (Dev.raise_kept _ _ hz))))
  unfold Dev.sealNow
  have key : ∀ t : Dev, Kept z t → Kept z (match t.phase with
      | .boot _ => { t.put F.pwrState_STATE 1 with phase := .lit }
      | _ => t) := by
    intro t ht
    split
    · exact Kept.upd (Dev.put_kept _ _ _ ht) rfl rfl rfl
    · exact ht
  refine Dev.send_kept _ _ (key _ (h2.of ?_ ?_ ?_ ?_))
  · exact Fuse.stays_sealed _
  · rfl
  · exact id
  · exact List.prefix_refl _

theorem Dev.quiesceStart_kept {z : Dev} (s : Dev)  (hz : Kept z s) : Kept z (Dev.quiesceStart s) := by
  unfold Dev.quiesceStart
  try dsimp only
  repeat' first
    | with_reducible assumption
    | (fail_if_no_progress with_reducible refine Kept.upd ?_ (by rfl) (by rfl) (by rfl))

theorem Dev.quiesceNow_kept {z : Dev} (s : Dev)  (hz : Kept z s) : Kept z (Dev.quiesceNow s) := by
  unfold Dev.quiesceNow
  try dsimp only
  repeat' first
    | with_reducible assumption
    | (with_reducible refine kept_ite ?_ ?_)
    | with_reducible apply Dev.flushWays_kept
    | with_reducible apply Dev.dropStores_kept
    | with_reducible apply Dev.put_kept
    | (fail_if_no_progress with_reducible refine Kept.upd ?_ (by rfl) (by rfl) (by rfl))
    | split

theorem Dev.liftFence_kept {z : Dev} (s : Dev) (agent : Nat)  (hz : Kept z s) : Kept z (Dev.liftFence s agent) := by
  unfold Dev.liftFence
  try dsimp only
  repeat' first
    | with_reducible assumption
    | (with_reducible refine kept_ite ?_ ?_)
    | with_reducible apply Dev.put_kept

theorem Dev.checkToken_kept {z : Dev} (s : Dev) (t : List Byte)  (hz : Kept z s) : Kept z (Dev.checkToken s t).1 := by
  unfold Dev.checkToken
  try dsimp only
  repeat' first
    | with_reducible assumption
    | (with_reducible refine kept_ite ?_ ?_)
    | (with_reducible refine kept_ite_fst ?_ ?_)
    | (with_reducible refine kept_ite_snd ?_ ?_)
    | with_reducible apply Dev.free_kept
    | with_reducible apply Dev.setReg_kept
    | with_reducible apply Dev.put_kept
    | with_reducible apply Dev.bump_kept
    | with_reducible apply Dev.alert_kept

theorem Dev.turnAway_kept {z : Dev} (s : Dev) (w : Writer) (off : Nat) (c : Code)  (hz : Kept z s) : Kept z (Dev.turnAway s w off c) := by
  unfold Dev.turnAway
  try dsimp only
  repeat' first
    | with_reducible assumption
    | (with_reducible refine kept_ite ?_ ?_)
    | with_reducible apply Dev.respond_kept
    | with_reducible apply Dev.denialRecord_kept
    | with_reducible apply Dev.bump_kept
    | with_reducible apply Dev.event_kept

theorem Dev.csrAdmit_kept {z : Dev} (s : Dev) (w : Writer) (off rights : Nat) (form : Bool) (run : Dev → Dev) (hf : ∀ t, Kept z t → Kept z (run t)) (hz : Kept z s) : Kept z (Dev.csrAdmit s w off rights form run) := by
  unfold Dev.csrAdmit
  try dsimp only
  repeat' first
    | with_reducible assumption
    | (with_reducible refine kept_ite ?_ ?_)
    | with_reducible apply hf
    | with_reducible apply Dev.respond_kept
    | with_reducible apply Dev.turnAway_kept
    | (fail_if_no_progress with_reducible refine Kept.upd ?_ (by rfl) (by rfl) (by rfl))
    | split

theorem Dev.stageWord_kept {z : Dev} (s : Dev) (off v : Nat) (hz : Kept z s) : Kept z (Dev.stageWord s off v) := by
  unfold Dev.stageWord
  refine kept_ite hz (hz.of (Fuse.stays_refl _) rfl (fun w => ?_) (List.prefix_refl _))
  have := (memoriesWf_iff s).1 w
  exact (memoriesWf_iff _).2 ⟨this.1, this.2.1, memWrite_wf this.2.2⟩

theorem Dev.stagingWrite_kept {z : Dev} (s : Dev) (w : Writer) (off mask : Nat) (v : Word)  (hz : Kept z s) : Kept z (Dev.stagingWrite s w off mask v) := by
  unfold Dev.stagingWrite
  try dsimp only
  repeat' first
    | with_reducible assumption
    | with_reducible apply Dev.csrAdmit_kept
    | with_reducible apply Dev.stageWord_kept
    | dsimp only
    | intro t hz

theorem Dev.cmdResult_kept {z : Dev} (s : Dev) (code r : Nat)  (hz : Kept z s) : Kept z (Dev.cmdResult s code r) := by
  unfold Dev.cmdResult
  try dsimp only
  repeat' first
    | with_reducible assumption
    | (with_reducible refine kept_ite ?_ ?_)
    | (fail_if_no_progress with_reducible refine Kept.upd ?_ (by rfl) (by rfl) (by rfl))
    | split

theorem Dev.targetBlock_kept {z : Dev} (s : Dev) (block source : Nat)  (hz : Kept z s) : Kept z (Dev.targetBlock s block source).1 := by
  unfold Dev.targetBlock
  try dsimp only
  repeat' first
    | with_reducible assumption
    | with_reducible apply Dev.startBlock_kept
    | (fail_if_no_progress with_reducible refine Kept.upd ?_ (by rfl) (by rfl) (by rfl))
    | split

theorem Dev.blockResult_kept {z : Dev} (s : Dev) (targets code own : Nat)  (hz : Kept z s) : Kept z (Dev.blockResult s targets code own).2 := by
  unfold Dev.blockResult
  try dsimp only
  repeat' first
    | with_reducible assumption
    | (with_reducible refine kept_ite ?_ ?_)
    | (with_reducible refine kept_ite_fst ?_ ?_)
    | (with_reducible refine kept_ite_snd ?_ ?_)
    | with_reducible apply Dev.free_kept

theorem Dev.runLocal_kept {z : Dev} (s : Dev) (code arg : Nat)  (hz : Kept z s) : Kept z (Dev.runLocal s code arg) := by
  unfold Dev.runLocal
  try dsimp only
  repeat' first
    | with_reducible assumption
    | (with_reducible refine kept_ite ?_ ?_)
    | with_reducible apply Dev.runLoad_kept
    | with_reducible apply Dev.quiesceStart_kept
    | with_reducible apply Dev.liftFence_kept
    | with_reducible apply Dev.cmdResult_kept
    | with_reducible apply Dev.put_kept
    | with_reducible apply Dev.requestReset_kept
    | with_reducible apply Dev.targetBlock_kept
    | with_reducible apply Dev.blockResult_kept
    | (fail_if_no_progress with_reducible refine Kept.upd ?_ (by rfl) (by rfl) (by rfl))
    | split

theorem Dev.distribute_kept {z : Dev} (s : Dev) (code arg : Nat)  (hz : Kept z s) : Kept z (Dev.distribute s code arg) := by
  unfold Dev.distribute
  try dsimp only
  repeat' first
    | with_reducible assumption
    | (with_reducible refine kept_ite ?_ ?_)
    | with_reducible apply Dev.ctlSet_kept
    | with_reducible apply Dev.send_kept
    | with_reducible apply Dev.runLocal_kept

theorem Dev.forwardIn_kept {z : Dev} (s : Dev) (sender code arg : Nat)  (hz : Kept z s) : Kept z (Dev.forwardIn s sender code arg) := by
  unfold Dev.forwardIn
  try dsimp only
  repeat' first
    | with_reducible assumption
    | (with_reducible refine kept_ite ?_ ?_)
    | with_reducible apply Dev.distribute_kept
    | with_reducible apply Dev.runLocal_kept

theorem Dev.clearLog_kept {z : Dev} (s : Dev) (hz : Kept z s) : Kept z (Dev.clearLog s) := by
  have h1 := Kept.glow (Dev.setReg_kept _ R.rstAg3 0 hz) (g := s.afterglow.filter (fun e => 0x3000 ≤ e.1)) filter_wf
  exact Kept.upd h1 rfl rfl rfl

theorem Dev.clearCounters_kept {z : Dev} (s : Dev) (groups : Nat)  (hz : Kept z s) : Kept z (Dev.clearCounters s groups) := by
  unfold Dev.clearCounters
  try dsimp only
  repeat' first
    | with_reducible assumption
    | (with_reducible refine kept_each (fun s x hz => ?_) ?_)
    | with_reducible apply Dev.each_kept
    | with_reducible apply Dev.put_kept

theorem keys_revoked (l : List KeySlot) (n : Nat) :
    List.Forall₂ KeySlot.stays l (l.zipIdx.map (fun e => if e.2 == n then { e.1 with revoked := true } else e.1)) := by
  suffices h : ∀ (l : List KeySlot) (k : Nat),
      List.Forall₂ KeySlot.stays l ((l.zipIdx k).map (fun e => if e.2 == n then { e.1 with revoked := true } else e.1)) from
    h l 0
  intro l
  induction l with
  | nil => intro k; exact .nil
  | cons a l ih =>
    intro k
    refine .cons ?_ (ih (k + 1))
    dsimp only
    split
    · exact ⟨rfl, rfl, rfl, rfl, fun _ => rfl⟩
    · exact KeySlot.stays_refl a

theorem Fuse.stays_revoked (u : Fuse) (n : Nat) :
    u.stays { u with keys := u.keys.zipIdx.map (fun e => if e.2 == n then { e.1 with revoked := true } else e.1) } :=
  ⟨rfl, rfl, rfl, rfl, rfl, rfl, rfl, rfl, rfl, rfl, rfl, Nat.le_refl _, id, keys_revoked _ _⟩

theorem Fuse.stays_raised (u : Fuse) (v : BitVec 16) :
    u.stays { u with minVersion := BitVec.ofNat 16 (max u.minVersion.toNat v.toNat) } := by
  refine ⟨rfl, rfl, rfl, rfl, rfl, rfl, rfl, rfl, rfl, rfl, rfl, ?_, id, keys_stay_refl _⟩
  have h1 := u.minVersion.isLt
  have h2 := v.isLt
  rw [BitVec.toNat_ofNat, Nat.mod_eq_of_lt (by omega)]
  exact Nat.le_max_left _ _

theorem Dev.runAlone_kept {z : Dev} (s : Dev) (code arg : Nat) (hz : Kept z s) : Kept z (Dev.runAlone s code arg) := by
  unfold Dev.runAlone
  split
  · exact kept_ite (Dev.cmdResult_kept _ _ _ (Dev.checkToken_kept _ _ hz))
      (Dev.cmdResult_kept _ _ _ (Dev.free_kept _ (Dev.checkToken_kept _ _ hz)))
  · exact Dev.cmdResult_kept _ _ _ (Dev.put_kept _ _ _ hz)
  · exact Dev.cmdResult_kept _ _ _ (hz.fuses (Fuse.stays_revoked _ _))
  · exact Dev.cmdResult_kept _ _ _ (hz.fuses (Fuse.stays_raised _ _))
  · exact Dev.cmdResult_kept _ _ _ (Kept.upd (Dev.put_kept _ _ _ hz) rfl rfl rfl)
  · exact Dev.cmdResult_kept _ _ _ (Kept.upd (Dev.put_kept _ _ _ hz) rfl rfl rfl)
  · exact Dev.cmdResult_kept _ _ _ (Dev.clearCounters_kept _ _ hz)
  · exact Dev.cmdResult_kept _ _ _ (Dev.clearLog_kept _ hz)
  · exact hz

theorem Dev.runCommand_kept {z : Dev} (s : Dev) (code arg : Nat)  (hz : Kept z s) : Kept z (Dev.runCommand s code arg) := by
  unfold Dev.runCommand
  try dsimp only
  repeat' first
    | with_reducible assumption
    | (with_reducible refine kept_ite ?_ ?_)
    | (with_reducible refine kept_each (fun s x hz => ?_) ?_)
    | with_reducible apply Dev.runAlone_kept
    | with_reducible apply Dev.each_kept
    | with_reducible apply Dev.send_kept
    | with_reducible apply Dev.cmdResult_kept
    | with_reducible apply Dev.blockResult_kept
    | with_reducible apply Dev.distribute_kept

theorem Dev.mailboxWrite_kept {z : Dev} (s : Dev) (code arg : Nat)  (hz : Kept z s) : Kept z (Dev.mailboxWrite s code arg) := by
  unfold Dev.mailboxWrite
  try dsimp only
  repeat' first
    | with_reducible assumption
    | (with_reducible refine kept_ite ?_ ?_)
    | with_reducible apply Dev.put_kept
    | with_reducible apply Dev.raise_kept
    | with_reducible apply Dev.refuse_kept
    | with_reducible apply Dev.runCommand_kept
    | (fail_if_no_progress with_reducible refine Kept.upd ?_ (by rfl) (by rfl) (by rfl))
    | split

theorem Dev.command_kept {z : Dev} (s : Dev) (w : Writer) (code arg : Nat)  (hz : Kept z s) : Kept z (Dev.command s w code arg) := by
  unfold Dev.command
  try dsimp only
  repeat' first
    | with_reducible assumption
    | with_reducible apply Dev.csrAdmit_kept
    | with_reducible apply Dev.mailboxWrite_kept
    | dsimp only
    | intro t hz

theorem Dev.commandEnd_kept {z : Dev} (s : Dev)  (hz : Kept z s) : Kept z (Dev.commandEnd s) := by
  unfold Dev.commandEnd
  try dsimp only
  repeat' first
    | with_reducible assumption
    | with_reducible apply Dev.endCommand_kept
    | (fail_if_no_progress with_reducible refine Kept.upd ?_ (by rfl) (by rfl) (by rfl))
    | split

theorem Dev.duskDrained_kept {z : Dev} (s : Dev)  (hz : Kept z s) : Kept z (Dev.duskDrained s) := by
  unfold Dev.duskDrained
  try dsimp only
  repeat' first
    | with_reducible assumption
    | (with_reducible refine kept_ite ?_ ?_)
    | with_reducible apply Dev.toLeader_kept
    | with_reducible apply Dev.flushWays_kept
    | with_reducible apply Dev.dropReflections_kept
    | with_reducible apply Dev.settle_kept

theorem Dev.litArrive_kept {z : Dev} (s : Dev) (sender : Nat)  (hz : Kept z s) : Kept z (Dev.litArrive s sender) := by
  unfold Dev.litArrive
  try dsimp only
  repeat' first
    | with_reducible assumption
    | (with_reducible refine kept_ite ?_ ?_)
    | with_reducible apply Dev.ctlAll_kept
    | (fail_if_no_progress with_reducible refine Kept.upd ?_ (by rfl) (by rfl) (by rfl))

theorem Dev.wakeLitIn_kept {z : Dev} (s : Dev) (sender : Nat)  (hz : Kept z s) : Kept z (Dev.wakeLitIn s sender) := by
  unfold Dev.wakeLitIn
  try dsimp only
  repeat' first
    | with_reducible assumption
    | (with_reducible refine kept_ite ?_ ?_)
    | with_reducible apply Dev.wakeLit_kept
    | with_reducible apply Dev.litArrive_kept

theorem Dev.exposeIn_kept {z : Dev} (s : Dev) (frame : Frame)  (hz : Kept z s) : Kept z (Dev.exposeIn s frame) := by
  unfold Dev.exposeIn
  try dsimp only
  repeat' first
    | with_reducible assumption
    | with_reducible apply Dev.raise_kept
    | (fail_if_no_progress with_reducible refine Kept.upd ?_ (by rfl) (by rfl) (by rfl))

theorem Dev.applyReset_kept {z : Dev} (s : Dev) (kind targets block : Nat)  (hz : Kept z s) : Kept z (Dev.applyReset s kind targets block) := by
  unfold Dev.applyReset
  try dsimp only
  repeat' first
    | with_reducible assumption
    | (with_reducible refine kept_ite ?_ ?_)
    | with_reducible apply Dev.requestReset_kept
    | with_reducible apply Dev.targetBlock_kept
    | (fail_if_no_progress with_reducible refine Kept.upd ?_ (by rfl) (by rfl) (by rfl))
    | split

theorem Dev.ctlReset_kept {z : Dev} (s : Dev) (via : Via) (w : Sender) (kind targets block : Nat)  (hz : Kept z s) : Kept z (Dev.ctlReset s via w kind targets block) := by
  unfold Dev.ctlReset
  try dsimp only
  repeat' first
    | with_reducible assumption
    | (with_reducible refine kept_ite ?_ ?_)
    | (with_reducible refine kept_each (fun s x hz => ?_) ?_)
    | with_reducible apply Dev.respond_kept
    | with_reducible apply Dev.applyReset_kept
    | with_reducible apply Dev.each_kept
    | with_reducible apply Dev.send_kept

end Sys2Proof.Machine
end

