-- ==== Sys2Proof/Laws/KeptFrame.lean ====
section
/-! SUPPORT. What the operations of registers, frames, transmission, requests and test access leave alone. -/

namespace Sys2Proof.Machine

theorem Dev.fieldWrite_kept {z : Dev} (s : Dev) (off v : Nat)  (hz : Kept z s) : Kept z (Dev.fieldWrite s off v) := by
  unfold Dev.fieldWrite
  try dsimp only
  repeat' first
    | with_reducible assumption
    | (with_reducible refine kept_ite ?_ ?_)
    | with_reducible apply Dev.setReg_kept
    | (fail_if_no_progress with_reducible refine Kept.upd ?_ (by rfl) (by rfl) (by rfl))
    | split

theorem Dev.csrEffect_kept {z : Dev} (s : Dev) (off v : Nat)  (hz : Kept z s) : Kept z (Dev.csrEffect s off v) := by
  unfold Dev.csrEffect
  try dsimp only
  repeat' first
    | with_reducible assumption
    | (with_reducible refine kept_ite ?_ ?_)
    | with_reducible apply Dev.imgSealWrite_kept
    | with_reducible apply Dev.stageWord_kept
    | with_reducible apply Dev.maintSw_kept
    | with_reducible apply Dev.fieldWrite_kept
    | with_reducible apply Dev.sendGlints_kept
    | with_reducible apply Dev.rflDone_kept
    | with_reducible apply Dev.settle_kept
    | with_reducible apply Dev.rstBlockWrite_kept
    | with_reducible apply Dev.mailboxWrite_kept
    | (fail_if_no_progress with_reducible refine Kept.upd ?_ (by rfl) (by rfl) (by rfl))

theorem Dev.csrWriteBy_kept {z : Dev} (s : Dev) (w : Writer) (off v : Nat)  (hz : Kept z s) : Kept z (Dev.csrWriteBy s w off v) := by
  unfold Dev.csrWriteBy
  try dsimp only
  repeat' first
    | with_reducible assumption
    | (with_reducible refine kept_ite ?_ ?_)
    | with_reducible apply Dev.csrEffect_kept
    | with_reducible apply Dev.csrAdmit_kept
    | (fail_if_no_progress with_reducible refine Kept.upd ?_ (by rfl) (by rfl) (by rfl))
    | split
    | dsimp only
    | intro t hz

theorem Dev.latch_kept {z : Dev} (s : Dev) (frame : Nat)  (hz : Kept z s) : Kept z (Dev.latch s frame) := by
  unfold Dev.latch
  try dsimp only
  repeat' first
    | with_reducible assumption
    | (with_reducible refine kept_ite ?_ ?_)
    | (with_reducible refine kept_each (fun s x hz => ?_) ?_)
    | with_reducible apply Dev.each_kept
    | with_reducible apply Dev.put_kept
    | with_reducible apply Dev.bumpWrap_kept
    | (fail_if_no_progress with_reducible refine Kept.upd ?_ (by rfl) (by rfl) (by rfl))

theorem Dev.facetFrames_kept {z : Dev} (s : Dev) (cycles frame : Nat)  (hz : Kept z s) : Kept z (Dev.facetFrames s cycles frame) := by
  unfold Dev.facetFrames
  try dsimp only
  repeat' first
    | with_reducible assumption
    | (with_reducible refine kept_ite ?_ ?_)
    | (with_reducible refine kept_each (fun s x hz => ?_) ?_)
    | with_reducible apply Dev.each_kept
    | with_reducible apply Dev.busUse_kept
    | with_reducible apply Dev.bump_kept
    | with_reducible apply Dev.put_kept
    | with_reducible apply Dev.raise_kept
    | (fail_if_no_progress with_reducible refine Kept.upd ?_ (by rfl) (by rfl) (by rfl))

theorem Dev.checkDone_kept {z : Dev} (s : Dev)  (hz : Kept z s) : Kept z (Dev.checkDone s) := by
  unfold Dev.checkDone
  try dsimp only
  repeat' first
    | with_reducible assumption
    | (with_reducible refine kept_ite ?_ ?_)
    | with_reducible apply Dev.peak_kept
    | with_reducible apply Dev.send_kept
    | (fail_if_no_progress with_reducible refine Kept.upd ?_ (by rfl) (by rfl) (by rfl))

theorem Dev.sendGo_kept {z : Dev} (s : Dev) (degraded : Bool)  (hz : Kept z s) : Kept z (Dev.sendGo s degraded) := by
  unfold Dev.sendGo
  try dsimp only
  repeat' first
    | with_reducible assumption
    | with_reducible apply Dev.ctlAll_kept
    | (fail_if_no_progress with_reducible refine Kept.upd ?_ (by rfl) (by rfl) (by rfl))

theorem Dev.frameDoneIn_kept {z : Dev} (s : Dev) (sender : Nat) (frame : Frame)  (hz : Kept z s) : Kept z (Dev.frameDoneIn s sender frame) := by
  unfold Dev.frameDoneIn
  try dsimp only
  repeat' first
    | with_reducible assumption
    | (with_reducible refine kept_ite ?_ ?_)
    | with_reducible apply Dev.sendGo_kept
    | (fail_if_no_progress with_reducible refine Kept.upd ?_ (by rfl) (by rfl) (by rfl))

theorem Dev.degradedSwitch_kept {z : Dev} (s : Dev)  (hz : Kept z s) : Kept z (Dev.degradedSwitch s) := by
  unfold Dev.degradedSwitch
  try dsimp only
  repeat' first
    | with_reducible assumption
    | (with_reducible refine kept_ite ?_ ?_)
    | with_reducible apply Dev.sendGo_kept

theorem Dev.dropStep_kept {z : Dev} (s : Dev) (kind : Nat)  (hz : Kept z s) : Kept z (Dev.dropStep s kind) := by
  unfold Dev.dropStep
  try dsimp only
  repeat' first
    | with_reducible assumption
    | (with_reducible refine kept_ite ?_ ?_)
    | (fail_if_no_progress with_reducible refine Kept.upd ?_ (by rfl) (by rfl) (by rfl))
    | split

theorem Dev.abandon_kept {z : Dev} (s : Dev)  (hz : Kept z s) : Kept z (Dev.abandon s) := by
  unfold Dev.abandon
  try dsimp only
  repeat' first
    | with_reducible assumption
    | (with_reducible refine kept_each (fun s x hz => ?_) ?_)
    | with_reducible apply Dev.each_kept
    | with_reducible apply Dev.dropJob_kept
    | with_reducible apply Dev.engineReset_kept
    | with_reducible apply Dev.dropFlow_kept
    | with_reducible apply Dev.dropTransfer_kept
    | with_reducible apply Dev.dropStep_kept
    | (fail_if_no_progress with_reducible refine Kept.upd ?_ (by rfl) (by rfl) (by rfl))
    | split

theorem Dev.frameGoIn_kept {z : Dev} (s : Dev) (frame : Frame) (degraded : Bool)  (hz : Kept z s) : Kept z (Dev.frameGoIn s frame degraded) := by
  unfold Dev.frameGoIn
  try dsimp only
  repeat' first
    | with_reducible assumption
    | (with_reducible refine kept_ite ?_ ?_)
    | with_reducible apply Dev.put_kept
    | with_reducible apply Dev.abandon_kept
    | with_reducible apply Dev.settle_kept
    | (fail_if_no_progress with_reducible refine Kept.upd ?_ (by rfl) (by rfl) (by rfl))

theorem Dev.latticeOn_kept {z : Dev} (s : Dev) (on : Bool)  (hz : Kept z s) : Kept z (Dev.latticeOn s on) := by
  unfold Dev.latticeOn
  try dsimp only
  repeat' first
    | with_reducible assumption
    | (with_reducible refine kept_ite ?_ ?_)
    | (with_reducible refine kept_each (fun s x hz => ?_) ?_)
    | with_reducible apply Dev.each_kept
    | with_reducible apply Dev.put_kept

theorem Dev.latePosition_kept {z : Dev} (s : Dev)  (hz : Kept z s) : Kept z (Dev.latePosition s).2 := by
  unfold Dev.latePosition
  try dsimp only
  repeat' first
    | with_reducible assumption
    | (with_reducible refine kept_ite ?_ ?_)
    | (with_reducible refine kept_ite_fst ?_ ?_)
    | (with_reducible refine kept_ite_snd ?_ ?_)
    | with_reducible apply Dev.free_kept

theorem Dev.endSlips_kept {z : Dev} (s : Dev)  (hz : Kept z s) : Kept z (Dev.endSlips s) := by
  unfold Dev.endSlips
  try dsimp only
  repeat' first
    | with_reducible assumption
    | (with_reducible refine kept_ite ?_ ?_)
    | with_reducible apply Dev.latePosition_kept
    | with_reducible apply Dev.put_kept
    | with_reducible apply Dev.eventRecord_kept
    | (fail_if_no_progress with_reducible refine Kept.upd ?_ (by rfl) (by rfl) (by rfl))

theorem Dev.endHalt_kept {z : Dev} (s : Dev)  (hz : Kept z s) : Kept z (Dev.endHalt s) := by
  unfold Dev.endHalt
  try dsimp only
  repeat' first
    | with_reducible assumption
    | (with_reducible refine kept_ite ?_ ?_)
    | with_reducible apply Dev.eventRecord_kept
    | (fail_if_no_progress with_reducible refine Kept.upd ?_ (by rfl) (by rfl) (by rfl))

theorem Dev.showList_kept {z : Dev} (s : Dev) (which : WhichList) (idx : Nat)  (hz : Kept z s) : Kept z (Dev.showList s which idx) := by
  unfold Dev.showList
  try dsimp only
  repeat' first
    | with_reducible assumption
    | with_reducible apply Dev.put_kept
    | (fail_if_no_progress with_reducible refine Kept.upd ?_ (by rfl) (by rfl) (by rfl))

theorem Dev.startFrame_kept {z : Dev} (s : Dev) (which : WhichList) (idx : Nat)  (hz : Kept z s) : Kept z (Dev.startFrame s which idx) := by
  unfold Dev.startFrame
  try dsimp only
  repeat' first
    | with_reducible assumption
    | (with_reducible refine kept_ite ?_ ?_)
    | (with_reducible refine kept_each (fun s x hz => ?_) ?_)
    | with_reducible apply Dev.endSlips_kept
    | with_reducible apply Dev.endHalt_kept
    | with_reducible apply Dev.showList_kept
    | with_reducible apply Dev.put_kept
    | with_reducible apply Dev.bumpWrap_kept
    | with_reducible apply Dev.seedLanes_kept
    | with_reducible apply Dev.latticeOn_kept
    | with_reducible apply Dev.each_kept
    | with_reducible apply Dev.updTx_kept
    | (fail_if_no_progress with_reducible refine Kept.upd ?_ (by rfl) (by rfl) (by rfl))

theorem Dev.startNext_kept {z : Dev} (s : Dev) (degraded restart : Bool)  (hz : Kept z s) : Kept z (Dev.startNext s degraded restart) := by
  unfold Dev.startNext
  try dsimp only
  repeat' first
    | with_reducible assumption
    | (with_reducible refine kept_ite ?_ ?_)
    | with_reducible apply Dev.raise_kept
    | with_reducible apply Dev.alert_kept
    | with_reducible apply Dev.eventRecord_kept
    | with_reducible apply Dev.startFrame_kept

theorem Dev.slip_kept {z : Dev} (s : Dev)  (hz : Kept z s) : Kept z (Dev.slip s) := by
  unfold Dev.slip
  try dsimp only
  repeat' first
    | with_reducible assumption
    | (with_reducible refine kept_ite ?_ ?_)
    | with_reducible apply Dev.bump_kept
    | with_reducible apply Dev.put_kept
    | with_reducible apply Dev.raise_kept
    | with_reducible apply Dev.event_kept
    | (fail_if_no_progress with_reducible refine Kept.upd ?_ (by rfl) (by rfl) (by rfl))

theorem Dev.haltNow_kept {z : Dev} (s : Dev)  (hz : Kept z s) : Kept z (Dev.haltNow s) := by
  unfold Dev.haltNow
  try dsimp only
  repeat' first
    | with_reducible assumption
    | (with_reducible refine kept_ite ?_ ?_)
    | with_reducible apply Dev.put_kept
    | with_reducible apply Dev.raise_kept
    | with_reducible apply Dev.alert_kept
    | with_reducible apply Dev.latticeOn_kept
    | (fail_if_no_progress with_reducible refine Kept.upd ?_ (by rfl) (by rfl) (by rfl))

theorem Dev.orderedWork_kept {z : Dev} (s : Dev)  (hz : Kept z s) : Kept z (Dev.orderedWork s) := by
  unfold Dev.orderedWork
  try dsimp only
  repeat' first
    | with_reducible assumption
    | (with_reducible refine kept_ite ?_ ?_)
    | with_reducible apply Dev.quiesceNow_kept
    | with_reducible apply Dev.duskBegin_kept
    | with_reducible apply Dev.enterNight_kept
    | (fail_if_no_progress with_reducible refine Kept.upd ?_ (by rfl) (by rfl) (by rfl))

theorem Dev.takeOver_kept {z : Dev} (s : Dev) (frame : Nat)  (hz : Kept z s) : Kept z (Dev.takeOver s frame).1 := by
  unfold Dev.takeOver
  try dsimp only
  repeat' first
    | with_reducible assumption
    | (with_reducible refine kept_ite ?_ ?_)
    | (with_reducible refine kept_ite_fst ?_ ?_)
    | (with_reducible refine kept_ite_snd ?_ ?_)
    | with_reducible apply Dev.put_kept
    | with_reducible apply Dev.raise_kept
    | with_reducible apply Dev.abandon_kept
    | with_reducible apply Dev.startFrame_kept
    | with_reducible apply Dev.showList_kept
    | (fail_if_no_progress with_reducible refine Kept.upd ?_ (by rfl) (by rfl) (by rfl))
    | split

theorem Dev.commitNow_kept {z : Dev} (s : Dev) (frame : Nat) (go : Bool)  (hz : Kept z s) : Kept z (Dev.commitNow s frame go).1 := by
  unfold Dev.commitNow
  try dsimp only
  repeat' first
    | with_reducible assumption
    | (with_reducible refine kept_ite ?_ ?_)
    | (with_reducible refine kept_ite_fst ?_ ?_)
    | (with_reducible refine kept_ite_snd ?_ ?_)
    | with_reducible apply Dev.enterDusk_kept
    | with_reducible apply Dev.abandon_kept
    | with_reducible apply Dev.installPatch_kept
    | with_reducible apply Dev.startFrame_kept
    | (fail_if_no_progress with_reducible refine Kept.upd ?_ (by rfl) (by rfl) (by rfl))
    | split

theorem Dev.tickStatus_kept {z : Dev} (s : Dev) (usable : Bool)  (hz : Kept z s) : Kept z (Dev.tickStatus s usable) := by
  unfold Dev.tickStatus
  try dsimp only
  repeat' first
    | with_reducible assumption
    | (with_reducible refine kept_ite ?_ ?_)
    | with_reducible apply Dev.put_kept
    | with_reducible apply Dev.bump_kept
    | with_reducible apply Dev.raise_kept
    | with_reducible apply Dev.raiseIf_kept
    | (fail_if_no_progress with_reducible refine Kept.upd ?_ (by rfl) (by rfl) (by rfl))

theorem Dev.heartbeats_kept {z : Dev} (s : Dev) (usable : Bool)  (hz : Kept z s) : Kept z (Dev.heartbeats s usable) := by
  unfold Dev.heartbeats
  try dsimp only
  repeat' first
    | with_reducible assumption
    | (with_reducible refine kept_ite ?_ ?_)
    | (with_reducible refine kept_foldl (fun s x hz => ?_) ?_)
    | (with_reducible refine kept_foldl_fst (fun s x hz => ?_) ?_)
    | with_reducible apply Dev.ctlSet_kept
    | (fail_if_no_progress with_reducible refine Kept.upd ?_ (by rfl) (by rfl) (by rfl))

theorem Dev.planBoundary_kept {z : Dev} (s : Dev) (frame : Nat) (begun : Bool)  (hz : Kept z s) : Kept z (Dev.planBoundary s frame begun) := by
  unfold Dev.planBoundary
  try dsimp only
  repeat' first
    | with_reducible assumption
    | (with_reducible refine kept_ite ?_ ?_)
    | with_reducible apply Dev.haltNow_kept
    | with_reducible apply Dev.commitNow_kept
    | with_reducible apply Dev.orderedWork_kept
    | with_reducible apply Dev.startNext_kept
    | with_reducible apply Dev.slip_kept
    | (fail_if_no_progress with_reducible refine Kept.upd ?_ (by rfl) (by rfl) (by rfl))
    | split

theorem Dev.sealBoundary_kept {z : Dev} (s : Dev) (frame : Nat)  (hz : Kept z s) : Kept z (Dev.sealBoundary s frame) := by
  unfold Dev.sealBoundary
  try dsimp only
  repeat' first
    | with_reducible assumption
    | (with_reducible refine kept_ite ?_ ?_)
    | with_reducible apply Dev.sealNow_kept

theorem Dev.boundary_kept {z : Dev} (s : Dev) (usable : Bool)  (hz : Kept z s) : Kept z (Dev.boundary s usable) := by
  unfold Dev.boundary
  try dsimp only
  repeat' first
    | with_reducible assumption
    | with_reducible apply Dev.latch_kept
    | with_reducible apply Dev.put_kept
    | with_reducible apply Dev.tickStatus_kept
    | with_reducible apply Dev.thermalBoundary_kept
    | with_reducible apply Dev.facetFrames_kept
    | with_reducible apply Dev.heartbeats_kept
    | with_reducible apply Dev.takeOver_kept
    | with_reducible apply Dev.sealBoundary_kept
    | with_reducible apply Dev.planBoundary_kept
    | with_reducible apply Dev.throttleRecords_kept
    | with_reducible apply Dev.checkDone_kept
    | with_reducible apply Dev.settle_kept
    | (fail_if_no_progress with_reducible refine Kept.upd ?_ (by rfl) (by rfl) (by rfl))

theorem Dev.frameTick_kept {z : Dev} (s : Dev)  (hz : Kept z s) : Kept z (Dev.frameTick s) := by
  unfold Dev.frameTick
  try dsimp only
  repeat' first
    | with_reducible assumption
    | (with_reducible refine kept_ite ?_ ?_)
    | with_reducible apply Dev.boundary_kept
    | with_reducible apply Dev.raise_kept
    | (fail_if_no_progress with_reducible refine Kept.upd ?_ (by rfl) (by rfl) (by rfl))

theorem Dev.holdover_kept {z : Dev} (s : Dev)  (hz : Kept z s) : Kept z (Dev.holdover s) := by
  unfold Dev.holdover
  try dsimp only
  repeat' first
    | with_reducible assumption
    | (with_reducible refine kept_ite ?_ ?_)
    | with_reducible apply Dev.boundary_kept

theorem Dev.holdoverHalt_kept {z : Dev} (s : Dev)  (hz : Kept z s) : Kept z (Dev.holdoverHalt s) := by
  unfold Dev.holdoverHalt
  try dsimp only
  repeat' first
    | with_reducible assumption
    | (with_reducible refine kept_ite ?_ ?_)
    | (fail_if_no_progress with_reducible refine Kept.upd ?_ (by rfl) (by rfl) (by rfl))

theorem Dev.planResume_kept {z : Dev} (s : Dev)  (hz : Kept z s) : Kept z (Dev.planResume s) := by
  unfold Dev.planResume
  try dsimp only
  repeat' first
    | with_reducible assumption
    | (with_reducible refine kept_ite ?_ ?_)
    | with_reducible apply Dev.sendGo_kept

theorem Dev.heartbeatIn_kept {z : Dev} (s : Dev) (sender : Nat) (frame : Frame) (usable : Bool) (lost ackLink : Nat) (ackSeq : BitVec 12)  (hz : Kept z s) : Kept z (Dev.heartbeatIn s sender frame usable lost ackLink ackSeq) := by
  unfold Dev.heartbeatIn
  try dsimp only
  repeat' first
    | with_reducible assumption
    | (with_reducible refine kept_ite ?_ ?_)
    | with_reducible apply Dev.put_kept
    | with_reducible apply Dev.beatLinks_kept
    | (fail_if_no_progress with_reducible refine Kept.upd ?_ (by rfl) (by rfl) (by rfl))

theorem Dev.heartbeatMissed_kept {z : Dev} (s : Dev) (x : Nat)  (hz : Kept z s) : Kept z (Dev.heartbeatMissed s x) := by
  unfold Dev.heartbeatMissed
  try dsimp only
  repeat' first
    | with_reducible assumption
    | (with_reducible refine kept_ite ?_ ?_)
    | with_reducible apply Dev.holdLost_kept

theorem Dev.eclipseIn_kept {z : Dev} (s : Dev) (cause : BitVec 8) (origin : Nat)  (hz : Kept z s) : Kept z (Dev.eclipseIn s cause origin) := by
  unfold Dev.eclipseIn
  try dsimp only
  repeat' first
    | with_reducible assumption
    | (with_reducible refine kept_ite ?_ ?_)
    | with_reducible apply Dev.enterEclipse_kept
    | with_reducible apply Dev.holdLost_kept

theorem Dev.refreshSlot_kept {z : Dev} (s : Dev) (slot : Nat) (hz : Kept z s) : Kept z (Dev.refreshSlot s slot) := by
  have key : ∀ (l : List Msg) (a b c : SMap Nat), Kept z { s with
      outbox := s.outbox ++ l, stack.refreshBank := a, stack.refreshCount := b, stack.weakNext := c } := fun l a b c =>
    (Dev.sendAll_kept s l hz).of (Fuse.stays_refl _) rfl id (List.prefix_refl _)
  unfold Dev.refreshSlot
  exact kept_ite (key _ _ _ _) (kept_each (fun t x ht => kept_ite ht (Dev.event_kept _ _ _ _ _ ht)) (key _ _ _ _))

theorem Dev.scrubRun_kept {z : Dev} (pc n : Nat) (s : Dev) (hz : Kept z s) : Kept z (Dev.scrubRun pc n s) := by
  induction n generalizing s with
  | zero => exact hz
  | succ n ih =>
    unfold Dev.scrubRun
    refine kept_ite hz (ih _ ?_)
    refine Kept.upd ?_ (by rfl) (by rfl) (by rfl)
    exact Dev.issueRead_kept _ _ _ _ _ _ _ hz

theorem Dev.showScrub_kept {z : Dev} (s : Dev)  (hz : Kept z s) : Kept z (Dev.showScrub s) := by
  unfold Dev.showScrub
  try dsimp only
  repeat' first
    | with_reducible assumption
    | (with_reducible refine kept_ite ?_ ?_)
    | (with_reducible refine kept_foldl (fun s x hz => ?_) ?_)
    | (with_reducible refine kept_foldl_fst (fun s x hz => ?_) ?_)
    | with_reducible apply Dev.stkErr_kept
    | with_reducible apply Dev.put_kept

theorem Dev.scrubSlot_kept {z : Dev} (s : Dev)  (hz : Kept z s) : Kept z (Dev.scrubSlot s) := by
  unfold Dev.scrubSlot
  try dsimp only
  repeat' first
    | with_reducible assumption
    | (with_reducible refine kept_ite ?_ ?_)
    | (with_reducible refine kept_each (fun s x hz => ?_) ?_)
    | with_reducible apply Dev.each_kept
    | with_reducible apply Dev.scrubRun_kept
    | with_reducible apply Dev.showScrub_kept

theorem Dev.initRun_kept {z : Dev} (chunks : List Nat) (pc n : Nat) (s : Dev) (hz : Kept z s) :
    Kept z (Dev.initRun chunks pc n s) := by
  induction n generalizing s with
  | zero => exact hz
  | succ n ih =>
    unfold Dev.initRun
    dsimp only
    split
    · exact hz
    · refine ih _ (Kept.upd ?_ (by rfl) (by rfl) (by rfl))
      exact Dev.busUse_kept _ _ _ _ (Dev.zeroSub_kept _ _ hz)

theorem Dev.initSlot_kept {z : Dev} (s : Dev) (hz : Kept z s) : Kept z (Dev.initSlot s) :=
  kept_each (fun _ _ h => Dev.initRun_kept _ _ _ _ h) hz

theorem Dev.copySlot_kept {z : Dev} (s : Dev)  (hz : Kept z s) : Kept z (Dev.copySlot s) := by
  unfold Dev.copySlot
  try dsimp only
  repeat' first
    | with_reducible assumption
    | (with_reducible refine kept_ite ?_ ?_)
    | (with_reducible refine kept_each (fun s x hz => ?_) ?_)
    | with_reducible apply Dev.each_kept
    | with_reducible apply Dev.busUse_kept
    | (fail_if_no_progress with_reducible refine Kept.upd ?_ (by rfl) (by rfl) (by rfl))
    | split

theorem Dev.backgroundSlot_kept {z : Dev} (s : Dev) (slot : Nat)  (hz : Kept z s) : Kept z (Dev.backgroundSlot s slot) := by
  unfold Dev.backgroundSlot
  try dsimp only
  repeat' first
    | with_reducible assumption
    | with_reducible apply Dev.scrubSlot_kept
    | with_reducible apply Dev.sweepSlot_kept
    | with_reducible apply Dev.copySlot_kept
    | with_reducible apply Dev.rebuildSlot_kept
    | with_reducible apply Dev.initSlot_kept
    | (fail_if_no_progress with_reducible refine Kept.upd ?_ (by rfl) (by rfl) (by rfl))
    | split

theorem Dev.endSlot_kept {z : Dev} (s : Dev) (slot : Nat)  (hz : Kept z s) : Kept z (Dev.endSlot s slot) := by
  unfold Dev.endSlot
  try dsimp only
  repeat' first
    | with_reducible assumption
    | (with_reducible refine kept_ite ?_ ?_)
    | with_reducible apply Dev.put_kept
    | with_reducible apply Dev.peak_kept
    | with_reducible apply Dev.bump_kept
    | with_reducible apply Dev.throttleOn_kept
    | with_reducible apply Dev.throttleOff_kept
    | (fail_if_no_progress with_reducible refine Kept.upd ?_ (by rfl) (by rfl) (by rfl))

theorem Dev.rampSlot_kept {z : Dev} (s : Dev) (slot : Nat)  (hz : Kept z s) : Kept z (Dev.rampSlot s slot) := by
  unfold Dev.rampSlot
  try dsimp only
  repeat' first
    | with_reducible assumption
    | (with_reducible refine kept_ite ?_ ?_)
    | with_reducible apply Dev.put_kept

theorem Dev.rampStep_kept {z : Dev} (s : Dev)  (hz : Kept z s) : Kept z (Dev.rampStep s) := by
  unfold Dev.rampStep
  try dsimp only
  repeat' first
    | with_reducible assumption
    | (with_reducible refine kept_ite ?_ ?_)
    | with_reducible apply Dev.put_kept
    | (fail_if_no_progress with_reducible refine Kept.upd ?_ (by rfl) (by rfl) (by rfl))

theorem Dev.issueSlot_kept {z : Dev} (s : Dev) (slot : Nat)  (hz : Kept z s) : Kept z (Dev.issueSlot s slot) := by
  unfold Dev.issueSlot
  try dsimp only
  repeat' first
    | with_reducible assumption
    | (with_reducible refine kept_ite ?_ ?_)
    | (with_reducible refine kept_each (fun s x hz => ?_) ?_)
    | with_reducible apply Dev.each_kept
    | with_reducible apply Dev.issueWave_kept
    | with_reducible apply Dev.issueFlow_kept
    | with_reducible apply Dev.issueTransfer_kept
    | with_reducible apply Dev.backgroundSlot_kept
    | (fail_if_no_progress with_reducible refine Kept.upd ?_ (by rfl) (by rfl) (by rfl))

theorem Dev.openSlot_kept {z : Dev} (slot : Nat) (s : Dev)  (hz : Kept z s) : Kept z (Dev.openSlot slot s) := by
  unfold Dev.openSlot
  try dsimp only
  repeat' first
    | with_reducible assumption
    | (fail_if_no_progress with_reducible refine Kept.upd ?_ (by rfl) (by rfl) (by rfl))

theorem Dev.slotStart_kept {z : Dev} (s : Dev)  (hz : Kept z s) : Kept z (Dev.slotStart s) := by
  unfold Dev.slotStart
  try dsimp only
  repeat' first
    | with_reducible assumption
    | (with_reducible refine kept_ite ?_ ?_)
    | with_reducible apply Dev.endSlot_kept
    | with_reducible apply Dev.refreshSlot_kept
    | with_reducible apply Dev.rampSlot_kept
    | with_reducible apply Dev.showScrub_kept
    | with_reducible apply Dev.openSlot_kept
    | with_reducible apply Dev.issueWaiting_kept
    | with_reducible apply Dev.issueSlot_kept
    | with_reducible apply Dev.settle_kept
    | with_reducible apply Dev.checkDone_kept

theorem Dev.rerouteFrom_kept {z : Dev} (s : Dev) (p : Nat) (seq : BitVec 12)  (hz : Kept z s) : Kept z (Dev.rerouteFrom s p seq) := by
  unfold Dev.rerouteFrom
  try dsimp only
  repeat' first
    | with_reducible assumption
    | (with_reducible refine kept_each (fun s x hz => ?_) ?_)
    | with_reducible apply Dev.updTx_kept
    | with_reducible apply Dev.each_kept
    | (fail_if_no_progress with_reducible refine Kept.upd ?_ (by rfl) (by rfl) (by rfl))
    | split

theorem Dev.takeOut_kept {z : Dev} (s : Dev) (i : Nat) (m : Msg)  (hz : Kept z s) : Kept z (Dev.takeOut s i m) := by
  unfold Dev.takeOut
  try dsimp only
  repeat' first
    | with_reducible assumption
    | (with_reducible refine kept_ite ?_ ?_)
    | with_reducible apply Dev.updTx_kept
    | with_reducible apply Dev.rerouteFrom_kept
    | (fail_if_no_progress with_reducible refine Kept.upd ?_ (by rfl) (by rfl) (by rfl))
    | split

theorem Dev.takeAll_kept {z : Dev} (s : Dev)  (hz : Kept z s) : Kept z (Dev.takeAll s) := by
  unfold Dev.takeAll
  try dsimp only
  repeat' first
    | with_reducible assumption
    | (with_reducible refine kept_each (fun s x hz => ?_) ?_)
    | with_reducible apply Dev.each_kept
    | with_reducible apply Dev.takeOut_kept
    | (fail_if_no_progress with_reducible refine Kept.upd ?_ (by rfl) (by rfl) (by rfl))

theorem Dev.freeKept_kept {z : Dev} (s : Dev)  (hz : Kept z s) : Kept z (Dev.freeKept s) := by
  unfold Dev.freeKept
  try dsimp only
  repeat' first
    | with_reducible assumption
    | (with_reducible refine kept_ite ?_ ?_)
    | (with_reducible refine kept_each (fun s x hz => ?_) ?_)
    | with_reducible apply Dev.each_kept
    | with_reducible apply Dev.updTx_kept

theorem Dev.takeSlot_kept {z : Dev} (s : Dev) (p : Nat) (m : TxMsg)  (hz : Kept z s) : Kept z (Dev.takeSlot s p m) := by
  unfold Dev.takeSlot
  try dsimp only
  repeat' first
    | with_reducible assumption
    | (with_reducible refine kept_ite ?_ ?_)
    | with_reducible apply Dev.put_kept
    | with_reducible apply Dev.updTx_kept

theorem Dev.fillBody_kept {z : Dev} (p : Nat) (ctl : Bool) (n : Nat) (s : Dev) (b : List (Nat × Nat × Nat)) (hz : Kept z s) :
    Kept z (Dev.fillBody p ctl n s b).1 := by
  induction n generalizing s b with
  | zero => exact hz
  | succ n ih =>
    unfold Dev.fillBody
    split
    · exact hz
    · exact ih _ _ (Dev.takeSlot_kept _ _ _ hz)

theorem Dev.putFlit_kept {z : Dev} (s : Dev) (p : Nat) (f : FlitOut)  (hz : Kept z s) : Kept z (Dev.putFlit s p f) := by
  unfold Dev.putFlit
  try dsimp only
  repeat' first
    | with_reducible assumption
    | (with_reducible refine kept_ite ?_ ?_)
    | (with_reducible refine kept_foldl (fun s x hz => ?_) ?_)
    | (with_reducible refine kept_foldl_fst (fun s x hz => ?_) ?_)
    | with_reducible apply Dev.updPort_kept
    | with_reducible apply Dev.updTx_kept
    | with_reducible apply Dev.event_kept
    | (fail_if_no_progress with_reducible refine Kept.upd ?_ (by rfl) (by rfl) (by rfl))

theorem Dev.putIdle_kept {z : Dev} (s : Dev) (p : Nat)  (hz : Kept z s) : Kept z (Dev.putIdle s p) := by
  unfold Dev.putIdle
  try dsimp only
  repeat' first
    | with_reducible assumption
    | with_reducible apply Dev.putFlit_kept

theorem Dev.putDemand_kept {z : Dev} (s : Dev) (p : Nat) (ctl : Bool)  (hz : Kept z s) : Kept z (Dev.putDemand s p ctl) := by
  unfold Dev.putDemand
  try dsimp only
  repeat' first
    | with_reducible assumption
    | (with_reducible refine kept_ite ?_ ?_)
    | with_reducible apply Dev.putIdle_kept
    | with_reducible apply Dev.fillBody_kept
    | with_reducible apply Dev.updTx_kept
    | with_reducible apply Dev.putFlit_kept

theorem Dev.putReplay_kept {z : Dev} (s : Dev) (p k : Nat)  (hz : Kept z s) : Kept z (Dev.putReplay s p k) := by
  unfold Dev.putReplay
  try dsimp only
  repeat' first
    | with_reducible assumption
    | (with_reducible refine kept_ite ?_ ?_)
    | with_reducible apply Dev.updTx_kept
    | with_reducible apply Dev.putIdle_kept
    | with_reducible apply Dev.putFlit_kept
    | (fail_if_no_progress with_reducible refine Kept.upd ?_ (by rfl) (by rfl) (by rfl))
    | split

theorem Dev.putLattice_kept {z : Dev} (s : Dev) (p : Nat) (places : List Nat)  (hz : Kept z s) : Kept z (Dev.putLattice s p places) := by
  unfold Dev.putLattice
  try dsimp only
  repeat' first
    | with_reducible assumption
    | with_reducible apply Dev.updTx_kept
    | with_reducible apply Dev.putFlit_kept

theorem Dev.putLate_kept {z t : Dev} {s : Dev} {p : Nat} (e : Dev.putLate s p = some t) (hz : Kept z s) : Kept z t := by
  unfold Dev.putLate at e
  try dsimp only at e
  repeat' split at e
  all_goals cases e
  repeat' first
    | with_reducible assumption
    | (with_reducible refine kept_ite ?_ ?_)
    | with_reducible apply Dev.updTx_kept
    | with_reducible apply Dev.putFlit_kept
    | with_reducible apply Dev.putLattice_kept

theorem Dev.putOther_kept {z : Dev} (s : Dev) (p : Nat) (ctl : Bool)  (hz : Kept z s) : Kept z (Dev.putOther s p ctl) := by
  unfold Dev.putOther
  try dsimp only
  repeat' first
    | with_reducible assumption
    | (with_reducible refine kept_ite ?_ ?_)
    | with_reducible apply Dev.putReplay_kept
    | with_reducible apply Dev.putDemand_kept
    | (refine Dev.putLate_kept (by assumption) ?_)
    | (with_reducible refine kept_getD (fun t e => Dev.putLate_kept e ?_) ?_)
    | (fail_if_no_progress with_reducible refine Kept.upd ?_ (by rfl) (by rfl) (by rfl))
    | split

theorem Dev.sendFlit_kept {z : Dev} (s : Dev) (p n : Nat)  (hz : Kept z s) : Kept z (Dev.sendFlit s p n) := by
  unfold Dev.sendFlit
  try dsimp only
  repeat' first
    | with_reducible assumption
    | (with_reducible refine kept_ite ?_ ?_)
    | with_reducible apply Dev.updTx_kept
    | with_reducible apply Dev.putOther_kept
    | with_reducible apply Dev.putLattice_kept
    | with_reducible apply Dev.bump_kept
    | (fail_if_no_progress with_reducible refine Kept.upd ?_ (by rfl) (by rfl) (by rfl))
    | split

theorem Dev.transmit_kept {z : Dev} (s : Dev)  (hz : Kept z s) : Kept z (Dev.transmit s) := by
  unfold Dev.transmit
  try dsimp only
  repeat' first
    | with_reducible assumption
    | (with_reducible refine kept_ite ?_ ?_)
    | (with_reducible refine kept_each (fun s x hz => ?_) ?_)
    | with_reducible apply Dev.takeAll_kept
    | with_reducible apply Dev.freeKept_kept
    | with_reducible apply Dev.each_kept
    | with_reducible apply Dev.sendFlit_kept
    | (fail_if_no_progress with_reducible refine Kept.upd ?_ (by rfl) (by rfl) (by rfl))

theorem Dev.refuseCode_kept {z : Dev} (s : Dev) (op : Op) (code : Nat) (r : Request) (c : Code)  (hz : Kept z s) : Kept z (Dev.refuseCode s op code r c) := by
  unfold Dev.refuseCode
  try dsimp only
  repeat' first
    | with_reducible assumption
    | (with_reducible refine kept_ite ?_ ?_)
    | with_reducible apply Dev.answerAll_kept
    | with_reducible apply Dev.bump_kept
    | with_reducible apply Dev.event_kept
    | with_reducible apply Dev.denialRecord_kept
    | with_reducible apply Dev.urgentDone_kept

theorem Dev.refuseReq_kept {z : Dev} (s : Dev) (op : Op) (r : Request) (c : Code)  (hz : Kept z s) : Kept z (Dev.refuseReq s op r c) := by
  unfold Dev.refuseReq
  try dsimp only
  repeat' first
    | with_reducible assumption
    | with_reducible apply Dev.refuseCode_kept

theorem Dev.enterReq_kept {z : Dev} (s : Dev) (op : Op) (r : Request) (region : Nat) (g : Region) (n m : Nat) (ticket : Option (BitVec 16))  (hz : Kept z s) : Kept z (Dev.enterReq s op r region g n m ticket).2 := by
  unfold Dev.enterReq
  try dsimp only
  repeat' first
    | with_reducible assumption
    | (with_reducible refine kept_ite ?_ ?_)
    | (with_reducible refine kept_ite_fst ?_ ?_)
    | (with_reducible refine kept_ite_snd ?_ ?_)
    | with_reducible apply Dev.peak_kept
    | (fail_if_no_progress with_reducible refine Kept.upd ?_ (by rfl) (by rfl) (by rfl))

theorem Dev.windowServe_kept {z : Dev} (s : Dev) (id : Nat) (e : ReqEntry)  (hz : Kept z s) : Kept z (Dev.windowServe s id e) := by
  unfold Dev.windowServe
  try dsimp only
  repeat' first
    | with_reducible assumption
    | (with_reducible refine kept_ite ?_ ?_)
    | (with_reducible refine kept_each (fun s x hz => ?_) ?_)
    | with_reducible apply Dev.each_kept
    | with_reducible apply Dev.windowCheck_kept
    | with_reducible apply Dev.event_kept
    | with_reducible apply Dev.answer_kept
    | with_reducible apply Dev.flush_kept
    | (fail_if_no_progress with_reducible refine Kept.upd ?_ (by rfl) (by rfl) (by rfl))
    | split

theorem Dev.windowStore_kept {z : Dev} (s : Dev) (id : Nat) (e : ReqEntry)  (hz : Kept z s) : Kept z (Dev.windowStore s id e) := by
  unfold Dev.windowStore
  try dsimp only
  repeat' first
    | with_reducible assumption
    | (with_reducible refine kept_ite ?_ ?_)
    | (with_reducible refine kept_each (fun s x hz => ?_) ?_)
    | with_reducible apply Dev.each_kept
    | with_reducible apply Dev.accPartial_kept
    | with_reducible apply Dev.windowTags_kept
    | with_reducible apply Dev.windowCheck_kept
    | with_reducible apply Dev.answer_kept
    | with_reducible apply Dev.windowWrite_kept
    | with_reducible apply Dev.flush_kept
    | (fail_if_no_progress with_reducible refine Kept.upd ?_ (by rfl) (by rfl) (by rfl))
    | split

theorem Dev.windowPod_kept {z : Dev} (s : Dev) (id : Nat) (e : ReqEntry) (hz : Kept z s) : Kept z (Dev.windowPod s id e) :=
  kept_ite (Dev.windowChord_kept s id e hz) (Dev.podOpsRun_kept _ (Kept.upd (Dev.podStart_kept s e.r.src id hz) rfl rfl rfl))

theorem Dev.runWindow_kept {z : Dev} (s : Dev) (id : Nat)  (hz : Kept z s) : Kept z (Dev.runWindow s id) := by
  unfold Dev.runWindow
  try dsimp only
  repeat' first
    | with_reducible assumption
    | (with_reducible refine kept_ite ?_ ?_)
    | with_reducible apply Dev.finish_kept
    | with_reducible apply Dev.csrEffect_kept
    | with_reducible apply Dev.windowStore_kept
    | with_reducible apply Dev.windowPod_kept
    | with_reducible apply Dev.windowServe_kept
    | (fail_if_no_progress with_reducible refine Kept.upd ?_ (by rfl) (by rfl) (by rfl))
    | split

theorem Dev.startAt_kept {z : Dev} (s : Dev) (e : ReqEntry) (i : Nat)  (hz : Kept z s) : Kept z (Dev.startAt s e i) := by
  unfold Dev.startAt
  try dsimp only
  repeat' first
    | with_reducible assumption
    | (with_reducible refine kept_ite ?_ ?_)
    | with_reducible apply Dev.park_kept
    | with_reducible apply Dev.anyPart_kept

theorem Dev.startParts_kept {z : Dev} (s : Dev) (id : Nat)  (hz : Kept z s) : Kept z (Dev.startParts s id) := by
  unfold Dev.startParts
  try dsimp only
  repeat' first
    | with_reducible assumption
    | (with_reducible refine kept_ite ?_ ?_)
    | (with_reducible refine kept_each (fun s x hz => ?_) ?_)
    | with_reducible apply Dev.each_kept
    | with_reducible apply Dev.startAt_kept
    | (fail_if_no_progress with_reducible refine Kept.upd ?_ (by rfl) (by rfl) (by rfl))
    | split

theorem Dev.waitData_kept {z : Dev} (s : Dev) (id : Nat)  (hz : Kept z s) : Kept z (Dev.waitData s id) := by
  unfold Dev.waitData
  try dsimp only
  repeat' first
    | with_reducible assumption
    | (with_reducible refine kept_each (fun s x hz => ?_) ?_)
    | with_reducible apply Dev.each_kept
    | with_reducible apply Dev.park_kept
    | (fail_if_no_progress with_reducible refine Kept.upd ?_ (by rfl) (by rfl) (by rfl))
    | split

theorem Dev.nakParts_kept {z : Dev} (s : Dev) (id : Nat)  (hz : Kept z s) : Kept z (Dev.nakParts s id) := by
  unfold Dev.nakParts
  try dsimp only
  repeat' first
    | with_reducible assumption
    | (with_reducible refine kept_ite ?_ ?_)
    | (with_reducible refine kept_each (fun s x hz => ?_) ?_)
    | with_reducible apply Dev.each_kept
    | with_reducible apply Dev.nakWith_kept
    | (fail_if_no_progress with_reducible refine Kept.upd ?_ (by rfl) (by rfl) (by rfl))
    | split

theorem Dev.fromRecords_kept {z : Dev} (s : Dev) (id : Nat)  (hz : Kept z s) : Kept z (Dev.fromRecords s id) := by
  unfold Dev.fromRecords
  try dsimp only
  repeat' first
    | with_reducible assumption
    | (with_reducible refine kept_ite ?_ ?_)
    | (with_reducible refine kept_each (fun s x hz => ?_) ?_)
    | with_reducible apply Dev.each_kept
    | with_reducible apply Dev.answer_kept
    | with_reducible apply Dev.flush_kept
    | (fail_if_no_progress with_reducible refine Kept.upd ?_ (by rfl) (by rfl) (by rfl))
    | split

theorem Dev.pullData_kept {z : Dev} (s : Dev) (id : Nat)  (hz : Kept z s) : Kept z (Dev.pullData s id) := by
  unfold Dev.pullData
  try dsimp only
  repeat' first
    | with_reducible assumption
    | (with_reducible refine kept_ite ?_ ?_)
    | with_reducible apply Dev.send_kept
    | (fail_if_no_progress with_reducible refine Kept.upd ?_ (by rfl) (by rfl) (by rfl))
    | split

theorem Dev.memRequest_kept {z : Dev} (s : Dev) (op : Op) (r : Request) (region : Nat) (g : Region)  (hz : Kept z s) : Kept z (Dev.memRequest s op r region g) := by
  unfold Dev.memRequest
  try dsimp only
  repeat' first
    | with_reducible assumption
    | (with_reducible refine kept_ite ?_ ?_)
    | with_reducible apply Dev.enterReq_kept
    | with_reducible apply Dev.answerRest_kept
    | with_reducible apply Dev.updReq_kept
    | with_reducible apply Dev.nakAll_kept
    | with_reducible apply Dev.fromRecords_kept
    | with_reducible apply Dev.nakParts_kept
    | with_reducible apply Dev.pullData_kept
    | with_reducible apply Dev.waitData_kept
    | with_reducible apply Dev.startParts_kept
    | (fail_if_no_progress with_reducible refine Kept.upd ?_ (by rfl) (by rfl) (by rfl))
    | split

theorem Dev.windowRequest_kept {z : Dev} (s : Dev) (op : Op) (r : Request) (region : Nat) (g : Region)  (hz : Kept z s) : Kept z (Dev.windowRequest s op r region g) := by
  unfold Dev.windowRequest
  try dsimp only
  repeat' first
    | with_reducible assumption
    | (with_reducible refine kept_ite ?_ ?_)
    | with_reducible apply Dev.enterReq_kept
    | with_reducible apply Dev.answerRest_kept
    | with_reducible apply Dev.pullData_kept
    | with_reducible apply Dev.runWindow_kept

theorem Dev.passOn_kept {z : Dev} (s : Dev) (op : Op) (r : Request) (home : Nat)  (hz : Kept z s) : Kept z (Dev.passOn s op r home) := by
  unfold Dev.passOn
  try dsimp only
  repeat' first
    | with_reducible assumption
    | with_reducible apply Dev.send_kept
    | (fail_if_no_progress with_reducible refine Kept.upd ?_ (by rfl) (by rfl) (by rfl))
    | split

theorem Dev.admitted_kept {z : Dev} (s : Dev) (op : Op) (r : Request) (region : Nat) (g : Region)  (hz : Kept z s) : Kept z (Dev.admitted s op r region g) := by
  unfold Dev.admitted
  try dsimp only
  repeat' first
    | with_reducible assumption
    | (with_reducible refine kept_ite ?_ ?_)
    | with_reducible apply Dev.portNak_kept
    | with_reducible apply Dev.memRequest_kept
    | with_reducible apply Dev.passOn_kept
    | with_reducible apply Dev.windowRequest_kept

theorem Dev.urgency_kept {z : Dev} (s : Dev) (op : Op) (r : Request)  (hz : Kept z s) : Kept z (Dev.urgency s op r).1 := by
  unfold Dev.urgency
  try dsimp only
  repeat' first
    | with_reducible assumption
    | (with_reducible refine kept_ite ?_ ?_)
    | (with_reducible refine kept_ite_fst ?_ ?_)
    | (with_reducible refine kept_ite_snd ?_ ?_)
    | with_reducible apply Dev.put_kept
    | with_reducible apply Dev.bump_kept
    | with_reducible apply Dev.raise_kept
    | (fail_if_no_progress with_reducible refine Kept.upd ?_ (by rfl) (by rfl) (by rfl))
    | split

theorem Dev.sidebandRead_kept {z : Dev} (s : Dev) (p off : Nat)  (hz : Kept z s) : Kept z (Dev.sidebandRead s p off) := by
  unfold Dev.sidebandRead
  try dsimp only
  repeat' first
    | with_reducible assumption
    | (with_reducible refine kept_ite ?_ ?_)
    | with_reducible apply Dev.send_kept

theorem Dev.portRequest_kept {z : Dev} (s0 : Dev) (op : Op) (r0 : Request)  (hz : Kept z s0) : Kept z (Dev.portRequest s0 op r0) := by
  unfold Dev.portRequest
  try dsimp only
  repeat' first
    | with_reducible assumption
    | (with_reducible refine kept_ite ?_ ?_)
    | with_reducible apply Dev.inject_kept
    | with_reducible apply Dev.urgency_kept
    | with_reducible apply Dev.refuseReq_kept
    | with_reducible apply Dev.admitted_kept
    | (fail_if_no_progress with_reducible refine Kept.upd ?_ (by rfl) (by rfl) (by rfl))
    | split

theorem Dev.request_kept {z : Dev} (s : Dev) (op : Op) (r : Request)  (hz : Kept z s) : Kept z (Dev.request s op r) := by
  unfold Dev.request
  try dsimp only
  repeat' first
    | with_reducible assumption
    | (with_reducible refine kept_ite ?_ ?_)
    | with_reducible apply Dev.sidebandRead_kept
    | with_reducible apply Dev.portRequest_kept
    | (fail_if_no_progress with_reducible refine Kept.upd ?_ (by rfl) (by rfl) (by rfl))
    | split

theorem Dev.reservedRequest_kept {z : Dev} (s : Dev) (code : Nat) (r0 : Request)  (hz : Kept z s) : Kept z (Dev.reservedRequest s code r0) := by
  unfold Dev.reservedRequest
  try dsimp only
  repeat' first
    | with_reducible assumption
    | (with_reducible refine kept_ite ?_ ?_)
    | with_reducible apply Dev.urgency_kept
    | with_reducible apply Dev.refuseCode_kept

theorem Dev.writeDataIn_kept {z : Dev} (s : Dev) (src : Agent) (txid : BitVec 12) (off : Nat) (data : List Sub)  (hz : Kept z s) : Kept z (Dev.writeDataIn s src txid off data) := by
  unfold Dev.writeDataIn
  try dsimp only
  repeat' first
    | with_reducible assumption
    | (with_reducible refine kept_ite ?_ ?_)
    | (with_reducible refine kept_foldl (fun s x hz => ?_) ?_)
    | (with_reducible refine kept_foldl_fst (fun s x hz => ?_) ?_)
    | with_reducible apply Dev.updReq_kept
    | with_reducible apply Dev.startParts_kept
    | with_reducible apply Dev.runWindow_kept
    | with_reducible apply Dev.send_kept
    | (fail_if_no_progress with_reducible refine Kept.upd ?_ (by rfl) (by rfl) (by rfl))
    | split

theorem Dev.tapSelect_kept {z : Dev} (s : Dev) (ir : Nat) (v : Nat)  (hz : Kept z s) : Kept z (Dev.tapSelect s ir v) := by
  unfold Dev.tapSelect
  try dsimp only
  repeat' first
    | with_reducible assumption
    | (fail_if_no_progress with_reducible refine Kept.upd ?_ (by rfl) (by rfl) (by rfl))

theorem Dev.tapRead_kept {z : Dev} (s : Dev) (ir v : Nat)  (hz : Kept z s) : Kept z (Dev.tapRead s ir v) := by
  unfold Dev.tapRead
  try dsimp only
  repeat' first
    | with_reducible assumption
    | with_reducible apply Dev.tapSelect_kept
    | with_reducible apply Dev.send_kept

theorem Dev.boundaryScan_kept {z : Dev} (s : Dev) (ir : Nat) (pins : BitVec 64)  (hz : Kept z s) : Kept z (Dev.boundaryScan s ir pins) := by
  unfold Dev.boundaryScan
  try dsimp only
  repeat' first
    | with_reducible assumption
    | (with_reducible refine kept_ite ?_ ?_)
    | with_reducible apply Dev.free_kept
    | with_reducible apply Dev.tapRead_kept
    | with_reducible apply Dev.boundary_kept
    | (fail_if_no_progress with_reducible refine Kept.upd ?_ (by rfl) (by rfl) (by rfl))

theorem Dev.tapCsr_kept {z : Dev} (s : Dev) (off : Nat) (store : Option (BitVec 64))  (hz : Kept z s) : Kept z (Dev.tapCsr s off store) := by
  unfold Dev.tapCsr
  try dsimp only
  repeat' first
    | with_reducible assumption
    | (with_reducible refine kept_ite ?_ ?_)
    | with_reducible apply Dev.csrEffect_kept
    | with_reducible apply Dev.tapSelect_kept
    | with_reducible apply Dev.tapRead_kept
    | (fail_if_no_progress with_reducible refine Kept.upd ?_ (by rfl) (by rfl) (by rfl))
    | split

theorem Dev.wrapper_kept {z : Dev} (s : Dev) (w : Wir)  (hz : Kept z s) : Kept z (Dev.wrapper s w) := by
  unfold Dev.wrapper
  try dsimp only
  repeat' first
    | with_reducible assumption
    | (with_reducible refine kept_ite ?_ ?_)
    | (fail_if_no_progress with_reducible refine Kept.upd ?_ (by rfl) (by rfl) (by rfl))

end Sys2Proof.Machine
end

