-- ==== Sys2Proof/Laws/KeptCmds.lean ====
section
/-! SUPPORT. What the meanings leave alone, but for FUSE_BLOW's and those of the links. -/

namespace Sys2Proof.Machine

theorem onDev_next {s t : State} {f : Dev → Dev} (h : s.onDev f = .next t) : t = { s with toDev := f s.toDev } := by
  unfold State.onDev at h; cases h; rfl

theorem onDevAt_next {s t : State} {d : Nat} {f : Dev → Dev} (h : s.onDevAt d f = .next t) : t = { s with toDev := f s.toDev } := by
  unfold State.onDevAt at h; split at h
  · cases h
  · exact onDev_next h

theorem execSnpReply_kept (p : SnoopReply) (s : State) (t : State) (h : execSnpReply p s = .next t) : Kept s.toDev t.toDev := by
  have hz := Kept.refl s.toDev
  rw [onDev_next h]
  try dsimp only
  repeat' first
    | with_reducible assumption
    | with_reducible apply Dev.snoopArrive_kept

theorem execSnpData_kept (p : SnoopReply) (data : Sub) (s : State) (t : State) (h : execSnpData p data s = .next t) : Kept s.toDev t.toDev := by
  have hz := Kept.refl s.toDev
  rw [onDev_next h]
  try dsimp only
  repeat' first
    | with_reducible assumption
    | with_reducible apply Dev.snoopArrive_kept

theorem execCompAck_kept (src : Agent) (txid : BitVec 12) (s : State) (t : State) (h : execCompAck src txid s = .next t) : Kept s.toDev t.toDev := by
  have hz := Kept.refl s.toDev
  rw [onDev_next h]
  try dsimp only
  repeat' first
    | with_reducible assumption
    | with_reducible apply Dev.compAck_kept

theorem execSideAccess_kept (a : SideAccess) (s : State) (t : State) (h : execSideAccess a s = .next t) : Kept s.toDev t.toDev := by
  have hz := Kept.refl s.toDev
  rw [onDevAt_next h]
  try dsimp only
  repeat' first
    | with_reducible assumption
    | (with_reducible refine kept_ite ?_ ?_)
    | with_reducible apply Dev.inject_kept
    | with_reducible apply Dev.sideAccess_kept
    | with_reducible apply Dev.settle_kept

theorem execEscapeClaimSlot_kept (e : EscapeRef) (s : State) (t : State) (h : execEscapeClaimSlot e s = .next t) : Kept s.toDev t.toDev := by
  have hz := Kept.refl s.toDev
  rw [onDevAt_next h]
  try dsimp only
  repeat' first
    | with_reducible assumption
    | (with_reducible refine kept_ite ?_ ?_)
    | with_reducible apply Dev.claimAt_kept
    | with_reducible apply Dev.settle_kept

theorem execEscapeReleaseSlot_kept (e : EscapeRef) (s : State) (t : State) (h : execEscapeReleaseSlot e s = .next t) : Kept s.toDev t.toDev := by
  have hz := Kept.refl s.toDev
  rw [onDevAt_next h]
  try dsimp only
  repeat' first
    | with_reducible assumption
    | (with_reducible refine kept_ite ?_ ?_)
    | with_reducible apply Dev.releaseAt_kept
    | with_reducible apply Dev.settle_kept

theorem execPrefetchHint_kept (grp : BitVec 6) (d : BitVec 64) (allocClass : BitVec 3) (shadowed : Bool) (s : State) (t : State) (h : execPrefetchHint grp d allocClass shadowed s = .next t) : Kept s.toDev t.toDev := by
  have hz := Kept.refl s.toDev
  rw [onDevAt_next h]
  try dsimp only
  repeat' first
    | with_reducible assumption
    | (with_reducible refine kept_ite ?_ ?_)
    | with_reducible apply Dev.hintArrive_kept

theorem execParkedPartResume_kept (facet : BitVec 6) (s : State) (t : State) (h : execParkedPartResume facet s = .next t) : Kept s.toDev t.toDev := by
  have hz := Kept.refl s.toDev
  rw [onDev_next h]
  try dsimp only
  repeat' first
    | with_reducible assumption
    | (with_reducible refine kept_ite ?_ ?_)
    | with_reducible apply Dev.parkedResume_kept

theorem execHeldWaiterReenter_kept (facet : BitVec 6) (d : BitVec 64) (s : State) (t : State) (h : execHeldWaiterReenter facet d s = .next t) : Kept s.toDev t.toDev := by
  have hz := Kept.refl s.toDev
  rw [onDev_next h]
  try dsimp only
  repeat' first
    | with_reducible assumption
    | (with_reducible refine kept_ite ?_ ?_)
    | with_reducible apply Dev.heldReenter_kept

theorem execTagScrub_kept (facet : BitVec 6) (upsets : List (BitVec 4 × BitVec 48 × BitVec 48)) (s : State) (t : State) (h : execTagScrub facet upsets s = .next t) : Kept s.toDev t.toDev := by
  have hz := Kept.refl s.toDev
  rw [onDev_next h]
  try dsimp only
  repeat' first
    | with_reducible assumption
    | with_reducible apply Dev.tagScrubRun_kept

theorem execDirScrub_kept (facet : BitVec 6) (upsets : List (BitVec 4 × BitVec 50 × BitVec 50)) (s : State) (t : State) (h : execDirScrub facet upsets s = .next t) : Kept s.toDev t.toDev := by
  have hz := Kept.refl s.toDev
  rw [onDev_next h]
  try dsimp only
  repeat' first
    | with_reducible assumption
    | with_reducible apply Dev.dirScrubRun_kept

theorem execDirRecallComplete_kept (txn : Nat) (s : State) (t : State) (h : execDirRecallComplete txn s = .next t) : Kept s.toDev t.toDev := by
  have hz := Kept.refl s.toDev
  rw [onDev_next h]
  try dsimp only
  repeat' first
    | with_reducible assumption
    | with_reducible apply Dev.recallDone_kept

theorem execSwClean_kept (facet : BitVec 6) (set : BitVec 11) (way : BitVec 4) (s : State) (t : State) (h : execSwClean facet set way s = .next t) : Kept s.toDev t.toDev := by
  have hz := Kept.refl s.toDev
  rw [onDev_next h]
  try dsimp only
  repeat' first
    | with_reducible assumption
    | (with_reducible refine kept_ite ?_ ?_)
    | with_reducible apply Dev.maintSw_kept

theorem execSwInvalidate_kept (facet : BitVec 6) (set : BitVec 11) (way : BitVec 4) (s : State) (t : State) (h : execSwInvalidate facet set way s = .next t) : Kept s.toDev t.toDev := by
  have hz := Kept.refl s.toDev
  rw [onDev_next h]
  try dsimp only
  repeat' first
    | with_reducible assumption
    | (with_reducible refine kept_ite ?_ ?_)
    | with_reducible apply Dev.maintSw_kept

theorem execSwCleanInvalidate_kept (facet : BitVec 6) (set : BitVec 11) (way : BitVec 4) (s : State) (t : State) (h : execSwCleanInvalidate facet set way s = .next t) : Kept s.toDev t.toDev := by
  have hz := Kept.refl s.toDev
  rw [onDev_next h]
  try dsimp only
  repeat' first
    | with_reducible assumption
    | (with_reducible refine kept_ite ?_ ?_)
    | with_reducible apply Dev.maintSw_kept

theorem execSnoopTimeout_kept (txn : Nat) (agent : Agent) (s : State) (t : State) (h : execSnoopTimeout txn agent s = .next t) : Kept s.toDev t.toDev := by
  have hz := Kept.refl s.toDev
  rw [onDev_next h]
  try dsimp only
  repeat' first
    | with_reducible assumption
    | with_reducible apply Dev.snoopTimeout_kept

theorem execAgentSuspect_kept (report : Suspicion) (cause : BitVec 2) (s : State) (t : State) (h : execAgentSuspect report cause s = .next t) : Kept s.toDev t.toDev := by
  have hz := Kept.refl s.toDev
  rw [onDev_next h]
  try dsimp only
  repeat' first
    | with_reducible assumption
    | with_reducible apply Dev.agentSuspectIn_kept

theorem execAgentDead_kept (agent : Agent) (cause : BitVec 2) (s : State) (t : State) (h : execAgentDead agent cause s = .next t) : Kept s.toDev t.toDev := by
  have hz := Kept.refl s.toDev
  rw [onDev_next h]
  try dsimp only
  repeat' first
    | with_reducible assumption
    | with_reducible apply Dev.agentDeadIn_kept

theorem execFenced_kept (sender : Pos) (agent : Agent) (s : State) (t : State) (h : execFenced sender agent s = .next t) : Kept s.toDev t.toDev := by
  have hz := Kept.refl s.toDev
  rw [onDev_next h]
  try dsimp only
  repeat' first
    | with_reducible assumption
    | with_reducible apply Dev.fencedIn_kept

theorem execReclaim_kept (agent : Agent) (s : State) (t : State) (h : execReclaim agent s = .next t) : Kept s.toDev t.toDev := by
  have hz := Kept.refl s.toDev
  rw [onDev_next h]
  try dsimp only
  repeat' first
    | with_reducible assumption
    | with_reducible apply Dev.reclaimIn_kept

theorem execDeathWalkEnd_kept (agent : Agent) (s : State) (t : State) (h : execDeathWalkEnd agent s = .next t) : Kept s.toDev t.toDev := by
  have hz := Kept.refl s.toDev
  rw [onDev_next h]
  try dsimp only
  repeat' first
    | with_reducible assumption
    | with_reducible apply Dev.deathEnd_kept

theorem execTicketHoldExpiry_kept (facet : BitVec 6) (ticket : BitVec 16) (s : State) (t : State) (h : execTicketHoldExpiry facet ticket s = .next t) : Kept s.toDev t.toDev := by
  have hz := Kept.refl s.toDev
  rw [onDev_next h]
  try dsimp only
  repeat' first
    | with_reducible assumption
    | with_reducible apply Dev.ticketLapse_kept

theorem execFrameTick_kept (s : State) (t : State) (h : execFrameTick s = .next t) : Kept s.toDev t.toDev := by
  have hz := Kept.refl s.toDev
  rw [onDev_next h]
  try dsimp only
  repeat' first
    | with_reducible assumption
    | with_reducible apply Dev.frameTick_kept

theorem execHoldoverBoundary_kept (s : State) (t : State) (h : execHoldoverBoundary s = .next t) : Kept s.toDev t.toDev := by
  have hz := Kept.refl s.toDev
  rw [onDev_next h]
  try dsimp only
  repeat' first
    | with_reducible assumption
    | with_reducible apply Dev.holdover_kept

theorem execHoldoverHalt_kept (s : State) (t : State) (h : execHoldoverHalt s = .next t) : Kept s.toDev t.toDev := by
  have hz := Kept.refl s.toDev
  rw [onDev_next h]
  try dsimp only
  repeat' first
    | with_reducible assumption
    | with_reducible apply Dev.holdoverHalt_kept

theorem execPlanResume_kept (s : State) (t : State) (h : execPlanResume s = .next t) : Kept s.toDev t.toDev := by
  have hz := Kept.refl s.toDev
  rw [onDev_next h]
  try dsimp only
  repeat' first
    | with_reducible assumption
    | with_reducible apply Dev.planResume_kept

theorem execSlotStart_kept (s : State) (t : State) (h : execSlotStart s = .next t) : Kept s.toDev t.toDev := by
  have hz := Kept.refl s.toDev
  rw [onDev_next h]
  try dsimp only
  repeat' first
    | with_reducible assumption
    | with_reducible apply Dev.slotStart_kept

theorem execHeartbeatMissed_kept (lost : Pos) (s : State) (t : State) (h : execHeartbeatMissed lost s = .next t) : Kept s.toDev t.toDev := by
  have hz := Kept.refl s.toDev
  rw [onDev_next h]
  try dsimp only
  repeat' first
    | with_reducible assumption
    | with_reducible apply Dev.heartbeatMissed_kept

theorem execHeartbeat_kept (sender : Pos) (frame : Frame) (usable : Bool) (lostLinks : BitVec 10) (ackLink : BitVec 4) (ackSeq : BitVec 12) (s : State) (t : State) (h : execHeartbeat sender frame usable lostLinks ackLink ackSeq s = .next t) : Kept s.toDev t.toDev := by
  have hz := Kept.refl s.toDev
  rw [onDev_next h]
  try dsimp only
  repeat' first
    | with_reducible assumption
    | with_reducible apply Dev.heartbeatIn_kept

theorem execFrameDone_kept (sender : Pos) (frame : Frame) (_usable : Bool) (s : State) (t : State) (h : execFrameDone sender frame _usable s = .next t) : Kept s.toDev t.toDev := by
  have hz := Kept.refl s.toDev
  rw [onDev_next h]
  try dsimp only
  repeat' first
    | with_reducible assumption
    | with_reducible apply Dev.frameDoneIn_kept

theorem execFrameGo_kept (frame : Frame) (degraded : Bool) (s : State) (t : State) (h : execFrameGo frame degraded s = .next t) : Kept s.toDev t.toDev := by
  have hz := Kept.refl s.toDev
  rw [onDev_next h]
  try dsimp only
  repeat' first
    | with_reducible assumption
    | with_reducible apply Dev.frameGoIn_kept

theorem execDegradedSwitch_kept (s : State) (t : State) (h : execDegradedSwitch s = .next t) : Kept s.toDev t.toDev := by
  have hz := Kept.refl s.toDev
  rw [onDev_next h]
  try dsimp only
  repeat' first
    | with_reducible assumption
    | with_reducible apply Dev.degradedSwitch_kept

theorem execEclipse_kept (cause : BitVec 8) (origin : Pos) (s : State) (t : State) (h : execEclipse cause origin s = .next t) : Kept s.toDev t.toDev := by
  have hz := Kept.refl s.toDev
  rw [onDev_next h]
  try dsimp only
  repeat' first
    | with_reducible assumption
    | with_reducible apply Dev.eclipseIn_kept

theorem execRampStep_kept (s : State) (t : State) (h : execRampStep s = .next t) : Kept s.toDev t.toDev := by
  have hz := Kept.refl s.toDev
  rw [onDev_next h]
  try dsimp only
  repeat' first
    | with_reducible assumption
    | with_reducible apply Dev.rampStep_kept

theorem execStagingWrite_kept (w : Writer) (offset : BitVec 15) (mask : BitVec 8) (value : BitVec 64) (s : State) (t : State) (h : execStagingWrite w offset mask value s = .next t) : Kept s.toDev t.toDev := by
  have hz := Kept.refl s.toDev
  rw [onDev_next h]
  try dsimp only
  repeat' first
    | with_reducible assumption
    | with_reducible apply Dev.stagingWrite_kept

theorem execImgSeal_kept (value : BitVec 64) (s : State) (t : State) (h : execImgSeal value s = .next t) : Kept s.toDev t.toDev := by
  have hz := Kept.refl s.toDev
  rw [onDev_next h]
  try dsimp only
  repeat' first
    | with_reducible assumption
    | (with_reducible refine kept_ite ?_ ?_)
    | with_reducible apply Dev.imgSealWrite_kept

theorem execMemoryInitDone_kept (durationUs : BitVec 16) (s : State) (t : State) (h : execMemoryInitDone durationUs s = .next t) : Kept s.toDev t.toDev := by
  have hz := Kept.refl s.toDev
  rw [onDev_next h]
  try dsimp only
  repeat' first
    | with_reducible assumption
    | with_reducible apply Dev.memoryInitDone_kept

theorem execShadeZeroFillDone_kept (s : State) (t : State) (h : execShadeZeroFillDone s = .next t) : Kept s.toDev t.toDev := by
  have hz := Kept.refl s.toDev
  rw [onDev_next h]
  try dsimp only
  repeat' first
    | with_reducible assumption
    | with_reducible apply Dev.zeroFillDone_kept

theorem execLoad_kept (w : Writer) (s : State) (t : State) (h : execLoad w s = .next t) : Kept s.toDev t.toDev := by
  have hz := Kept.refl s.toDev
  rw [onDev_next h]
  try dsimp only
  repeat' first
    | with_reducible assumption
    | with_reducible apply Dev.command_kept

theorem execQuiesce_kept (w : Writer) (s : State) (t : State) (h : execQuiesce w s = .next t) : Kept s.toDev t.toDev := by
  have hz := Kept.refl s.toDev
  rw [onDev_next h]
  try dsimp only
  repeat' first
    | with_reducible assumption
    | with_reducible apply Dev.command_kept

theorem execApplyPatch_kept (w : Writer) (s : State) (t : State) (h : execApplyPatch w s = .next t) : Kept s.toDev t.toDev := by
  have hz := Kept.refl s.toDev
  rw [onDev_next h]
  try dsimp only
  repeat' first
    | with_reducible assumption
    | with_reducible apply Dev.command_kept

theorem execLiftFence_kept (w : Writer) (agent : Agent) (s : State) (t : State) (h : execLiftFence w agent s = .next t) : Kept s.toDev t.toDev := by
  have hz := Kept.refl s.toDev
  rw [onDev_next h]
  try dsimp only
  repeat' first
    | with_reducible assumption
    | with_reducible apply Dev.command_kept

theorem execDebugToken_kept (w : Writer) (s : State) (t : State) (h : execDebugToken w s = .next t) : Kept s.toDev t.toDev := by
  have hz := Kept.refl s.toDev
  rw [onDev_next h]
  try dsimp only
  repeat' first
    | with_reducible assumption
    | with_reducible apply Dev.command_kept

theorem execDebugLock_kept (w : Writer) (s : State) (t : State) (h : execDebugLock w s = .next t) : Kept s.toDev t.toDev := by
  have hz := Kept.refl s.toDev
  rw [onDev_next h]
  try dsimp only
  repeat' first
    | with_reducible assumption
    | with_reducible apply Dev.command_kept

theorem execRevokeKey_kept (w : Writer) (slot : BitVec 48) (s : State) (t : State) (h : execRevokeKey w slot s = .next t) : Kept s.toDev t.toDev := by
  have hz := Kept.refl s.toDev
  rw [onDev_next h]
  try dsimp only
  repeat' first
    | with_reducible assumption
    | with_reducible apply Dev.command_kept

theorem execRaiseVersion_kept (w : Writer) (s : State) (t : State) (h : execRaiseVersion w s = .next t) : Kept s.toDev t.toDev := by
  have hz := Kept.refl s.toDev
  rw [onDev_next h]
  try dsimp only
  repeat' first
    | with_reducible assumption
    | with_reducible apply Dev.command_kept

theorem execDim_kept (w : Writer) (s : State) (t : State) (h : execDim w s = .next t) : Kept s.toDev t.toDev := by
  have hz := Kept.refl s.toDev
  rw [onDev_next h]
  try dsimp only
  repeat' first
    | with_reducible assumption
    | with_reducible apply Dev.command_kept

theorem execLit_kept (w : Writer) (s : State) (t : State) (h : execLit w s = .next t) : Kept s.toDev t.toDev := by
  have hz := Kept.refl s.toDev
  rw [onDev_next h]
  try dsimp only
  repeat' first
    | with_reducible assumption
    | with_reducible apply Dev.command_kept

theorem execDusk_kept (w : Writer) (s : State) (t : State) (h : execDusk w s = .next t) : Kept s.toDev t.toDev := by
  have hz := Kept.refl s.toDev
  rw [onDev_next h]
  try dsimp only
  repeat' first
    | with_reducible assumption
    | with_reducible apply Dev.command_kept

theorem execDuskDrained_kept (s : State) (t : State) (h : execDuskDrained s = .next t) : Kept s.toDev t.toDev := by
  have hz := Kept.refl s.toDev
  rw [onDev_next h]
  try dsimp only
  repeat' first
    | with_reducible assumption
    | with_reducible apply Dev.duskDrained_kept

theorem execNight_kept (w : Writer) (s : State) (t : State) (h : execNight w s = .next t) : Kept s.toDev t.toDev := by
  have hz := Kept.refl s.toDev
  rw [onDev_next h]
  try dsimp only
  repeat' first
    | with_reducible assumption
    | with_reducible apply Dev.command_kept

theorem execResetWarm_kept (w : Writer) (targets : BitVec 8) (s : State) (t : State) (h : execResetWarm w targets s = .next t) : Kept s.toDev t.toDev := by
  have hz := Kept.refl s.toDev
  rw [onDev_next h]
  try dsimp only
  repeat' first
    | with_reducible assumption
    | with_reducible apply Dev.command_kept

theorem execResetCold_kept (w : Writer) (targets : BitVec 8) (s : State) (t : State) (h : execResetCold w targets s = .next t) : Kept s.toDev t.toDev := by
  have hz := Kept.refl s.toDev
  rw [onDev_next h]
  try dsimp only
  repeat' first
    | with_reducible assumption
    | with_reducible apply Dev.command_kept

theorem execResetBlock_kept (w : Writer) (targets : BitVec 8) (block : BitVec 8) (s : State) (t : State) (h : execResetBlock w targets block s = .next t) : Kept s.toDev t.toDev := by
  have hz := Kept.refl s.toDev
  rw [onDev_next h]
  try dsimp only
  repeat' first
    | with_reducible assumption
    | with_reducible apply Dev.command_kept

theorem execExpose_kept (w : Writer) (frame : Frame) (s : State) (t : State) (h : execExpose w frame s = .next t) : Kept s.toDev t.toDev := by
  have hz := Kept.refl s.toDev
  rw [onDev_next h]
  try dsimp only
  repeat' first
    | with_reducible assumption
    | with_reducible apply Dev.command_kept

theorem execCtlExpose_kept (frame : Frame) (s : State) (t : State) (h : execCtlExpose frame s = .next t) : Kept s.toDev t.toDev := by
  have hz := Kept.refl s.toDev
  rw [onDev_next h]
  try dsimp only
  repeat' first
    | with_reducible assumption
    | (with_reducible refine kept_ite ?_ ?_)
    | with_reducible apply Dev.exposeIn_kept

theorem execClearCounters_kept (w : Writer) (groups : BitVec 12) (s : State) (t : State) (h : execClearCounters w groups s = .next t) : Kept s.toDev t.toDev := by
  have hz := Kept.refl s.toDev
  rw [onDev_next h]
  try dsimp only
  repeat' first
    | with_reducible assumption
    | with_reducible apply Dev.command_kept

theorem execClearLog_kept (w : Writer) (s : State) (t : State) (h : execClearLog w s = .next t) : Kept s.toDev t.toDev := by
  have hz := Kept.refl s.toDev
  rw [onDev_next h]
  try dsimp only
  repeat' first
    | with_reducible assumption
    | with_reducible apply Dev.command_kept

theorem execReservedCommand_kept (w : Writer) (code : BitVec 8) (s : State) (t : State) (h : execReservedCommand w code s = .next t) : Kept s.toDev t.toDev := by
  have hz := Kept.refl s.toDev
  rw [onDev_next h]
  try dsimp only
  repeat' first
    | with_reducible assumption
    | with_reducible apply Dev.command_kept

theorem execCommandEnd_kept (s : State) (t : State) (h : execCommandEnd s = .next t) : Kept s.toDev t.toDev := by
  have hz := Kept.refl s.toDev
  rw [onDev_next h]
  try dsimp only
  repeat' first
    | with_reducible assumption
    | with_reducible apply Dev.commandEnd_kept

theorem execForward_kept (sender : Pos) (code : BitVec 8) (arg : BitVec 48) (s : State) (t : State) (h : execForward sender code arg s = .next t) : Kept s.toDev t.toDev := by
  have hz := Kept.refl s.toDev
  rw [onDev_next h]
  try dsimp only
  repeat' first
    | with_reducible assumption
    | with_reducible apply Dev.forwardIn_kept

theorem execReady_kept (sender : Pos) (s : State) (t : State) (h : execReady sender s = .next t) : Kept s.toDev t.toDev := by
  have hz := Kept.refl s.toDev
  rw [onDev_next h]
  try dsimp only
  repeat' first
    | with_reducible assumption
    | (with_reducible refine kept_ite ?_ ?_)
    | with_reducible apply Dev.readyIn_kept

theorem execRefused_kept (sender : Pos) (code : BitVec 8) (s : State) (t : State) (h : execRefused sender code s = .next t) : Kept s.toDev t.toDev := by
  have hz := Kept.refl s.toDev
  rw [onDev_next h]
  try dsimp only
  repeat' first
    | with_reducible assumption
    | (with_reducible refine kept_ite ?_ ?_)
    | with_reducible apply Dev.refusedIn_kept

theorem execCommit_kept (frame : Frame) (s : State) (t : State) (h : execCommit frame s = .next t) : Kept s.toDev t.toDev := by
  have hz := Kept.refl s.toDev
  rw [onDev_next h]
  try dsimp only
  repeat' first
    | with_reducible assumption
    | (with_reducible refine kept_ite ?_ ?_)
    | with_reducible apply Dev.commitIn_kept

theorem execAbort_kept (code : BitVec 8) (s : State) (t : State) (h : execAbort code s = .next t) : Kept s.toDev t.toDev := by
  have hz := Kept.refl s.toDev
  rw [onDev_next h]
  try dsimp only
  repeat' first
    | with_reducible assumption
    | (with_reducible refine kept_ite ?_ ?_)
    | with_reducible apply Dev.abortIn_kept

theorem execSeal_kept (frame : Frame) (s : State) (t : State) (h : execSeal frame s = .next t) : Kept s.toDev t.toDev := by
  have hz := Kept.refl s.toDev
  rw [onDev_next h]
  try dsimp only
  repeat' first
    | with_reducible assumption
    | (with_reducible refine kept_ite ?_ ?_)
    | with_reducible apply Dev.sealIn_kept

theorem execCtlResetWarm_kept (via : Via) (w : Sender) (targets : BitVec 8) (s : State) (t : State) (h : execCtlResetWarm via w targets s = .next t) : Kept s.toDev t.toDev := by
  have hz := Kept.refl s.toDev
  rw [onDev_next h]
  try dsimp only
  repeat' first
    | with_reducible assumption
    | with_reducible apply Dev.ctlReset_kept

theorem execCtlResetCold_kept (via : Via) (w : Sender) (targets : BitVec 8) (s : State) (t : State) (h : execCtlResetCold via w targets s = .next t) : Kept s.toDev t.toDev := by
  have hz := Kept.refl s.toDev
  rw [onDev_next h]
  try dsimp only
  repeat' first
    | with_reducible assumption
    | with_reducible apply Dev.ctlReset_kept

theorem execCtlResetBlock_kept (via : Via) (w : Sender) (targets : BitVec 8) (block : BitVec 8) (s : State) (t : State) (h : execCtlResetBlock via w targets block s = .next t) : Kept s.toDev t.toDev := by
  have hz := Kept.refl s.toDev
  rw [onDev_next h]
  try dsimp only
  repeat' first
    | with_reducible assumption
    | with_reducible apply Dev.ctlReset_kept

theorem execCtlResetReserved_kept (via : Via) (w : Sender) (s : State) (t : State) (h : execCtlResetReserved via w s = .next t) : Kept s.toDev t.toDev := by
  have hz := Kept.refl s.toDev
  rw [onDev_next h]
  try dsimp only
  repeat' first
    | with_reducible assumption
    | with_reducible apply Dev.ctlReset_kept

theorem execWakeLit_kept (sender : Pos) (s : State) (t : State) (h : execWakeLit sender s = .next t) : Kept s.toDev t.toDev := by
  have hz := Kept.refl s.toDev
  rw [onDev_next h]
  try dsimp only
  repeat' first
    | with_reducible assumption
    | with_reducible apply Dev.wakeLitIn_kept

theorem execRflDoneOk_kept (entry : BitVec 8) (s : State) (t : State) (h : execRflDoneOk entry s = .next t) : Kept s.toDev t.toDev := by
  have hz := Kept.refl s.toDev
  rw [onDev_next h]
  try dsimp only
  repeat' first
    | with_reducible assumption
    | with_reducible apply Dev.rflDone_kept
    | with_reducible apply Dev.settle_kept

theorem execRflDonePoison_kept (entry : BitVec 8) (s : State) (t : State) (h : execRflDonePoison entry s = .next t) : Kept s.toDev t.toDev := by
  have hz := Kept.refl s.toDev
  rw [onDev_next h]
  try dsimp only
  repeat' first
    | with_reducible assumption
    | with_reducible apply Dev.rflDone_kept
    | with_reducible apply Dev.settle_kept

theorem execRflDoneDeny_kept (entry : BitVec 8) (s : State) (t : State) (h : execRflDoneDeny entry s = .next t) : Kept s.toDev t.toDev := by
  have hz := Kept.refl s.toDev
  rw [onDev_next h]
  try dsimp only
  repeat' first
    | with_reducible assumption
    | with_reducible apply Dev.rflDone_kept
    | with_reducible apply Dev.settle_kept

theorem execRflEntryTimeout_kept (entry : BitVec 8) (s : State) (t : State) (h : execRflEntryTimeout entry s = .next t) : Kept s.toDev t.toDev := by
  have hz := Kept.refl s.toDev
  rw [onDev_next h]
  try dsimp only
  repeat' first
    | with_reducible assumption
    | with_reducible apply Dev.rflTimeout_kept
    | with_reducible apply Dev.settle_kept

theorem execPodSync_kept (sender : Pos) (src : Agent) (txid : BitVec 12) (s : State) (t : State) (h : execPodSync sender src txid s = .next t) : Kept s.toDev t.toDev := by
  have hz := Kept.refl s.toDev
  rw [onDev_next h]
  try dsimp only
  repeat' first
    | with_reducible assumption
    | with_reducible apply Dev.podSyncIn_kept

theorem execPodSyncDone_kept (sender : Pos) (src : Agent) (txid : BitVec 12) (s : State) (t : State) (h : execPodSyncDone sender src txid s = .next t) : Kept s.toDev t.toDev := by
  have hz := Kept.refl s.toDev
  rw [onDev_next h]
  try dsimp only
  repeat' first
    | with_reducible assumption
    | (with_reducible refine kept_ite ?_ ?_)
    | with_reducible apply Dev.podDoneIn_kept
    | with_reducible apply Dev.settle_kept

theorem execReadShared_kept (r : Request) (s : State) (t : State) (h : execReadShared r s = .next t) : Kept s.toDev t.toDev := by
  have hz := Kept.refl s.toDev
  rw [onDev_next h]
  try dsimp only
  repeat' first
    | with_reducible assumption
    | with_reducible apply Dev.request_kept
    | with_reducible apply Dev.settle_kept

theorem execReadUnique_kept (r : Request) (s : State) (t : State) (h : execReadUnique r s = .next t) : Kept s.toDev t.toDev := by
  have hz := Kept.refl s.toDev
  rw [onDev_next h]
  try dsimp only
  repeat' first
    | with_reducible assumption
    | with_reducible apply Dev.request_kept
    | with_reducible apply Dev.settle_kept

theorem execClaim_kept (r : Request) (s : State) (t : State) (h : execClaim r s = .next t) : Kept s.toDev t.toDev := by
  have hz := Kept.refl s.toDev
  rw [onDev_next h]
  try dsimp only
  repeat' first
    | with_reducible assumption
    | with_reducible apply Dev.request_kept
    | with_reducible apply Dev.settle_kept

theorem execReadOnce_kept (r : Request) (s : State) (t : State) (h : execReadOnce r s = .next t) : Kept s.toDev t.toDev := by
  have hz := Kept.refl s.toDev
  rw [onDev_next h]
  try dsimp only
  repeat' first
    | with_reducible assumption
    | with_reducible apply Dev.request_kept
    | with_reducible apply Dev.settle_kept

theorem execReadOnceNofill_kept (r : Request) (s : State) (t : State) (h : execReadOnceNofill r s = .next t) : Kept s.toDev t.toDev := by
  have hz := Kept.refl s.toDev
  rw [onDev_next h]
  try dsimp only
  repeat' first
    | with_reducible assumption
    | with_reducible apply Dev.request_kept
    | with_reducible apply Dev.settle_kept

theorem execWrite_kept (r : Request) (s : State) (t : State) (h : execWrite r s = .next t) : Kept s.toDev t.toDev := by
  have hz := Kept.refl s.toDev
  rw [onDev_next h]
  try dsimp only
  repeat' first
    | with_reducible assumption
    | with_reducible apply Dev.request_kept
    | with_reducible apply Dev.settle_kept

theorem execWriteBack_kept (r : Request) (s : State) (t : State) (h : execWriteBack r s = .next t) : Kept s.toDev t.toDev := by
  have hz := Kept.refl s.toDev
  rw [onDev_next h]
  try dsimp only
  repeat' first
    | with_reducible assumption
    | with_reducible apply Dev.request_kept
    | with_reducible apply Dev.settle_kept

theorem execDarken_kept (r : Request) (s : State) (t : State) (h : execDarken r s = .next t) : Kept s.toDev t.toDev := by
  have hz := Kept.refl s.toDev
  rw [onDev_next h]
  try dsimp only
  repeat' first
    | with_reducible assumption
    | with_reducible apply Dev.request_kept
    | with_reducible apply Dev.settle_kept

theorem execClean_kept (r : Request) (s : State) (t : State) (h : execClean r s = .next t) : Kept s.toDev t.toDev := by
  have hz := Kept.refl s.toDev
  rw [onDev_next h]
  try dsimp only
  repeat' first
    | with_reducible assumption
    | with_reducible apply Dev.request_kept
    | with_reducible apply Dev.settle_kept

theorem execInvalidate_kept (r : Request) (s : State) (t : State) (h : execInvalidate r s = .next t) : Kept s.toDev t.toDev := by
  have hz := Kept.refl s.toDev
  rw [onDev_next h]
  try dsimp only
  repeat' first
    | with_reducible assumption
    | with_reducible apply Dev.request_kept
    | with_reducible apply Dev.settle_kept

theorem execCleanInvalidate_kept (r : Request) (s : State) (t : State) (h : execCleanInvalidate r s = .next t) : Kept s.toDev t.toDev := by
  have hz := Kept.refl s.toDev
  rw [onDev_next h]
  try dsimp only
  repeat' first
    | with_reducible assumption
    | with_reducible apply Dev.request_kept
    | with_reducible apply Dev.settle_kept

theorem execAtomic_kept (r : Request) (s : State) (t : State) (h : execAtomic r s = .next t) : Kept s.toDev t.toDev := by
  have hz := Kept.refl s.toDev
  rw [onDev_next h]
  try dsimp only
  repeat' first
    | with_reducible assumption
    | with_reducible apply Dev.request_kept
    | with_reducible apply Dev.settle_kept

theorem execFarAtomic_kept (r : Request) (s : State) (t : State) (h : execFarAtomic r s = .next t) : Kept s.toDev t.toDev := by
  have hz := Kept.refl s.toDev
  rw [onDev_next h]
  try dsimp only
  repeat' first
    | with_reducible assumption
    | with_reducible apply Dev.request_kept
    | with_reducible apply Dev.settle_kept

theorem execReduceStore_kept (r : Request) (s : State) (t : State) (h : execReduceStore r s = .next t) : Kept s.toDev t.toDev := by
  have hz := Kept.refl s.toDev
  rw [onDev_next h]
  try dsimp only
  repeat' first
    | with_reducible assumption
    | with_reducible apply Dev.request_kept
    | with_reducible apply Dev.settle_kept

theorem execWriteData_kept (src : Agent) (txid : BitVec 12) (off : BitVec 8) (data : List Sub) (s : State) (t : State) (h : execWriteData src txid off data s = .next t) : Kept s.toDev t.toDev := by
  have hz := Kept.refl s.toDev
  rw [onDev_next h]
  try dsimp only
  repeat' first
    | with_reducible assumption
    | with_reducible apply Dev.writeDataIn_kept
    | with_reducible apply Dev.settle_kept

theorem execCsrWrite_kept (w : Writer) (offset : BitVec 24) (value : BitVec 64) (s : State) (t : State) (h : execCsrWrite w offset value s = .next t) : Kept s.toDev t.toDev := by
  have hz := Kept.refl s.toDev
  rw [onDev_next h]
  try dsimp only
  repeat' first
    | with_reducible assumption
    | with_reducible apply Dev.csrWriteBy_kept

theorem execDramReadComplete_kept (id : Nat) (errs : List (List SymErr)) (s : State) (t : State) (h : execDramReadComplete id errs s = .next t) : Kept s.toDev t.toDev := by
  have hz := Kept.refl s.toDev
  rw [onDev_next h]
  try dsimp only
  repeat' first
    | with_reducible assumption
    | with_reducible apply Dev.dramReadDone_kept

theorem execDramWriteComplete_kept (id : Nat) (s : State) (t : State) (h : execDramWriteComplete id s = .next t) : Kept s.toDev t.toDev := by
  have hz := Kept.refl s.toDev
  rw [onDev_next h]
  try dsimp only
  repeat' first
    | with_reducible assumption
    | with_reducible apply Dev.dramWriteDone_kept

theorem execRetirementCopyDone_kept (badSubs : List (BitVec 7)) (s : State) (t : State) (h : execRetirementCopyDone badSubs s = .next t) : Kept s.toDev t.toDev := by
  have hz := Kept.refl s.toDev
  rw [onDev_next h]
  try dsimp only
  repeat' first
    | with_reducible assumption
    | with_reducible apply Dev.copyDone_kept

theorem execChannelFail_kept (stack : Fin 2) (channel : Fin 32) (s : State) (t : State) (h : execChannelFail stack channel s = .next t) : Kept s.toDev t.toDev := by
  have hz := Kept.refl s.toDev
  rw [onDev_next h]
  try dsimp only
  repeat' first
    | with_reducible assumption
    | with_reducible apply Dev.channelFail_kept

theorem execMirrorPut_kept (sender : Pos) (txid : BitVec 12) (sector : BitVec 64) (subs : BitVec 4) (fgroup : BitVec 6) (data : List Sub) (record : Option AtomicRecord) (s : State) (t : State) (h : execMirrorPut sender txid sector subs fgroup data record s = .next t) : Kept s.toDev t.toDev := by
  have hz := Kept.refl s.toDev
  rw [onDevAt_next h]
  try dsimp only
  repeat' first
    | with_reducible assumption
    | (with_reducible refine kept_ite ?_ ?_)
    | with_reducible apply Dev.mirrorPutIn_kept

theorem execMirrorRelease_kept (sender : Pos) (sector : BitVec 64) (subs : BitVec 4) (fgroup : BitVec 6) (s : State) (t : State) (h : execMirrorRelease sender sector subs fgroup s = .next t) : Kept s.toDev t.toDev := by
  have hz := Kept.refl s.toDev
  rw [onDevAt_next h]
  try dsimp only
  repeat' first
    | with_reducible assumption
    | (with_reducible refine kept_ite ?_ ?_)
    | with_reducible apply Dev.mirrorReleaseIn_kept

theorem execParityDelta_kept (sender : Pos) (txid : BitVec 12) (d : BitVec 64) (delta : Sub) (poison : Bool) (s : State) (t : State) (h : execParityDelta sender txid d delta poison s = .next t) : Kept s.toDev t.toDev := by
  have hz := Kept.refl s.toDev
  rw [onDevAt_next h]
  try dsimp only
  repeat' first
    | with_reducible assumption
    | (with_reducible refine kept_ite ?_ ?_)
    | with_reducible apply Dev.parityArrive_kept

theorem execParityRelease_kept (sender : Pos) (txid : BitVec 12) (d : BitVec 64) (s : State) (t : State) (h : execParityRelease sender txid d s = .next t) : Kept s.toDev t.toDev := by
  have hz := Kept.refl s.toDev
  rw [onDevAt_next h]
  try dsimp only
  repeat' first
    | with_reducible assumption
    | (with_reducible refine kept_ite ?_ ?_)
    | with_reducible apply Dev.parityReleased_kept

theorem execReconRead_kept (sender : ReconSender) (txid : BitVec 12) (d : BitVec 64) (s : State) (t : State) (h : execReconRead sender txid d s = .next t) : Kept s.toDev t.toDev := by
  have hz := Kept.refl s.toDev
  rw [onDevAt_next h]
  try dsimp only
  repeat' first
    | with_reducible assumption
    | (with_reducible refine kept_ite ?_ ?_)
    | with_reducible apply Dev.reconRead_kept

theorem execReadData_kept (a : ReconAnswer) (s : State) (t : State) (h : execReadData a s = .next t) : Kept s.toDev t.toDev := by
  have hz := Kept.refl s.toDev
  rw [onDev_next h]
  try dsimp only
  repeat' first
    | with_reducible assumption
    | (with_reducible refine kept_ite ?_ ?_)
    | with_reducible apply Dev.readDataIn_kept

theorem execComp_kept (sender : Pos) (txid : BitVec 12) (codes : List (BitVec 3)) (s : State) (t : State) (h : execComp sender txid codes s = .next t) : Kept s.toDev t.toDev := by
  have hz := Kept.refl s.toDev
  rw [onDev_next h]
  try dsimp only
  repeat' first
    | with_reducible assumption
    | (with_reducible refine kept_ite ?_ ?_)
    | with_reducible apply Dev.compIn_kept

theorem execPull_kept (sender : Pos) (txid : BitVec 12) (s : State) (t : State) (h : execPull sender txid s = .next t) : Kept s.toDev t.toDev := by
  have hz := Kept.refl s.toDev
  rw [onDev_next h]
  try dsimp only
  repeat' first
    | with_reducible assumption
    | (with_reducible refine kept_ite ?_ ?_)
    | with_reducible apply Dev.pullIn_kept

theorem execWaveStart_kept (engine : Fin 4) (badSubs : List (Space × BitVec 64)) (accBad : List (BitVec 14 × DataErr)) (s : State) (t : State) (h : execWaveStart engine badSubs accBad s = .next t) : Kept s.toDev t.toDev := by
  have hz := Kept.refl s.toDev
  rw [onDev_next h]
  try dsimp only
  repeat' first
    | with_reducible assumption
    | (with_reducible refine kept_ite ?_ ?_)
    | with_reducible apply Dev.startWave_kept
    | with_reducible apply Dev.flowTakes_kept
    | with_reducible apply Dev.settle_kept

theorem execWaveComplete_kept (engine : Fin 4) (s : State) (t : State) (h : execWaveComplete engine s = .next t) : Kept s.toDev t.toDev := by
  have hz := Kept.refl s.toDev
  rw [onDev_next h]
  try dsimp only
  repeat' first
    | with_reducible assumption
    | (with_reducible refine kept_ite ?_ ?_)
    | with_reducible apply Dev.endWave_kept
    | with_reducible apply Dev.retakes_kept
    | with_reducible apply Dev.settle_kept
    | with_reducible apply Dev.checkDone_kept

theorem execFlowStart_kept (flow : BitVec 12) (s : State) (t : State) (h : execFlowStart flow s = .next t) : Kept s.toDev t.toDev := by
  have hz := Kept.refl s.toDev
  rw [onDev_next h]
  try dsimp only
  repeat' first
    | with_reducible assumption
    | (with_reducible refine kept_ite ?_ ?_)
    | with_reducible apply Dev.startFlow_kept
    | with_reducible apply Dev.settle_kept

theorem execFlowLineApply_kept (flow : BitVec 12) (line : BitVec 17) (s : State) (t : State) (h : execFlowLineApply flow line s = .next t) : Kept s.toDev t.toDev := by
  have hz := Kept.refl s.toDev
  rw [onDev_next h]
  try dsimp only
  repeat' first
    | with_reducible assumption
    | (with_reducible refine kept_ite ?_ ?_)
    | with_reducible apply Dev.applyFlow_kept
    | with_reducible apply Dev.settle_kept

theorem execFlowComplete_kept (flow : BitVec 12) (s : State) (t : State) (h : execFlowComplete flow s = .next t) : Kept s.toDev t.toDev := by
  have hz := Kept.refl s.toDev
  rw [onDev_next h]
  try dsimp only
  repeat' first
    | with_reducible assumption
    | (with_reducible refine kept_ite ?_ ?_)
    | with_reducible apply Dev.endFlow_kept
    | with_reducible apply Dev.retakes_kept
    | with_reducible apply Dev.settle_kept
    | with_reducible apply Dev.checkDone_kept

theorem execTransferComplete_kept (index : BitVec 12) (s : State) (t : State) (h : execTransferComplete index s = .next t) : Kept s.toDev t.toDev := by
  have hz := Kept.refl s.toDev
  rw [onDev_next h]
  try dsimp only
  repeat' first
    | with_reducible assumption
    | (with_reducible refine kept_ite ?_ ?_)
    | with_reducible apply Dev.endTransfer_kept
    | with_reducible apply Dev.retakes_kept
    | with_reducible apply Dev.settle_kept
    | with_reducible apply Dev.checkDone_kept

theorem execGlint_kept (_port : Fin 6) (training : Bool) (s : State) (t : State) (h : execGlint _port training s = .next t) : Kept s.toDev t.toDev := by
  have hz := Kept.refl s.toDev
  rw [onDev_next h]
  try dsimp only
  repeat' first
    | with_reducible assumption
    | with_reducible apply Dev.glintIn_kept

theorem execRstBlock_kept (value : BitVec 64) (s : State) (t : State) (h : execRstBlock value s = .next t) : Kept s.toDev t.toDev := by
  have hz := Kept.refl s.toDev
  rw [onDev_next h]
  try dsimp only
  repeat' first
    | with_reducible assumption
    | (with_reducible refine kept_ite ?_ ?_)
    | with_reducible apply Dev.rstBlockWrite_kept

theorem execBlockIdle_kept (s : State) (t : State) (h : execBlockIdle s = .next t) : Kept s.toDev t.toDev := by
  have hz := Kept.refl s.toDev
  rw [onDev_next h]
  try dsimp only
  repeat' first
    | with_reducible assumption
    | with_reducible apply Dev.blockIdle_kept

theorem execBlockIdleTimeout_kept (s : State) (t : State) (h : execBlockIdleTimeout s = .next t) : Kept s.toDev t.toDev := by
  have hz := Kept.refl s.toDev
  rw [onDev_next h]
  try dsimp only
  repeat' first
    | with_reducible assumption
    | with_reducible apply Dev.blockTimedOut_kept

theorem execRstWdog_kept (s : State) (t : State) (h : execRstWdog s = .next t) : Kept s.toDev t.toDev := by
  have hz := Kept.refl s.toDev
  rw [onDev_next h]
  try dsimp only
  repeat' first
    | with_reducible assumption
    | (fail_if_no_progress with_reducible refine Kept.upd ?_ (by rfl) (by rfl) (by rfl))

theorem execGnmCoreWdog_kept (core : Fin 4) (s : State) (t : State) (h : execGnmCoreWdog core s = .next t) : Kept s.toDev t.toDev := by
  have hz := Kept.refl s.toDev
  rw [onDev_next h]
  try dsimp only
  repeat' first
    | with_reducible assumption
    | (fail_if_no_progress with_reducible refine Kept.upd ?_ (by rfl) (by rfl) (by rfl))

theorem execCpWatchdogExpiry_kept (s : State) (t : State) (h : execCpWatchdogExpiry s = .next t) : Kept s.toDev t.toDev := by
  have hz := Kept.refl s.toDev
  rw [onDev_next h]
  try dsimp only
  repeat' first
    | with_reducible assumption
    | with_reducible apply Dev.cpExpiry_kept

theorem execCoreWatchdogExpiry_kept (core : Fin 4) (s : State) (t : State) (h : execCoreWatchdogExpiry core s = .next t) : Kept s.toDev t.toDev := by
  have hz := Kept.refl s.toDev
  rw [onDev_next h]
  try dsimp only
  repeat' first
    | with_reducible assumption
    | with_reducible apply Dev.coreExpiry_kept

theorem execEclipseExitTimer_kept (s : State) (t : State) (h : execEclipseExitTimer s = .next t) : Kept s.toDev t.toDev := by
  have hz := Kept.refl s.toDev
  rw [onDev_next h]
  try dsimp only
  repeat' first
    | with_reducible assumption
    | with_reducible apply Dev.eclipseExit_kept

theorem execPwrGoodRise_kept (b : BootInputs) (s : State) (t : State) (h : execPwrGoodRise b s = .next t) : Kept s.toDev t.toDev := by
  have hz := Kept.refl s.toDev
  rw [onDev_next h]
  try dsimp only
  repeat' first
    | with_reducible assumption
    | with_reducible apply Dev.pwrGoodRise_kept

theorem execPwrGoodFall_kept (s : State) (t : State) (h : execPwrGoodFall s = .next t) : Kept s.toDev t.toDev := by
  have hz := Kept.refl s.toDev
  rw [onDev_next h]
  try dsimp only
  repeat' first
    | with_reducible assumption
    | with_reducible apply Dev.pwrGoodFall_kept

theorem execRstNAssert_kept (s : State) (t : State) (h : execRstNAssert s = .next t) : Kept s.toDev t.toDev := by
  have hz := Kept.refl s.toDev
  rw [onDev_next h]
  try dsimp only
  repeat' first
    | with_reducible assumption
    | with_reducible apply Dev.rstAssert_kept

theorem execRstNRelease_kept (b : BootInputs) (s : State) (t : State) (h : execRstNRelease b s = .next t) : Kept s.toDev t.toDev := by
  have hz := Kept.refl s.toDev
  rw [onDev_next h]
  try dsimp only
  repeat' first
    | with_reducible assumption
    | with_reducible apply Dev.rstRelease_kept

theorem execClockLoss_kept (s : State) (t : State) (h : execClockLoss s = .next t) : Kept s.toDev t.toDev := by
  have hz := Kept.refl s.toDev
  rw [onDev_next h]
  try dsimp only
  repeat' first
    | with_reducible assumption
    | with_reducible apply Dev.clockLoss_kept

theorem execRefclkReturn_kept (s : State) (t : State) (h : execRefclkReturn s = .next t) : Kept s.toDev t.toDev := by
  have hz := Kept.refl s.toDev
  rw [onDev_next h]
  try dsimp only
  repeat' first
    | with_reducible assumption
    | with_reducible apply Dev.refclkBack_kept

theorem execPowerLoss_kept (s : State) (t : State) (h : execPowerLoss s = .next t) : Kept s.toDev t.toDev := by
  have hz := Kept.refl s.toDev
  rw [onDev_next h]
  try dsimp only
  repeat' first
    | with_reducible assumption
    | with_reducible apply Dev.powerLoss_kept

theorem execVddCoreDroop_kept (s : State) (t : State) (h : execVddCoreDroop s = .next t) : Kept s.toDev t.toDev := by
  have hz := Kept.refl s.toDev
  rw [onDev_next h]
  try dsimp only
  repeat' first
    | with_reducible assumption
    | with_reducible apply Dev.droop_kept

theorem execVddCoreRecover_kept (b : BootInputs) (s : State) (t : State) (h : execVddCoreRecover b s = .next t) : Kept s.toDev t.toDev := by
  have hz := Kept.refl s.toDev
  rw [onDev_next h]
  try dsimp only
  repeat' first
    | with_reducible assumption
    | with_reducible apply Dev.vddRecover_kept

theorem execVddCoreBrownout_kept (s : State) (t : State) (h : execVddCoreBrownout s = .next t) : Kept s.toDev t.toDev := by
  have hz := Kept.refl s.toDev
  rw [onDev_next h]
  try dsimp only
  repeat' first
    | with_reducible assumption
    | with_reducible apply Dev.brownout_kept

theorem execRetentionOverload_kept (s : State) (t : State) (h : execRetentionOverload s = .next t) : Kept s.toDev t.toDev := by
  have hz := Kept.refl s.toDev
  rw [onDev_next h]
  try dsimp only
  repeat' first
    | with_reducible assumption
    | with_reducible apply Dev.retentionLost_kept

theorem execTempSample_kept (celsius : BitVec 8) (s : State) (t : State) (h : execTempSample celsius s = .next t) : Kept s.toDev t.toDev := by
  have hz := Kept.refl s.toDev
  rw [onDev_next h]
  try dsimp only
  repeat' first
    | with_reducible assumption
    | with_reducible apply Dev.tempSample_kept

theorem execExtest_kept (pins : BitVec 64) (s : State) (t : State) (h : execExtest pins s = .next t) : Kept s.toDev t.toDev := by
  have hz := Kept.refl s.toDev
  rw [onDev_next h]
  try dsimp only
  repeat' first
    | with_reducible assumption
    | with_reducible apply Dev.boundaryScan_kept

theorem execIdcode_kept (s : State) (t : State) (h : execIdcode s = .next t) : Kept s.toDev t.toDev := by
  have hz := Kept.refl s.toDev
  rw [onDev_next h]
  try dsimp only
  repeat' first
    | with_reducible assumption
    | with_reducible apply Dev.tapRead_kept

theorem execSamplePreload_kept (pins : BitVec 64) (s : State) (t : State) (h : execSamplePreload pins s = .next t) : Kept s.toDev t.toDev := by
  have hz := Kept.refl s.toDev
  rw [onDev_next h]
  try dsimp only
  repeat' first
    | with_reducible assumption
    | with_reducible apply Dev.boundaryScan_kept

theorem execToken_kept (bytes : List Byte) (s : State) (t : State) (h : execToken bytes s = .next t) : Kept s.toDev t.toDev := by
  have hz := Kept.refl s.toDev
  rw [onDev_next h]
  try dsimp only
  repeat' first
    | with_reducible assumption
    | with_reducible apply Dev.tapSelect_kept
    | with_reducible apply Dev.checkToken_kept

theorem execNonce_kept (s : State) (t : State) (h : execNonce s = .next t) : Kept s.toDev t.toDev := by
  have hz := Kept.refl s.toDev
  rw [onDev_next h]
  try dsimp only
  repeat' first
    | with_reducible assumption
    | with_reducible apply Dev.tapRead_kept

theorem execWrapper_kept (s : State) (t : State) (h : execWrapper s = .next t) : Kept s.toDev t.toDev := by
  have hz := Kept.refl s.toDev
  rw [onDev_next h]
  try dsimp only
  repeat' first
    | with_reducible assumption
    | (with_reducible refine kept_ite ?_ ?_)
    | with_reducible apply Dev.tapSelect_kept

theorem execIjtag_kept (s : State) (t : State) (h : execIjtag s = .next t) : Kept s.toDev t.toDev := by
  have hz := Kept.refl s.toDev
  rw [onDev_next h]
  try dsimp only
  repeat' first
    | with_reducible assumption
    | (with_reducible refine kept_ite ?_ ?_)
    | with_reducible apply Dev.tapSelect_kept

theorem execJtagCsr_kept (offset : BitVec 24) (store : Option (BitVec 64)) (s : State) (t : State) (h : execJtagCsr offset store s = .next t) : Kept s.toDev t.toDev := by
  have hz := Kept.refl s.toDev
  rw [onDev_next h]
  try dsimp only
  repeat' first
    | with_reducible assumption
    | with_reducible apply Dev.tapCsr_kept

theorem execBypass_kept (code : BitVec 8) (s : State) (t : State) (h : execBypass code s = .next t) : Kept s.toDev t.toDev := by
  have hz := Kept.refl s.toDev
  rw [onDev_next h]
  try dsimp only
  repeat' first
    | with_reducible assumption
    | with_reducible apply Dev.tapSelect_kept

theorem execWsBypass_kept (s : State) (t : State) (h : execWsBypass s = .next t) : Kept s.toDev t.toDev := by
  have hz := Kept.refl s.toDev
  rw [onDev_next h]
  try dsimp only
  repeat' first
    | with_reducible assumption
    | with_reducible apply Dev.wrapper_kept

theorem execWsExtest_kept (s : State) (t : State) (h : execWsExtest s = .next t) : Kept s.toDev t.toDev := by
  have hz := Kept.refl s.toDev
  rw [onDev_next h]
  try dsimp only
  repeat' first
    | with_reducible assumption
    | with_reducible apply Dev.wrapper_kept

theorem execWsIntest_kept (s : State) (t : State) (h : execWsIntest s = .next t) : Kept s.toDev t.toDev := by
  have hz := Kept.refl s.toDev
  rw [onDev_next h]
  try dsimp only
  repeat' first
    | with_reducible assumption
    | with_reducible apply Dev.wrapper_kept

theorem execWsScan_kept (s : State) (t : State) (h : execWsScan s = .next t) : Kept s.toDev t.toDev := by
  have hz := Kept.refl s.toDev
  rw [onDev_next h]
  try dsimp only
  repeat' first
    | with_reducible assumption
    | with_reducible apply Dev.wrapper_kept

theorem execTrstNAssert_kept (s : State) (t : State) (h : execTrstNAssert s = .next t) : Kept s.toDev t.toDev := by
  have hz := Kept.refl s.toDev
  rw [onDev_next h]
  try dsimp only
  repeat' first
    | with_reducible assumption
    | with_reducible apply Dev.reset_kept
    | (fail_if_no_progress with_reducible refine Kept.upd ?_ (by rfl) (by rfl) (by rfl))

end Sys2Proof.Machine
end

