-- ==== Sys2Proof/Laws/KeptReceive.lean ====
section
/-! SUPPORT. What the messages that ports receive, the meanings of the links and a cycle of the slice clock leave alone. -/

namespace Sys2Proof.Machine

theorem Dev.spendRoom_kept {z : Dev} (s : Dev) (p : Nat) (f : Flit)  (hz : Kept z s) : Kept z (Dev.spendRoom s p f) := by
  unfold Dev.spendRoom
  try dsimp only
  repeat' first
    | with_reducible assumption
    | with_reducible apply Dev.updTx_kept

theorem Dev.freeSlots_kept {z : Dev} (s : Dev) (p vc n : Nat) (request : Bool)  (hz : Kept z s) : Kept z (Dev.freeSlots s p vc n request) := by
  unfold Dev.freeSlots
  try dsimp only
  repeat' first
    | with_reducible assumption
    | (with_reducible refine kept_ite ?_ ?_)
    | with_reducible apply Dev.updTx_kept
    | with_reducible apply Dev.send_kept

/-- A message keeps what its meaning keeps. -/
theorem messageMeaning_kept (i : Instr) (s t : State) (h : messageMeaning i s = .next t) : Kept s.toDev t.toDev := by
  unfold messageMeaning at h
  split at h
  · exact execHeartbeat_kept _ _ _ _ _ _ _ _ h
  · exact execFrameDone_kept _ _ _ _ _ h
  · exact execFrameGo_kept _ _ _ _ h
  · exact execAgentSuspect_kept _ _ _ _ h
  · exact execAgentDead_kept _ _ _ _ h
  · exact execFenced_kept _ _ _ _ h
  · exact execReclaim_kept _ _ _ h
  · exact execEclipse_kept _ _ _ _ h
  · rw [onDev_next h]
    exact Dev.homeMoved_kept _ _ _ _ _ (Kept.refl _)
  · exact execPodSync_kept _ _ _ _ _ h
  · exact execPodSyncDone_kept _ _ _ _ _ h
  · exact execCtlExpose_kept _ _ _ h
  · exact execForward_kept _ _ _ _ _ h
  · exact execReady_kept _ _ _ h
  · exact execRefused_kept _ _ _ _ h
  · exact execCommit_kept _ _ _ h
  · exact execAbort_kept _ _ _ h
  · exact execSeal_kept _ _ _ h
  · exact execCtlResetWarm_kept _ _ _ _ _ h
  · exact execCtlResetCold_kept _ _ _ _ _ h
  · exact execCtlResetBlock_kept _ _ _ _ _ _ h
  · exact execCtlResetReserved_kept _ _ _ _ h
  · exact execSnpReply_kept _ _ _ h
  · exact execSnpData_kept _ _ _ _ h
  · exact execCompAck_kept _ _ _ _ h
  · exact execWriteData_kept _ _ _ _ _ _ h
  · exact execMirrorRelease_kept _ _ _ _ _ _ h
  · exact execParityRelease_kept _ _ _ _ _ h
  · exact execReconRead_kept _ _ _ _ _ h
  · exact execReadData_kept _ _ _ h
  · exact execComp_kept _ _ _ _ _ h
  · exact execPull_kept _ _ _ _ h
  · rw [onDevAt_next h]
    exact kept_ite (Kept.refl _) (Dev.mirrorPutIn_kept _ _ _ _ _ _ _ _ _ (Kept.refl _))
  · rw [onDevAt_next h]
    exact kept_ite (Kept.refl _) (Dev.parityArrive_kept _ _ _ _ _ _ _ (Kept.refl _))
  · cases h
    exact Kept.refl _

theorem Dev.arrive_kept {z : Dev} (s : Dev) (i : Instr) (hz : Kept z s) : Kept z (Dev.arrive s i) := by
  unfold Dev.arrive
  split
  · exact hz.trans (messageMeaning_kept _ _ _ (by assumption))
  · exact hz

theorem Dev.replyIn_kept {z : Dev} (s : Dev) (w : Wire)  (hz : Kept z s) : Kept z (Dev.replyIn s w) := by
  unfold Dev.replyIn
  try dsimp only
  repeat' first
    | with_reducible assumption
    | (with_reducible refine kept_ite ?_ ?_)
    | with_reducible apply Dev.free_kept
    | with_reducible apply Dev.arrive_kept

theorem Dev.dataIn_kept {z : Dev} (s : Dev) (w : Wire)  (hz : Kept z s) : Kept z (Dev.dataIn s w) := by
  unfold Dev.dataIn
  try dsimp only
  repeat' first
    | with_reducible assumption
    | with_reducible apply Dev.arrive_kept
    | (fail_if_no_progress with_reducible refine Kept.upd ?_ (by rfl) (by rfl) (by rfl))
    | split

theorem Dev.requestIn_kept {z : Dev} (s : Dev) (p : Nat) (w : Wire)  (hz : Kept z s) : Kept z (Dev.requestIn s p w) := by
  unfold Dev.requestIn
  try dsimp only
  repeat' first
    | with_reducible assumption
    | (with_reducible refine kept_ite ?_ ?_)
    | with_reducible apply Dev.request_kept
    | with_reducible apply Dev.settle_kept
    | with_reducible apply Dev.reservedRequest_kept
    | (fail_if_no_progress with_reducible refine Kept.upd ?_ (by rfl) (by rfl) (by rfl))
    | split

theorem Dev.vc4In_kept {z : Dev} (s : Dev) (p : Nat) (w : Wire)  (hz : Kept z s) : Kept z (Dev.vc4In s p w) := by
  unfold Dev.vc4In
  try dsimp only
  repeat' first
    | with_reducible assumption
    | (with_reducible refine kept_ite ?_ ?_)
    | with_reducible apply Dev.requestIn_kept
    | with_reducible apply Dev.send_kept
    | with_reducible apply Dev.arrive_kept
    | (fail_if_no_progress with_reducible refine Kept.upd ?_ (by rfl) (by rfl) (by rfl))
    | split

theorem Dev.messageIn_kept {z : Dev} (s : Dev) (p : Nat) (w : Wire)  (hz : Kept z s) : Kept z (Dev.messageIn s p w) := by
  unfold Dev.messageIn
  try dsimp only
  repeat' first
    | with_reducible assumption
    | (with_reducible refine kept_ite ?_ ?_)
    | with_reducible apply Dev.arrive_kept
    | with_reducible apply Dev.replyIn_kept
    | with_reducible apply Dev.compAck_kept
    | with_reducible apply Dev.answer_kept
    | with_reducible apply Dev.dataIn_kept
    | with_reducible apply Dev.vc4In_kept
    | (fail_if_no_progress with_reducible refine Kept.upd ?_ (by rfl) (by rfl) (by rfl))
    | split

theorem Dev.passMessage_kept {z : Dev} (s : Dev) (p : Nat) (w : Wire)  (hz : Kept z s) : Kept z (Dev.passMessage s p w) := by
  unfold Dev.passMessage
  try dsimp only
  repeat' first
    | with_reducible assumption
    | (with_reducible refine kept_ite ?_ ?_)
    | with_reducible apply Dev.passBack_kept
    | with_reducible apply Dev.send_kept
    | (fail_if_no_progress with_reducible refine Kept.upd ?_ (by rfl) (by rfl) (by rfl))

theorem Dev.received_kept {z : Dev} (s : Dev) (p : Nat) (w : Wire)  (hz : Kept z s) : Kept z (Dev.received s p w) := by
  unfold Dev.received
  try dsimp only
  repeat' first
    | with_reducible assumption
    | (with_reducible refine kept_ite ?_ ?_)
    | with_reducible apply Dev.messageIn_kept
    | with_reducible apply Dev.passMessage_kept

theorem Dev.takeMessage_kept {z : Dev} (s : Dev) (p : Nat) (w : Wire)  (hz : Kept z s) : Kept z (Dev.takeMessage s p w) := by
  unfold Dev.takeMessage
  try dsimp only
  repeat' first
    | with_reducible assumption
    | (with_reducible refine kept_ite ?_ ?_)
    | with_reducible apply Dev.updPort_kept
    | with_reducible apply Dev.freeSlots_kept
    | with_reducible apply Dev.received_kept

theorem Dev.slotIn_kept {z : Dev} (s : Dev) (p : Nat) (e : Nat × Bool × BitVec 256)  (hz : Kept z s) : Kept z (Dev.slotIn s p e) := by
  unfold Dev.slotIn
  try dsimp only
  repeat' first
    | with_reducible assumption
    | (with_reducible refine kept_ite ?_ ?_)
    | with_reducible apply Dev.freeSlots_kept
    | with_reducible apply Dev.updPort_kept
    | with_reducible apply Dev.takeMessage_kept

theorem Dev.takeHeld_kept {z : Dev} (s : Dev)  (hz : Kept z s) : Kept z (Dev.takeHeld s) := by
  unfold Dev.takeHeld
  try dsimp only
  repeat' first
    | with_reducible assumption
    | (with_reducible refine kept_ite ?_ ?_)
    | (with_reducible refine kept_each (fun s x hz => ?_) ?_)
    | with_reducible apply Dev.each_kept
    | with_reducible apply Dev.updPort_kept
    | with_reducible apply Dev.takeMessage_kept

theorem Dev.flitIn_kept {z : Dev} (s : Dev) (p : Nat) (f : Flit)  (hz : Kept z s) : Kept z (Dev.flitIn s p f) := by
  unfold Dev.flitIn
  try dsimp only
  repeat' first
    | with_reducible assumption
    | (with_reducible refine kept_ite ?_ ?_)
    | (with_reducible refine kept_each (fun s x hz => ?_) ?_)
    | with_reducible apply Dev.badFlit_kept
    | with_reducible apply Dev.updPort_kept
    | with_reducible apply Dev.flitHeader_kept
    | with_reducible apply Dev.portLoss_kept
    | with_reducible apply Dev.spendRoom_kept
    | with_reducible apply Dev.each_kept
    | with_reducible apply Dev.slotIn_kept

theorem execLatticeFlit_kept (port : Fin 6) (flit : Flit) (s : State) (t : State) (h : execLatticeFlit port flit s = .next t) : Kept s.toDev t.toDev := by
  have hz := Kept.refl s.toDev
  rw [onDev_next h]
  try dsimp only
  repeat' first
    | with_reducible assumption
    | (with_reducible refine kept_ite ?_ ?_)
    | with_reducible apply Dev.latticeIn_kept

theorem execFlitReceive_kept (port : Fin 6) (flit : Flit) (s : State) (t : State) (h : execFlitReceive port flit s = .next t) : Kept s.toDev t.toDev := by
  have hz := Kept.refl s.toDev
  rw [onDev_next h]
  try dsimp only
  repeat' first
    | with_reducible assumption
    | (with_reducible refine kept_ite ?_ ?_)
    | with_reducible apply Dev.flitIn_kept

theorem execLaneFail_kept (port : Fin 6) (module : Fin 2) (s : State) (t : State) (h : execLaneFail port module s = .next t) : Kept s.toDev t.toDev := by
  have hz := Kept.refl s.toDev
  rw [onDev_next h]
  try dsimp only
  repeat' first
    | with_reducible assumption
    | (with_reducible refine kept_ite ?_ ?_)
    | with_reducible apply Dev.laneFail_kept

theorem execModuleReturn_kept (port : Fin 6) (module : Fin 2) (repaired : BitVec 4) (s : State) (t : State) (h : execModuleReturn port module repaired s = .next t) : Kept s.toDev t.toDev := by
  have hz := Kept.refl s.toDev
  rw [onDev_next h]
  try dsimp only
  repeat' first
    | with_reducible assumption
    | (with_reducible refine kept_ite ?_ ?_)
    | with_reducible apply Dev.moduleReturn_kept

theorem execModuleFail_kept (port : Fin 6) (module : Fin 2) (s : State) (t : State) (h : execModuleFail port module s = .next t) : Kept s.toDev t.toDev := by
  have hz := Kept.refl s.toDev
  rw [onDev_next h]
  try dsimp only
  repeat' first
    | with_reducible assumption
    | (with_reducible refine kept_ite ?_ ?_)
    | with_reducible apply Dev.moduleFail_kept

theorem execLinkSilence_kept (port : Fin 6) (s : State) (t : State) (h : execLinkSilence port s = .next t) : Kept s.toDev t.toDev := by
  have hz := Kept.refl s.toDev
  rw [onDev_next h]
  try dsimp only
  repeat' first
    | with_reducible assumption
    | (with_reducible refine kept_ite ?_ ?_)
    | with_reducible apply Dev.portLoss_kept

theorem execPwkGlint_kept (ports : BitVec 6) (s : State) (t : State) (h : execPwkGlint ports s = .next t) : Kept s.toDev t.toDev := by
  have hz := Kept.refl s.toDev
  rw [onDev_next h]
  try dsimp only
  repeat' first
    | with_reducible assumption
    | (with_reducible refine kept_ite ?_ ?_)
    | with_reducible apply Dev.sendGlints_kept

theorem execDiscoveryRound_kept (partners : List PartnerRead) (s : State) (t : State) (h : execDiscoveryRound partners s = .next t) : Kept s.toDev t.toDev := by
  have hz := Kept.refl s.toDev
  rw [onDev_next h]
  try dsimp only
  repeat' first
    | with_reducible assumption
    | with_reducible apply Dev.discoveryRound_kept

theorem execDiscoveryTimeout_kept (s : State) (t : State) (h : execDiscoveryTimeout s = .next t) : Kept s.toDev t.toDev := by
  have hz := Kept.refl s.toDev
  rw [onDev_next h]
  try dsimp only
  repeat' first
    | with_reducible assumption
    | with_reducible apply Dev.discoveryTimeout_kept

theorem execPortTrained_kept (port : Fin 6) (m0 m1 : ModuleTraining) (failed0 failed1 : FailedLanes) (s : State) (t : State) (h : execPortTrained port m0 m1 failed0 failed1 s = .next t) : Kept s.toDev t.toDev := by
  have hz := Kept.refl s.toDev
  rw [onDev_next h]
  try dsimp only
  repeat' first
    | with_reducible assumption
    | with_reducible apply Dev.portTrainedIn_kept

theorem execHomeMoved_kept (lost newHome : Pos) (notice : Bool) (boundary : Frame) (s : State) (t : State) (h : execHomeMoved lost newHome notice boundary s = .next t) : Kept s.toDev t.toDev := by
  have hz := Kept.refl s.toDev
  rw [onDev_next h]
  try dsimp only
  repeat' first
    | with_reducible assumption
    | with_reducible apply Dev.homeMoved_kept

theorem execAdoptionWalkEnd_kept (s : State) (t : State) (h : execAdoptionWalkEnd s = .next t) : Kept s.toDev t.toDev := by
  have hz := Kept.refl s.toDev
  rw [onDev_next h]
  try dsimp only
  repeat' first
    | with_reducible assumption
    | with_reducible apply Dev.walkEnd_kept

theorem execRebuildChunkDone_kept (chunk : BitVec 17) (copy0 copy1 : Pos × BitVec 17) (s : State) (t : State) (h : execRebuildChunkDone chunk copy0 copy1 s = .next t) : Kept s.toDev t.toDev := by
  have hz := Kept.refl s.toDev
  rw [onDev_next h]
  try dsimp only
  repeat' first
    | with_reducible assumption
    | with_reducible apply Dev.rebuildDone_kept

theorem Dev.cycle_kept {z : Dev} (waiting : List Nat) (s : Dev)  (hz : Kept z s) : Kept z (Dev.cycle waiting s) := by
  unfold Dev.cycle
  try dsimp only
  repeat' first
    | with_reducible assumption
    | (with_reducible refine kept_foldl (fun s x hz => ?_) ?_)
    | (with_reducible refine kept_foldl_fst (fun s x hz => ?_) ?_)
    | (fail_if_no_progress with_reducible refine Kept.upd ?_ (by rfl) (by rfl) (by rfl))

/-- A cycle of the slice clock advances the model's clock by 1 and keeps the rest of what Kept speaks of. -/
theorem Dev.tick_kept (s : Dev) : Kept { s with now := s.now + 1 } s.tick := by
  have h0 := Kept.refl { s with now := s.now + 1 }
  unfold Dev.tick
  refine kept_ite h0 (Dev.checkDone_kept _ (Dev.cycle_kept _ _ (Dev.transmit_kept _ ?_)))
  refine kept_each (fun t x ht => Dev.showWave_kept _ _ ht) (Dev.takeHeld_kept _ (Dev.bump_kept _ _ _ (Dev.event_kept _ _ _ _ _ ?_)))
  exact kept_each (fun t x ht => Dev.countAdd_kept _ _ _ _ ht) (Dev.orderRecords_kept _ h0)

end Sys2Proof.Machine
end

