-- ==== Sys2Proof/Laws/Quiet.lean ====
section
/-! SUPPORT. A slice with nothing under way settles at once, and what sending a list of messages adds. -/

namespace Sys2Proof.Machine

/-- A fold over steps that each change nothing changes nothing. -/
theorem Dev.each_self {α : Type} (s : Dev) (l : List α) (f : Dev → α → Dev) (h : ∀ a ∈ l, f s a = s) : s.each l f = s := by
  unfold Dev.each
  induction l with
  | nil => rfl
  | cons a l ih => rw [List.foldl_cons, h a (List.mem_cons_self ..)]; exact ih (fun b hb => h b (List.mem_cons_of_mem _ hb))

/-- A list that holds every number below n has n elements or more. -/
theorem le_length_of_holds {l : List Nat} {n : Nat} (h : (List.range n).all l.contains = true) : n ≤ l.length := by
  have hs : List.range n ⊆ l := fun k hk => List.contains_iff_mem.1 (List.all_eq_true.1 h k hk)
  simpa using (List.nodup_range.subperm hs).length_le

/-- A transfer with no line to write here writes none. -/
theorem Dev.transferWrite_quiet (s : Dev) (fuel i : Nat) (r : LineRun) (hr : s.lineRun false i = some r)
    (h : bitAt (transferOf s.img.force.lattice i).dests s.pos = true →
      (List.range (transferOf s.img.force.lattice i).lines).all r.handled.contains = true ∧
        r.recv.all (fun e => r.handled.contains e.2.1) = true) : s.transferWrite fuel i = s := by
  cases fuel with
  | zero => rfl
  | succ fuel =>
    unfold Dev.transferWrite
    simp only [hr]
    split
    · rfl
    · rename_i hd
      obtain ⟨h1, h2⟩ := h (by simpa using hd)
      split
      · rw [List.filter_eq_nil_iff.2]
        · rfl
        · intro e he
          simpa using List.all_eq_true.1 h2 e he
      · have hn := le_length_of_holds h1
        rw [List.filter_eq_nil_iff.2]
        · rfl
        · intro k hk
          obtain ⟨j, hj, rfl⟩ := List.mem_map.1 hk
          generalize blockLines (transferOf s.img.force.lattice i).inFormat = per at *
          have hp : j < per := List.mem_range.1 hj
          have hm := Nat.mod_lt (r.handled.length + per - 1) (show 0 < per by omega)
          have hq := Nat.div_add_mod (r.handled.length + per - 1) per
          rw [Nat.mul_comm] at hq
          simp only [decide_eq_true_eq]
          omega

/-- A plan frame whose outputs are taken has none to take. -/
theorem Dev.conversionsRun_quiet (s : Dev) (h : s.outputsTaken = true) : s.conversionsRun = s := by
  refine s.each_self _ _ (fun x hx => ?_)
  have hx := List.all_eq_true.1 h x hx
  split
  · rename_i e i he
    unfold Dev.waveOut
    rw [he] at hx
    dsimp only at hx
    split
    · rfl
    · rename_i r hr
      rw [hr] at hx
      dsimp only at hx ⊢
      have : ((waveOf s.plan r.desc).outMode != 1 || r.out || s.convertsBefore (.wave e r.desc)) = true := by rw [hx]; rfl
      rw [if_pos this]
  · rename_i i hi
    rw [hi] at hx
    dsimp only at hx
    cases hr : s.lineRun false i with
    | none => simp [Dev.transferWrite, hr]
    | some r =>
      rw [hr] at hx
      refine s.transferWrite_quiet _ i r hr (fun hd => ?_)
      simpa [hd] using hx
  · rfl

/-- A quiet slice has nothing to go on with. -/
theorem Dev.settle_quiet (s : Dev) (h : s.quiet = true) : s.settle = s := by
  simp only [Dev.quiet, Bool.and_eq_true, List.isEmpty_iff] at h
  obtain ⟨⟨⟨⟨⟨⟨⟨⟨⟨h1, h2⟩, h3⟩, h4⟩, h5⟩, h6⟩, h7⟩, h9⟩, h8⟩, h10⟩ := h
  have k6 : s.keepRun = s := by
    unfold Dev.keepRun
    simp only [h6, Dev.each_nil]
    rw [show ({ s.lens with keeps := [] } : Lens) = s.lens by rw [← h6]]
  have hd : ∀ n, 2 ≤ n → ∀ (q : Death → Bool), s.cache.deaths.filter (fun d => d.walk == n && q d) = [] := fun n hn q =>
    List.filter_eq_nil_iff.2 (fun d hd => by
      have := List.all_eq_true.1 h8 d hd
      simp only [decide_eq_true_eq] at this
      simp only [Bool.and_eq_true, beq_iff_eq]
      omega)
  have k8 : s.deathsRun = s := by
    unfold Dev.deathsRun
    rw [hd 2 (by omega)]
    simp only [Dev.each_nil]
    rw [hd 3 (by omega)]
    rfl
  have k7 : s.slotsRun = s := by
    unfold Dev.slotsRun
    simp only [h7, List.filter_nil, Dev.each_nil]
    rw [show ({ s.prism with slots := [] } : Prism) = s.prism by rw [← h7]]
  have k9 : s.podOpsRun = s := by
    unfold Dev.podOpsRun
    simp only [h9, List.filter_nil, Dev.each_nil]
    rw [show ({ s.cache with podOps := [] } : Cache) = s.cache by rw [← h9]]
  simp [Dev.settle, Dev.maintWake, h1, h2, h3, h4, h5, s.conversionsRun_quiet h10, k6, k7, k8, k9]

/-- Sending one message for each element sends them all, in order. -/
theorem Dev.each_send {α : Type} (s : Dev) (l : List α) (f : α → Msg) :
    s.each l (fun s a => s.send (f a)) = { s with outbox := s.outbox ++ l.map f } := by
  unfold Dev.each
  induction l generalizing s with
  | nil => simp
  | cons a l ih => rw [List.foldl_cons, ih]; simp only [Dev.send, List.map_cons, List.append_assoc, List.singleton_append]

/-- A CTL message to every live slice. -/
theorem Dev.ctlAll_eq (s : Dev) (m : Ctl) :
    s.ctlAll m = { s with outbox := s.outbox ++ s.livePositions.map (fun p => Msg.ctl p m) } := s.each_send _ _

/-- A CTL message to every other slice of the set. -/
theorem Dev.ctlSet_eq (s : Dev) (m : Ctl) :
    s.ctlSet m = { s with outbox := s.outbox ++ s.others.map (fun p => Msg.ctl p m) } := s.each_send _ _

/-- Next states of equal slices are equal. -/
theorem next_congr {s : State} {a b : Dev} (h : a = b) :
    (Host.Outcome.next { s with toDev := a } : Result) = .next { s with toDev := b } := by rw [h]

end Sys2Proof.Machine
end

