-- ==== Sys2Proof/WellFormed.lean ====
section
/-! DEFINITION. Well-formed commands: the limits that the spec sets to a command's operands beyond their widths. exec is
total on the others too. -/

namespace Sys2Proof

/-- An agent ID that a set assigns: 0 to 47 an agent, 56 to 63 a slice (R24). -/
def Agent.assigned (a : Agent) : Bool := a.toNat < 48 || 56 ≤ a.toNat

/-- A request's sender is an agent or a slice (R24), and its VIEW is a view (R102, R306). -/
def Request.wf (r : Request) : Bool := Agent.assigned r.src && r.view.toNat < 14

/-- FINAL is one of I, S, E, O and M (R220), and a slice sends no snoop reply. -/
def SnoopReply.wf (p : SnoopReply) : Bool := p.final.toNat ≤ 4 && p.src.toNat < 48

/-- Side accesses and slot commands come from slices (R828). -/
def SideAccess.wf (a : SideAccess) : Bool := 56 ≤ a.sender.toNat
def EscapeRef.wf (e : EscapeRef) : Bool := 56 ≤ e.sender.toNat && e.slots.toNat ≤ 4

/-- A DAT message carries 1 to 16 sub-blocks (R463, R466) of a span or view of at most 256. -/
def datWf (off : BitVec 8) (data : List Sub) : Bool :=
  1 ≤ data.length && data.length ≤ 16 && off.toNat + data.length ≤ 256

/-- Disabled facets are distinct, ascending and not neighbours, 63 and 0 counting as such (R15). -/
def deadWf (d0 d1 d2 d3 : BitVec 6) : Bool :=
  d0.toNat + 1 < d1.toNat && d1.toNat + 1 < d2.toNat && d2.toNat + 1 < d3.toNat && !(d0 == 0 && d3 == 63)

/-- Well-formed fuse targets. -/
def FuseTarget.wf : FuseTarget → Bool
  | .deadFacets d0 d1 d2 d3 => deadWf d0 d1 d2 d3
  | .lensGood v => v != 0
  | _ => true

/-- Agents that can die (R259). -/
def mortal (a : Agent) : Bool := a.toNat < 48

/-- Well-formed commands. -/
def Instr.wf : Instr → Bool
  | .readShared r => r.wf
  | .readUnique r => r.wf
  | .claim r => r.wf
  | .readOnce r => r.wf
  | .readOnceNofill r => r.wf
  | .write r => r.wf
  | .writeBack r => r.wf
  | .darken r => r.wf
  | .clean r => r.wf
  | .invalidate r => r.wf
  | .cleanInvalidate r => r.wf
  | .atomic r => r.wf
  | .farAtomic r => r.wf
  | .reduceStore r => r.wf
  | .snpReply p => p.wf
  | .snpData p _ => p.wf && !p.notPresent
  | .writeData src _ off data => Agent.assigned src && datWf off data
  | .sideAccess a => a.wf
  | .escapeClaimSlot e => e.wf
  | .escapeReleaseSlot e => e.wf
  | .dramReadComplete _ errs => errs.length ≤ 4
  | .snoopTimeout _ a => mortal a
  | .agentSuspect r _ => mortal r.agent
  | .agentDead a _ => mortal a
  | .fenced _ a => mortal a
  | .reclaim a => mortal a
  | .deathWalkEnd a => mortal a
  | .liftFence _ a => mortal a
  | .discoveryRound ps => ps.length == 6
  | .mirrorPut _ _ sector subs _ data _ => sector.toNat % 256 == 0 && data.length ≤ 4 && subs != 0
  | .mirrorRelease _ sector subs _ => sector.toNat % 256 == 0 && subs != 0
  | .parityDelta _ _ d _ _ => d.toNat % 64 == 0
  | .parityRelease _ _ d => d.toNat % 64 == 0
  | .reconRead _ _ d => d.toNat % 64 == 0
  | .comp _ _ codes => 1 ≤ codes.length && codes.all (fun c => c.toNat ≤ 5)
  | .homeMoved lost newHome _ _ => lost != newHome
  | .rebuildChunkDone _ c0 c1 => c0.1 != c1.1
  | .stagingWrite _ offset mask _ => offset.toNat % 8 == 0 && mask != 0
  | .jtagCsr offset _ => offset.toNat % 8 == 0
  | .csrWrite _ offset _ => offset.toNat % 8 == 0
  | .fuseBlow t => t.wf
  | .frameTick => true
  | .holdoverBoundary => true
  | .holdoverHalt => true
  | .planResume => true
  | .slotStart => true
  | .heartbeatMissed _ => true
  | .heartbeat _ _ _ _ _ _ => true
  | .frameDone _ _ _ => true
  | .frameGo _ _ => true
  | .degradedSwitch => true
  | .compAck _ _ => true
  | .prefetchHint _ _ _ _ => true
  | .dramWriteComplete _ => true
  | .parkedPartResume _ => true
  | .heldWaiterReenter _ _ => true
  | .tagScrub _ _ => true
  | .dirScrub _ _ => true
  | .dirRecallComplete _ => true
  | .swClean _ _ _ => true
  | .swInvalidate _ _ _ => true
  | .swCleanInvalidate _ _ _ => true
  | .ticketHoldExpiry _ _ => true
  | .eclipse _ _ => true
  | .waveStart _ _ _ => true
  | .waveComplete _ => true
  | .flowStart _ => true
  | .flowLineApply _ _ => true
  | .flowComplete _ => true
  | .transferComplete _ => true
  | .latticeFlit _ _ => true
  | .flitReceive _ _ => true
  | .podSync _ _ _ => true
  | .podSyncDone _ _ _ => true
  | .laneFail _ _ => true
  | .moduleReturn _ _ _ => true
  | .moduleFail _ _ => true
  | .linkSilence _ => true
  | .glint _ _ => true
  | .pwkGlint _ => true
  | .discoveryTimeout => true
  | .retirementCopyDone _ => true
  | .channelFail _ _ => true
  | .memoryInitDone _ => true
  | .shadeZeroFillDone => true
  | .readData _ => true
  | .adoptionWalkEnd => true
  | .rflDoneOk _ => true
  | .rflDonePoison _ => true
  | .rflDoneDeny _ => true
  | .rflEntryTimeout _ => true
  | .imgSeal _ => true
  | .load _ => true
  | .quiesce _ => true
  | .applyPatch _ => true
  | .debugToken _ => true
  | .debugLock _ => true
  | .revokeKey _ _ => true
  | .raiseVersion _ => true
  | .dim _ => true
  | .lit _ => true
  | .dusk _ => true
  | .duskDrained => true
  | .night _ => true
  | .resetWarm _ _ => true
  | .resetCold _ _ => true
  | .resetBlock _ _ _ => true
  | .expose _ _ => true
  | .ctlExpose _ => true
  | .clearCounters _ _ => true
  | .clearLog _ => true
  | .reservedCommand _ _ => true
  | .commandEnd => true
  | .forward _ _ _ => true
  | .ready _ => true
  | .refused _ _ => true
  | .commit _ => true
  | .abort _ => true
  | .seal _ => true
  | .ctlResetWarm _ _ _ => true
  | .ctlResetCold _ _ _ => true
  | .ctlResetBlock _ _ _ _ => true
  | .ctlResetReserved _ _ => true
  | .rstBlock _ => true
  | .blockIdle => true
  | .blockIdleTimeout => true
  | .rstWdog => true
  | .gnmCoreWdog _ => true
  | .cpWatchdogExpiry => true
  | .coreWatchdogExpiry _ => true
  | .eclipseExitTimer => true
  | .pwrGoodRise _ => true
  | .pwrGoodFall => true
  | .rstNAssert => true
  | .rstNRelease _ => true
  | .clockLoss => true
  | .vddCoreDroop => true
  | .vddCoreRecover _ => true
  | .vddCoreBrownout => true
  | .retentionOverload => true
  | .tempSample _ => true
  | .wakeLit _ => true
  | .extest _ => true
  | .idcode => true
  | .samplePreload _ => true
  | .token _ => true
  | .nonce => true
  | .wrapper => true
  | .ijtag => true
  | .bypass _ => true
  | .wsBypass => true
  | .wsExtest => true
  | .wsIntest => true
  | .wsScan => true
  | .pull _ _ => true
  | .portTrained _ _ _ _ _ => true
  | .refclkReturn => true
  | .powerLoss => true
  | .trstNAssert => true
  | .rampStep => true

end Sys2Proof
end

