-- ==== Sys2Proof/Tests/Slice0.lean ====
section
/-! SUPPORT. The implementer's own tests: ill-formed commands that the check refuses, worked examples of the manual, and for
every statement that has hypotheses a state and operands that meet them, clause by clause. -/

open Sys2Proof Sys2Proof.Machine

set_option Elab.async false

namespace Sys2Proof.Tests

/-! ### Ill-formed commands -/

def q0 : Request :=
  { via := .agentPort 0, space := .mem, addr := 0x1000, len := 0, mask := fullMask, view := 0, hue := 0, src := 1, txid := 5
    arg := 0, ticket := none, urgent := false, stream := false, upset := {} }
def sp : SnoopReply :=
  { home := 0, src := 2, txid := 12, final := 3, notPresent := false, sector := 0, fgroup := 0, subIndex := 1 }
def sa : SideAccess := { sender := 57, txid := 3, home := 0, grp := 4, d := 0x1000, shadowed := false, store := none, upset := {} }
def er : EscapeRef := { sender := 57, txid := 3, home := 0, grp := 4, d := 0x1000, slots := 3, block := 5, shadowed := false }

theorem test_wf_refuses_requests : (Instr.readOnce { q0 with src := 50 }).wf = false ∧ (Instr.write { q0 with view := 14 }).wf = false ∧
    (Instr.readOnce q0).wf = true := by decide +kernel
theorem test_wf_refuses_snoop_replies : (Instr.snpReply { sp with final := 5 }).wf = false ∧
    (Instr.snpReply { sp with src := 56 }).wf = false ∧ (Instr.snpData { sp with notPresent := true } 0).wf = false ∧
    (Instr.snpData sp 0).wf = true := by decide +kernel
theorem test_wf_refuses_write_data : (Instr.writeData 50 0 0 [0]).wf = false ∧ (Instr.writeData 1 0 0 []).wf = false ∧
    (Instr.writeData 1 0 255 [0, 0]).wf = false ∧ (Instr.writeData 1 0 0 (List.replicate 17 0)).wf = false ∧
    (Instr.writeData 1 0 0 [0]).wf = true := by decide +kernel
theorem test_wf_refuses_side_accesses : (Instr.sideAccess { sa with sender := 3 }).wf = false ∧ (Instr.sideAccess sa).wf = true ∧
    (Instr.escapeClaimSlot { er with slots := 5 }).wf = false ∧ (Instr.escapeReleaseSlot { er with sender := 3 }).wf = false ∧
    (Instr.escapeClaimSlot er).wf = true := by decide +kernel
theorem test_wf_refuses_slices_that_die : (Instr.agentDead 56 0).wf = false ∧ (Instr.agentSuspect { sender := 1, agent := 48 } 0).wf = false ∧ (Instr.fenced 1 63).wf = false ∧
    (Instr.liftFence ⟨.own, 56, 0, 0⟩ 48).wf = false ∧ (Instr.snoopTimeout 0 50).wf = false ∧ (Instr.deathWalkEnd 48).wf = false ∧
    (Instr.reclaim 60).wf = false ∧ (Instr.agentDead 47 0).wf = true := by decide +kernel
theorem test_wf_refuses_misaligned_offsets : (Instr.reconRead { pos := 1, urgent := false } 0 0x20).wf = false ∧ (Instr.parityRelease 1 0 0x41).wf = false ∧
    (Instr.mirrorRelease 1 0x40 1 0).wf = false ∧ (Instr.mirrorRelease 1 0x100 0 0).wf = false ∧
    (Instr.csrWrite ⟨.own, 56, 0, 0⟩ 4 0).wf = false ∧ (Instr.stagingWrite ⟨.own, 56, 0, 0⟩ 0 0 0).wf = false ∧
    (Instr.jtagCsr 0x11 none).wf = false ∧ (Instr.parityDelta 1 0 0x41 0 false).wf = false ∧
    (Instr.mirrorPut 1 0 0x100 0 0 [] none).wf = false ∧ (Instr.reconRead { pos := 1, urgent := true } 0 0x40).wf = true := by decide +kernel
theorem test_wf_refuses_other_operands : (Instr.comp 1 0 []).wf = false ∧ (Instr.comp 1 0 [6]).wf = false ∧
    (Instr.homeMoved 1 1 false 0).wf = false ∧ (Instr.rebuildChunkDone 0 (1, 2) (1, 3)).wf = false ∧
    (Instr.discoveryRound []).wf = false ∧ (Instr.dramReadComplete 0 (List.replicate 5 [])).wf = false := by decide +kernel
theorem test_wf_refuses_fuses : (Instr.fuseBlow (.deadFacets 0 1 5 9)).wf = false ∧
    (Instr.fuseBlow (.deadFacets 0 5 9 63)).wf = false ∧ (Instr.fuseBlow (.lensGood 0)).wf = false ∧
    (Instr.fuseBlow (.deadFacets 3 20 40 60)).wf = true := by decide +kernel
theorem test_no_word_spells_a_command : decodeTableWord 16 0 = none := rfl

/-! ### States for the witnesses -/

/-- A lit, sealed slice at position 0 of a set of two, which leads: agents 0 to 3 at port 0, and a MEM and a CSR region that grant
hue 0
every right. -/
def w0 : State :=
  let d : Dev := { Dev.reset with
    phase := .lit
    pins := { pwrGood := true, rstN := true, refclk := true, vddIo := true, droop := false }
    img.firstSealed := true
    img.force := { Sections.empty with
      topology := List.replicate 64 0 ++ [1, 0, 0, 4, 2, 0, 0, 0] ++ List.replicate 377 0 ++ [0xC0], regions := List.replicate 6148 0 ++ List.replicate 16 0xFF }
    regions := [{ Region.empty with base := 0x8000000000000200, attr := 0x4000000000000000, acc0 := 0x009F000000000002 },
      { Region.empty with base := 0xE000000000002000, acc0 := 0x009F000000000002 }]
    rfl_.hues := [{ state := 1, mask := 0xFFFFFFFFFFFF, swept := 0, skip := false }] }
  { ((((d.put F.shdConfig_SET_SIZE 2).put F.imgStatus_SEALED 1).put (F.pwkStatus_STATE 0) 2).setReg (R.pwkCfg 0)
      (2 * 2 ^ 32 + 2 ^ 26 + 1)) with pending := [] }

/-- A state with one field of a register changed. -/
def reg (s : State) (f : Field) (v : Nat) : State := { s with toDev := s.toDev.put f v }

/-- The granule of q0 and its line in the cache. -/
def p0 : Place := { kind := .own, facet := 4, grp := 4, group := false, d := 0x1000, tag := 0, shadowed := false }
def l0 : Line :=
  { tag := 0, group := false, shd := false, refl := false, valid := 0xF, dirty := 0, age := 2, hue := 0, data := 0, d := 0x1000
    grp := 4 }
/-- w0 with q0's sector cached. -/
def w1 : State := { w0 with cache.lines := [(131072, l0)] }
/-- The slice of w0 at position 0 where position 1 leads, with a frame period. -/
def wFollow : State := reg (reg w0 F.frmConfig_LEADER 1) F.frmConfig_PERIOD 1
def wLead : State := reg w0 F.frmConfig_PERIOD 1
def wr : Writer := { via := .agentPort 0, src := 1, txid := 6, hue := 0 }
/-- The slice itself as a writer. -/
def wOwn : Writer := { via := .own, src := 56, txid := 7, hue := 0 }
def bi : BootInputs :=
  let sr : StackReport := { height := 16, density := 48, banks := 64, trefwMs := 32, refPerBank := 100, trfcNs := 100
                            rateMax := 9600, accessNs := 20, qualified := true, trains := true }
  { strap := 1, refclk := true, stack0 := sr, stack1 := sr }

/-- The place of q0 in w0 is p0, and w1 holds its line. -/
theorem test_place_of_request : w0.placeFor q0 0 = p0 ∧ w1.cached p0 = some 0 ∧ lineKey 4 (setIndex 0x1000) 0 = 131072 := by decide +kernel

/-! ### Witnesses: the queue, invariants, registers -/

theorem witness_StepRunsFrontCommand :
    ({ w0 with pending := [.idcode, .frameTick] } : State).pending = .idcode :: [.frameTick] := rfl
theorem witness_IdleStepIsOneCycle : w0.pending = [] ∧ w0.clocked = true ∧ State.reset.pending = [] ∧ State.reset.clocked = false := by
  decide +kernel
/-- A command that answers a next state, and steps of both kinds. -/
theorem witness_CommandsLeaveTheQueue : ∃ t : State, exec .wsBypass w0 = .next t ∧ t.tap.wir = .wsBypass := ⟨_, rfl, rfl⟩
theorem witness_StepsKeepTheCanonicalForm :
    (∃ t : State, step { w0 with pending := [.idcode] } = .next t) ∧ (∃ t : State, step w0 = .next t) ∧
    w0.memoriesWf = true ∧ w0.registersWf = true := ⟨⟨_, rfl⟩, ⟨_, rfl⟩, by decide +kernel, by decide +kernel⟩
theorem witness_StepsTakeNothingBack : (∃ t : State, step { w0 with pending := [.idcode] } = .next t) ∧
    ∀ target rest, ({ w0 with pending := [.idcode] } : State).pending ≠ .fuseBlow target :: rest :=
  ⟨⟨_, rfl⟩, fun _ _ h => by cases h⟩
/-- Commands with a device offset that the stacks have, and one without any. -/
theorem witness_OnlyDeviceOffsetsFault : sa.d.toNat < deviceEnd ∧ er.d.toNat < deviceEnd ∧ (0x100 : BitVec 64).toNat < deviceEnd ∧
    (∀ a, Instr.idcode ≠ .sideAccess a) := ⟨by decide +kernel, by decide +kernel, by decide +kernel, fun _ h => by cases h⟩

/-- FRM_GUARD is written, an unassigned offset is not, and a region that grants nothing turns a write away. -/
theorem witness_RegistersAreWritten :
    (w0.admits wr 0x20028 (csrRights 0x20028) = true ∧ regRow 0x20028 = some ⟨0x20028, [], 0xffff, 0, 0, 0⟩) ∧
    (w0.admits wr 0x130000 (csrRights 0x130000) = true ∧ regRow 0x130000 = none) ∧
    (w0.active = true ∧ w0.discards wr.src.toNat = false ∧ 0x20029 % 8 ≠ 0 ∧ w0.frm.deniedRec = none) ∧
    (w0.viaUp wr.via = true ∧ w0.srcOk wr.via 50 = false ∧ w0.img.firstSealed = true ∧ wr.via.isDieLink = false ∧
      ({ w0 with regions := [] } : State).regionOf 3 0x20028 8 = none) := by decide +kernel
theorem witness_DisabledFacetsIgnoreWrites :
    ({ w0 with fuse.dead0 := 3, fuse.facetCount := 60 } : State).fuse.dead 3 = true ∧
    ({ w0 with fuse.dead0 := 3, fuse.facetCount := 60 } : State).admits wr (R.fctConfig 3 + 0x38) rightWrite = true := by decide +kernel
theorem witness_CountersAndRecordsAreKept : w0.memoriesWf = true ∧ (11 < 12 ∧ 7 < 8) ∧ 0x0A < 128 := by decide +kernel

/-! ### Witnesses: frames -/

theorem witness_LeaderSendsFrameGo :
    (let s : State := { wLead with frm.haltTick := true, frm.usableRun := 16, frm.reports := [(1, 16)], frm.doneFrom := [0, 1] }
     s.active = true ∧ s.isLeader = true ∧ s.frm.haltPending = false ∧ s.frm.haltRoute = false ∧ s.frm.haltOrdered = false ∧
      16 ≤ s.frm.usableRun ∧ (∀ p ∈ s.livePositions, p ≠ s.pos → 16 ≤ tgetD s.frm.reports p 0 % 65536) ∧
      (∀ p ∈ s.livePositions, p ∈ s.frm.doneFrom)) ∧
    (let s : State := reg wLead F.frmStatus_CONSEC_SLIPS 8
     s.get F.frmStatus_CONSEC_SLIPS = 8 ∧ s.halting = false ∧ s.isLeader = true) ∧
    (let s : State := { wLead with frm.doneFrom := [0] }
     s.deaf 1 = false ∧ s.frm.goFor ≤ (0 : Frame).toNat ∧ (∀ p ∈ s.livePositions, p = 1 ∨ p ∈ s.frm.doneFrom) ∧
      s.get F.frmConfig_PERIOD ≠ 0) ∧
    (0 : Frame).toNat < ({ wLead with frm.goFor := 1 } : State).frm.goFor ∧
    ∃ p ∈ wLead.livePositions, p ≠ 1 ∧ p ∉ wLead.frm.doneFrom := by decide +kernel
theorem witness_FrameMessagesAndEventsAreTaken :
    (wFollow.active = true ∧ wFollow.quiet = true) ∧
    (wFollow.deaf 1 = false ∧ 1 ≠ wFollow.pos) ∧
    (let s : State := { reg w0 F.frmStatus_HOLDOVER_RUN 64 with frm.started := true }
     s.active = true ∧ s.frm.started = true ∧ s.frm.haltTick = false ∧ 64 ≤ s.get F.frmStatus_HOLDOVER_RUN) ∧
    (let s : State := { w0 with frm.started := true, frm.reports := [(1, 65536 * 64)] }
     ∃ p ∈ s.livePositions, 64 ≤ tgetD s.frm.reports p 0 / 65536) ∧
    (let s : State := { w0 with frm.go := some (7, false) }
     s.frm.go.isSome = true ∧ s.frm.frameRunning = false ∧ s.mgmt.rampSteps < 4) ∧
    (let s : State := { wLead with frm.started := true, frm.counter := 100 }
     s.active = true ∧ 8 < s.tickOffset ∧ s.frm.started = true ∧ s.halted = false) := by decide +kernel
theorem witness_BoundaryAdvancesTheCount :
    let s : State := { wLead with frm.counter := 16380 }
    s.active = true ∧ s.quiet = true ∧ s.registersWf = true ∧ s.frm.started = false ∧ s.frm.go = none ∧ s.frm.haltPending = false ∧
      s.frm.sealAt = none ∧ s.frm.commitAt = none ∧ s.frm.exposeAt = none ∧ s.frm.movedAt = none ∧ s.tickOffset ≤ 8 := by decide +kernel
theorem witness_BootSlotRefreshes :
    let s : State := { w0 with img.firstSealed := false }
    s.active = true ∧ s.phase ≠ .waking ∧ s.quiet = true ∧ s.img.firstSealed = false ∧ s.frm.started = false ∧
      s.frm.frameRunning = false ∧ s.stack.planRefresh = false := by decide +kernel

/-! ### Witnesses: resets, pins and supplies -/

theorem witness_PinsHoldTheSlice : w0.registersWf = true ∧ w0.pins.pwrGood = true ∧ w0.pins.rstN = true ∧ w0.phase ≠ .held ∧
    w0.phase ≠ .night := by decide +kernel
theorem witness_ResetIsLeft :
    (State.reset.registersWf = true ∧ State.reset.phase = .held ∧ State.reset.pins.droop = false ∧ State.reset.pins.rstN = false ∧
      State.reset.pins.pwrGood = true) ∧
    (let s : State := { State.reset with pins.pwrGood := false, pins.rstN := true }
     s.registersWf = true ∧ s.phase = .held ∧ s.pins.droop = false ∧ s.pins.pwrGood = false ∧ s.pins.rstN = true) := by decide +kernel
theorem witness_EclipseIsLeft :
    (let s : State := { w0 with phase := .eclipse, mgmt.boot := some bi, mgmt.exitKind := 1 }
     s.registersWf = true ∧ s.phase = .eclipse ∧ s.mgmt.boot = some bi ∧ s.mgmt.exitKind = 1) ∧
    (let s : State := { w0 with phase := .eclipse, mgmt.boot := some bi, mgmt.exitKind := 2 }
     s.mgmt.exitKind = 2) ∧
    (let s : State := { w0 with phase := .eclipse, mgmt.boot := some bi, mgmt.exitKind := 0 }
     s.mgmt.exitKind = 0) ∧
    (let s : State := { w0 with phase := .boot 6, mgmt.boot := some bi }
     s.mgmt.boot = some bi ∧ s.phase = .boot 6) ∧
    (let s : State := { w0 with phase := .waking, mgmt.boot := some bi }
     s.mgmt.boot = some bi ∧ s.phase = .waking) ∧
    (w0.phase ≠ .boot 6 ∧ w0.phase ≠ .waking) := by decide +kernel
theorem witness_SuppliesAreLost :
    (({ w0 with phase := .dusk } : State).phase = .dusk) ∧
    (let s : State := { w0 with phase := .toDusk }
     s.pins.pwrGood = true ∧ s.phase ≠ .lit ∧ s.phase ≠ .dim) := by decide +kernel
theorem witness_EclipseIsEntered :
    (w0.registersWf = true ∧ w0.phase = .lit ∧ w0.pos = 0 ∧ w0.deaf 1 = false ∧ w0.pins.pwrGood = true) ∧
    (let s : State := reg w0 F.pwrState_SCLK_PLL 1
     s.registersWf = true ∧ s.phase = .lit ∧ s.get F.pwrState_SCLK_PLL = 1) ∧
    (({ w0 with phase := .dim } : State).phase = .dim) := by decide +kernel
theorem witness_SliceIsHeldLost :
    (let s : State := reg w0 F.shdStatus_LOST 2
     (Instr.ready 1).sender = some 1 ∧ s.deaf 1 = true ∧ (Instr.ready 1).devOffset = none ∧
       (Instr.parityRelease 1 0 0x140).devOffset = some 0x140 ∧ 0x140 < deviceEnd) ∧
    let s : State := { w0 with frm.missed := [(1, 2)] }
    s.registersWf = true ∧ s.active = true ∧ 1 ≠ s.pos ∧ 1 < s.setSize ∧ s.isLost 1 = false ∧ s.quiet = true ∧
      (1 = s.buddy ∧ s.shadow.puts = [] ∧ s.cache.lines = []) ∧ s.shadow.deltaOut = [] ∧ s.shadow.parity = [] ∧ s.shadow.ports = [] ∧
      2 ≤ tgetD s.frm.missed 1 0 ∧ (4 : BitVec 8) ≠ 1 := by decide +kernel
theorem witness_ThrottlesRun :
    (w0.active = true ∧ w0.get F.pwrThrottle_CURRENT = 0 ∧ tget w0.mgmt.throttleRuns 1 = none) ∧
    (let s : State := reg { w0 with now := 10000, pins.droop := true, mgmt.throttleRuns := [(1, (100, 5, 0))] } F.pwrThrottle_CURRENT 1
     s.active = true ∧ s.pins.droop = true ∧ s.get F.pwrThrottle_CURRENT = 1 ∧ tget s.mgmt.throttleRuns 1 = some (100, 5, 0)) ∧
    (let s : State := reg (reg w0 F.pwrClass_THROTTLE_C 95) F.pwrClass_CRIT_C 105
     s.active = true ∧ s.registersWf = true ∧ s.get F.pwrThrottle_THERMAL = 0 ∧ s.get F.pwrThrottle_CRIT = 0) := by decide +kernel
theorem witness_SliceWakes :
    (({ w0 with phase := .night } : State).phase = .night) ∧
    (let s : State := { w0 with phase := .dusk }
     s.phase = .dusk ∧ s.registersWf = true ∧ s.get F.rstAg2_RET_BROWNOUT = 0) ∧
    (let s : State := reg { wFollow with phase := .waking } F.pwrState_SCLK_PLL 1
     s.phase = .waking ∧ s.get F.pwrState_SCLK_PLL = 1 ∧ 0 = s.pos ∧ s.isLeader = false ∧ s.registersWf = true) := by decide +kernel
theorem witness_BlockResetStarts :
    (w0.active = true ∧ w0.blockRefusal 66 = none ∧ w0.blockRefusal 200 = none ∧ w0.fenced (56 : Agent).toNat = false ∧
      (56 : Agent).toNat = 56 + w0.pos ∧ bitAt 1 w0.pos = true) ∧
    (reg w0 (F.gnmCoreStatus_STATE 0) 1).get (F.gnmCoreStatus_STATE 0) = 1 ∧
    (w0.blockRefusal 140).isSome = true := by decide +kernel
theorem witness_BlockResetEnds :
    (∀ c ∈ [(3 : BitVec 8), 70, 130, 195, 200],
      let s : State := { w0 with mgmt.blockRun := some { code := c, source := 6, start := 0 } }
      s.blockBusy c.toNat = false ∧ s.phase ≠ .eclipse ∧ s.quiet = true ∧ s.registersWf = true ∧ s.isDieLink 2 = false ∧
        s.cache.reqs = []) ∧
    (let s : State := { w0 with mgmt.blockRun := some { code := 200, source := 6, start := 0 }
                                mgmt.cmd := some { code := 5, arg := 0, result := none } }
     s.mgmt.cmd = some { code := 5, arg := 0, result := none } ∧ s.phase ≠ .eclipse ∧ s.quiet = true ∧ s.registersWf = true) := by decide +kernel
theorem witness_CtlResetResets :
    (let s : State := { w0 with mgmt.boot := some bi }
     s.registersWf = true ∧ s.phase = .lit ∧ wOwn.via = .own ∧ wOwn.src.toNat = 56 + s.pos ∧ s.fenced wOwn.src.toNat = false ∧
      bitAt 1 s.pos = true ∧
      s.mgmt.boot = some bi ∧ s.pins.refclk = true) ∧
    (w0.active = true ∧ w0.discards wr.src.toNat = false ∧ w0.viaUp wr.via = true ∧ wr.src.toNat < 56) ∧
    (w0.discards wOwn.src.toNat = false ∧ w0.viaUp wOwn.via = true ∧ w0.srcOk wOwn.via wOwn.src.toNat = true ∧ 56 ≤ wOwn.src.toNat) ∧
    w0.srcOk .own 57 = false := by decide +kernel

/-! ### Witnesses: the mailbox and management -/

theorem witness_LocalCommandsRun :
    (∀ c ∈ [0x06, 0x08, 0x10, 0x22], w0.mayCommand wr c 0 = true) ∧
    (let s : State := { w0 with fuse.keys := List.replicate 4 { hash := 0, programmed := true, image := true, debug := false, revoked := false } }
     s.mayCommand wr 0x07 2 = true) ∧
    ({ w0 with phase := .dim } : State).mayCommand wr 0x11 0 = true ∧
    (w0.mayCommand wr 0x21 8 = true ∧ w0.registersWf = true) ∧
    (({ w0 with mgmt.cmd := some { code := 1, arg := 5, result := some 0 } } : State).mgmt.cmd =
      some { code := 1, arg := 5, result := some 0 }) ∧
    (w0.admits wr R.gnmCmd rightManage = true ∧ w0.get F.gnmCmdStatus_BUSY = 0 ∧ 0x23 ≤ 0x23) ∧
    (let s : State := reg w0 F.gnmCmdStatus_BUSY 1
     s.admits wr R.gnmCmd rightManage = true ∧ s.get F.gnmCmdStatus_BUSY = 1) := by decide +kernel
theorem witness_SetWideCommandsAreForwarded :
    wFollow.isLeader = false ∧
    (∀ e ∈ [(0x02, 0), (0x03, 0), (0x04, 7), (0x12, 0), (0x13, 0), (0x14, 2), (0x15, 2), (0x16, 513), (0x20, 9)],
      wFollow.mayCommand wr e.1 e.2 = true) ∧
    (let s : State := reg { wFollow with links.disc := 0x8000000003000000 } F.imgStatus_SEALED 0
     s.mayCommand wr 0x01 0 = true ∧ s.isLeader = false) ∧
    (let s := wFollow
     s.mayCommand wr 0x16 (1 + 134 * 256) = true ∧ bitAt 1 s.pos = !bitAt 2 s.pos ∧ s.mayCommand wr 0x16 (2 + 134 * 256) = true ∧
      reservedBlock 134 = true ∧ (∃ p ∈ s.liveSet, bitAt 2 p = true) ∧ ∀ p ∈ s.liveSet, bitAt 0x80 p = false) := by decide +kernel
theorem witness_CarriedCommandsRun :
    (wFollow.active = true ∧ wFollow.isLeader = false ∧ 1 = wFollow.leader ∧ wFollow.deaf 1 = false ∧ wFollow.mgmt.cmd = none ∧ bitAt 2 wFollow.pos = false) ∧
    (w0.active = true ∧ w0.isLeader = true ∧ 1 ≠ w0.pos ∧ w0.deaf 1 = false) := by decide +kernel

/-! ### Witnesses: staging, load and seal -/

theorem witness_StagedBytesAreStored :
    w0.admits wr (0x18000 + 8) rightManage = true ∧ 8 % 8 = 0 ∧ w0.get F.imgStage_OFFSET + 8 + 8 ≤ 0x2000000 ∧ w0.memoriesWf = true := by
  decide +kernel
theorem witness_LeaderDecidesTheLoad :
    (let s : State := reg w0 F.imgStatus_STEP 5
     s.active = true ∧ s.isLeader = true ∧ s.deaf 1 = false ∧ s.get F.imgStatus_STEP < 6 ∧ s.img.refusals = [] ∧
      (∃ p ∈ s.liveSet, p ≠ 1 ∧ p ∉ s.img.readyFrom)) ∧
    (let s : State := { reg w0 F.imgStatus_STEP 5 with img.readyFrom := [1] }
     s.deaf 0 = false ∧ (∀ p ∈ s.liveSet, p = 0 ∨ p ∈ s.img.readyFrom) ∧ 0 ∈ s.liveSet ∧ 0 = s.pos) ∧
    (let s : State := reg w0 F.imgStatus_STEP 8
     s.active = true ∧ s.isLeader = true ∧ s.deaf 1 = false ∧ 6 ≤ s.get F.imgStatus_STEP ∧ (∃ p ∈ s.liveSet, p ≠ 1 ∧ p ∉ s.img.sealFrom)) ∧
    (let s : State := { reg w0 F.imgStatus_STEP 8 with img.sealFrom := [0] }
     ∀ p ∈ s.liveSet, p = 1 ∨ p ∈ s.img.sealFrom) := by decide +kernel
theorem witness_LoaderMessagesAreTaken :
    (let s : State := { w0 with img.idle := some Sections.empty }
     s.active = true ∧ s.phase ≠ .toDusk ∧ s.img.idle = some Sections.empty ∧ s.img.idleKind = .image ∧ s.mgmt.cmd = none ∧
      s.registersWf = true) ∧
    (let s : State := { w0 with img.idle := some Sections.empty, img.idleKind := .patch }
     s.active = true ∧ s.mgmt.cmd = none ∧ s.phase ≠ .toDusk ∧ s.img.idle = some Sections.empty ∧ s.img.idleKind = .patch) ∧
    (let s : State := { wFollow with phase := .toDusk }
     s.active = true ∧ s.mgmt.cmd = none ∧ s.phase = .toDusk ∧ s.isLeader = false) ∧
    (w0.phase ≠ .toDusk ∧ w0.get F.imgStatus_STEP ≤ 5) := by decide +kernel
theorem witness_LoadStepsGoOn :
    (let s : State := reg w0 F.imgStatus_STEP 8
     s.active = true ∧ s.get F.imgStatus_STEP = 8 ∧ bitAt 1 0 = true ∧ s.img.zeroFilled = false ∧ s.img.fwReady = false) ∧
    (({ w0 with img.zeroFilled := true } : State).img.zeroFilled = true) ∧
    (let s : State := reg w0 F.imgStatus_STEP 7
     s.get F.imgStatus_STEP = 7 ∧ s.img.zeroFilled = false) ∧
    (let s : State := { w0 with phase := .toDusk }
     s.phase = .toDusk ∧ s.drained = true) := by decide +kernel

/-! ### Witnesses: test access and fuses -/

theorem witness_TestAccessRuns :
    (let s : State := reg w0 F.secDebug_PERMS 7
     s.unlocked 0 = true ∧ s.unlocked 2 = true ∧ s.active = true ∧ s.clocked = true) ∧ w0.unlocked 0 = false ∧
    (0x10018 % 8 = 0 ∧ (0x77 : BitVec 8) ≠ 0x30) := by decide +kernel
theorem witness_FusesBlow : w0.fuse.sealedOnce = false ∧ ({ w0 with fuse.sealedOnce := true } : State).fuse.sealedOnce = true := by
  decide +kernel

/-! ### Witnesses: requests and the directory -/

/-- w1 with an entry of the request table that waits for write data. -/
def entry (op : Op) (r : Request) : ReqEntry := pulledEntry 9 (w0.region 0) op r 0
def waiting (op : Op) (r : Request) : State :=
  { w1 with cache.reqs := [entry op r], cache.parked := if op.pulls then w1.awaitingData (entry op r) else [] }
def qCsr : Request := { q0 with space := .csr, addr := 0x6000000000050010, mask := 0xFF0000 }
def x0 : Txn :=
  { id := 12, cause := .request 9 0, op := .readOnce, src := 1, place := p0, stage := .snoop, before := some (.excl 2)
    after := none, awaiting := [2, 3], replies := [], held := none, dirtyIn := none, grant := 0, code := .ok
    podWait := [], answered := false, cls := 0, aged := false, strict := false, prefetch := false
    filled := false, dirWay := none, since := 3, suspect := [], ackTxid := 0, broadcast := false, ackDue := false }
/-- w1 with one transaction open. -/
def opened (t : Txn) : State := { w1 with cache.txns := [t] }
/-- w1 with a home state for q0's granule. -/
def homed (st : HomeState) : State := { w1 with toDev := w1.toDev.setHome p0 (some st) none }

theorem witness_RequestsPullTheirData :
    w1.facetsIdle = true ∧ (∀ op ∈ [Op.write, .writeBack, .atomic, .farAtomic, .reduceStore], w1.reaches op q0 0 = true) ∧
    w1.unscathed = true ∧ q0.upset = {} ∧ q0.writesNothing = false ∧
    (w1.reaches .write { q0 with mask := 0 } 0 = true ∧ ({ q0 with mask := 0 } : Request).writesNothing = true) := by
  decide +kernel
theorem witness_ReadsHit :
    (∀ op ∈ [Op.readShared, .readUnique, .claim, .readOnce, .readOnceNofill], w1.reaches op q0 0 = true) ∧ w1.facetsIdle = true ∧
    w1.unscathed = true ∧ q0.upset = {} ∧ q0.len = 0 ∧ w1.cached (w1.placeFor q0 0) = some 0 ∧ w1.home (w1.placeFor q0 0) = none ∧
    (w1.placeFor q0 0).d < deviceEnd ∧ w1.dirFrees (w1.placeFor q0 0).facet (dirSet (w1.placeFor q0 0).d) ≠ [] := by decide +kernel
theorem witness_MaintenanceRuns :
    (∀ op ∈ [Op.darken, .clean, .invalidate, .cleanInvalidate], w1.reaches op q0 0 = true) ∧
    (w1.home (w1.placeFor q0 0) = none ∧ w1.dirtyAt (w1.placeFor q0 0) = false ∧ (w1.region 0).strictDarken = false) ∧
    (w1.active = true ∧ w1.quiet = true ∧ w1.registersWf = true ∧ w1.cache.wbs = [] ∧ w1.fuse.dead 4 = false ∧
      w1.wayClass 4 0 = clsOrdinary ∧ w1.get (F.fctMaintStatus_BUSY 4) = 0 ∧ 0 ∉ w1.reserved 4 (setIndex 0x1000) ∧
      w1.line 4 (setIndex 0x1000) 0 = some l0 ∧ l0.dirtySubs = [] ∧ l0.shd = false) := by decide +kernel
theorem witness_WriteDataIsTaken :
    (let e := entry .write { q0 with len := 1 }
     let s := waiting .write { q0 with len := 1 }
     s.active = true ∧ s.discards e.r.src.toNat = false ∧ s.quiet = true ∧ s.cache.reqs = [e] ∧
      (e.got.set 1 true).any (fun g => !g) = true ∧ 1 < e.got.length) ∧
    (let s := waiting .write qCsr
     s.active = true ∧ s.discards qCsr.src.toNat = false ∧ s.cache.reqs = [pulledEntry 9 (w0.region 0) .write qCsr 0] ∧
      qCsr.space = .csr ∧ qCsr.len = 0 ∧ qCsr.urgent = false) := by decide +kernel
theorem witness_WriteDataWritesMemory :
    ∀ op ∈ [Op.write, .atomic], let s := waiting op q0
      ({ s with cache.reqs := [], cache.parked := [] } : State).facetsIdle = true ∧ s.reaches op q0 0 = true ∧
      (s.region 0).shadowed = false ∧ s.unscathed = true ∧ s.cache.reqs = [pulledEntry 9 (s.region 0) op q0 0] ∧
      s.cache.parked = s.awaitingData (pulledEntry 9 (s.region 0) op q0 0) ∧ q0.len = 0 ∧ q0.mask ≠ 0 ∧ argScope q0.arg ≠ 3 ∧
      s.cached (s.placeFor q0 0) = some 0 ∧ s.home (s.placeFor q0 0) = none := by decide +kernel
theorem witness_SnoopRepliesAreTaken :
    (w1.active = true ∧ w1.discards sp.src.toNat = false ∧ ({ sp with home := 1 } : SnoopReply).home.toNat ≠ w1.pos) ∧
    (let s := opened x0
     s.active = true ∧ s.discards sp.src.toNat = false ∧ sp.home.toNat = s.pos ∧ ({ s with cache.txns := [] } : State).quiet = true ∧
      s.cache.txns = [x0] ∧ x0.stage = .snoop ∧ x0.id % 4096 = sp.txid.toNat ∧ sp.src ∈ x0.awaiting ∧ x0.awaiting.erase sp.src ≠ []) ∧
    (let u : Txn := { x0 with awaiting := [2] }
     let s : State := { homed (.excl 2) with cache.txns := [u], cache.reqs := [entry .readOnce q0] }
     s.active = true ∧ s.discards sp.src.toNat = false ∧ s.fenced q0.src.toNat = false ∧ sp.home.toNat = s.pos ∧
      ({ s with cache.txns := [] } : State).quiet = true ∧ s.shadow.puts = [] ∧ s.cache.wbs = [] ∧ s.cache.txns = [u] ∧
      u.stage = .snoop ∧ u.op = .readOnce ∧ u.id % 4096 = sp.txid.toNat ∧ u.awaiting = [sp.src] ∧ u.replies = [] ∧
      u.answered = false ∧ u.code = .ok ∧ u.place.kind = .own ∧ u.before = some (.excl sp.src) ∧ u.src = q0.src ∧
      u.cause = .request 9 0 ∧ s.cache.reqs = [pulledEntry 9 (s.region 0) .readOnce q0 0] ∧ q0.len = 0 ∧ q0.view = 0 ∧
      q0.urgent = false ∧ s.home u.place = u.before ∧ 3 ≤ sp.final.toNat) := by decide +kernel
theorem witness_AcknowledgementsAreTaken :
    (let u : Txn := { x0 with stage := .ack, ackTxid := 5 }
     let s := opened u
     s.active = true ∧ s.discards 1 = false ∧ ({ s with cache.txns := [] } : State).quiet = true ∧ s.cache.txns = [u] ∧
      u.stage = .ack ∧ u.src = 1 ∧ u.ackTxid = 5) ∧
    (w1.active = true ∧ (1 : Pos).toNat ≠ w1.pos ∧ w1.deaf 1 = false ∧ w1.cache.pods = [] ∧ w1.postedWrites 1 = []) ∧
    (let e : RflEntry := { write := true, subs := 1, hue := 0, src := 1, seq := 4, addr := 0, mask := fullMask, fills := false, place := p0
                           region := 0, rgn := w0.region 0, waiters := [] }
     ({ w1 with rfl_.queue := [(3, e)] } : State).postedWrites 1 = [3]) ∧
    (let u : Txn := { x0 with stage := .pod, podWait := [1, 0] }
     let s := opened u
     ({ s with cache.txns := [] } : State).quiet = true ∧ s.cache.txns = [u] ∧ u.stage = .pod ∧ 1 ∈ u.podWait ∧
      s.deaf 1 = false ∧ ∃ p ∈ u.podWait.erase 1, s.isLost p = false) := by decide +kernel
theorem witness_SideAccessesRun :
    (w1.active = true ∧ w1.discards sa.sender.toNat = false ∧ w1.discards er.sender.toNat = false ∧ w1.quiet = true ∧ sa.d.toNat < deviceEnd ∧ p0 = w1.sidePlace 0 4 0x1000 false ∧ w1.cache.wbs = [] ∧
      w1.shadow.puts = [] ∧ w1.cached p0 = some 0 ∧ p0.kind = .own ∧ w1.home p0 = none ∧ sa.shadowed = false ∧ sa.store = none) ∧
    (w1.unscathed = true ∧ sa.upset = {}) ∧
    (er.d.toNat < deviceEnd ∧ (w1.groupSlots er).getD 0 none = some 0 ∧ (!slotValid 0) = true) ∧
    (({ er with slots := 0 } : EscapeRef).slots.toNat = 0) := by decide +kernel
theorem victim_q0 : w0.victim 4 (setIndex 0x1000) 0 = some (0, w0.toDev) := by
  have h : (w0.candidates 4 (setIndex 0x1000) 0).find? (w0.wayEmpty 4 (setIndex 0x1000)) = some 0 := by decide +kernel
  simp only [Dev.victim, h]
theorem witness_FillsComplete :
    (let p : Place := w1.placeAt 4 0x1000 false
     let s : State := { w1 with cache.hints := [(p, 0)] }
     s.active = true ∧ 0x1000 < deviceEnd ∧ s.unscathed = true ∧ s.cache.hints = [(p, 0)] ∧ ∃ x ∈ (s.lookup p).toList, x.2.valid ≠ 0) ∧
    (let p : Place := w0.placeAt 4 0x1000 false
     let s : State := { w0 with cache.hints := [(p, 0)] }
     s.active = true ∧ s.unscathed = true ∧ s.cache.hints = [(p, 0)] ∧ s.lookup p = none ∧ s.plrAt p = none ∧
      (s.plrsOf p.facet).length ≤ 12 ∧ s.cache.wbs = [] ∧ p.facet = 4 ∧ p.set = setIndex 0x1000 ∧ s.line p.facet p.set 0 = none) ∧
    (let r : DramRead := { id := 5, sector := 0x1000, subs := 0xF, words := 0x123, poison := 0, grp := 4, shadowed := false
                           retry := false, dead := false, stale := 0, cls := .demand, issued := true, why := .fill 8 }
     let x : Plr := { id := 8, place := p0, fetching := 0xF, bad := 0, gone := 0, keep := 0xF, data := 0, way := some 2, age := 1, prefetch := false
                      waiters := [] }
     let s : State := { w0 with stack.reads := [r], cache.plrs := [x] }
     s.quiet = true ∧ s.unscathed = true ∧ s.stack.reads = [r] ∧ r.why = .fill x.id ∧ s.cache.plrs = [x] ∧ x.way = some 2 ∧
      2 ∈ s.waysOf x.place.facet x.place.searches ∧ s.lookup x.place = none) := by decide +kernel
theorem witness_TicketsAreRetried :
    (let t : Ticket := { facet := 3, ticket := 9, agent := 1, d := 0x100, bound := .plr, txid := 4, reserved := false, since := 0 }
     let s : State := { w1 with cache.tickets := [t] }
     s.active = true ∧ s.quiet = true ∧ s.cache.parked = [] ∧ s.nextTicket 3 (fun _ => true) = some t ∧
      s.fenced t.agent.toNat = false ∧ (∀ x ∈ s.cache.tickets, x.bound ≠ .directory)) ∧
    (let t : Ticket := { facet := 3, ticket := 9, agent := 1, d := 0x100, bound := .plr, txid := 4, reserved := true, since := 0 }
     let s : State := { w1 with cache.tickets := [t] }
     s.ticket 3 9 = some t ∧ t.reserved = true ∧
      ((s.dropTicket 3 9).bump (F.fctTicket_LAPSED 3)).nextTicket 3 (fun x => x.sameInstance t) = none) ∧
    (w1.active = true ∧ w1.quiet = true ∧ w1.cache.parked = [] ∧ w1.cache.tickets = []) ∧
    (let t : Ticket := { facet := 3, ticket := 9, agent := 1, d := 0x100, bound := .plr, txid := 4, reserved := true, since := 0 }
     let n : Ticket := { facet := 3, ticket := 10, agent := 2, d := 0x100, bound := .plr, txid := 5, reserved := false, since := 1 }
     let s : State := { w1 with cache.tickets := [t, n] }
     s.ticket 3 9 = some t ∧ t.reserved = true ∧ s.fenced n.agent.toNat = false ∧
      ((s.dropTicket 3 9).bump (F.fctTicket_LAPSED 3)).nextTicket 3 (fun x => x.sameInstance t) = some n) := by decide +kernel
theorem witness_WaitersGoOn :
    (let k : Parked := { facet := 4, reqId := 9, index := 0, bound := .plr, urgent := false, reentered := false }
     let s : State := { waiting .readOnce q0 with cache.parked := [k] }
     ({ s with cache.reqs := [], cache.parked := [] } : State).facetsIdle = true ∧ s.unscathed = true ∧
      s.reaches .readOnce q0 0 = true ∧ s.cache.reqs = [pulledEntry 9 (s.region 0) .readOnce q0 0] ∧ s.cache.parked = [k] ∧
      k.bound ≠ .directory ∧ (s.placeFor q0 0).facet = 4 ∧ s.cached (s.placeFor q0 0) = some 0 ∧
      (s.home (s.placeFor q0 0)).bind HomeState.owner = none) ∧
    (let x : Plr := { id := 8, place := p0, fetching := 0, bad := 0, gone := 0, keep := 0, data := 0, way := none, age := 0, prefetch := false
                      waiters := [.part 9 0] }
     let s : State := { waiting .readOnce q0 with cache.plrs := [x] }
     ({ s with cache.reqs := [], cache.plrs := [] } : State).facetsIdle = true ∧ s.unscathed = true ∧ s.reaches .readOnce q0 0 = true ∧ q0.len = 0 ∧
      s.cache.reqs = [pulledEntry 9 (s.region 0) .readOnce q0 0] ∧ s.cache.plrs = [x] ∧ x.fetching = 0 ∧ x.waiters = [.part 9 0] ∧
      x.place.facet = 4 ∧ (s.placeFor q0 0).facet = 4 ∧ (s.placeFor q0 0).d = 0x1000 / 64 * 64 ∧
      s.cached (s.placeFor q0 0) = some 0 ∧ (s.home (s.placeFor q0 0)).bind HomeState.owner = none) := by decide +kernel
theorem witness_ScrubsCheckASet :
    (let s : State := { homed (.shared [1, 2]) with cache.tagScrub := [(4, setIndex 0x1000)], cache.dirScrub := [(4, dirSet 0x1000)] }
     s.active = true ∧ s.fuse.dead 4 = false ∧ s.phase = .lit ∧ s.unscathed = true ∧ s.tagWord 4 (tgetD s.cache.tagScrub 4 0) 0 = tagEntry l0 ∧
      checkTag (tagEntry l0 ^^^ 1) (tagEntry l0) = .repaired ∧ checkTag (tagEntry l0 ^^^ 1) (tagEntry l0 ^^^ 2) = .lost ∧
      (∃ e ∈ (tget s.cache.dir (dirKey 4 (dirSet 0x1000) 0)).toList, checkDir (dirWord e ^^^ 1) (dirWord e) = .repaired ∧
        checkDir (dirWord e ^^^ 2 ^ 20) (dirWord e ^^^ 2 ^ 21) = .flared)) ∧
    (let u : Txn := { x0 with stage := .done, cause := .recall 1 0 }
     let s : State := { homed (.excl 2) with cache.txns := [u] }
     ({ s with cache.txns := [] } : State).quiet = true ∧ s.cache.txns = [u] ∧ u.stage = .done ∧ u.place.kind = .own ∧
      (s.dirLookup u.place).map Prod.fst = some 0 ∧ s.cache.parked = [] ∧ s.cache.tickets = [] ∧ s.unscathed = true) := by
  decide +kernel
theorem witness_SetWayMaintenanceIsRefused :
    let s : State := reg w1 (F.fctMaintStatus_BUSY 5) 1
    s.fuse.dead 5 = false ∧ s.get (F.fctMaintStatus_BUSY 5) = 1 ∧ s.active = true ∧ bitsOf 0x10010 14 4 = 1 ∧ bitsOf 0x10010 3 0 = 0 := by
  decide +kernel

/-! ### Witnesses: dead agents -/

theorem witness_DeathsAreDecided :
    (let s := opened x0
     s.active = true ∧ s.txn 12 = some x0 ∧ 2 ∉ x0.suspect ∧ s.fenced 2 = false ∧ 2 ∈ x0.awaiting) ∧
    (w1.active = true ∧ w1.isLeader = true ∧ w1.deaf 1 = false ∧ (∃ p ∈ w1.livePositions, p ≠ 1 ∧ ((4 : Agent), p) ∉ w1.cache.fencedBy) ∧
      ((4 : Agent), 1) ∉ w1.cache.fencedBy) ∧
    (let s : State := { w1 with cache.fencedBy := [(4, 0)] }
     ∀ p ∈ s.livePositions, p = 1 ∨ ((4 : Agent), p) ∈ s.cache.fencedBy) ∧
    (w1.cache.portsLost = [] ∧ (∀ p ∈ w1.agentAt 4, w1.isLost p = true ∨ p = 0) ∧ w1.deaf 0 = false ∧
      ∃ p ∈ w1.agentAt 1, w1.isLost p = false ∧ p ≠ 1) ∧
    ((4 : Agent).toNat < 48 ∧ w1.cache.reqs = [] ∧ w1.cache.plrs = [] ∧ w1.cache.parked = [] ∧
      ∀ k ∈ w1.shadow.ports, k.r.src = 4 → k.r.urgent = false) := by decide +kernel
theorem witness_DeathsAreReclaimed :
    (let s : State := reg { homed (.shared [1, 2]) with cache.lines := [] } F.fctFence_MASK 4
     s.active = true ∧ s.fenced 2 = true ∧ s.quiet = true ∧ s.unscathed = true ∧ ∃ e ∈ s.cache.dir, s.dirLookup (s.dirPlace e.2) = some (0, e.2) ∧
      e.2.st = .shared [1, 2] ∧ (2 : Agent) ∈ [(1 : Agent), 2]) ∧
    (let s : State := reg { homed (.excl 2) with cache.lines := [] } F.fctFence_MASK 4
     s.active = true ∧ s.fenced 2 = true ∧ s.quiet = true ∧ s.cache.wbs = [] ∧ s.shadow.puts = [] ∧
      ∃ e ∈ s.cache.dir, s.dirLookup (s.dirPlace e.2) = some (0, e.2) ∧ e.2.st = .excl 2 ∧ e.2.shadowed = false ∧
        s.lookup (s.dirPlace e.2) = none) ∧
    (let x : Death := { agent := 2, cause := 1, start := 0, walk := 1, last := none }
     let s : State := { w1 with cache.deaths := [x], cache.deathCount := [(2, 7, 3, 0x400)] }
     s.cache.deaths.filter (fun d => d.agent == x.agent) = [x] ∧ x.walk < 2 ∧ (∀ d ∈ s.cache.deaths, d.agent ≠ x.agent → d.walk < 2) ∧
      s.deathOpen 2 = false ∧ s.cache.deathCount = [(2, 7, 3, 0x400)] ∧ s.cache.wbs = []) ∧
    (let x : Death := { agent := 2, cause := 1, start := 0, walk := 1, last := none }
     let s : State := { opened x0 with cache.deaths := [x] }
     s.deathOpen 2 = true) ∧
    (let w : Wb := { id := 4, facet := 0, grp := 0, d := 0x140, data := 7, poison := true, shadowed := false, adopted := false
                     old := 2, oldPoison := false, step := .write, why := .poison 2 3 }
     let s : State := { w1 with cache.deaths := [{ agent := 2, cause := 1, start := 0, walk := 1, last := none }], cache.wbs := [w] }
     s.deathOpen 2 = false ∧ s.cache.deathCount = [] ∧ s.cache.wbs.any (fun w => match w.why with
       | .poison b _ => b == 2
       | _ => false) = true) ∧
    w1.cache.deathCount = [] := by decide +kernel

/-! ### Witnesses: the stack side, mirrors and parity -/

theorem witness_StackEventsAreTaken :
    (let w : DramWrite := { id := 5, pc := 3, cls := .demand, issued := true, d := 0x1000, data := 0x1234, poison := true, why := .rmw }
     let s : State := { w1 with stack.writes := [w] }
     s.quiet = true ∧ s.stack.writes.find? (fun x => x.id == w.id) = some w ∧ s.stack.writes.find? (fun x => x.d == w.d) = some w ∧
      s.channelFailed (s.groupAt w.d) = false ∧ s.memoriesWf = true ∧ w.why = .rmw) ∧
    (let c : RowCopy := { rowAddr := 0x123400, spare := 1, moved := 256 }
     ({ w1 with stack.copies := [c] } : State).stack.copies.find? (fun x => 256 ≤ x.moved) = some c) ∧
    w1.registersWf = true := by decide +kernel
theorem witness_ShadowCopiesAreKept :
    (let s : State := reg w1 { off := R.fctPartition, hi := 35, lo := 32 } 1
     s.active = true ∧ s.deaf 1 = false ∧ s.unscathed = true ∧ 0x100 < deviceEnd ∧ s.mirrorWay 4 (0x100 / 256 * 256) = some 15) ∧
    (let s : State := reg w1 { off := R.fctPartition, hi := 35, lo := 32 } 1
     let l : Line := { l0 with tag := (s.placeAt 4 0x100 true).tag, group := (s.placeAt 4 0x100 true).group, shd := true }
     let t : State := { s with cache.lines := [(lineKey (s.fuse.owner 4) (setIndex 0x100) 15, l)] }
     t.cache.lines = [(lineKey (t.fuse.owner 4) (setIndex 0x100) 15, l)] ∧ l.tag = (t.placeAt 4 0x100 true).tag ∧
      l.group = (t.placeAt 4 0x100 true).group ∧ (1 : Pos).toNat = t.buddy) ∧
    (let s : State := reg w1 F.shdConfig_SET_SIZE 4
     s.active = true ∧ s.isLost 1 = false ∧ 0x140 < deviceEnd ∧ 0x140 % 64 = 0 ∧ s.shadow.parity = [] ∧ s.shadow.deltas.length < 4096 ∧ 2 < s.setSize) ∧
    w1.setSize = 2 := by decide +kernel
theorem witness_ShadowAnswersAreTaken :
    (let e : Recon := { id := 6, d := 0x100, grp := 0, waiting := [1, 2], answers := [], writeBack := false, why := .scrub }
     let s : State := { w1 with shadow.recons := [e] }
     s.active = true ∧ s.deaf 1 = false ∧ ({ s with shadow.recons := [] } : State).quiet = true ∧ s.shadow.recons = [e] ∧ e.id % 4096 = 6 ∧
      1 ∈ e.waiting ∧ e.waiting.erase 1 ≠ []) ∧
    (let u : Put := { txid := 6, grp := 0, sector := 0, subs := 1, data := [5], record := none, txn := 3 }
     let s : State := { w1 with shadow.puts := [u] }
     s.active = true ∧ s.deaf 1 = false ∧ s.quiet = true ∧ (1 : Pos).toNat = s.buddy ∧ s.shadow.puts = [u] ∧ u.txid % 4096 = 6) ∧
    (let w : Wb := { id := 4, facet := 0, grp := 0, d := 0x140, data := 7, poison := false, shadowed := true, adopted := false
                     old := 2, oldPoison := false, step := .delta, why := .evict 0 }
     let s : State := { w1 with shadow.deltaOut := [(6, 4, 1)], cache.wbs := [w] }
     s.active = true ∧ s.deaf 1 = false ∧ s.quiet = true ∧ s.shadow.puts = [] ∧ s.shadow.deltaOut = [(6, w.id, 1)] ∧ s.cache.wbs = [w] ∧
      w.adopted = false ∧ s.isLost (paritySlice w.d s.setSize) = false ∧ s.shadow.order = []) := by decide +kernel
theorem witness_FailoverEnds :
    (({ w1 with shadow.walking := true } : State).active = true ∧ ({ w1 with shadow.walking := true } : State).shadow.walking = true) ∧
    (let s : State := { reg (reg (reg (reg (reg w1 F.shdConfig_SET_SIZE 4) F.shdStatus_STATE 2) F.shdStatus_LOST 2) F.shdConfig_SPARE 1)
        F.shdConfig_SHADOWED 1 with
      regions := w1.regions.map (fun g => { g with attr := g.attr ||| 0x400000000000000 })
      shadow.rebuildAt := (List.range 128).map (fun i => (i, 256)) }
     s.active = true ∧ s.rebuilding.isSome = true ∧ s.rebuildNext = some 0 ∧
      s.rebuildCopies 0 = (((s.rebuildCopies 0).1.1, (s.rebuildCopies 0).1.2), (s.rebuildCopies 0).2) ∧
      s.rebuildHere 0 ≠ none ∧ (∀ pc < 128, 256 ≤ tgetD s.shadow.rebuildAt pc 0) ∧ s.rebuildOpen = false) := by decide +kernel

/-! ### Witnesses: planned work -/

/-- A plan with one wave, of output mode 0, and one flow of two lines, whose root and parent tree are given. -/
def planOf (root par : Nat) : List Byte :=
  let words := fun (l : List Nat) => l.flatMap (fun v => bytesOf 8 v)
  List.replicate 8 0 ++ [1, 0, 1, 0] ++ List.replicate 2100 0 ++
    words [2 * 2 ^ 62, 0, 2 * 2 ^ 62 + 2 ^ 49 + 0x8000, 0, 2 ^ 55 + 2 ^ 39, 0, 0, 0] ++
    words [root * 2 ^ 57 + 2 ^ 56 + 3 * 2 ^ 48 + 2 ^ 45 + 2 * 2 ^ 32 + par, 2 * 2 ^ 62, 0, 2 * 2 ^ 62 + 0x1000, 0, 0, 0, 0]
def planned (root par : Nat) : State :=
  { reg w1 { off := R.fctPartition, hi := 63, lo := 0 } 0x110011 with
    img.force := { w1.img.force with plan := planOf root par }, cache.storeRest := true }
def flowRun : LineRun := { flow := true, desc := 0, started := false, recv := [], handled := [], taken := [], own := [] }

theorem witness_PlannedWorkStarts :
    (let s : State := { planned 0 0 with lens.engines := [(1, { running := none, pending := [(0, 5)] })], frm.items := [(.wave 1 0, 3)] }
     s.active = true ∧ s.quiet = true ∧ 1 < s.lensCount ∧ (waveOf s.plan 0).outMode ≠ 1 ∧ (waveOf s.plan 0).wSpace ≠ 0 ∧
      s.lens.engines = [(1, { running := none, pending := (0, 5) :: [] })] ∧
      s.writerBefore (s.itemSlot (.wave 1 0)) (waveOf s.plan 0).activations (fun y => y == .wave 1 0) = false ∧ s.flowsWait s.frm.items = true) ∧
    (∀ e ∈ [(0, 0), (1, 1)],
      let s : State := { planned e.1 e.2 with lens.runs := [flowRun], frm.items := [(.flow 0, 3)] }
      s.active = true ∧ s.quiet = true ∧ s.lens.runs = [flowRun] ∧ s.lens.engines = [] ∧ s.issued (.flow 0) = true ∧
        (flowOf s.plan 0).contributes s.pos = true ∧ (flowOf s.plan 0).op ≠ 2 ∧ (flowOf s.plan 0).root = e.1 ∧
        (∀ k < (flowOf s.plan 0).srcCount, s.sourceReady 0 k = true) ∧ s.unscathed = true ∧ flowRun.taken = [] ∧ flowRun.own = [] ∧
        (e.1 = 0 ∨ (flowOf s.plan 0).children s.pos = [])) ∧
    (let r : LineRun := { flowRun with started := true, own := [(0, 7, false), (1, 9, true)], recv := [(1, 0, 0, false), (1, 1, 0, true)] }
     let s : State := { planned 0 8 with lens.runs := [r], frm.items := [(.flow 0, 3)] }
     s.active = true ∧ s.quiet = true ∧ s.lens.runs = [r] ∧ s.issued (.flow 0) = true ∧ (flowOf s.plan 0).root = s.pos ∧
      1 < (flowOf s.plan 0).lines ∧ 1 ∉ r.handled ∧ (flowOf s.plan 0).dstSpace = 2 ∧ (flowOf s.plan 0).op ≠ 2 ∧
      (flowOf s.plan 0).dstInit = true ∧ (s.rootLine (flowOf s.plan 0) r 1).map (fun x => (x.1.length, x.2.1)) = some (1, true) ∧
      (s.windowOf .tile (bitsOf (flowOf s.plan 0).dstAddr 28 0 + 64 * 1) == .store 2 0 0x1040) = true) := by decide +kernel
theorem witness_PlannedItemsComplete :
    (let s : State := { planned 0 0 with
      lens.engines := [(1, { running := some { desc := 0, taken := false, begun := 0, out := false, loads := [] }, pending := [(0, 5)] })], frm.items := [(.wave 1 0, 3)]
      frm.started := true }
     s.active = true ∧ s.quiet = true ∧ s.frm.items = (.wave 1 0, 3) :: [] ∧ s.flowsWait [] = true ∧ (waveOf s.plan 0).outMode = 0 ∧ s.cache.plrs = [] ∧
      s.frm.doneSent = false ∧ s.get F.pwrThrottle_THERMAL = 0 ∧ s.frm.frameRunning = false) ∧
    (let r : LineRun := { flowRun with started := true, handled := [0, 1] }
     let s : State := { planned 0 8 with lens.runs := [r], frm.items := [(.flow 0, 3)] }
     s.frm.items = (.flow 0, 3) :: [] ∧ s.lineRun true 0 = some r ∧ ∀ l ∈ List.range (flowOf s.plan 0).lines, l ∈ r.handled) ∧
    (let r : LineRun := { flowRun with flow := false, started := true }
     let s : State := { w1 with lens.runs := [r], frm.items := [(.transfer 0, 3)] }
     s.frm.items = (.transfer 0, 3) :: [] ∧ s.lineRun false 0 = some r ∧ (transferOf s.img.force.lattice 0).lines = 0) := by
  decide +kernel

/-! ### Witnesses: links and reflections -/

/-- w1 whose port 0 works on both modules, its partner holding eight credits of VC0. -/
def linked : State :=
  { w1 with toDev := (w1.updPort 0 (fun x => { x with up0 := true, up1 := true })).updTx 0 (fun x => { x with room := [(0, 8), (1, 8), (2, 8)] }) }
/-- A flit with bits above its CRC given, and that CRC. -/
def flitWith (body : Nat) : Flit :=
  let f : Flit := BitVec.ofNat _ (body / 2 ^ 32 * 2 ^ 32)
  BitVec.ofNat _ (f.toNat + flitCrc f)
/-- The next flit on port 0, with the tags of its seven slots and the first of them; and the header of a COMP_ACK to slice 1. -/
def nextFlit (tags slot : Nat) : Flit :=
  flitWith (7 * 2 ^ 44 + ((linked.port 0).rxSeq.toNat + 1) % 4096 * 2 ^ 32 + tags * 2 ^ 72 + slot * 2 ^ 256)
def plainFlit : Flit := nextFlit 0x7777777 0
def ackHead : Nat := 2 + 1 * 2 ^ 4 + 57 * 2 ^ 10 + 5 * 2 ^ 16
def latticeFlit : Flit := flitWith (2 * 2 ^ 56 + 9 * 2 ^ 44 + ((linked.port 0).rxLseq + 1).toNat * 2 ^ 32 +
  (5 * 2 ^ 60 + 3 * 2 ^ 46 + 11 * 2 ^ 29 + 2 * 2 ^ 27 + 2 ^ 24 + 2) * 2 ^ 1792)

theorem witness_PortsTrainAndFail :
    (let s : State := reg w1 (F.pwkStatus_STATE 2) 1
     s.registersWf = true ∧ s.phase = .lit ∧ (s.port 2).barred = false ∧ s.get (F.pwkStatus_STATE 2) = 1 ∧
      (s.port 2).sidebandOnly = false) ∧
    (linked.active = true ∧ linked.get (F.pwkStatus_STATE 0) = 2 ∧ (linked.port 0).up1 = true ∧ (linked.port 0).up0 = true) ∧
    (let s : State := { w1 with toDev := w1.updPort 0 (fun x => { x with up0 := true, up1 := false }) }
     s.get (F.pwkStatus_STATE 0) = 2 ∧ (s.port 0).up0 = true ∧ (s.port 0).up1 = false) ∧
    (linked.registersWf = true ∧ linked.portUp 0 = true ∧ linked.isDieLink 0 = false ∧ linked.get F.pwkLoss_VALID = 0) := by
  decide +kernel
/-- A die link of a set of four loses a module: the set goes on without that link (R456, R527). -/
theorem witness_ModulesFailAndReturn_link :
    let s : State := reg (reg (reg { linked with links.disc := 0x800000000F000000 } F.shdConfig_SET_SIZE 4)
      { off := R.pwkCfg 0, hi := 33, lo := 32 } 1) (F.pwkCfg_NEIGHBOUR 0) 1
    (s.isDieLink 0 = true ∧ s.discField 63 63 = 1 ∧ gridNext s.pos (s.get (F.pwkCfg_NEIGHBOUR 0)) = true) ∧
    (match exec (.moduleFail 0 0) s with
    | .next t => decide (t.phase = .lit ∧ t.get F.pwkDetour_LOST_LINKS = 1)
    | _ => false) = true := by decide +kernel
theorem witness_FlitsAreReceived :
    (linked.active = true ∧ linked.portUp 0 = true ∧ flitOk (plainFlit + 1) = false) ∧
    (flitOk plainFlit = true ∧ flitField plainFlit 57 56 < 2 ∧ flitField plainFlit 58 58 = 0 ∧ flitField plainFlit 59 59 = 0 ∧
      BitVec.ofNat 12 (flitField plainFlit 43 32) = (linked.port 0).rxSeq + 1 ∧ flitSlots plainFlit = []) ∧
    (let f := nextFlit 0x7777779 ackHead
     let x : BitVec 256 := BitVec.ofNat 256 ackHead
     flitOk f = true ∧ flitSlots f = [(1, true, x)] ∧ 0 < tgetD (linked.tx 0).room 1 0 ∧ tgetD (linked.port 0).rxSlots 1 [] = [] ∧
      bitsOf x.toNat 3 0 = 2 ∧ 56 ≤ (wireOf 1 [x]).tgt ∧ (wireOf 1 [x]).tgt ≠ 56 + linked.pos ∧ linked.discards (wireOf 1 [x]).src = false) ∧
    (let f := nextFlit 0x777777A 7
     flitOk f = true ∧ flitSlots f = [(2, true, 7)] ∧ 0 < tgetD (linked.tx 0).room 2 0 ∧ tgetD (linked.port 0).rxSlots 2 [] = []) ∧
    (linked.overRuns 0 (nextFlit 0x7777774 0) = true ∧ linked.isDieLink 0 = false) := by decide +kernel
theorem witness_FlitsAreReceived_lattice :
    (let s : State := reg (reg linked { off := R.pwkCfg 0, hi := 33, lo := 32 } 1) F.prmFrames_FRAMES 5
     s.active = true ∧ s.quiet = true ∧ s.portUp 0 = true ∧ s.isDieLink 0 = true ∧ flitOk (latticeFlit + 1) = false ∧
      BitVec.ofNat 12 (flitField (latticeFlit + 1) 43 32) ∉ (s.port 0).resent ∧ flitOk latticeFlit = true ∧
      flitField latticeFlit 1855 1852 = s.get F.prmFrames_FRAMES % 16 ∧ flitField latticeFlit 1815 1815 = 0 ∧
      flitField latticeFlit 1851 1851 = 0 ∧ flitField latticeFlit 1820 1819 ≠ 0 ∧ s.lens.runs = [] ∧ s.get (F.pwkStatus_STATE 0) = 2 ∧
      flitField latticeFlit 99 72 = 0 ∧ BitVec.ofNat 12 (flitField latticeFlit 43 32) = (s.port 0).rxLseq + 1) ∧
    (let s : State := { linked with pending := [], frm.counter := 2 }
     s.active = true ∧ s.clocked = true ∧ s.links.taken = s.outbox.length ∧ s.frm.frameRunning = false ∧ s.frm.started = false ∧
      (∀ p < 6, (s.port p).rxHeld = [] ∧ (s.tx p).queue = [] ∧ (s.tx p).replay = none ∧ (s.tx p).lresend = [] ∧ (s.tx p).deferred = [] ∧
        (s.tx p).detour = [] ∧ (s.tx p).wait = 0) ∧
      s.portUp 0 = true ∧ (s.port 0).up0 = true ∧ (s.port 0).up1 = true ∧ s.get (F.pwkStatus_RATE 0) ≠ 1 ∧
      (5 * s.frm.counter + 8) / 4 - (5 * s.frm.counter + 3) / 4 ≠ 0) := by decide +kernel
theorem witness_DiscoveryRuns :
    (let s : State := { w1 with phase := .boot 9, links.disc := 0x01000000 }
     s.phase = .boot 9 ∧ s.discField 63 63 = 0 ∧ bitsOf s.links.disc.toNat 62 60 = 0 ∧ bitsOf s.links.disc.toNat 59 48 < 4095) ∧
    (let s : State := { linked with links.disc := 0xD000000001000000 }
     s.phase = .lit ∧ s.discField 63 63 = 1 ∧ bitsOf s.links.disc.toNat 62 60 ≠ 0) := by decide +kernel
theorem witness_ReflectionsEnd :
    (let e : RflEntry := { write := false, subs := 1, hue := 0, src := 1, seq := 4, addr := 0, mask := fullMask, fills := false, place := p0
                           region := 0, rgn := w0.region 0, waiters := [(9, 0)] }
     let s : State := { waiting .readOnceNofill q0 with rfl_.queue := [(3, e)] }
     s.quiet = true ∧ tget s.rfl_.queue 3 = some e ∧ e.write = false ∧ e.fills = false ∧ e.waiters = [(9, 0)] ∧
      s.cache.reqs = [pulledEntry 9 (s.region 0) .readOnceNofill q0 0] ∧ q0.len = 0 ∧ q0.urgent = false ∧ q0.view = 0 ∧
      s.fenced q0.src.toNat = false ∧ s.cache.pods = []) ∧
    (let e : RflEntry := { write := true, subs := 1, hue := 0, src := 1, seq := 4, addr := 0, mask := fullMask, fills := false, place := p0
                           region := 0, rgn := w0.region 0, waiters := [] }
     let s : State := { w1 with rfl_.queue := [(3, e)] }
     s.quiet = true ∧ tget s.rfl_.queue 3 = some e ∧ e.write = true ∧ e.fills = false ∧ e.waiters = [] ∧ s.cache.pods = []) := by
  decide +kernel

/-! ### Worked examples of the manual -/

/-- The read worked in Address spaces and the region table (R98, R101, R116): home slice 3, device offset 16,811,712,
facet group 49, parity slice 0, set 1,026 and tag 0. -/
theorem test_worked_read :
    (let g : Region := { Region.empty with base := 0x8000 <<< 34, attr := (1 <<< 58) ||| (0x013 <<< 37) ||| 8 }
     homeOf 0x100003A6C0 g 8 = (3, 16811712) ∧ facetGroup 16811712 g.salt = 49) ∧
    paritySlice 16811712 8 = 0 ∧ setIndex 16811712 = 1026 ∧ tagOf 16811712 = 0 := by
  decide +kernel
/-- The same read on the stack side: the folded address. -/
theorem test_worked_folded_address : foldedAddress 49 16811712 = 0xC6000023 := by decide +kernel

/-- FP32 0x3E99999A in every element format, round to nearest even (R297). -/
theorem test_worked_encodings :
    [(4, 0x2A), (5, 0x35), (6, 0x05), (7, 0x02), (8, 0x1), (9, 0x13), (0xA, 0), (0xB, 0)].all (fun e =>
      (encodeElem e.1 ⟨[], 0⟩ .rne (fp32.decode 0x3E99999A)).code == e.2) = true ∧
    (bf16.round (fp32.decode 0x3E99999A)).1 = 0x3E9A ∧ (fp16.round (fp32.decode 0x3E99999A)).1 = 0x34CD := by decide +kernel
/-- The worked MXFP4 block: 13.0, -2.7, 0.3, -0.0 and zeros narrow to X = 129 and bytes 0x95, 0x80 (R295, R296). -/
theorem test_worked_mxfp4_block :
    let v := [0x41500000, 0xC02CCCCD, 0x3E99999A, 0x80000000].map fp32.decode ++ List.replicate 28 (fp32.decode 0)
    let b := encodeBlock 8 ⟨[], 0⟩ false v 0
    b.x = 129 ∧ b.payload = 0x8095 ∧ b.sats = 0 ∧
    ((blockValues 8 ⟨[], 0⟩ b.payload b.x).take 4).map (fun x => (bf16.round x).1) = [0x4140, 0xC000, 0x0000, 0x8000] := by
  decide +kernel
/-- The worked PAL3 block: 2.0, -11.0 and zeros take X = 128 and first bytes 0xC4, 0xB6 (R288, R295). -/
theorem test_worked_pal3_block :
    let p : Palette := { entries := [-24, -12, -5, 0, 4, 9, 16, 31], texp := -2 }
    let v := [0x40000000, 0xC1300000].map fp32.decode ++ List.replicate 30 (fp32.decode 0)
    let b := encodeBlock 0xD p false v 0
    b.x = 128 ∧ b.payload % 65536 = 0xB6C4 := by decide +kernel
/-- The worked promotion ends at +0, and at 381 where K ends at 64 (R378). -/
theorem test_worked_promotion :
    (promoteFp32 0 (.fin false 381 0) (.fin false 1 (-34)) (.fin true 381 0) (.fin false 1 (-34))).1 = 0 ∧
    (promoteFp32 0 (.fin false 381 0) (.fin false 1 (-34)) (.fin false 0 0) (.fin false 0 0)).1 = 0x43BE8000 := by decide +kernel
/-- The worked wave takes 2,133 SCLK at a batch of 12 and 2,837 at 16 (R355). -/
theorem test_worked_wave_times :
    let d : Wave := { waveOf [] 0 with wSpace := 1, wFormat := 8, nTiles := 4, kTiles := 44, batch := 12, outMode := 2 }
    w0.waveTime d = 2133 ∧ w0.waveTime { d with batch := 16 } = 2837 := by decide +kernel
/-- The worked flow takes 302 SCLK (R425, R427). -/
theorem test_worked_flow_time : (reg w0 { off := R.fctPartition, hi := 63, lo := 0 } 0x110011).flowTime { flowOf [] 0 with
    dstInit := true, parts := 0xFF, srcCount := 1, lines := 384, parent := 0xD22400, srcSpace := 2, srcOffset := 0x10000000
    dstSpace := 2 } = 302 := by decide +kernel
/-- In the worked multicast, 50 flits from LCLK 80 s + 1 end at 80 s + 57, and the last flit to slice 7 leaves at 646 (R478,
R520). -/
theorem test_worked_multicast :
    let e : LinkEntry := { port := 0, flow := false, index := 3, line := 0, flits := 50, start := 1 }
    e.last = 57 ∧ { e with start := 161 }.last = 217 ∧ { e with start := 641, flits := 6 }.last = 646 := by decide +kernel
/-- A bulk burst is three sub-blocks at 9.6 Gb/s and two at 6.4 (R548). -/
theorem test_bulk_burst : ∀ e ∈ [(9600, 3), (6400, 2)], (reg w0 F.stkConfig_TRAINED e.1).get F.stkConfig_TRAINED / 3200 = e.2 ∧
    (reg w0 F.stkConfig_TRAINED e.1).busCycles e.2 ≤ 8 ∧ 8 < (reg w0 F.stkConfig_TRAINED e.1).busCycles (e.2 + 1) := by
  decide +kernel
/-- IDCODE of STEP 0 (R813). -/
theorem test_idcode : w0.idcode = 0x005374B9 := by decide +kernel
/-- SET_IDENT of version 2.4 at position 0 (R1, R3). -/
theorem test_set_ident : w0.csrRead R.setIdent = 0xB12E053702040000 := by decide +kernel

/-! ### One step of a few commands -/

/-- A read of a cached granule is answered with its data, tag and all, at once (R123, R235). -/
theorem test_read_once_hits : (match exec (.readOnce q0) w1 with
    | .next t => decide (t.outbox = [Msg.resp 1 5 0 [.ok] 0 0 [0]])
    | _ => false) = true := by decide +kernel
/-- A read of an absent one reads the stack instead, and the next sector is prefetched (R123, R126, R127). -/
theorem test_read_once_misses : (match exec (.readOnce q0) w0 with
    | .next t => decide (t.outbox = [] ∧ (t.stack.reads.map (fun r => r.sector)) = [0x1000, 0x1100] ∧ t.cache.plrs.length = 2)
    | _ => false) = true := by decide +kernel
/-- A request of an unknown node's space and of a fenced agent (R103, R261). -/
theorem test_fenced_agent_is_ignored : (match exec (.readOnce q0) (reg w1 F.fctFence_MASK 2) with
    | .next t => decide (t.outbox = [])
    | _ => false) = true := by decide +kernel
/-- A write's data is pulled, and its bytes are stored under its mask (R102, R465). -/
theorem test_write_stores_its_bytes : (match exec (.writeData 1 5 0 [0xABCD]) (waiting .write { q0 with mask := 1 }) with
    | .next t => decide (t.cached p0 = some 0xCD ∧ t.dirtyAt p0 = true)
    | _ => false) = true := by decide +kernel
/-- The read of a register through the test access port (R812). -/
theorem test_jtag_reads_a_register : (match exec (.jtagCsr 0 none) (reg w0 F.secDebug_PERMS 4) with
    | .next t => decide (t.outbox = [Msg.tdo 0xB12E053702040000])
    | _ => false) = true := by decide +kernel
/-- W1C bits clear, RW bits are set, RO fields stay (R8). -/
theorem test_register_access_codes : (match exec (.csrWrite wr 0x20018 3) (reg w0 F.frmEvents_TICK_PHASE 1) with
    | .next t => decide (t.reg 0x20018 = 0)
    | _ => false) = true ∧ (match exec (.csrWrite wr 0x20028 0x12345) w0 with
    | .next t => decide (t.reg 0x20028 = 0x2345)
    | _ => false) = true ∧ (match exec (.csrWrite wr 0x20000 0xFF) w0 with
    | .next t => decide (t.reg 0x20000 = w0.reg 0x20000)
    | _ => false) = true := by decide +kernel
/-- A device offset that the stacks lack stops the step by name (R95). -/
theorem test_offset_outside_faults : (match exec (.reconRead { pos := 1, urgent := false } 0 0x2CB4000000) w0 with
    | .fault (.deviceOffsetOutside d) => d == 0x2CB4000000
    | _ => false) = true := by decide +kernel

end Sys2Proof.Tests
end

section
/-! PROOFS. Every step keeps the canonical form of the byte memories and of the register file: the command at the front of the queue
by what its meaning keeps, and a cycle of the slice clock. -/

namespace Sys2Proof.Machine

/-- Every command but FUSE_BLOW keeps what Kept speaks of: each meaning does. -/
theorem exec_kept (c : Instr) (s t : State) (hc : ∀ target, c ≠ .fuseBlow target) (h : exec c s = .next t) :
    Kept s.toDev t.toDev :=
  match c, hc, h with
  | .frameTick, _, h => execFrameTick_kept s t h
  | .holdoverBoundary, _, h => execHoldoverBoundary_kept s t h
  | .holdoverHalt, _, h => execHoldoverHalt_kept s t h
  | .planResume, _, h => execPlanResume_kept s t h
  | .slotStart, _, h => execSlotStart_kept s t h
  | .heartbeatMissed lost, _, h => execHeartbeatMissed_kept lost s t h
  | .heartbeat sender frame usable lostLinks ackLink ackSeq, _, h =>
    execHeartbeat_kept sender frame usable lostLinks ackLink ackSeq s t h
  | .frameDone sender frame usable, _, h => execFrameDone_kept sender frame usable s t h
  | .frameGo frame degraded, _, h => execFrameGo_kept frame degraded s t h
  | .degradedSwitch, _, h => execDegradedSwitch_kept s t h
  | .readShared r, _, h => execReadShared_kept r s t h
  | .readUnique r, _, h => execReadUnique_kept r s t h
  | .claim r, _, h => execClaim_kept r s t h
  | .readOnce r, _, h => execReadOnce_kept r s t h
  | .readOnceNofill r, _, h => execReadOnceNofill_kept r s t h
  | .write r, _, h => execWrite_kept r s t h
  | .writeBack r, _, h => execWriteBack_kept r s t h
  | .darken r, _, h => execDarken_kept r s t h
  | .clean r, _, h => execClean_kept r s t h
  | .invalidate r, _, h => execInvalidate_kept r s t h
  | .cleanInvalidate r, _, h => execCleanInvalidate_kept r s t h
  | .atomic r, _, h => execAtomic_kept r s t h
  | .farAtomic r, _, h => execFarAtomic_kept r s t h
  | .reduceStore r, _, h => execReduceStore_kept r s t h
  | .snpReply p, _, h => execSnpReply_kept p s t h
  | .snpData p data, _, h => execSnpData_kept p data s t h
  | .compAck src txid, _, h => execCompAck_kept src txid s t h
  | .writeData src txid off data, _, h => execWriteData_kept src txid off data s t h
  | .sideAccess a, _, h => execSideAccess_kept a s t h
  | .escapeClaimSlot e, _, h => execEscapeClaimSlot_kept e s t h
  | .escapeReleaseSlot e, _, h => execEscapeReleaseSlot_kept e s t h
  | .prefetchHint grp d allocClass shadowed, _, h => execPrefetchHint_kept grp d allocClass shadowed s t h
  | .dramReadComplete id errs, _, h => execDramReadComplete_kept id errs s t h
  | .dramWriteComplete id, _, h => execDramWriteComplete_kept id s t h
  | .parkedPartResume facet, _, h => execParkedPartResume_kept facet s t h
  | .heldWaiterReenter facet d, _, h => execHeldWaiterReenter_kept facet d s t h
  | .tagScrub facet upsets, _, h => execTagScrub_kept facet upsets s t h
  | .dirScrub facet upsets, _, h => execDirScrub_kept facet upsets s t h
  | .dirRecallComplete txn, _, h => execDirRecallComplete_kept txn s t h
  | .swClean facet set way, _, h => execSwClean_kept facet set way s t h
  | .swInvalidate facet set way, _, h => execSwInvalidate_kept facet set way s t h
  | .swCleanInvalidate facet set way, _, h => execSwCleanInvalidate_kept facet set way s t h
  | .snoopTimeout txn agent, _, h => execSnoopTimeout_kept txn agent s t h
  | .agentSuspect report cause, _, h => execAgentSuspect_kept report cause s t h
  | .agentDead agent cause, _, h => execAgentDead_kept agent cause s t h
  | .fenced sender agent, _, h => execFenced_kept sender agent s t h
  | .reclaim agent, _, h => execReclaim_kept agent s t h
  | .deathWalkEnd agent, _, h => execDeathWalkEnd_kept agent s t h
  | .ticketHoldExpiry facet ticket, _, h => execTicketHoldExpiry_kept facet ticket s t h
  | .eclipse cause origin, _, h => execEclipse_kept cause origin s t h
  | .waveStart engine badSubs accBad, _, h => execWaveStart_kept engine badSubs accBad s t h
  | .waveComplete engine, _, h => execWaveComplete_kept engine s t h
  | .flowStart flow, _, h => execFlowStart_kept flow s t h
  | .flowLineApply flow line, _, h => execFlowLineApply_kept flow line s t h
  | .flowComplete flow, _, h => execFlowComplete_kept flow s t h
  | .transferComplete index, _, h => execTransferComplete_kept index s t h
  | .latticeFlit port flit, _, h => execLatticeFlit_kept port flit s t h
  | .flitReceive port flit, _, h => execFlitReceive_kept port flit s t h
  | .podSync sender src txid, _, h => execPodSync_kept sender src txid s t h
  | .podSyncDone sender src txid, _, h => execPodSyncDone_kept sender src txid s t h
  | .laneFail port module, _, h => execLaneFail_kept port module s t h
  | .moduleReturn port module repaired, _, h => execModuleReturn_kept port module repaired s t h
  | .moduleFail port module, _, h => execModuleFail_kept port module s t h
  | .linkSilence port, _, h => execLinkSilence_kept port s t h
  | .glint port training, _, h => execGlint_kept port training s t h
  | .pwkGlint ports, _, h => execPwkGlint_kept ports s t h
  | .discoveryRound partners, _, h => execDiscoveryRound_kept partners s t h
  | .discoveryTimeout, _, h => execDiscoveryTimeout_kept s t h
  | .retirementCopyDone badSubs, _, h => execRetirementCopyDone_kept badSubs s t h
  | .channelFail stack channel, _, h => execChannelFail_kept stack channel s t h
  | .memoryInitDone durationUs, _, h => execMemoryInitDone_kept durationUs s t h
  | .shadeZeroFillDone, _, h => execShadeZeroFillDone_kept s t h
  | .mirrorPut sender txid sector subs fgroup data record, _, h =>
    execMirrorPut_kept sender txid sector subs fgroup data record s t h
  | .mirrorRelease sender sector subs fgroup, _, h => execMirrorRelease_kept sender sector subs fgroup s t h
  | .parityDelta sender txid d delta poison, _, h => execParityDelta_kept sender txid d delta poison s t h
  | .parityRelease sender txid d, _, h => execParityRelease_kept sender txid d s t h
  | .reconRead sender txid d, _, h => execReconRead_kept sender txid d s t h
  | .readData a, _, h => execReadData_kept a s t h
  | .comp sender txid codes, _, h => execComp_kept sender txid codes s t h
  | .homeMoved lost newHome notice boundary, _, h => execHomeMoved_kept lost newHome notice boundary s t h
  | .adoptionWalkEnd, _, h => execAdoptionWalkEnd_kept s t h
  | .rebuildChunkDone chunk copy0 copy1, _, h => execRebuildChunkDone_kept chunk copy0 copy1 s t h
  | .rflDoneOk entry, _, h => execRflDoneOk_kept entry s t h
  | .rflDonePoison entry, _, h => execRflDonePoison_kept entry s t h
  | .rflDoneDeny entry, _, h => execRflDoneDeny_kept entry s t h
  | .rflEntryTimeout entry, _, h => execRflEntryTimeout_kept entry s t h
  | .stagingWrite w offset mask value, _, h => execStagingWrite_kept w offset mask value s t h
  | .imgSeal value, _, h => execImgSeal_kept value s t h
  | .load w, _, h => execLoad_kept w s t h
  | .quiesce w, _, h => execQuiesce_kept w s t h
  | .applyPatch w, _, h => execApplyPatch_kept w s t h
  | .liftFence w agent, _, h => execLiftFence_kept w agent s t h
  | .debugToken w, _, h => execDebugToken_kept w s t h
  | .debugLock w, _, h => execDebugLock_kept w s t h
  | .revokeKey w slot, _, h => execRevokeKey_kept w slot s t h
  | .raiseVersion w, _, h => execRaiseVersion_kept w s t h
  | .dim w, _, h => execDim_kept w s t h
  | .lit w, _, h => execLit_kept w s t h
  | .dusk w, _, h => execDusk_kept w s t h
  | .duskDrained, _, h => execDuskDrained_kept s t h
  | .night w, _, h => execNight_kept w s t h
  | .resetWarm w targets, _, h => execResetWarm_kept w targets s t h
  | .resetCold w targets, _, h => execResetCold_kept w targets s t h
  | .resetBlock w targets block, _, h => execResetBlock_kept w targets block s t h
  | .expose w frame, _, h => execExpose_kept w frame s t h
  | .ctlExpose frame, _, h => execCtlExpose_kept frame s t h
  | .clearCounters w groups, _, h => execClearCounters_kept w groups s t h
  | .clearLog w, _, h => execClearLog_kept w s t h
  | .reservedCommand w code, _, h => execReservedCommand_kept w code s t h
  | .commandEnd, _, h => execCommandEnd_kept s t h
  | .forward sender code arg, _, h => execForward_kept sender code arg s t h
  | .ready sender, _, h => execReady_kept sender s t h
  | .refused sender code, _, h => execRefused_kept sender code s t h
  | .commit frame, _, h => execCommit_kept frame s t h
  | .abort code, _, h => execAbort_kept code s t h
  | .seal frame, _, h => execSeal_kept frame s t h
  | .ctlResetWarm via w targets, _, h => execCtlResetWarm_kept via w targets s t h
  | .ctlResetCold via w targets, _, h => execCtlResetCold_kept via w targets s t h
  | .ctlResetBlock via w targets block, _, h => execCtlResetBlock_kept via w targets block s t h
  | .ctlResetReserved via w, _, h => execCtlResetReserved_kept via w s t h
  | .rstBlock value, _, h => execRstBlock_kept value s t h
  | .blockIdle, _, h => execBlockIdle_kept s t h
  | .blockIdleTimeout, _, h => execBlockIdleTimeout_kept s t h
  | .rstWdog, _, h => execRstWdog_kept s t h
  | .gnmCoreWdog core, _, h => execGnmCoreWdog_kept core s t h
  | .cpWatchdogExpiry, _, h => execCpWatchdogExpiry_kept s t h
  | .coreWatchdogExpiry core, _, h => execCoreWatchdogExpiry_kept core s t h
  | .eclipseExitTimer, _, h => execEclipseExitTimer_kept s t h
  | .pwrGoodRise b, _, h => execPwrGoodRise_kept b s t h
  | .pwrGoodFall, _, h => execPwrGoodFall_kept s t h
  | .rstNAssert, _, h => execRstNAssert_kept s t h
  | .rstNRelease b, _, h => execRstNRelease_kept b s t h
  | .clockLoss, _, h => execClockLoss_kept s t h
  | .vddCoreDroop, _, h => execVddCoreDroop_kept s t h
  | .vddCoreRecover b, _, h => execVddCoreRecover_kept b s t h
  | .vddCoreBrownout, _, h => execVddCoreBrownout_kept s t h
  | .retentionOverload, _, h => execRetentionOverload_kept s t h
  | .tempSample celsius, _, h => execTempSample_kept celsius s t h
  | .wakeLit sender, _, h => execWakeLit_kept sender s t h
  | .extest pins, _, h => execExtest_kept pins s t h
  | .idcode, _, h => execIdcode_kept s t h
  | .samplePreload pins, _, h => execSamplePreload_kept pins s t h
  | .token bytes, _, h => execToken_kept bytes s t h
  | .nonce, _, h => execNonce_kept s t h
  | .wrapper, _, h => execWrapper_kept s t h
  | .ijtag, _, h => execIjtag_kept s t h
  | .jtagCsr offset store, _, h => execJtagCsr_kept offset store s t h
  | .bypass code, _, h => execBypass_kept code s t h
  | .wsBypass, _, h => execWsBypass_kept s t h
  | .wsExtest, _, h => execWsExtest_kept s t h
  | .wsIntest, _, h => execWsIntest_kept s t h
  | .wsScan, _, h => execWsScan_kept s t h
  | .fuseBlow target, hc, _ => absurd rfl (hc target)
  | .csrWrite w offset value, _, h => execCsrWrite_kept w offset value s t h
  | .pull sender txid, _, h => execPull_kept sender txid s t h
  | .portTrained port m0 m1 failed0 failed1, _, h => execPortTrained_kept port m0 m1 failed0 failed1 s t h
  | .refclkReturn, _, h => execRefclkReturn_kept s t h
  | .powerLoss, _, h => execPowerLoss_kept s t h
  | .trstNAssert, _, h => execTrstNAssert_kept s t h
  | .rampStep, _, h => execRampStep_kept s t h

/-- The memories and the register file stay in canonical form from s to t. -/
def Dev.formsKept (s t : Dev) : Prop :=
  (s.memoriesWf = true → t.memoriesWf = true) ∧ (s.registersWf = true → t.registersWf = true)

theorem Kept.formsKept {s t : Dev} (h : Kept s t) : s.formsKept t := ⟨h.mem, h.regs⟩

/-- FUSE_BLOW changes fuses, if anything. -/
theorem execFuseBlow_formsKept (target : FuseTarget) (s t : State) (h : execFuseBlow target s = .next t) :
    s.toDev.formsKept t.toDev := by
  rw [onDev_next h]
  dsimp only
  split
  · exact ⟨id, id⟩
  · exact ⟨id, id⟩

theorem exec_formsKept (c : Instr) (s t : State) (h : exec c s = .next t) : s.toDev.formsKept t.toDev := by
  by_cases hc : ∃ target, c = .fuseBlow target
  · obtain ⟨target, rfl⟩ := hc
    exact execFuseBlow_formsKept target s t h
  · exact (exec_kept c s t (fun target e => hc ⟨target, e⟩) h).formsKept

/-- A cycle keeps both forms: the clock that it advances is not among the memories and registers. -/
theorem Dev.tick_formsKept (s : Dev) : s.formsKept s.tick :=
  have h : Kept { s with now := s.now + 1 } s.tick := s.tick_kept
  ⟨h.mem, h.regs⟩

/-- Settles O6: the commands keep both forms by what their meanings keep, and a cycle of the slice clock does too. -/
theorem stepsKeepTheCanonicalForm : Obligations.StepsKeepTheCanonicalForm := by
  intro s t h
  unfold step at h
  split at h
  next c rest _ => exact exec_formsKept c { s with pending := rest } t h
  next =>
    cases h
    exact s.toDev.tick_formsKept

end Sys2Proof.Machine
end

section
/-! PROOFS. Admitted register writes and staged bytes: what an admitted write comes to, what each byte reads after a write of
several, and the staging window. -/

namespace Sys2Proof.Machine

/-- A write of n bytes, byte by byte: inside it the value's bytes, outside it what was there. -/
theorem memGet_memWrite {m : Memory} (h : memWf m = true) (a n v j : Nat) :
    memGet (memWrite m a n v) j = if a ≤ j ∧ j < a + n then BitVec.ofNat 8 (v / 256 ^ (j - a)) else memGet m j := by
  induction n generalizing m a v with
  | zero => rw [if_neg (by omega)]; rfl
  | succ n ih =>
    unfold memWrite
    rw [ih (memPut_wf h), memGet_memPut h]
    by_cases hj : j = a
    · subst hj
      rw [if_neg (by omega), if_pos rfl, if_pos (by omega), Nat.sub_self, Nat.pow_zero, Nat.div_one]
    · rw [if_neg hj]
      by_cases hin : a ≤ j ∧ j < a + (n + 1)
      · rw [if_pos (by omega), if_pos hin, Nat.div_div_eq_div_mul, ← Nat.pow_succ', show (j - (a + 1)).succ = j - a by omega]
      · rw [if_neg (by omega), if_neg hin]

/-- A response to an agent whose messages are not discarded is sent (R261). -/
theorem Dev.respond_of_not_discards {s : Dev} {dst : Agent} (h : s.discards dst.toNat = false) (txid : BitVec 12) (off : Nat)
    (codes : List Code) (grant : BitVec 2) (ticket : BitVec 16) (data : List Sub) :
    s.respond dst txid off codes grant ticket data = s.send (.resp dst txid off codes grant ticket data) := by
  have hf : s.fenced dst.toNat = false := (Bool.or_eq_false_iff.1 h).1
  rw [Dev.respond, hf]
  rfl

/-- An admitted write of a form that R7 allows is answered OK and then has its effect (R9, R87, R93, R103). -/
theorem Dev.csrAdmit_of_admits {s : Dev} {w : Writer} {off rights : Nat} (h : s.admits w off rights = true) (run : Dev → Dev) :
    s.csrAdmit w off rights true run = run (s.send (.resp w.src w.txid 0 [.ok] 0 0 [])) := by
  simp only [Dev.admits, Bool.and_eq_true, Bool.not_eq_true'] at h
  obtain ⟨⟨⟨⟨hact, hdis⟩, hvia⟩, hsrc⟩, hreg⟩ := h
  simp only [Dev.csrAdmit, hact, hdis, hvia, hsrc, Dev.respond_of_not_discards hdis]
  by_cases hin : (!s.img.firstSealed || w.via.isDieLink) = true
  · simp [hin]
  · rw [Bool.not_eq_true] at hin
    rw [hin, Bool.false_or] at hreg
    cases hr : s.regionOf 3 off 8 with
    | none => rw [hr] at hreg; cases hreg
    | some n =>
      rw [hr] at hreg
      simp only [Bool.and_eq_true, Bool.not_eq_true', Bool.or_eq_true, decide_eq_true_eq] at hreg
      obtain ⟨⟨hhue, hgrant⟩, hcnt⟩ := hreg
      have hg : (decide (w.src.toNat < 48) && !(s.region n).grants w.src.toNat (if 56 ≤ w.src.toNat then 0 else w.hue.toNat)
          rights) = false := by
        rcases hgrant with hslice | hgrant
        · rw [decide_eq_false (by omega), Bool.false_and]
        · rw [hgrant, Bool.not_true, Bool.and_false]
      simp [hin, hhue, hg, hcnt]

theorem exec_stagingWrite (w : Writer) (offset : BitVec 15) (mask : BitVec 8) (value : BitVec 64) (s : State) :
    exec (.stagingWrite w offset mask value) s =
      .next { s with toDev := s.stagingWrite w offset.toNat mask.toNat value } := rfl

/-- A doubleword staged within the buffer is written at IMG_STAGE.OFFSET plus its offset (R687). -/
theorem Dev.stageWord_of_fits {s : Dev} {off : Nat} (h : s.get F.imgStage_OFFSET + off + 8 ≤ 0x2000000) (v : Nat) :
    s.stageWord off v = { s with img.stage := memWrite s.img.stage (s.get F.imgStage_OFFSET + off) 8 v } :=
  if_neg (by omega)

/-- Settles O30: an admitted write is answered OK, and then its doubleword is written byte by byte. -/
theorem stagedBytesAreStored : Obligations.StagedBytesAreStored := by
  intro w offset value s hadm halign hfits hwf
  obtain ⟨-, -, hstage⟩ := (memoriesWf_iff _).1 hwf
  have hform : ((0xFF : BitVec 8).toNat == 0xFF && offset.toNat % 8 == 0) = true := by simp [halign]
  refine ⟨{ s with
    img.stage := memWrite s.img.stage (s.get F.imgStage_OFFSET + offset.toNat) 8 value.toNat
    outbox := s.outbox ++ [.resp w.src w.txid 0 [.ok] 0 0 []] }, ?_,
    fun a => memGet_memWrite hstage _ 8 _ a, rfl⟩
  rw [exec_stagingWrite, Dev.stagingWrite, hform, Dev.csrAdmit_of_admits hadm, Dev.stageWord_of_fits (s := s.send _) hfits]
  rfl

end Sys2Proof.Machine
end

section
/-! PROOFS. CSR_WRITE of a register that the register file lists twice: a state where the access codes do not say what is read. -/

namespace Sys2Proof.Machine

/-- The slice's own cores as a writer, at position 0. -/
def ownCores : Writer := { via := .own, src := 56, txid := 0, hue := 0 }

/-- A slice that waits for its first image and whose register file lists FRM_GUARD twice: the file is not in canonical form. -/
def guardListedTwice : State := { State.reset with phase := .boot 8, csr := [(0x20028, 1), (0x20028, 1)] }

theorem guardListedTwice_admits :
    guardListedTwice.admits ownCores (0x20028 : BitVec 24).toNat (csrRights (0x20028 : BitVec 24).toNat) = true := by
  decide +kernel

/-- FRM_GUARD's row of the register map: RW bits [15:0]. -/
theorem regRow_guard : regRow (0x20028 : BitVec 24).toNat = some ⟨0x20028, [], 0xFFFF, 0, 0, 0⟩ := by decide +kernel

/-- FRM_GUARD still reads 1 after a write of 0, which takes one of its two entries away. -/
theorem guardListedTwice_keeps_guard : ∃ t : State, exec (.csrWrite ownCores 0x20028 0) guardListedTwice = .next t ∧
    (t.reg 0x20028).testBit 0 = true := ⟨_, rfl, by decide +kernel⟩

/-- Refutes O8: the statement has no premise that the register file is in canonical form. Where the file lists a register twice, a
write of 0 uncovers the second entry, and an RW bit that was written 0 reads 1. -/
theorem not_registersAreWritten : ¬ Obligations.RegistersAreWritten := by
  intro h
  obtain ⟨-, hrow⟩ := (h ownCores 0x20028 0 guardListedTwice).1 guardListedTwice_admits (by decide) (by decide)
  obtain ⟨-, hrow⟩ := hrow (by decide) (by decide) (by decide) (by decide) (by decide)
  obtain ⟨t, ht, hbits, -⟩ := hrow _ regRow_guard rfl
  obtain ⟨u, hu, hguard⟩ := guardListedTwice_keeps_guard
  rw [← Host.Outcome.next.inj (hu.symm.trans ht)] at hbits
  have hzero := hbits 0 (by decide)
  rw [if_pos (Or.inl (by decide))] at hzero
  exact absurd (hguard.symm.trans hzero) (by decide)

end Sys2Proof.Machine
end

section
/-! PROOFS. WRITE_DATA of a register write beside a hold under the write's identity: a state where more than the register
changes. -/

namespace Sys2Proof.Machine

/-- A register write of the slice's own cores to a CSR offset that no register has. -/
def ownCsrWrite : Request :=
  { via := .own, space := .csr, addr := 0x6000000000130000, len := 0, mask := 0xFF, view := 0, hue := 0, src := 56, txid := 0
    arg := 0, ticket := none, urgent := false, stream := false, upset := {} }

/-- A hold that waits for the response of the request with identity 0 to leave (R241). -/
def leavingHold : Txn :=
  { id := 1, cause := .request 0 0, op := .readOnce, src := 56
    place := { kind := .own, facet := 0, grp := 0, group := false, d := 0, tag := 0, shadowed := false }, stage := .leave
    before := none, after := none, awaiting := [], replies := [], held := none, dirtyIn := none, grant := 0, code := .ok
    podWait := [], answered := true, cls := 0, aged := false, strict := false, prefetch := false, filled := false
    dirWay := none, since := 0, suspect := [], ackTxid := 0, broadcast := false, ackDue := false }

/-- A slice that waits for its first image, with a register write whose data is still to come and a hold under the write's
identity. -/
def writeBesideHold : State :=
  { State.reset with
    phase := .boot 8
    cache := { State.reset.cache with reqs := [pulledEntry 0 Region.empty .write ownCsrWrite 0], txns := [leavingHold] } }

/-- The slice of the statement after the write: answered, its effect taken. -/
def writeBesideHold.stated : Dev :=
  (({ writeBesideHold with
      cache.reqs := []
      outbox := writeBesideHold.outbox ++ [Msg.resp ownCsrWrite.src ownCsrWrite.txid 0 [.ok] 0 0 []] } : State).csrEffect
    ownCsrWrite.offset (bitsOf (0 : Sub).toNat (8 * (ownCsrWrite.addr.toNat % 64) + 63) (8 * (ownCsrWrite.addr.toNat % 64)))).settle

/-- The response that leaves ends the hold (R241). -/
theorem writeBesideHold_ends_hold : ∃ t : State,
    exec (.writeData ownCsrWrite.src ownCsrWrite.txid 0 [0]) writeBesideHold = .next t ∧ t.cache.txns = [] :=
  ⟨_, rfl, by decide +kernel⟩

theorem writeBesideHold_stated_keeps_hold : writeBesideHold.stated.cache.txns = [leavingHold] := by decide +kernel

/-- Refutes O39, by its clause of the register write: the response that leaves ends each hold that waits for a response of the
request's identity to leave (R241), and the statement, which has no premise that shuts such a hold
out, lets every open transaction stand. -/
theorem not_writeDataIsTaken : ¬ Obligations.WriteDataIsTaken := by
  rintro ⟨-, h⟩
  have hstated := h 0 Region.empty ownCsrWrite 0 0 writeBesideHold (by decide +kernel) (by decide +kernel) rfl rfl rfl rfl
  obtain ⟨t, ht, hended⟩ := writeBesideHold_ends_hold
  rw [Host.Outcome.next.inj (ht.symm.trans hstated)] at hended
  exact absurd (hended.symm.trans writeBesideHold_stated_keeps_hold) (List.cons_ne_nil _ _).symm

end Sys2Proof.Machine
end

section
/-! PROOFS. The frame barrier at the leader: PLAN_RESUME, DEGRADED_SWITCH and FRAME_DONE. -/

namespace Sys2Proof.Machine

/-- FRAME_GO to every live slice, and no FRAME_DONE held any more (R52). -/
theorem Dev.sendGo_eq (s : Dev) (degraded : Bool) : s.sendGo degraded = { s with
    frm.doneFrom := [], frm.goFor := s.namedBoundary
    outbox := s.outbox ++ s.livePositions.map (fun p => Msg.ctl p (.frameGo (BitVec.ofNat 48 s.namedBoundary) degraded)) } :=
  Dev.ctlAll_eq _ _

/-- PLAN_RESUME sends FRAME_GO once every live slice has 16 usable ticks and its plan frame done (R35). -/
theorem Dev.planResume_of_ready {s : Dev} (hact : s.active = true) (hlead : s.isLeader = true) (htick : s.frm.haltTick = true)
    (hpend : s.frm.haltPending = false) (hroute : s.frm.haltRoute = false) (hord : s.frm.haltOrdered = false)
    (hrun : 16 ≤ s.frm.usableRun)
    (hrep : ∀ p ∈ s.livePositions, p ≠ s.pos → 16 ≤ tgetD s.frm.reports p 0 % 65536)
    (hdone : ∀ p ∈ s.livePositions, p ∈ s.frm.doneFrom) : s.planResume = s.sendGo false := by
  have hready : (s.livePositions.filter (fun p => p != s.pos)).all (fun p => 16 ≤ tgetD s.frm.reports p 0 % 65536) = true :=
    List.all_eq_true.2 fun p hp => by
      obtain ⟨hp, hne⟩ := List.mem_filter.1 hp
      simpa using hrep p hp (by simpa using hne)
  have hall : s.livePositions.all (fun p => s.frm.doneFrom.contains p) = true :=
    List.all_eq_true.2 fun p hp => List.contains_iff_mem.2 (hdone p hp)
  simp only [Dev.planResume, hact, hlead, htick, hpend, hroute, hord, hrun, hready, hall, decide_true, Bool.not_false,
    Bool.and_self, if_true]

/-- DEGRADED_SWITCH sends FRAME_GO at the eighth consecutive slip (R63). -/
theorem Dev.degradedSwitch_of_eight {s : Dev} (hact : s.active = true) (hlead : s.isLeader = true)
    (hslips : s.get F.frmStatus_CONSEC_SLIPS = 8) (hhalt : s.halting = false) : s.degradedSwitch = s.sendGo true := by
  simp [Dev.degradedSwitch, hact, hlead, hslips, hhalt]

/-- The FRAME_DONE of a sender stands, once, before those of the others. -/
def Dev.noteDone (s : Dev) (q : Pos) : Dev :=
  { s with frm.doneFrom := q.toNat :: s.frm.doneFrom.filter (fun p => p != q.toNat), frm.lastDone := q }

theorem Dev.mem_doneFrom_noteDone (s : Dev) (q : Pos) (p : Nat) :
    p ∈ (s.noteDone q).frm.doneFrom ↔ p = q.toNat ∨ p ∈ s.frm.doneFrom := by
  by_cases h : p = q.toNat <;> simp [Dev.noteDone, h]

/-- A FRAME_DONE of an earlier plan frame is dropped (R63). -/
theorem Dev.frameDoneIn_of_earlier {s : Dev} {q : Pos} {frame : Frame} (h : frame.toNat < s.frm.goFor) :
    s.frameDoneIn q.toNat frame = s := by
  simp [Dev.frameDoneIn, h]

/-- A FRAME_DONE that counts is noted, and the last one starts the next plan frame (R52, R61). -/
theorem Dev.frameDoneIn_of_counts {s : Dev} {q : Pos} {frame : Frame} (hact : s.active = true) (hlead : s.isLeader = true)
    (hdeaf : s.deaf q.toNat = false) (hgo : s.frm.goFor ≤ frame.toNat) :
    s.frameDoneIn q.toNat frame =
      if s.livePositions.all (fun p => (s.noteDone q).frm.doneFrom.contains p) && !s.halting && s.get F.frmConfig_PERIOD != 0 then
        (s.noteDone q).sendGo false
      else s.noteDone q := by
  have hlt : ¬ frame.toNat < s.frm.goFor := by omega
  simp only [Dev.frameDoneIn, hact, hlead, hdeaf, hlt, decide_false, Bool.not_true, Bool.or_self, Bool.false_eq_true, if_false,
    BitVec.ofNat_toNat, BitVec.setWidth_eq]
  rfl

/-- Settles O12: each of the three commands comes to FRAME_GO, or to the FRAME_DONE noted. -/
theorem leaderSendsFrameGo : Obligations.LeaderSendsFrameGo := by
  refine ⟨fun s hact hlead => ⟨?_, ?_, ?_⟩, fun q frame usable s hact hlead hdeaf => ⟨fun hlt => ?_, fun hgo hmiss => ?_⟩⟩
  · intro htick hpend hroute hord hrun hrep hdone
    have h := Dev.planResume_of_ready hact hlead htick hpend hroute hord hrun hrep hdone
    exact next_congr (h.trans (s.toDev.sendGo_eq false))
  · intro hslips hhalt
    have h := Dev.degradedSwitch_of_eight hact hlead hslips hhalt
    exact next_congr (h.trans (s.toDev.sendGo_eq true))
  · intro q frame usable hdeaf hgo hdone hhalt hper
    have hall : s.livePositions.all (fun p => (s.toDev.noteDone q).frm.doneFrom.contains p) = true :=
      List.all_eq_true.2 fun p hp => List.contains_iff_mem.2 ((s.toDev.mem_doneFrom_noteDone q p).2 (hdone p hp))
    have h : s.toDev.frameDoneIn q.toNat frame = (s.toDev.noteDone q).sendGo false := by
      rw [Dev.frameDoneIn_of_counts hact hlead hdeaf hgo, hall, hhalt, bne_iff_ne.2 hper]
      rfl
    exact next_congr (h.trans ((s.toDev.noteDone q).sendGo_eq false))
  · exact next_congr (b := s.toDev) (Dev.frameDoneIn_of_earlier hlt)
  · have hall : s.livePositions.all (fun p => (s.toDev.noteDone q).frm.doneFrom.contains p) = false := by
      obtain ⟨p, hp, hne, hnot⟩ := hmiss
      refine List.all_eq_false.2 ⟨p, hp, fun hc => ?_⟩
      exact ((s.toDev.mem_doneFrom_noteDone q p).1 (List.contains_iff_mem.1 hc)).elim hne hnot
    have h : s.toDev.frameDoneIn q.toNat frame = s.toDev.noteDone q := by
      rw [Dev.frameDoneIn_of_counts hact hlead hdeaf hgo, hall]
      rfl
    exact next_congr h

end Sys2Proof.Machine
end

section
/-! PROOFS. A slice of a set of two, and two of its states that the statements of an idle step and of MODULE_FAIL do not shut out: a
reset message among the requests of a receive buffer, and a planned write under a region number that no region has. -/

namespace Sys2Proof.Machine

/-- A lit slice at position 0 of a set of two, joined to position 1 by port 0, which works on both modules. -/
def pairedSlice : State :=
  let d : Dev := { Dev.reset with phase := .lit, links.disc := 0x8000000003000000 }
  let e := (((d.put F.shdConfig_SET_SIZE 2).put (F.pwkCfg_ROLE 0) 1).put (F.pwkCfg_NEIGHBOUR 0) 1).put (F.pwkStatus_STATE 0) 2
  { e.updPort 0 (fun x => { x with up0 := true, up1 := true }) with pending := [] }

/-- CTL_RESET with KIND 1 of slice 1, which names position 0 (R702). -/
def coldResetMessage : Wire := { vc := 0, head := headOf 9 57 56 0 false + 1 * 2 ^ 32 + 1 * 2 ^ 34, data := [] }

/-- The slice of the pair one cycle into its frame, with that message where its receive buffer keeps requests. -/
def resetAmongRequests : State :=
  { pairedSlice with
    toDev := { pairedSlice.updPort 0 (fun x => { x with rxHeld := [coldResetMessage] }) with frm.counter := 1 } }

/-- The cycle takes the message, and the reset clears the frame counter before the cycle counts. -/
theorem resetAmongRequests_restarts_counter : ∃ t : State, step resetAmongRequests = .next t ∧ t.frm.counter = 1 :=
  ⟨_, rfl, by decide +kernel⟩

/-- Refutes O2: a cycle takes what waits in the receive buffers once the request table has room, and the statement has no premise
that only requests wait there. A CTL_RESET among them resets the slice, and the frame counter starts again. -/
theorem not_idleStepIsOneCycle : ¬ Obligations.IdleStepIsOneCycle := by
  intro h
  obtain ⟨t, ht, -, -, hcounter, -⟩ := h resetAmongRequests rfl
  obtain ⟨u, hu, hone⟩ := resetAmongRequests_restarts_counter
  cases hu.symm.trans ht
  have htwo : t.frm.counter = 2 := hcounter (by decide +kernel)
  omega

/-- A planned write of one NaN under region number 752. The PRM_LOSS that this number would have is PWK_STATUS of port 0: both
stand at 0xC0008. -/
def strayWrite : PlanJob :=
  { id := 1, owner := 0, rgn := 752, word := 0, outs := [], todo := [{ n := 0, vals := [.nan], same := none, poison := false }]
    applied := false }

/-- The slice of the pair with that write under way. -/
def strayWriter : State := { pairedSlice with lens.jobs := [strayWrite] }

/-- With its only die link half lost, position 0 holds position 1 lost and goes on with its work: the NaN that the write drops counts
in PWK_STATUS, whose STATE passes from 3 to 4. -/
theorem strayWriter_moduleFail : ∃ t : State, exec (.moduleFail 0 0) strayWriter = .next t ∧ t.phase = .lit ∧
    t.get (F.pwkStatus_STATE 0) = 4 :=
  ⟨_, rfl, by decide +kernel, by decide +kernel⟩

/-- Refutes O57, by its clause of MODULE_FAIL on a die link: the slice may hold others lost and then goes on with all its work, and the
statement has no premise that the work names regions of the region table. -/
theorem not_portsTrainAndFail : ¬ Obligations.PortsTrainAndFail := by
  rintro ⟨-, h, -⟩
  obtain ⟨-, -, t, ht, hhalf, -⟩ := h 0 0 0 strayWriter (by decide +kernel) (by decide +kernel) (by decide +kernel)
  obtain ⟨u, hu, hlit, hfour⟩ := strayWriter_moduleFail
  cases hu.symm.trans ht
  have hthree : t.get (F.pwkStatus_STATE 0) = 3 := (hhalf (.inr (.inr (by rw [hlit]; decide)))).1
  omega

end Sys2Proof.Machine
end

section
/-! PROOFS. What `quiet` reads of a slice, and that a slice with no more work under way is as quiet. -/

namespace Sys2Proof.Machine

/-- t has no work under way that s does not have, in the facets or in the plan frame. -/
structure NoMoreWork (s t : Dev) : Prop where
  txns : t.cache.txns = s.cache.txns
  maint : t.cache.maint = s.cache.maint
  podOps : t.cache.podOps = s.cache.podOps
  deaths : t.cache.deaths = s.cache.deaths
  shadow : t.shadow.recons = s.shadow.recons
  prism : t.prism = s.prism
  jobs : t.lens.jobs = s.lens.jobs
  keeps : t.lens.keeps = s.lens.keeps
  runs : t.lens.runs = s.lens.runs
  running : ∀ e, (t.engine e).running = (s.engine e).running ∨ (t.engine e).running = none
  items : t.frm.items ⊆ s.frm.items
  img : t.img = s.img
  pos : t.pos = s.pos

/-- No output of an item comes to be taken where items go and engines fall idle. -/
theorem NoMoreWork.outputsTaken {s t : Dev} (h : NoMoreWork s t) (ho : s.outputsTaken = true) : t.outputsTaken = true := by
  refine List.all_eq_true.2 fun x hx => ?_
  have hs := List.all_eq_true.1 ho x (h.items hx)
  have hplan : t.plan = s.plan := by rw [Dev.plan, Dev.plan, h.img]
  cases hit : x.1 with
  | wave e i =>
    simp only [hit] at hs ⊢
    rcases h.running e with hr | hr
    · rw [hr, hplan]
      exact hs
    · rw [hr]
  | transfer i =>
    simp only [hit] at hs ⊢
    rw [Dev.lineRun, h.runs, h.img, h.pos]
    exact hs
  | flow i => rfl
  | background k => rfl

theorem NoMoreWork.quiet {s t : Dev} (h : NoMoreWork s t) (hq : s.quiet = true) : t.quiet = true := by
  simp only [Dev.quiet, Bool.and_eq_true] at hq ⊢
  rw [h.txns, h.maint, h.podOps, h.deaths, h.shadow, h.prism, h.jobs, h.keeps]
  exact ⟨hq.1, h.outputsTaken hq.2⟩

/-- A slice that has no more work under way than a quiet one settles at once. -/
theorem NoMoreWork.settle {s t : Dev} (h : NoMoreWork s t) (hq : s.quiet = true) : t.settle = t :=
  Dev.settle_quiet t (h.quiet hq)

/-- A register other than the strap bears on no work. -/
theorem Dev.put_noMoreWork (s : Dev) (f : Field) (v : Nat) (h : f.off ≠ R.rstStrap) : NoMoreWork s (s.put f v) where
  txns := rfl
  maint := rfl
  podOps := rfl
  deaths := rfl
  shadow := rfl
  prism := rfl
  jobs := rfl
  keeps := rfl
  runs := rfl
  running _ := .inl rfl
  items := List.Subset.refl _
  img := rfl
  pos := by rw [Dev.pos, Dev.pos, Dev.get_put_other _ _ _ _ h]

end Sys2Proof.Machine
end

section
/-! PROOFS. What FRAME_GO, HEARTBEAT, HOLDOVER_HALT, RAMP_STEP and a stray tick do. -/

namespace Sys2Proof.Machine

theorem NoMoreWork.refl (s : Dev) : NoMoreWork s s :=
  ⟨rfl, rfl, rfl, rfl, rfl, rfl, rfl, rfl, rfl, fun _ => .inl rfl, List.Subset.refl _, rfl, rfl⟩

/-- The FRAME_GO that stands, and the ramp steps to come, bear on no work. -/
theorem NoMoreWork.go {s u : Dev} (h : NoMoreWork s u) (frame : Frame) (degraded : Bool) : NoMoreWork s { u with
    frm.go := some (frame, degraded), frm.commitGo := u.frm.commitAt.isSome, mgmt.rampSteps := 0 } :=
  { h with }

/-- FRAME_GO without the degraded flag, at a slice with nothing under way (R54 to R56). -/
theorem Dev.frameGoIn_of_quiet {s : Dev} (hact : s.active = true) (hq : s.quiet = true) (frame : Frame) :
    s.frameGoIn frame false =
      { (if s.frm.follow = true ∧ s.frm.go = none ∧ frame.toNat ≠ s.frameNo + 2 then
          s.put F.frmTickCount_COUNT (frame.toNat - 1) else s) with
        frm.go := some (frame, false), frm.commitGo := s.frm.commitAt.isSome, mgmt.rampSteps := 0 } := by
  have hcond : (s.frm.follow && s.frm.go.isNone && frame.toNat != s.frameNo + 2) = true ↔
      s.frm.follow = true ∧ s.frm.go = none ∧ frame.toNat ≠ s.frameNo + 2 := by simp [and_assoc]
  unfold Dev.frameGoIn
  simp only [hact, hcond, Bool.not_true, Bool.false_eq_true, if_false]
  split
  · exact ((s.put_noMoreWork F.frmTickCount_COUNT _ (by decide)).go frame false).settle hq
  · exact ((NoMoreWork.refl s).go frame false).settle hq

/-- HEARTBEAT of a live slice that reports no lost link (R56, R616). -/
theorem Dev.heartbeatIn_of_no_loss {s : Dev} {q : Nat} (hact : s.active = true) (hdeaf : s.deaf q = false) (hne : q ≠ s.pos)
    (frame : Frame) (usable : Bool) (ackLink : Nat) (ackSeq : BitVec 12) :
    s.heartbeatIn q frame usable 0 ackLink ackSeq =
      { (if s.frm.follow = true ∧ q = s.leader then s.put F.frmTickCount_COUNT frame.toNat else s) with
        frm.beats := q :: s.frm.beats, shadow.lastBeat := tset s.shadow.lastBeat q s.now
        frm.reports := tset s.frm.reports q (tickReport (tgetD s.frm.reports q 0) usable) } := by
  have hpos : (q == s.pos) = false := beq_false_of_ne hne
  unfold Dev.heartbeatIn
  simp only [hact, hdeaf, hpos, Bool.not_true, Bool.or_self, Bool.false_eq_true, if_false, beq_self_eq_true, if_true,
    Bool.and_eq_true, beq_iff_eq]
  by_cases h : s.frm.follow = true ∧ q = s.leader
  · rw [if_pos h]
    exact if_pos h
  · rw [if_neg h]
    exact if_neg h

/-- HOLDOVER_HALT once 64 frames in a row lack a usable tick, here or as a live slice reports (R33). -/
theorem Dev.holdoverHalt_of_due {s : Dev} (hact : s.active = true) (hstart : s.frm.started = true)
    (hhalt : s.frm.haltTick = false)
    (hdue : 64 ≤ s.get F.frmStatus_HOLDOVER_RUN ∨ ∃ p ∈ s.livePositions, 64 ≤ tgetD s.frm.reports p 0 / 65536) :
    s.holdoverHalt = { s with frm.haltTick := true, frm.haltPending := true, frm.haltAlarm := true } := by
  refine if_pos ?_
  simpa [hact, hstart, hhalt, List.any_eq_true] using hdue

/-- RAMP_STEP while FRAME_GO stands and no plan frame runs (R738). -/
theorem Dev.rampStep_of_go {s : Dev} (hgo : s.frm.go.isSome = true) (hrun : s.frm.frameRunning = false)
    (hsteps : s.mgmt.rampSteps < 4) :
    s.rampStep = { s.put F.pwrState_RAMPING (if s.mgmt.rampSteps = 3 then 0 else 1) with
      mgmt.rampSteps := s.mgmt.rampSteps + 1 } := by
  have hgo : s.frm.go.isNone = false := by simpa using hgo
  have hval : b2n (s.mgmt.rampSteps != 3) = if s.mgmt.rampSteps = 3 then 0 else 1 := by
    by_cases h : s.mgmt.rampSteps = 3 <;> simp [b2n, h]
  simp [Dev.rampStep, hgo, hrun, hval, show ¬ 4 ≤ s.mgmt.rampSteps by omega]

/-- A tick outside the window, while planned work runs (R31). -/
theorem Dev.frameTick_of_stray {s : Dev} (hact : s.active = true) (hoff : 8 < s.tickOffset) (hstart : s.frm.started = true)
    (hhalt : s.halted = false) : s.frameTick = { s.put F.frmEvents_TICK_PHASE 1 with frm.tickSeen := true } := by
  simp only [Dev.frameTick, hact, hstart, hhalt, show ¬ s.tickOffset ≤ 8 by omega, Dev.raise, Bool.not_true, Bool.not_false,
    Bool.and_self, Bool.false_eq_true, if_false, if_true]

/-- Settles O13: the effect of each of the five. -/
theorem frameMessagesAndEventsAreTaken : Obligations.FrameMessagesAndEventsAreTaken := by
  refine ⟨fun frame s hact hq => ?_, fun q frame usable ackLink ackSeq s hact hdeaf hne => ?_, fun s hact hstart hhalt hdue => ?_,
    fun s hgo hrun hsteps => ?_, fun s hact hoff hstart hhalt => ?_⟩
  · exact next_congr (Dev.frameGoIn_of_quiet hact hq frame)
  · exact next_congr (Dev.heartbeatIn_of_no_loss hact hdeaf hne frame usable ackLink.toNat ackSeq)
  · exact next_congr (Dev.holdoverHalt_of_due hact hstart hhalt hdue)
  · exact next_congr (Dev.rampStep_of_go hgo hrun hsteps)
  · exact next_congr (Dev.frameTick_of_stray hact hoff hstart hhalt)

end Sys2Proof.Machine
end

section
/-! PROOFS. What a counter field reads after it counts, and FRAME_DONE. -/

namespace Sys2Proof.Machine

/-- A register that is written a value other than 0 holds it, whatever form the register file has. -/
theorem Dev.reg_setReg_of_ne_zero (s : Dev) (off v : Nat) (h : v % 2 ^ 64 ≠ 0) : (s.setReg off v).reg off = v % 2 ^ 64 := by
  have hv : BitVec.ofNat 64 v ≠ 0 := fun h0 => h (by simpa using congrArg BitVec.toNat h0)
  rw [Dev.reg, Dev.setReg, tgetD, tput, if_neg hv, tget_tset, if_pos rfl]
  exact BitVec.toNat_ofNat v 64

/-- A field that is set to a value other than 0 reads as that value, cut to its width. -/
theorem Dev.get_put_of_ne_zero (s : Dev) (f : Field) (v : Nat) (hlo : f.lo ≤ f.hi + 1) (hhi : f.hi < 64)
    (hv : v % 2 ^ (f.hi + 1 - f.lo) ≠ 0) : (s.put f v).get f = v % 2 ^ (f.hi + 1 - f.lo) := by
  have hbits := bitsOf_withBits (s.reg f.off) f.hi f.lo v hlo
  have hlt : withBits (s.reg f.off) f.hi f.lo v % 2 ^ 64 = withBits (s.reg f.off) f.hi f.lo v :=
    Nat.mod_eq_of_lt (withBits_lt hlo hhi (s.reg_lt _))
  have hne : withBits (s.reg f.off) f.hi f.lo v ≠ 0 := fun h0 => hv (by rw [← hbits, h0]; simp [bitsOf])
  rw [Dev.get, Dev.put, Dev.reg_setReg_of_ne_zero _ _ _ (by rwa [hlt]), hlt, hbits]

/-- A counter that counts an occurrence reads one more, up to its largest value. -/
theorem Dev.get_bump_one (s : Dev) (f : Field) (hlo : f.lo ≤ f.hi) (hhi : f.hi < 64) :
    (s.bump f).get f = min (s.get f + 1) f.max := by
  have hpow : 2 ≤ 2 ^ (f.hi + 1 - f.lo) := Nat.le_self_pow (n := f.hi + 1 - f.lo) (by omega) 2
  have hmod : min (s.get f + 1) f.max % 2 ^ (f.hi + 1 - f.lo) = min (s.get f + 1) f.max :=
    Nat.mod_eq_of_lt (by unfold Field.max; omega)
  rw [Dev.bump, Dev.get_put_of_ne_zero _ _ _ (by omega) hhi (by rw [hmod]; unfold Field.max; omega), hmod]

theorem Dev.reg_peak_other (s : Dev) (f : Field) (v off : Nat) (h : f.off ≠ off) : (s.peak f v).reg off = s.reg off := by
  unfold Dev.peak
  split
  · exact s.reg_put_other f off _ h
  · rfl

/-- A peak changes registers alone. -/
theorem Dev.peak_eq (s : Dev) (f : Field) (v : Nat) : s.peak f v = { s with csr := (s.peak f v).csr } := by
  unfold Dev.peak
  split <;> rfl

/-- A plan frame that has not ended sends nothing (R51). -/
theorem Dev.checkDone_of_not_ended {s : Dev} (h : s.frameEnded = false) : s.checkDone = s := by
  simp [Dev.checkDone, h]

/-- A plan frame that has ended sends FRAME_DONE to the leader (R51, R75). -/
theorem Dev.checkDone_of_ended {s : Dev} (hact : s.active = true) (h : s.frameEnded = true) :
    s.checkDone = { s with
      csr := (s.peak F.frmGuard_PEAK_SCLK (s.now - s.frm.frameFrom - 60 * s.slotLen)).csr, frm.doneSent := true
      outbox := s.outbox ++ [Msg.ctl s.leader (.frameDone (BitVec.ofNat 48 s.frameNo) (s.get F.frmStatus_HOLDOVER == 0))] } := by
  simp only [Dev.checkDone, hact, h, Bool.not_true, Bool.or_self, Bool.false_eq_true, if_false]
  rw [Dev.peak_eq]
  rfl

/-- FRM_GUARD alone of the registers may change as a plan frame ends. -/
theorem Dev.checkDone_reg (s : Dev) (off : Nat) (h : off ≠ R.frmGuard) : s.checkDone.reg off = s.reg off := by
  unfold Dev.checkDone
  split
  · rfl
  · exact s.reg_peak_other _ _ off h.symm

/-- The plan frame's items and the engines' work stay as they are. -/
theorem Dev.checkDone_work (s : Dev) : s.checkDone.frm.items = s.frm.items ∧ s.checkDone.lens = s.lens := by
  unfold Dev.checkDone
  split
  · exact ⟨rfl, rfl⟩
  · dsimp only
    rw [Dev.peak_eq]
    exact ⟨rfl, rfl⟩

end Sys2Proof.Machine
end

section
/-! PROOFS. An item of the plan frame ends: what the commands that end it change, and what the slice then does. -/

namespace Sys2Proof.Machine

/-- The registers of the engines and of the flows, chapters 10 to 12. -/
abbrev plannedReg (off : Nat) : Prop := 0x80000 ≤ off ∧ off < 0xB0000

/-- t is s once the first item of its plan frame has ended: the others are left, and beside them only engines and
registers of engines and flows change. -/
structure ItemEnded (s t : Dev) (rest : List (Item × Nat)) : Prop where
  eq : t = { s with csr := t.csr, lens.engines := t.lens.engines, frm.items := rest }
  reg : ∀ off, ¬ plannedReg off → t.reg off = s.reg off
  running : ∀ e, (t.engine e).running = (s.engine e).running ∨ (t.engine e).running = none
  items : rest ⊆ s.frm.items

namespace ItemEnded

variable {s t : Dev} {rest : List (Item × Nat)}

theorem get (h : ItemEnded s t rest) (f : Field) (hf : ¬ plannedReg f.off) : t.get f = s.get f := by
  rw [Dev.get, Dev.get, h.reg _ hf]

theorem pos (h : ItemEnded s t rest) : t.pos = s.pos := by
  rw [Dev.pos, Dev.pos, h.get _ (by decide)]

theorem noMoreWork (h : ItemEnded s t rest) : NoMoreWork s t where
  txns := by rw [h.eq]
  maint := by rw [h.eq]
  podOps := by rw [h.eq]
  deaths := by rw [h.eq]
  shadow := by rw [h.eq]
  prism := by rw [h.eq]
  jobs := by rw [h.eq]
  keeps := by rw [h.eq]
  runs := by rw [h.eq]
  running := h.running
  items := by rw [h.eq]; exact h.items
  img := by rw [h.eq]
  pos := h.pos

/-- No flow or transfer is left that waits for a source and has started (R390). -/
theorem retakes (h : ItemEnded s t rest) (htr : ∀ x ∈ rest, ∀ i, x.1 ≠ .transfer i) (hfl : s.flowsWait rest = true) :
    t.retakes = t := by
  refine t.each_self _ _ fun x hx => ?_
  have hx : x ∈ rest := by rw [h.eq] at hx; exact hx
  cases hit : x.1 with
  | wave e i => rfl
  | background k => rfl
  | transfer i => exact absurd hit (htr x hx i)
  | flow i =>
    have hwait := List.all_eq_true.1 hfl x hx
    simp only [hit] at hwait
    have hrun : t.lineRun true i = s.lineRun true i := by rw [h.eq]; rfl
    simp [Dev.takeSources, hrun, hwait]

theorem plan (h : ItemEnded s t rest) : t.plan = s.plan := by
  rw [Dev.plan, Dev.plan, h.noMoreWork.img]

theorem itemOver (h : ItemEnded s t rest) (it : Item) : t.itemOver it = s.itemOver it := by
  have hscrub : t.scrubServed = s.scrubServed := by rw [h.eq]; rfl
  have hbuild : t.rebuildOpen = s.rebuildOpen := by rw [h.eq]; rfl
  unfold Dev.itemOver
  rw [hscrub, hbuild]

theorem slotIssues (h : ItemEnded s t rest) (slot : Nat) : t.slotIssues slot = s.slotIssues slot := by
  have htpl : t.template = s.template := h.get _ (by decide)
  have htr : t.slotTransfers slot = s.slotTransfers slot := by
    rw [Dev.slotTransfers, Dev.slotTransfers, h.noMoreWork.img, h.pos, h.get _ (by decide)]
  have hhere : t.flowHere = s.flowHere := by
    funext i
    rw [Dev.flowHere, Dev.flowHere, h.plan, h.pos]
  rw [Dev.slotIssues, Dev.slotIssues, h.plan, htpl, htr, hhere]

/-- Whether the plan frame has ended turns on what is left of it. -/
theorem frameEnded (h : ItemEnded s t rest) : t.frameEnded = (s.frm.started && !s.frm.doneSent &&
    rest.all (fun x => s.itemOver x.1) && !s.on F.pwrThrottle_THERMAL && (!s.frm.frameRunning || s.lastIssue < s.frm.slot)) := by
  have hlast : t.lastIssue = s.lastIssue := by
    rw [Dev.lastIssue, Dev.lastIssue, funext h.slotIssues]
  have hon : t.on F.pwrThrottle_THERMAL = s.on F.pwrThrottle_THERMAL := by
    rw [Dev.on, Dev.on, h.get _ (by decide)]
  rw [Dev.frameEnded, hlast, hon, funext fun x : Item × Nat => h.itemOver x.1]
  rw [h.eq]

/-- The slice has nothing to go on with, and at most sends FRAME_DONE. -/
theorem goesOn (h : ItemEnded s t rest) (hq : s.quiet = true) (htr : ∀ x ∈ rest, ∀ i, x.1 ≠ .transfer i)
    (hfl : s.flowsWait rest = true) : t.retakes.settle.checkDone = t.checkDone := by
  rw [h.retakes htr hfl, h.noMoreWork.settle hq]

/-- With an item left that is not over, nothing is sent (R51). -/
theorem checkDone_of_left (h : ItemEnded s t rest) (hleft : ∃ x ∈ rest, s.itemOver x.1 = false) :
    t.checkDone.outbox = s.outbox ∧ t.checkDone.frm.doneSent = s.frm.doneSent := by
  have hall : rest.all (fun x => s.itemOver x.1) = false := by simpa using hleft
  rw [Dev.checkDone_of_not_ended (by rw [h.frameEnded, hall]; simp), h.eq]
  exact ⟨rfl, rfl⟩

/-- With every item left over and the last issuing slot begun, FRAME_DONE goes to the leader (R51). -/
theorem checkDone_of_over (h : ItemEnded s t rest) (hact : s.active = true) (hover : ∀ x ∈ rest, s.itemOver x.1 = true)
    (hstart : s.frm.started = true) (hsent : s.frm.doneSent = false) (hcool : s.get F.pwrThrottle_THERMAL = 0)
    (hlast : s.frm.frameRunning = false ∨ s.lastIssue < s.frm.slot) :
    t.checkDone.frm.doneSent = true ∧ t.checkDone.outbox = s.outbox ++
      [Msg.ctl s.leader (.frameDone (BitVec.ofNat 48 s.frameNo) (s.get F.frmStatus_HOLDOVER == 0))] := by
  have hon : s.on F.pwrThrottle_THERMAL = false := by simp [Dev.on, hcool]
  have hend : t.frameEnded = true := by
    rw [h.frameEnded, List.all_eq_true.2 hover, hstart, hsent, hon]
    simpa using hlast
  have hactive : t.active = true := by rw [h.eq]; exact hact
  have hleader : t.leader = s.leader := h.get _ (by decide)
  have hno : t.frameNo = s.frameNo := h.get _ (by decide)
  have hout : t.outbox = s.outbox := by rw [h.eq]
  rw [Dev.checkDone_of_ended hactive hend, hleader, hno, hout, h.get F.frmStatus_HOLDOVER (by decide)]
  exact ⟨rfl, rfl⟩

end ItemEnded

/-- The first item of a plan frame leaves it. -/
theorem Dev.endItem_first {s : Dev} {it : Item} {k : Nat} {rest : List (Item × Nat)} (h : s.frm.items = (it, k) :: rest) :
    s.endItem it = { s with frm.items := rest } := by
  simp [Dev.endItem, h]

end Sys2Proof.Machine
end

section
/-! PROOFS. WAVE_COMPLETE, FLOW_COMPLETE and TRANSFER_COMPLETE of an item whose work is done. -/

namespace Sys2Proof.Machine

theorem Dev.quiet_lens {s : Dev} (h : s.quiet = true) : s.lens.jobs = [] ∧ s.lens.keeps = [] ∧ s.cache.txns = [] := by
  simp only [Dev.quiet, Bool.and_eq_true, List.isEmpty_iff] at h
  obtain ⟨⟨⟨⟨⟨⟨⟨⟨⟨htxns, -⟩, -⟩, -⟩, hjobs⟩, hkeeps⟩, -⟩, -⟩, -⟩, -⟩ := h
  exact ⟨hjobs, hkeeps, htxns⟩

/-- Two fields that are written change registers alone. -/
theorem Dev.bump_put_eq (s : Dev) (f g : Field) (v : Nat) : ∃ c, (s.bump f).put g v = { s with csr := c } := ⟨_, rfl⟩

/-- The engine is free, its wave is counted, and LNS_STATUS shows its tiles. -/
def Dev.waveCounted (s : Dev) (e : Nat) (w : WaveRun) : Dev :=
  ((s.setEngine e { s.engine e with running := none }).bump (F.lnsCount_WAVES e)).put (F.lnsStatus_TILE e)
    ((waveOf s.plan w.desc).nTiles * (waveOf s.plan w.desc).kTiles)

/-- The state after a wave that has done its work completes (R357). -/
def Dev.waveEnded (s : Dev) (e : Nat) (w : WaveRun) : Dev := ((s.waveCounted e w).endItem (.wave e w.desc)).showEngine e

theorem Dev.endWave_of_done {s : Dev} {e : Nat} {w : WaveRun} (hq : s.quiet = true) (hrun : (s.engine e).running = some w)
    (htaken : (waveOf s.plan w.desc).outMode = 2 → w.taken = true) (hout : (waveOf s.plan w.desc).outMode = 1 → w.out = true)
    (hloads : ∀ x ∈ s.cache.plrs, x.id ∈ w.loads → x.fetching = 0) : s.endWave e = s.waveEnded e w := by
  obtain ⟨hjobs, hkeeps, -⟩ := Dev.quiet_lens hq
  have hload : s.loading e w = false := by
    simpa [Dev.loading, hkeeps] using hloads
  have hjob : s.jobOpen e = false := by simp [Dev.jobOpen, hjobs]
  have h1 : ((waveOf s.plan w.desc).outMode == 1 && (!w.out || s.jobOpen e)) = false := by
    by_cases h : (waveOf s.plan w.desc).outMode = 1
    · simp [hout h, hjob]
    · simp [h]
  have h2 : ((waveOf s.plan w.desc).outMode == 2 && !w.taken) = false := by
    by_cases h : (waveOf s.plan w.desc).outMode = 2
    · simp [htaken h]
    · simp [h]
  simp only [Dev.endWave, hrun, hload, h1, h2, Bool.or_self, Bool.false_eq_true, if_false]
  rfl

/-- LNS_STATUS alone shows what waits at an engine (R365). -/
theorem Dev.showEngine_csr (s : Dev) (e : Nat) : ∃ c, s.showEngine e = { s with csr := c } := by
  unfold Dev.showEngine
  dsimp only
  split <;> exact ⟨_, rfl⟩

theorem Dev.showEngine_reg (s : Dev) (e off : Nat) (h : R.lnsStatus e ≠ off) : (s.showEngine e).reg off = s.reg off := by
  unfold Dev.showEngine
  dsimp only
  split
  · exact s.reg_put_other _ _ _ h
  · exact (Dev.reg_put_other _ _ _ _ h).trans (s.reg_put_other _ _ _ h)

theorem Dev.showEngine_get (s : Dev) (e : Nat) (f : Field) (h : R.lnsStatus e ≠ f.off) : (s.showEngine e).get f = s.get f := by
  rw [Dev.get, Dev.get, Dev.showEngine_reg _ _ _ h]

theorem Dev.endItem_reg (s : Dev) (it : Item) (off : Nat) : (s.endItem it).reg off = s.reg off := rfl
theorem Dev.endItem_get (s : Dev) (it : Item) (f : Field) : (s.endItem it).get f = s.get f := rfl
theorem Dev.setEngine_reg (s : Dev) (e off : Nat) (x : Engine) : (s.setEngine e x).reg off = s.reg off := rfl
theorem Dev.setEngine_get (s : Dev) (e : Nat) (x : Engine) (f : Field) : (s.setEngine e x).get f = s.get f := rfl

theorem Dev.waveCounted_reg (s : Dev) (e off : Nat) (w : WaveRun) (hstatus : R.lnsStatus e ≠ off) (hcount : R.lnsCount e ≠ off) :
    (s.waveCounted e w).reg off = s.reg off := by
  rw [Dev.waveCounted, Dev.reg_put_other _ (F.lnsStatus_TILE e) _ _ hstatus, Dev.bump,
    Dev.reg_put_other _ (F.lnsCount_WAVES e) _ _ hcount, Dev.setEngine_reg]

/-- The only engine with work, once that work is changed. -/
theorem Dev.engine_setEngine_only {s : Dev} {e : Nat} {x : Engine} (h : s.lens.engines = [(e, x)]) (y : Engine) (j : Nat) :
    (s.setEngine e y).engine j = if e = j then y else { running := none, pending := [] } := by
  rw [Dev.engine, Dev.setEngine, h, tput]
  split
  · rename_i hy
    simp [tdel, tgetD, tget, hy]
  · by_cases hj : e = j <;> simp [tset, tgetD, tget, hj]

section
variable {s : Dev} {e k : Nat} {w : WaveRun} {ps : List (Nat × Nat)} {rest : List (Item × Nat)}
  (heng : s.lens.engines = [(e, { running := some w, pending := ps })])
include heng

theorem Dev.engine_only (j : Nat) : s.engine j =
    if e = j then { running := some w, pending := ps } else { running := none, pending := [] } := by
  by_cases hj : e = j <;> simp [Dev.engine, heng, tgetD, tget, hj]

/-- Beside registers, a wave that completes changes its engine and the plan frame's items alone. -/
theorem Dev.waveEnded_eq (hitems : s.frm.items = (.wave e w.desc, k) :: rest) :
    ∃ c, s.waveEnded e w = { s.setEngine e { running := none, pending := ps } with csr := c, frm.items := rest } := by
  obtain ⟨c, hc⟩ : ∃ c, s.waveCounted e w = { s.setEngine e { running := none, pending := ps } with csr := c } := by
    rw [Dev.waveCounted, Dev.engine_only heng, if_pos rfl]
    exact Dev.bump_put_eq _ _ _ _
  have hfirst : (s.waveCounted e w).frm.items = (.wave e w.desc, k) :: rest := by rw [hc]; exact hitems
  rw [Dev.waveEnded, Dev.endItem_first hfirst, hc]
  obtain ⟨c', hc'⟩ := Dev.showEngine_csr { s.setEngine e { running := none, pending := ps } with csr := c, frm.items := rest } e
  exact ⟨c', hc'⟩

/-- The engine is free, and its pending waves stay. -/
theorem Dev.waveEnded_engine (hitems : s.frm.items = (.wave e w.desc, k) :: rest) (j : Nat) : (s.waveEnded e w).engine j =
    if e = j then { running := none, pending := ps } else { running := none, pending := [] } := by
  obtain ⟨c, hc⟩ := Dev.waveEnded_eq heng hitems
  rw [hc, ← Dev.engine_setEngine_only heng]
  rfl

theorem Dev.waveEnded_ended (he : e < 4) (hitems : s.frm.items = (.wave e w.desc, k) :: rest) :
    ItemEnded s (s.waveEnded e w) rest where
  eq := by
    obtain ⟨c, hc⟩ := Dev.waveEnded_eq heng hitems
    rw [hc]
    rfl
  reg off hoff := by
    have hstatus : R.lnsStatus e ≠ off := by simp only [plannedReg, R.lnsStatus] at *; omega
    have hcount : R.lnsCount e ≠ off := by simp only [plannedReg, R.lnsCount] at *; omega
    rw [Dev.waveEnded, Dev.showEngine_reg _ _ _ hstatus, Dev.endItem_reg, Dev.waveCounted_reg s e off w hstatus hcount]
  running j := by
    right
    rw [Dev.waveEnded_engine heng hitems]
    split <;> rfl
  items := by
    rw [hitems]
    exact List.subset_cons_self _ _

omit heng in
/-- The wave is counted (R368). -/
theorem Dev.waveEnded_waves : (s.waveEnded e w).get (F.lnsCount_WAVES e) = min (s.get (F.lnsCount_WAVES e) + 1) (2 ^ 32 - 1) := by
  have hoff : R.lnsStatus e ≠ R.lnsCount e := by simp only [R.lnsStatus, R.lnsCount]; omega
  rw [Dev.waveEnded, Dev.showEngine_get _ _ (F.lnsCount_WAVES e) hoff, Dev.endItem_get, Dev.waveCounted,
    Dev.get_put_other _ (F.lnsStatus_TILE e) (F.lnsCount_WAVES e) _ hoff,
    Dev.get_bump_one _ (F.lnsCount_WAVES e) (by simp only [F.lnsCount_WAVES]; omega) (by simp only [F.lnsCount_WAVES]; omega),
    Dev.setEngine_get]
  rfl

end

/-- A flow whose every line is handled completes (R424, R430). -/
theorem Dev.endFlow_of_done {s : Dev} {i : Nat} {r : LineRun} (hq : s.quiet = true) (hiss : s.issued (.flow i) = true)
    (hrun : s.lineRun true i = some r) (hstart : r.started = true)
    (hall : ∀ l ∈ (if (flowOf s.plan i).root = s.pos then List.range (flowOf s.plan i).lines else (flowOf s.plan i).handles s.pos),
      l ∈ r.handled) :
    s.endFlow i = if (flowOf s.plan i).root = s.pos then
        ((s.endItem (.flow i)).put F.crdFlowStatus_LAST_FLOW i).bump F.crdFar_FLOWS
      else (s.endItem (.flow i)).put F.crdFlowStatus_LAST_FLOW i := by
  obtain ⟨hjobs, -, htxns⟩ := Dev.quiet_lens hq
  have hopen : s.flowOpen i = false := by simp [Dev.flowOpen, Dev.jobOpen, hjobs, htxns]
  have hdone : (if (flowOf s.plan i).root = s.pos then List.range (flowOf s.plan i).lines
      else (flowOf s.plan i).handles s.pos).all r.handled.contains = true :=
    List.all_eq_true.2 fun l hl => List.contains_iff_mem.2 (hall l hl)
  simp only [Dev.endFlow, hrun, hiss, hstart, hopen, beq_iff_eq]
  simp only [hdone, Bool.not_true, Bool.or_self, Bool.false_eq_true, if_false]

/-- A transfer whose every line is here, and handled, completes (R518). -/
theorem Dev.endTransfer_of_done {s : Dev} {i : Nat} {r : LineRun} (hiss : s.issued (.transfer i) = true)
    (hrun : s.lineRun false i = some r) (hstart : r.started = true)
    (hall : ∀ l < (transferOf s.img.force.lattice i).lines, (r.anyLine l).isSome = true ∧ l ∈ r.handled) :
    s.endTransfer i = s.endItem (.transfer i) := by
  have hhere : (List.range (transferOf s.img.force.lattice i).lines).all (fun l => (r.anyLine l).isSome) = true :=
    List.all_eq_true.2 fun l hl => (hall l (List.mem_range.1 hl)).1
  have hdone : (List.range (transferOf s.img.force.lattice i).lines).all r.handled.contains = true :=
    List.all_eq_true.2 fun l hl => List.contains_iff_mem.2 (hall l (List.mem_range.1 hl)).2
  simp only [Dev.endTransfer, hrun, hiss, hstart, hhere, hdone, Bool.not_true, Bool.and_false, Bool.or_self, Bool.false_eq_true,
    if_false]

/-- The first item leaves the plan frame, and nothing else changes but registers of flows. -/
theorem ItemEnded.of_first {s t : Dev} {it : Item} {k : Nat} {rest : List (Item × Nat)} (hitems : s.frm.items = (it, k) :: rest)
    (heq : t = { s.endItem it with csr := t.csr }) (hreg : ∀ off, ¬ plannedReg off → t.reg off = s.reg off) :
    ItemEnded s t rest where
  eq := by
    rw [heq, Dev.endItem_first hitems]
  reg := hreg
  running j := by
    left
    rw [heq]
    rfl
  items := by
    rw [hitems]
    exact List.subset_cons_self _ _

/-- The state after a flow whose every line is handled completes (R424, R430). -/
def Dev.flowEnded (s : Dev) (i : Nat) : Dev :=
  if (flowOf s.plan i).root = s.pos then ((s.endItem (.flow i)).put F.crdFlowStatus_LAST_FLOW i).bump F.crdFar_FLOWS
  else (s.endItem (.flow i)).put F.crdFlowStatus_LAST_FLOW i

theorem Dev.flowEnded_ended {s : Dev} {i k : Nat} {rest : List (Item × Nat)} (hitems : s.frm.items = (.flow i, k) :: rest) :
    ItemEnded s (s.flowEnded i) rest := by
  refine .of_first hitems ?_ fun off hoff => ?_
  · unfold Dev.flowEnded
    split <;> rfl
  · have hstatus : F.crdFlowStatus_LAST_FLOW.off ≠ off := by rintro rfl; exact hoff (by decide)
    have hfar : F.crdFar_FLOWS.off ≠ off := by rintro rfl; exact hoff (by decide)
    unfold Dev.flowEnded
    split
    · rw [Dev.bump, Dev.reg_put_other _ _ _ _ hfar, Dev.reg_put_other _ _ _ _ hstatus, Dev.endItem_reg]
    · rw [Dev.reg_put_other _ _ _ _ hstatus, Dev.endItem_reg]

/-- The root counts the flow (R430). -/
theorem Dev.flowEnded_far {s : Dev} {i : Nat} (hroot : (flowOf s.plan i).root = s.pos) :
    (s.flowEnded i).get F.crdFar_FLOWS = min (s.get F.crdFar_FLOWS + 1) (2 ^ 32 - 1) := by
  rw [Dev.flowEnded, if_pos hroot, Dev.get_bump_one _ _ (by decide) (by decide), Dev.get_put_other _ _ _ _ (by decide), Dev.endItem_get]
  rfl

/-- What a command leaves that ends the first item of the plan frame. -/
theorem ItemEnded.outcome {s t : Dev} {rest : List (Item × Nat)} (h : ItemEnded s t rest) (hact : s.active = true)
    (hq : s.quiet = true) (htr : ∀ x ∈ rest, ∀ i, x.1 ≠ .transfer i) (hfl : s.flowsWait rest = true) :
    ∃ u : Dev, t.retakes.settle.checkDone = u ∧ u.frm.items = rest ∧ (∀ e, u.engine e = t.engine e) ∧
      (∀ f : Field, f.off ≠ R.frmGuard → u.get f = t.get f) ∧
      ((∃ x ∈ rest, s.itemOver x.1 = false) → u.outbox = s.outbox ∧ u.frm.doneSent = s.frm.doneSent) ∧
      ((∀ x ∈ rest, s.itemOver x.1 = true) → s.frm.started = true → s.frm.doneSent = false → s.get F.pwrThrottle_THERMAL = 0 →
        (s.frm.frameRunning = false ∨ s.lastIssue < s.frm.slot) → u.frm.doneSent = true ∧ u.outbox = s.outbox ++
          [Msg.ctl s.leader (.frameDone (BitVec.ofNat 48 s.frameNo) (s.get F.frmStatus_HOLDOVER == 0))]) := by
  obtain ⟨hitems, hlens⟩ := t.checkDone_work
  refine ⟨t.checkDone, h.goesOn hq htr hfl, ?_, fun e => ?_, fun f hf => ?_, h.checkDone_of_left,
    h.checkDone_of_over hact⟩
  · rw [hitems, h.eq]
  · rw [Dev.engine, Dev.engine, hlens]
  · rw [Dev.get, Dev.get, t.checkDone_reg _ hf]

theorem Dev.issued_first {s : Dev} {it : Item} {k : Nat} {rest : List (Item × Nat)} (hitems : s.frm.items = (it, k) :: rest) :
    s.issued it = true := by
  simp [Dev.issued, hitems]

/-- Settles O56: each of the three ends the first item of the plan frame, and `ItemEnded` says what else
can differ. -/
theorem plannedItemsComplete : Obligations.PlannedItemsComplete := by
  intro c it k rest s hact hq hitems htr hfl hcase
  have hcmd : ∀ f : Dev → Dev, s.onDev (fun v => if !v.active then v else (f v).retakes.settle.checkDone) =
      .next { s with toDev := (f s.toDev).retakes.settle.checkDone } :=
    fun f => next_congr (if_neg (by simp [hact]))
  rcases hcase with ⟨e, w, ps, rfl, rfl, heng, htaken, hout, hloads⟩ | ⟨i, r, rfl, rfl, hrun, hstart, hall⟩ |
    ⟨i, r, rfl, rfl, hrun, hstart, hall⟩
  case inl =>
    have hrunning : (s.engine e).running = some w := by rw [Dev.engine_only heng, if_pos rfl]
    have hguard : R.lnsCount e ≠ R.frmGuard := by simp only [R.lnsCount, R.frmGuard]; omega
    obtain ⟨u, hu, hleft, hengine, hget, hdone⟩ := (Dev.waveEnded_ended heng e.isLt hitems).outcome hact hq htr hfl
    have hfree : u.engine e = { running := none, pending := ps } := by
      rw [hengine, Dev.waveEnded_engine heng hitems, if_pos rfl]
    have hwaves := (hget (F.lnsCount_WAVES e) hguard).trans Dev.waveEnded_waves
    rw [← Dev.endWave_of_done hq hrunning htaken hout hloads] at hu
    refine ⟨{ s with toDev := u }, (hcmd (·.endWave e)).trans (next_congr hu), hleft, fun e' ps' w' he' heng' => ?_, nofun, hdone⟩
    obtain rfl := Instr.waveComplete.inj he'
    obtain ⟨-, rfl⟩ : some w = w' ∧ ps = ps' := by simpa [heng] using heng'
    exact ⟨hfree, hwaves⟩
  case inr.inl =>
    obtain ⟨u, hu, hleft, -, hget, hdone⟩ := (Dev.flowEnded_ended hitems).outcome hact hq htr hfl
    have hend : s.endFlow i.toNat = s.flowEnded i.toNat := Dev.endFlow_of_done hq (Dev.issued_first hitems) hrun hstart hall
    rw [← hend] at hu
    refine ⟨{ s with toDev := u }, (hcmd (·.endFlow i.toNat)).trans (next_congr hu), hleft, nofun, fun i' hi' hroot => ?_, hdone⟩
    obtain rfl := Instr.flowComplete.inj hi'
    exact (hget F.crdFar_FLOWS (by decide)).trans (Dev.flowEnded_far hroot)
  case inr.inr =>
    have h : ItemEnded s.toDev (s.endItem (.transfer i.toNat)) rest := .of_first hitems rfl fun _ _ => rfl
    obtain ⟨u, hu, hleft, -, -, hdone⟩ := h.outcome hact hq htr hfl
    rw [← Dev.endTransfer_of_done (Dev.issued_first hitems) hrun hstart hall] at hu
    exact ⟨{ s with toDev := u }, (hcmd (·.endTransfer i.toNat)).trans (next_congr hu), hleft, nofun, nofun, hdone⟩

end Sys2Proof.Machine
end

section
/-! PROOFS. What stays aside from frames and plans: the counters, the throttles, the sensors and the scrub. -/

namespace Sys2Proof.Machine

/-- The registers above those of frames and plans, without the strap. -/
abbrev asideReg (off : Nat) : Prop := 0x40000 ≤ off ∧ off ≠ R.rstStrap

/-- t differs from s in what bears neither on the plan frame nor on work under way: registers aside, counts, throttles. -/
structure Aside (s t : Dev) : Prop where
  reg : ∀ off, ¬ asideReg off → t.reg off = s.reg off
  frm : t.frm = s.frm
  img : t.img = s.img
  lens : t.lens = s.lens
  prism : t.prism = s.prism
  shadow : t.shadow = s.shadow
  planRefresh : t.stack.planRefresh = s.stack.planRefresh
  txns : t.cache.txns = s.cache.txns
  maint : t.cache.maint = s.cache.maint
  podOps : t.cache.podOps = s.cache.podOps
  deaths : t.cache.deaths = s.cache.deaths
  outbox : t.outbox = s.outbox

namespace Aside

variable {s t u : Dev}

theorem refl (s : Dev) : Aside s s := ⟨fun _ _ => rfl, rfl, rfl, rfl, rfl, rfl, rfl, rfl, rfl, rfl, rfl, rfl⟩

theorem trans (h : Aside s t) (h' : Aside t u) : Aside s u where
  reg off hoff := (h'.reg off hoff).trans (h.reg off hoff)
  frm := h'.frm.trans h.frm
  img := h'.img.trans h.img
  lens := h'.lens.trans h.lens
  prism := h'.prism.trans h.prism
  shadow := h'.shadow.trans h.shadow
  planRefresh := h'.planRefresh.trans h.planRefresh
  txns := h'.txns.trans h.txns
  maint := h'.maint.trans h.maint
  podOps := h'.podOps.trans h.podOps
  deaths := h'.deaths.trans h.deaths
  outbox := h'.outbox.trans h.outbox

theorem get (h : Aside s t) (f : Field) (hf : ¬ asideReg f.off) : t.get f = s.get f := by rw [Dev.get, Dev.get, h.reg _ hf]

theorem each {α : Type} {l : List α} {f : Dev → α → Dev} (hst : Aside s t) (h : ∀ u, ∀ a ∈ l, Aside u (f u a)) :
    Aside s (t.each l f) := by
  induction l generalizing t with
  | nil => exact hst
  | cons a l ih => exact ih (hst.trans (h t a List.mem_cons_self)) fun u b hb => h u b (List.mem_cons_of_mem _ hb)

/-- Both branches go on from one state. -/
theorem ite {p : Prop} [Decidable p] {v : Dev} (h : Aside s t) (hu : Aside s t → Aside s u) (hv : Aside s t → Aside s v) :
    Aside s (if p then u else v) := by
  split
  · exact hu h
  · exact hv h

theorem setReg (h : Aside s t) (off v : Nat) (hoff : asideReg off) : Aside s (t.setReg off v) := by
  refine h.trans ⟨fun a ha => t.reg_setReg_other off a v ?_, rfl, rfl, rfl, rfl, rfl, rfl, rfl, rfl, rfl, rfl, rfl⟩
  rintro rfl
  exact ha hoff

theorem put (h : Aside s t) (f : Field) (v : Nat) (hoff : asideReg f.off) : Aside s (t.put f v) := h.setReg f.off _ hoff

theorem bump (h : Aside s t) (f : Field) (n : Nat) (hoff : asideReg f.off) : Aside s (t.bump f n) := h.put f _ hoff

theorem raise (h : Aside s t) (f : Field) (hoff : asideReg f.off) : Aside s (t.raise f) := h.put f _ hoff

theorem peak (h : Aside s t) (f : Field) (v : Nat) (hoff : asideReg f.off) : Aside s (t.peak f v) := by
  unfold Dev.peak
  split
  · exact h.put f _ hoff
  · exact h

/-- What manages the slice may change. -/
theorem mgmt (h : Aside s t) (m : Mgmt) : Aside s { t with mgmt := m } :=
  ⟨h.reg, h.frm, h.img, h.lens, h.prism, h.shadow, h.planRefresh, h.txns, h.maint, h.podOps, h.deaths, h.outbox⟩

/-- So may the cache's use, but for its work under way. -/
theorem cache (h : Aside s t) (c : Cache) (htxns : c.txns = t.cache.txns) (hmaint : c.maint = t.cache.maint)
    (hpods : c.podOps = t.cache.podOps) (hdeaths : c.deaths = t.cache.deaths) : Aside s { t with cache := c } :=
  ⟨h.reg, h.frm, h.img, h.lens, h.prism, h.shadow, h.planRefresh, htxns.trans h.txns, hmaint.trans h.maint,
    hpods.trans h.podOps, hdeaths.trans h.deaths, h.outbox⟩

/-- A performance counter counts. -/
theorem countAdd (h : Aside s t) (g k n : Nat) : Aside s (t.countAdd g k n) := by
  have hval : asideReg (F.cntVal_VALUE g k).off := by simp only [asideReg, F.cntVal_VALUE, R.cntVal, R.rstStrap]; omega
  have hovf : asideReg (R.cntOvf g) := by simp only [asideReg, R.cntOvf, R.rstStrap]; omega
  simp only [Dev.countAdd]
  split
  · exact (h.put _ _ hval).setReg _ _ hovf
  · exact h.put _ _ hval

theorem event (h : Aside s t) (code unit : Nat) (hue : Option Hue) (n : Nat) : Aside s (t.event code unit hue n) :=
  h.each fun u e _ => (Aside.refl u).countAdd e.1.1 e.1.2 n

theorem throttleTime_aside {reason : Nat} {f : Field} (h : throttleTime reason = some f) : asideReg f.off := by
  unfold throttleTime at h
  split at h
  · obtain rfl := Option.some.inj h
    decide
  · obtain rfl := Option.some.inj h
    decide
  · obtain rfl := Option.some.inj h
    decide
  · cases h

theorem throttleOff (h : Aside s t) (reason : Nat) : Aside s (t.throttleOff reason) := by
  have hbit : asideReg (throttleBit reason).off := by unfold throttleBit; split <;> decide
  unfold Dev.throttleOff
  split
  · exact h
  · dsimp only
    split
    · exact h.put _ _ hbit
    · split
      · rename_i f hf
        exact ((h.put _ _ hbit).bump f _ (throttleTime_aside hf)).mgmt _
      · exact (h.put _ _ hbit).mgmt _

theorem throttleOn (h : Aside s t) (reason : Nat) : Aside s (t.throttleOn reason) := by
  have hbit : asideReg (throttleBit reason).off := by unfold throttleBit; split <;> decide
  have hseen : asideReg (throttleSeen reason).off := by unfold throttleSeen; split <;> decide
  have halert : asideReg R.gnmAlert := by decide
  unfold Dev.throttleOn
  dsimp only
  split
  · exact h
  · refine Aside.mgmt ?_ _
    split
    · exact ((h.raise _ hbit).raise _ hseen).setReg _ _ halert
    · exact (h.raise _ hbit).raise _ hseen

theorem noMoreWork (h : Aside s t) : NoMoreWork s t where
  txns := h.txns
  maint := h.maint
  podOps := h.podOps
  deaths := h.deaths
  shadow := by rw [h.shadow]
  prism := h.prism
  jobs := by rw [h.lens]
  keeps := by rw [h.lens]
  runs := by rw [h.lens]
  running e := by left; rw [Dev.engine, Dev.engine, h.lens]
  items := by rw [h.frm]; exact List.Subset.refl _
  img := h.img
  pos := by rw [Dev.pos, Dev.pos, h.get _ (by decide)]

end Aside

/-! The parts of a boundary and of a slot that are aside. -/

theorem Dev.thermalBoundary_aside (s : Dev) : Aside s s.thermalBoundary := by
  unfold Dev.thermalBoundary
  split
  · exact (Aside.refl s).throttleOff 0
  · exact .refl s

/-- The registers of a facet. -/
theorem facetReg_aside {f off : Nat} (hf : f < 64) (hlo : 0x40000 + f * 0x400 ≤ off) (hhi : off < 0x40000 + f * 0x400 + 0x400) :
    asideReg off := by
  simp only [asideReg, R.rstStrap]
  omega

/-- What a facet's boundary writes is its own HOT, THRASH and ERR registers. -/
theorem Dev.facetFrames_aside (s : Dev) (cycles frame : Nat) : Aside s (s.facetFrames cycles frame) := by
  refine ((Aside.refl s).each fun u f hf => ?_).cache _ rfl rfl rfl rfl
  have hf : f < 64 := List.mem_range.1 (List.mem_filter.1 hf).1
  have hhot : asideReg (R.fctHot f) := facetReg_aside hf (by simp only [R.fctHot]; omega) (by simp only [R.fctHot]; omega)
  have herr : asideReg (R.fctErr f) := facetReg_aside hf (by simp only [R.fctErr]; omega) (by simp only [R.fctErr]; omega)
  have hthrash : asideReg (R.fctThrash f) := facetReg_aside hf (by simp only [R.fctThrash]; omega) (by simp only [R.fctThrash]; omega)
  refine .ite ?_ (fun h => (h.bump _ _ hthrash).raise _ hthrash) id
  refine .ite ?_ id (fun h => h.put _ _ hthrash)
  exact .ite (.refl u) (fun h => ((h.bump _ _ hhot).put _ _ hhot).raise _ herr) id

/-- The records of throttles that are over go to the afterglow. -/
theorem Dev.throttleRecords_aside (s : Dev) : Aside s s.throttleRecords := by
  refine (Aside.refl s).each fun u k _ => ?_
  dsimp only
  split
  · exact .refl u
  · split
    · exact .refl u
    · exact ⟨fun _ _ => rfl, rfl, rfl, rfl, rfl, rfl, rfl, rfl, rfl, rfl, rfl, rfl⟩

theorem Dev.endSlot_aside (s : Dev) (slot : Nat) : Aside s (s.endSlot slot) := by
  have hcount : ∀ a b c, Aside s (((s.put F.pwrEst_LAST_W a).peak F.pwrEst_PEAK_W b).bump F.cntEnergy_UJ c) := fun a b c =>
    (((Aside.refl s).put _ a (by decide)).peak _ b (by decide)).bump _ c (by decide)
  unfold Dev.endSlot
  dsimp only
  split
  · exact ((hcount _ _ _).throttleOn 2).mgmt _
  · exact ((hcount _ _ _).throttleOff 2).mgmt _

theorem Dev.showScrub_aside (s : Dev) : Aside s s.showScrub := by
  have hshow : ∀ t, Aside s t → ∀ a b c,
      Aside s (((t.put F.stkScrub_PASSES a).put F.stkScrub_BEHIND b).put F.stkScrub_PROGRESS c) := fun t h a b c =>
    ((h.put _ a (by decide)).put _ b (by decide)).put _ c (by decide)
  unfold Dev.showScrub
  dsimp only
  split
  · exact hshow _ ((Aside.refl s).raise F.stkErr_SCRUB_BEHIND (by decide)) _ _ _
  · exact hshow _ (.refl s) _ _ _

/-- The bus cycles of a DRAM access, counted. -/
def Dev.busTaken (s : Dev) (pc : Nat) (c : DramClass) (n : Nat) : Dev :=
  { s with
    stack.used := tset s.stack.used (4 * pc + c.index) (s.busUsed pc c + s.busCycles n)
    cache.busUse := s.cache.busUse + s.busCycles n, mgmt.slotBus := s.mgmt.slotBus + s.busCycles n }

/-- A DRAM access is let go on its bus. -/
theorem Dev.busUse_aside (s : Dev) (pc : Nat) (c : DramClass) (n : Nat) : Aside s (s.busUse pc c n) := by
  have h : Aside s (s.busTaken pc c n) := ⟨fun _ _ => rfl, rfl, rfl, rfl, rfl, rfl, rfl, rfl, rfl, rfl, rfl, rfl⟩
  exact h.event evBus pc none (s.busCycles n)

theorem Dev.letGo_aside (s : Dev) (id : Nat) : Aside s (s.letGo id) :=
  ⟨fun _ _ => rfl, rfl, rfl, rfl, rfl, rfl, rfl, rfl, rfl, rfl, rfl, rfl⟩

theorem Dev.issueWaiting_aside (s : Dev) : Aside s s.issueWaiting :=
  (Aside.refl s).each fun t _ _ => (Aside.refl t).each fun u e _ =>
    .ite (.refl u) (fun h => h.trans ((u.letGo_aside e.1).trans (Dev.busUse_aside _ _ _ _))) id

end Sys2Proof.Machine
end

section
/-! PROOFS. The refresh commands of the boot schedule, and SLOT_START. -/

namespace Sys2Proof.Machine

theorem NoMoreWork.trans {s t u : Dev} (h : NoMoreWork s t) (h' : NoMoreWork t u) : NoMoreWork s u where
  txns := h'.txns.trans h.txns
  maint := h'.maint.trans h.maint
  podOps := h'.podOps.trans h.podOps
  deaths := h'.deaths.trans h.deaths
  shadow := h'.shadow.trans h.shadow
  prism := h'.prism.trans h.prism
  jobs := h'.jobs.trans h.jobs
  keeps := h'.keeps.trans h.keeps
  runs := h'.runs.trans h.runs
  running e := by
    rcases h'.running e with hr | hr
    · rw [hr]
      exact h.running e
    · exact .inr hr
  items := List.Subset.trans h'.items h.items
  img := h'.img.trans h.img
  pos := h'.pos.trans h.pos

/-- Without weak rows, n commands go out, each of a whole bank (R552). -/
theorem refreshRun_of_no_weak (pc per n : Nat) (r : RefreshAt) (l : List Msg) : ∃ bs : List Nat, bs.length = n ∧
    (refreshRun pc per [] n r l).1 = l ++ bs.map (fun b => .refresh pc b none) := by
  induction n generalizing r l with
  | zero => exact ⟨[], rfl, (List.append_nil l).symm⟩
  | succ n ih =>
    obtain ⟨bs, hlen, hbs⟩ := ih ((r.1 + 1) % 64, r.2.1 + 1, r.2.2) (l ++ [.refresh pc r.1 none])
    refine ⟨r.1 :: bs, by rw [List.length_cons, hlen], ?_⟩
    rw [refreshRun, List.isEmpty_nil, Bool.not_true, Bool.false_and, if_neg Bool.false_ne_true, hbs]
    simp

/-- The refresh commands of a slot of the boot schedule (R550). -/
def Dev.bootRefresh (s : Dev) (pc : Nat) : List Msg :=
  (refreshRun pc (64 * bitsOf (s.reg (if pc < 64 then R.stkId0 else R.stkId1)) 31 16) [] 3
    (tgetD s.stack.refreshBank pc 0, tgetD s.stack.refreshCount pc 0, tgetD s.stack.weakNext pc 0) []).1

/-- A refresh command of a pseudo-channel. -/
def isRefresh (pc : Nat) (m : Msg) : Bool :=
  match m with
  | .refresh q _ _ => q == pc
  | _ => false

theorem Dev.countP_bootRefresh (s : Dev) (pc q : Nat) : (s.bootRefresh q).countP (isRefresh pc) = if q = pc then 3 else 0 := by
  obtain ⟨bs, hlen, hbs⟩ := refreshRun_of_no_weak q (64 * bitsOf (s.reg (if q < 64 then R.stkId0 else R.stkId1)) 31 16) 3
    (tgetD s.stack.refreshBank q 0, tgetD s.stack.refreshCount q 0, tgetD s.stack.weakNext q 0) []
  rw [Dev.bootRefresh, hbs, List.nil_append, List.countP_map]
  by_cases h : q = pc
  · rw [if_pos h, ← hlen]
    exact List.countP_eq_length.2 fun b _ => beq_iff_eq.2 h
  · rw [if_neg h]
    exact List.countP_eq_zero.2 fun b _ hb => h (beq_iff_eq.1 hb)

/-- Three commands go out on each of the 128 pseudo-channels (R551). -/
theorem Dev.three_bootRefresh (s : Dev) {pc : Nat} (h : pc < 128) :
    (((List.range 128).flatMap s.bootRefresh).filter (isRefresh pc)).length = 3 := by
  have hother : ∀ q, q ≠ pc → q ∈ List.range 128 → (s.bootRefresh q).countP (isRefresh pc) = 0 := fun q hq _ => by
    rw [Dev.countP_bootRefresh, if_neg hq]
  have hone : (List.range 128).count pc = 1 := List.count_eq_one_of_mem List.nodup_range (List.mem_range.2 h)
  rw [← List.countP_eq_length_filter, List.countP_flatMap]
  refine (List.sum_map_eq_nsmul_single pc _ hother).trans ?_
  rw [hone, Dev.countP_bootRefresh, if_pos rfl, one_nsmul]

/-- Before the plan's table holds, a slot sends the boot schedule's commands, and its events count (R550, R783). -/
theorem Dev.refreshSlot_aside {s : Dev} (hboot : s.stack.planRefresh = false) (slot : Nat) :
    Aside { s with outbox := s.outbox ++ (List.range 128).flatMap s.bootRefresh } (s.refreshSlot slot) := by
  unfold Dev.refreshSlot
  extract_lets one all _ v
  have hone : (fun pc => (one pc).1) = s.bootRefresh := by
    funext pc
    simp only [one, hboot, Bool.false_eq_true, if_false, List.length_nil, Nat.max_zero, Nat.div_one]
    rfl
  have hall : all.flatMap (fun e => e.2.1) = (List.range 128).flatMap s.bootRefresh := by rw [List.flatMap_map, ← hone]
  have hv : Aside { s with outbox := s.outbox ++ (List.range 128).flatMap s.bootRefresh } v :=
    ⟨fun _ _ => rfl, rfl, rfl, rfl, rfl, rfl, rfl, rfl, rfl, rfl, rfl, congrArg (s.outbox ++ ·) hall⟩
  clear_value v all
  exact .ite hv id fun h => h.each fun u e _ => .ite (.refl u) id fun h => h.event evRefresh e.1 none _

theorem Dev.rampSlot_of_no_frame {s : Dev} (h : s.frm.frameRunning = false) (slot : Nat) : s.rampSlot slot = s := by
  simp [Dev.rampSlot, h]

/-- A slice without planned work ends no plan frame. -/
theorem Dev.checkDone_of_not_started {s : Dev} (h : s.frm.started = false) : s.checkDone = s :=
  Dev.checkDone_of_not_ended (by simp [Dev.frameEnded, h])

/-- Messages bear on no work under way. -/
theorem Dev.sent_noMoreWork (s : Dev) (o : List Msg) : NoMoreWork s { s with outbox := o } :=
  ⟨rfl, rfl, rfl, rfl, rfl, rfl, rfl, rfl, rfl, fun _ => .inl rfl, List.Subset.refl _, rfl, rfl⟩

theorem Dev.openSlot_noMoreWork (s : Dev) (slot : Nat) : NoMoreWork s (s.openSlot slot) :=
  ⟨rfl, rfl, rfl, rfl, rfl, rfl, rfl, rfl, rfl, fun _ => .inl rfl, List.Subset.refl _, rfl, rfl⟩

theorem Dev.openSlot_outbox (s : Dev) (slot : Nat) : (s.openSlot slot).outbox = s.outbox := rfl

/-- A slot of the boot schedule opens. -/
def Dev.bootSlot (s : Dev) (slot : Nat) : Dev :=
  (((s.endSlot ((slot + 63) % 64)).refreshSlot slot).showScrub.openSlot slot).issueWaiting

/-- It sends the refresh commands and names the next slot. -/
theorem Dev.bootSlot_effect {s : Dev} (hboot : s.stack.planRefresh = false) (slot : Nat) :
    (s.bootSlot slot).frm = { s.frm with slot := slot + 1 } ∧ NoMoreWork s (s.bootSlot slot) ∧
      ∃ v : Dev, (s.bootSlot slot).outbox = s.outbox ++ (List.range 128).flatMap v.bootRefresh := by
  unfold Dev.bootSlot
  have hend := s.endSlot_aside ((slot + 63) % 64)
  generalize s.endSlot ((slot + 63) % 64) = u at hend ⊢
  have hshow := (Dev.refreshSlot_aside (hend.planRefresh.trans hboot) slot).trans (Dev.showScrub_aside _)
  generalize (u.refreshSlot slot).showScrub = w at hshow ⊢
  have hissue := Dev.issueWaiting_aside (w.openSlot slot)
  generalize (w.openSlot slot).issueWaiting = x at hissue ⊢
  refine ⟨?_, hend.noMoreWork.trans ((Dev.sent_noMoreWork u _).trans (hshow.noMoreWork.trans
    ((w.openSlot_noMoreWork slot).trans hissue.noMoreWork))), u, ?_⟩
  · rw [hissue.frm, ← hend.frm]
    exact congrArg (fun f : Frm => { f with slot := slot + 1 }) hshow.frm
  · rw [hissue.outbox, Dev.openSlot_outbox, hshow.outbox, ← hend.outbox]

/-- SLOT_START without planned work, before the plan's refresh table holds. -/
theorem Dev.slotStart_of_boot {s : Dev} (hact : s.active = true) (hwake : s.phase ≠ .waking) (hq : s.quiet = true)
    (hseal : s.img.firstSealed = false) (hstart : s.frm.started = false) (hrun : s.frm.frameRunning = false)
    (hboot : s.stack.planRefresh = false) : s.slotStart = s.bootSlot (s.frm.slot % 64) := by
  obtain ⟨hfrm, hwork, -⟩ := Dev.bootSlot_effect hboot (s.frm.slot % 64)
  have hguard : (!s.active || s.phase == .waking || (64 ≤ s.frm.slot && s.img.firstSealed)) = false := by
    simp [hact, hwake, hseal]
  have hramp : ∀ u, Aside s u → ((u.refreshSlot (s.frm.slot % 64)).rampSlot (s.frm.slot % 64)) = u.refreshSlot (s.frm.slot % 64) := by
    intro u hu
    refine Dev.rampSlot_of_no_frame ?_ _
    rw [(Dev.refreshSlot_aside (hu.planRefresh.trans hboot) _).frm]
    exact (congrArg Frm.frameRunning hu.frm).trans hrun
  have hslot : (s.bootSlot (s.frm.slot % 64)).settle.checkDone = s.bootSlot (s.frm.slot % 64) := by
    rw [hwork.settle hq, Dev.checkDone_of_not_started (by rw [hfrm]; exact hstart)]
  have hidle : (s.bootSlot (s.frm.slot % 64)).frm.frameRunning = false := by rw [hfrm]; exact hrun
  have hopen : ((((s.endSlot ((s.frm.slot % 64 + 63) % 64)).refreshSlot (s.frm.slot % 64)).rampSlot (s.frm.slot % 64)).showScrub.openSlot
      (s.frm.slot % 64)).issueWaiting = s.bootSlot (s.frm.slot % 64) := by
    rw [hramp _ (s.endSlot_aside _), Dev.bootSlot]
  rw [Dev.slotStart, hguard, if_neg Bool.false_ne_true]
  dsimp only
  rw [hopen, hidle, Bool.false_and, if_neg Bool.false_ne_true, hslot]

end Sys2Proof.Machine
end

section
/-! PROOFS. A boundary without planned work. -/

namespace Sys2Proof.Machine

/-- No plan frame runs, and none is to start, halt or change (chapter 3). -/
structure Unplanned (f : Frm) : Prop where
  started : f.started = false
  go : f.go = none
  haltPending : f.haltPending = false
  sealAt : f.sealAt = none
  commitAt : f.commitAt = none
  movedAt : f.movedAt = none

theorem Dev.latch_of_none {s : Dev} (h : s.frm.exposeAt = none) (frame : Nat) : s.latch frame = s := by
  simp [Dev.latch, h]

theorem Dev.takeOver_of_none {s : Dev} (h : s.frm.movedAt = none) (frame : Nat) : s.takeOver frame = (s, false) := by
  simp [Dev.takeOver, h]

theorem Dev.sealBoundary_of_none {s : Dev} (h : s.frm.sealAt = none) (frame : Nat) : s.sealBoundary frame = s := by
  simp [Dev.sealBoundary, h]

theorem Dev.planBoundary_of_unplanned {s : Dev} (h : Unplanned s.frm) (frame : Nat) : s.planBoundary frame false = s := by
  simp [Dev.planBoundary, Dev.commitNow, h.haltPending, h.go, h.commitAt, h.started]

/-- t is s but for FRM_STATUS and FRM_EVENTS. -/
structure StatusOnly (s t : Dev) : Prop where
  eq : ∃ c, t = { s with csr := c }
  reg : ∀ off, R.frmStatus ≠ off → R.frmEvents ≠ off → t.reg off = s.reg off

theorem StatusOnly.refl (s : Dev) : StatusOnly s s := ⟨⟨s.csr, rfl⟩, fun _ _ _ => rfl⟩

theorem StatusOnly.put {s t : Dev} (h : StatusOnly s t) (f : Field) (v : Nat) (hf : f.off = R.frmStatus ∨ f.off = R.frmEvents) :
    StatusOnly s (t.put f v) where
  eq := by
    obtain ⟨c, rfl⟩ := h.eq
    exact ⟨_, rfl⟩
  reg off hstatus hevents := by
    have hoff : f.off ≠ off := by
      rcases hf with hf | hf
      · rwa [hf]
      · rwa [hf]
    exact (t.reg_put_other f off v hoff).trans (h.reg off hstatus hevents)

/-- The lock, the run of holdovers and whether this frame is one (R30, R32, R71). -/
def Dev.tickState (s : Dev) (holdover run lock : Nat) : Dev :=
  ((s.put F.frmStatus_HOLDOVER holdover).put F.frmStatus_HOLDOVER_RUN run).put F.frmStatus_TICK_LOCK lock

theorem Dev.tickState_only (s : Dev) (holdover run lock : Nat) : StatusOnly s (s.tickState holdover run lock) :=
  (((StatusOnly.refl s).put _ _ (.inl rfl)).put _ _ (.inl rfl)).put _ _ (.inl rfl)

theorem Dev.tickState_holdover {s : Dev} (hwf : s.registersWf = true) (holdover run lock : Nat) :
    (s.tickState holdover run lock).get F.frmStatus_HOLDOVER = holdover % 2 := by
  have h0 := s.put_registersWf F.frmStatus_HOLDOVER holdover hwf
  have h1 := Dev.put_registersWf _ F.frmStatus_HOLDOVER_RUN run h0
  rw [Dev.tickState, Dev.get_put_field _ F.frmStatus_TICK_LOCK F.frmStatus_HOLDOVER lock h1 rfl (by decide) (by decide) (by decide),
    Dev.get_put_field _ F.frmStatus_HOLDOVER_RUN F.frmStatus_HOLDOVER run h0 rfl (by decide) (by decide) (by decide),
    Dev.get_put s F.frmStatus_HOLDOVER holdover hwf (by decide) (by decide)]
  rfl

/-- The registers that tell of a tick or its lack. -/
def Dev.tickRegs (s : Dev) (usable : Bool) : Dev :=
  if usable then s.tickState 0 0 (b2n (16 ≤ s.frm.usableRun + 1))
  else ((s.tickState 1 (min ((s.put F.frmStatus_HOLDOVER 1).get F.frmStatus_HOLDOVER_RUN + 1) F.frmStatus_HOLDOVER_RUN.max) 0).raise
    F.frmEvents_HOLDOVER_ENTERED).raiseIf (!s.frm.tickSeen) F.frmEvents_TICK_MISSING

theorem Dev.tickStatus_eq (s : Dev) (usable : Bool) : s.tickStatus usable = { s.tickRegs usable with
    frm.usableRun := if usable then s.frm.usableRun + 1 else 0, frm.tickSeen := false } := by
  cases usable with
  | true => rfl
  | false => rfl

theorem Dev.tickRegs_only (s : Dev) (usable : Bool) : StatusOnly s (s.tickRegs usable) := by
  unfold Dev.tickRegs Dev.raiseIf
  split
  · exact s.tickState_only _ _ _
  · have h := (s.tickState_only 1 (min ((s.put F.frmStatus_HOLDOVER 1).get F.frmStatus_HOLDOVER_RUN + 1) F.frmStatus_HOLDOVER_RUN.max)
      0).put F.frmEvents_HOLDOVER_ENTERED 1 (.inr rfl)
    split
    · exact h.put F.frmEvents_TICK_MISSING 1 (.inr rfl)
    · exact h

/-- HOLDOVER says whether the frame lacked a usable tick. -/
theorem Dev.tickRegs_holdover {s : Dev} (hwf : s.registersWf = true) (usable : Bool) :
    (s.tickRegs usable).get F.frmStatus_HOLDOVER = if usable then 0 else 1 := by
  have hraise : ∀ (t : Dev) (f : Field), R.frmStatus ≠ f.off → (t.raise f).get F.frmStatus_HOLDOVER = t.get F.frmStatus_HOLDOVER :=
    fun t f hf => t.get_put_other f _ 1 hf.symm
  unfold Dev.tickRegs Dev.raiseIf
  split
  · exact Dev.tickState_holdover hwf _ _ _
  · split
    · rw [hraise _ _ (by decide), hraise _ _ (by decide), Dev.tickState_holdover hwf]
    · rw [hraise _ _ (by decide), Dev.tickState_holdover hwf]

/-- The heartbeats that go out note only which of those awaited were missed (R616). -/
theorem Dev.heartbeats_eq (s : Dev) (usable : Bool) : ∃ m o, s.heartbeats usable =
    { s with outbox := o, frm := { s.frm with missed := m, beats := [] } } := by
  unfold Dev.heartbeats
  rw [Dev.ctlSet_eq]
  exact ⟨_, _, rfl⟩

/-- The next frame is counted (R28). -/
def Dev.frameBegun (s : Dev) : Dev :=
  { s.put F.frmTickCount_COUNT ((s.frameNo + 1) % 2 ^ 48) with frm.counter := 0, frm.slot := 0, frm.deniedRec := none }

/-- The next frame is counted, and its tick noted. -/
def Dev.counted (s : Dev) (usable : Bool) : Dev := s.frameBegun.tickStatus usable

theorem Dev.frameBegun_eq (s : Dev) : ∃ c, s.frameBegun =
    { s with csr := c, frm.counter := 0, frm.slot := 0, frm.deniedRec := none } := ⟨_, rfl⟩

theorem Dev.frameBegun_reg (s : Dev) (off : Nat) : s.frameBegun.reg off = (s.put F.frmTickCount_COUNT ((s.frameNo + 1) % 2 ^ 48)).reg off :=
  rfl

theorem Dev.frameBegun_registersWf {s : Dev} (h : s.registersWf = true) : s.frameBegun.registersWf = true :=
  s.put_registersWf F.frmTickCount_COUNT _ h

theorem Dev.tickStatus_reg (s : Dev) (usable : Bool) (off : Nat) : (s.tickStatus usable).reg off = (s.tickRegs usable).reg off := by
  rw [Dev.tickStatus_eq]
  rfl

theorem Dev.counted_eq (s : Dev) (usable : Bool) : ∃ c, s.counted usable = { s with
    csr := c
    frm := { s.frm with
      counter := 0, slot := 0, deniedRec := none, usableRun := if usable then s.frm.usableRun + 1 else 0, tickSeen := false } } := by
  obtain ⟨c, hc⟩ := s.frameBegun_eq
  rw [Dev.counted, Dev.tickStatus_eq, hc]
  obtain ⟨c', hc'⟩ := (Dev.tickRegs_only { s with csr := c, frm.counter := 0, frm.slot := 0, frm.deniedRec := none } usable).eq
  rw [hc']
  exact ⟨c', rfl⟩

theorem Dev.counted_frameNo {s : Dev} (hwf : s.registersWf = true) (usable : Bool) :
    (s.counted usable).frameNo = (s.frameNo + 1) % 2 ^ 48 := by
  have hput : (s.put F.frmTickCount_COUNT ((s.frameNo + 1) % 2 ^ 48)).get F.frmTickCount_COUNT = (s.frameNo + 1) % 2 ^ 48 := by
    rw [Dev.get_put s F.frmTickCount_COUNT _ hwf (by decide) (by decide)]
    exact Nat.mod_mod _ _
  rw [Dev.frameNo, Dev.counted, Dev.get, Dev.tickStatus_reg, (s.frameBegun.tickRegs_only usable).reg F.frmTickCount_COUNT.off (by decide)
    (by decide), Dev.frameBegun_reg]
  exact hput

theorem Dev.counted_holdover {s : Dev} (hwf : s.registersWf = true) (usable : Bool) :
    (s.counted usable).get F.frmStatus_HOLDOVER = if usable then 0 else 1 := by
  rw [Dev.get, Dev.counted, Dev.tickStatus_reg, ← Dev.tickRegs_holdover (Dev.frameBegun_registersWf hwf) usable, Dev.get]

theorem Dev.counted_pos (s : Dev) (usable : Bool) : (s.counted usable).pos = s.pos := by
  rw [Dev.pos, Dev.pos, Dev.get, Dev.counted, Dev.tickStatus_reg, (s.frameBegun.tickRegs_only usable).reg _ (by decide) (by decide),
    Dev.frameBegun_reg, Dev.reg_put_other _ _ _ _ (by decide), Dev.get]

theorem Dev.counted_noMoreWork (s : Dev) (usable : Bool) : NoMoreWork s (s.counted usable) := by
  have hpos := s.counted_pos usable
  obtain ⟨c, hc⟩ := s.counted_eq usable
  generalize s.counted usable = t at hpos hc ⊢
  subst hc
  exact ⟨rfl, rfl, rfl, rfl, rfl, rfl, rfl, rfl, rfl, fun _ => .inl rfl, List.Subset.refl _, rfl, hpos⟩

theorem Dev.heartbeats_noMoreWork (s : Dev) (usable : Bool) : NoMoreWork s (s.heartbeats usable) := by
  obtain ⟨m, o, h⟩ := s.heartbeats_eq usable
  rw [h]
  exact ⟨rfl, rfl, rfl, rfl, rfl, rfl, rfl, rfl, rfl, fun _ => .inl rfl, List.Subset.refl _, rfl, rfl⟩

/-- A boundary without planned work counts the frame, and all else that it does is aside but for heartbeats. -/
theorem Dev.boundary_of_unplanned {s : Dev} (hq : s.quiet = true) (hplan : Unplanned s.frm) (hexpose : s.frm.exposeAt = none)
    (usable : Bool) : ∃ u v, Aside (s.counted usable) u ∧ Aside (u.heartbeats usable) v ∧ s.boundary usable = v := by
  let u := (s.counted usable).thermalBoundary.facetFrames s.frm.counter s.frameNo
  have hu : Aside (s.counted usable) u := (Dev.thermalBoundary_aside _).trans (Dev.facetFrames_aside _ _ _)
  have hv := Dev.throttleRecords_aside (u.heartbeats usable)
  have hbeats : Unplanned (u.heartbeats usable).frm := by
    obtain ⟨c, hc⟩ := s.counted_eq usable
    obtain ⟨m, o, h⟩ := u.heartbeats_eq usable
    have hfrm := hu.frm
    rw [hc] at hfrm
    rw [h]
    dsimp only
    rw [hfrm]
    exact ⟨hplan.started, hplan.go, hplan.haltPending, hplan.sealAt, hplan.commitAt, hplan.movedAt⟩
  have hwork : NoMoreWork s (u.heartbeats usable).throttleRecords := (s.counted_noMoreWork usable).trans
    (hu.noMoreWork.trans ((u.heartbeats_noMoreWork usable).trans hv.noMoreWork))
  refine ⟨u, _, hu, hv, ?_⟩
  have hbegin : s.boundary usable = let m := (u.heartbeats usable).takeOver ((s.frameNo + 1) % 2 ^ 48)
      ((m.1.sealBoundary ((s.frameNo + 1) % 2 ^ 48)).planBoundary ((s.frameNo + 1) % 2 ^ 48) m.2).throttleRecords.checkDone.settle := by
    rw [Dev.boundary, Dev.latch_of_none hexpose]
    rfl
  rw [hbegin, Dev.takeOver_of_none hbeats.movedAt]
  dsimp only
  rw [Dev.sealBoundary_of_none hbeats.sealAt, Dev.planBoundary_of_unplanned hbeats,
    Dev.checkDone_of_not_started (by rw [hv.frm]; exact hbeats.started), hwork.settle hq]

/-- What a boundary without planned work leaves. -/
theorem Dev.boundary_effect {s : Dev} (hq : s.quiet = true) (hwf : s.registersWf = true) (hplan : Unplanned s.frm)
    (hexpose : s.frm.exposeAt = none) (usable : Bool) : ∃ t : Dev, s.boundary usable = t ∧
      t.frameNo = (s.frameNo + 1) % 2 ^ 48 ∧ t.frm.counter = 0 ∧ t.frm.slot = 0 ∧
      t.get F.frmStatus_HOLDOVER = (if usable then 0 else 1) ∧ t.frm.usableRun = if usable then s.frm.usableRun + 1 else 0 := by
  obtain ⟨u, v, hu, hv, hs⟩ := Dev.boundary_of_unplanned hq hplan hexpose usable
  obtain ⟨c, hc⟩ := s.counted_eq usable
  have hufrm : u.frm = { s.frm with
      counter := 0, slot := 0, deniedRec := none, usableRun := if usable then s.frm.usableRun + 1 else 0, tickSeen := false } := by
    rw [hu.frm, hc]
  obtain ⟨m, o, hbeat⟩ := u.heartbeats_eq usable
  have hvfrm : v.frm = { u.frm with missed := m, beats := [] } := by rw [hv.frm, hbeat]
  have hget : ∀ f : Field, ¬ asideReg f.off → v.get f = (s.counted usable).get f := by
    intro f hf
    have hsame : (u.heartbeats usable).get f = u.get f := by
      rw [hbeat]
      rfl
    rw [hv.get f hf, hsame, hu.get f hf]
  refine ⟨v, hs, ?_, ?_, ?_, ?_, ?_⟩
  · exact (hget F.frmTickCount_COUNT (by decide)).trans (Dev.counted_frameNo hwf usable)
  · rw [hvfrm, hufrm]
  · rw [hvfrm, hufrm]
  · exact (hget F.frmStatus_HOLDOVER (by decide)).trans (Dev.counted_holdover hwf usable)
  · rw [hvfrm, hufrm]

/-- Settles O14: a boundary without planned work, and a slot of the boot schedule. -/
theorem boundaryAdvancesTheCount : Obligations.BoundaryAdvancesTheCount := by
  constructor
  case left =>
    intro s hact hq hwf hstart hgo hhalt hseal hcommit hexpose hmoved
    have hplan : Unplanned s.frm := ⟨hstart, hgo, hhalt, hseal, hcommit, hmoved⟩
    constructor
    · intro hwindow
      have htick : s.frameTick = s.boundary true := by simp [Dev.frameTick, hact, hwindow]
      obtain ⟨t, hs, heffect⟩ := Dev.boundary_effect hq hwf hplan hexpose true
      exact ⟨{ s with toDev := t }, next_congr (htick.trans hs), heffect⟩
    · have hhold : s.holdover = s.boundary false := by simp [Dev.holdover, hact]
      obtain ⟨t, hs, heffect⟩ := Dev.boundary_effect hq hwf hplan hexpose false
      exact ⟨{ s with toDev := t }, next_congr (hhold.trans hs), heffect⟩
  case right =>
    intro s hact hwake hq hseal hstart hrun hboot
    obtain ⟨hfrm, -, v, hout⟩ := Dev.bootSlot_effect hboot (s.frm.slot % 64)
    have hs := Dev.slotStart_of_boot hact hwake hq hseal hstart hrun hboot
    generalize s.bootSlot (s.frm.slot % 64) = t at hfrm hout hs
    exact ⟨{ s with toDev := t }, next_congr hs, congrArg Frm.slot hfrm, _, hout, fun pc hpc => v.three_bootRefresh hpc⟩

end Sys2Proof.Machine
end

section
/-! PROOFS. Which commands name a device offset, and that every command answers a next state where that offset is one of the stacks'. -/

namespace Sys2Proof.Machine

/-- The device offset that a command names for the stack side to act on, if it names one (R95). -/
def stackOffset : Instr → Option Nat
  | .sideAccess a => some a.d.toNat
  | .escapeClaimSlot e | .escapeReleaseSlot e => some e.d.toNat
  | .prefetchHint _ d _ _ | .mirrorPut _ _ d _ _ _ _ | .mirrorRelease _ d _ _ | .parityDelta _ _ d _ _ | .parityRelease _ _ d
  | .reconRead _ _ d => some d.toNat
  | _ => none

/-- A command that names no device offset answers a next state. -/
theorem exec_completes_of_no_offset {c : Instr} (s : State) (h : stackOffset c = none) : ∃ t : State, exec c s = .next t := by
  cases c with
  | sideAccess | escapeClaimSlot | escapeReleaseSlot | prefetchHint | mirrorPut | mirrorRelease | parityDelta | parityRelease
  | reconRead => cases h
  | _ => exact ⟨_, rfl⟩

/-- A command that names a device offset changes the slice where the stacks have it, and else faults. -/
theorem exec_eq_onDevAt {c : Instr} (s : State) {d : Nat} (h : stackOffset c = some d) : ∃ f : Dev → Dev, exec c s = s.onDevAt d f := by
  unfold stackOffset at h
  split at h <;> cases h <;> exact ⟨_, rfl⟩

/-- A command whose device offset the stacks have answers a next state. -/
theorem exec_completes_of_offset {c : Instr} (s : State) {d : Nat} (hd : stackOffset c = some d) (h : d < deviceEnd) :
    ∃ t : State, exec c s = .next t := by
  obtain ⟨f, hf⟩ := exec_eq_onDevAt s hd
  exact ⟨_, hf.trans ((s.onDevAt_eq d f).trans (if_neg (Nat.not_le.2 h)))⟩

/-- A command that names a device offset which the stacks lack faults (R95). -/
theorem exec_faults_of_offset {c : Instr} (s : State) {d : Nat} (hd : stackOffset c = some d) (h : deviceEnd ≤ d) :
    exec c s = .fault (.deviceOffsetOutside d) := by
  obtain ⟨f, hf⟩ := exec_eq_onDevAt s hd
  exact hf.trans ((s.onDevAt_eq d f).trans (if_pos h))

/-- A command whose device offset, if it names one, the stacks have answers a next state. -/
theorem exec_completes {c : Instr} (s : State) (h : ∀ d, stackOffset c = some d → d < deviceEnd) : ∃ t : State, exec c s = .next t := by
  cases hd : stackOffset c with
  | none => exact exec_completes_of_no_offset s hd
  | some d => exact exec_completes_of_offset s hd (h d hd)

/-- Settles O4: a command is a change of the slice, guarded by the extent of device space where it names a device offset. -/
theorem onlyDeviceOffsetsFault : Obligations.OnlyDeviceOffsetsFault := by
  constructor
  case left =>
    intro c s
    by_cases h : ∃ d, stackOffset c = some d ∧ deviceEnd ≤ d
    · obtain ⟨d, hd, hle⟩ := h
      exact Or.inr ⟨d, hle, exec_faults_of_offset s hd hle⟩
    · exact Or.inl (exec_completes s fun d hd => Nat.lt_of_not_le fun hle => h ⟨d, hd, hle⟩)
  case right =>
    intro c s hside hslot hhint hput hrel hdelta hprel hrecon
    refine exec_completes s fun d hd => ?_
    unfold stackOffset at hd
    split at hd <;> cases hd
    · exact hside _ rfl
    · exact hslot _ (Or.inl rfl)
    · exact hslot _ (Or.inr rfl)
    · exact hhint _ _ _ _ rfl
    · exact hput _ _ _ _ _ _ _ rfl
    · exact hrel _ _ _ _ rfl
    · exact hdelta _ _ _ _ _ rfl
    · exact hprel _ _ _ rfl
    · exact hrecon _ _ _ rfl

end Sys2Proof.Machine
end

section
/-! PROOFS. A request that its home takes: what lets it in, the entry of the request table, and a table with one entry. -/

namespace Sys2Proof.Machine

/-- The request that `reaches` describes: what its guards say one by one. -/
structure ReachesHome (s : Dev) (op : Op) (r : Request) (n : Nat) : Prop where
  active : s.active = true
  discards : s.discards r.src.toNat = false
  viaUp : s.viaUp r.via = true
  hue : r.via = .own → r.hue = 0
  urgent : r.urgent = false
  ticket : r.ticket = none
  view : r.view = 0
  space : r.space = .mem
  srcOk : s.srcOk r.via r.src.toNat = true
  noLink : ∀ p, r.via ≠ .dieLink p
  checked : s.checkRequest op r = .ok n
  plain : (s.region n).reflection = false
  home : s.homeSlice r n (s.region n) = s.pos
  still : s.moving s.pos = false

theorem Dev.reaches_home {s : Dev} {op : Op} {r : Request} {n : Nat} (h : s.reaches op r n = true) : ReachesHome s op r n := by
  simp only [Dev.reaches, Bool.and_eq_true, Bool.not_eq_true', Bool.or_eq_true, bne_iff_ne, ne_eq, beq_iff_eq,
    Option.isNone_iff_eq_none] at h
  obtain ⟨⟨⟨⟨⟨⟨⟨⟨⟨⟨⟨⟨⟨hact, hdis⟩, hvia⟩, hhue⟩, hurg⟩, htick⟩, hview⟩, hspace⟩, hsrc⟩, hlink⟩, hcheck⟩, hplain⟩, hhome⟩, hstill⟩ := h
  refine ⟨hact, hdis, hvia, fun ho => hhue.resolve_left (not_not_intro ho), hurg, htick, hview, hspace, hsrc, ?_, ?_, hplain, hhome,
    hstill⟩
  · intro p hp
    rw [hp] at hlink
    cases hlink
  · cases hk : s.checkRequest op r with
    | ok k => rw [hk] at hcheck; rw [beq_iff_eq.1 hcheck]
    | error c => rw [hk] at hcheck; cases hcheck

theorem Dev.inject_none (s : Dev) : s.inject {} = s := rfl

theorem Dev.urgency_of_not_urgent (s : Dev) (op : Op) {r : Request} (h : r.urgent = false) : s.urgency op r = (s, r) := by
  unfold Dev.urgency
  split
  · simp [h]
  · rfl

theorem Request.entering_of_hue {r : Request} (h : r.via = .own → r.hue = 0) : Request.entering r = r := by
  unfold Request.entering
  split
  · rename_i hown
    rw [← h hown]
  · rfl

namespace ReachesHome

variable {s : Dev} {op : Op} {r : Request} {n : Nat}

theorem fenced (h : ReachesHome s op r n) : s.fenced r.src.toNat = false := (Bool.or_eq_false_iff.1 h.discards).1

/-- Such a request passes every check and is served here (R103, R137). -/
theorem request_eq (h : ReachesHome s op r n) (hup : r.upset = {}) : s.request op r = s.memRequest op r n (s.region n) := by
  have hadm : s.admitted op r n (s.region n) = s.memRequest op r n (s.region n) := by
    simp [Dev.admitted, h.space, h.home, h.still]
  have hport : s.portRequest op r = s.memRequest op r n (s.region n) := by
    simp only [Dev.portRequest, h.active, h.discards, h.viaUp, hup, Dev.inject_none, Request.entering_of_hue h.hue,
      s.urgency_of_not_urgent op h.urgent, h.srcOk, h.checked, hadm, Bool.not_true, Bool.or_self, Bool.false_eq_true, if_false]
    split
    · rename_i p hp
      exact absurd hp (h.noLink p)
    · rfl
  unfold Dev.request
  split
  · rename_i p hp
    have hv := h.viaUp
    rw [hp] at hv
    cases hv
  · exact hport

/-- Its granules lie here, in the order of its region (R98 to R101). -/
theorem placeOf_zero (h : ReachesHome s op r n) (id : Nat) (op' : Op) :
    s.placeOf (pulledEntry id (s.region n) op' r n) 0 = s.placeFor r n := by
  have hhome : (homeOf r.localAddr (s.region n) s.setSize).1 = s.pos := by
    have hh := h.home
    rwa [Dev.homeSlice, h.plain] at hh
  simp [Dev.placeOf, Dev.placeFor, pulledEntry, h.plain, hhome]

end ReachesHome

/-- A field reads the same where its register does. -/
theorem Dev.get_congr {s u : Dev} {f : Field} (h : u.reg f.off = s.reg f.off) : u.get f = s.get f := by rw [Dev.get, Dev.get, h]

theorem Dev.fenced_congr {s u : Dev} (h : u.reg R.fctFence = s.reg R.fctFence) (a : Nat) : u.fenced a = s.fenced a := by
  rw [Dev.fenced, Dev.fenced, Dev.get_congr h]

/-! A request table with one entry. -/

section
variable {s : Dev} {e : ReqEntry} (h : s.cache.reqs = [e])
include h

theorem Dev.req_of_lone : s.req e.id = some e := by simp [Dev.req, h]

theorem Dev.updReq_of_lone (f : ReqEntry → ReqEntry) : s.updReq e.id f = { s with cache.reqs := [f e] } := by
  simp [Dev.updReq, h]

theorem Dev.dropReq_of_lone : s.dropReq e.id = { s with cache.reqs := [] } := by simp [Dev.dropReq, h]

end

/-- The slice once its empty request table has taken an entry (R137, R171). -/
def Dev.entered (s : Dev) (e : ReqEntry) : Dev :=
  { s with csr := (s.peak F.fctReq_PEAK 1).csr, nextId := s.nextId + 1, cache.reqs := [e] }

/-- A peak depends on registers alone. -/
theorem Dev.peak_congr {s u : Dev} (h : u.csr = s.csr) (f : Field) (v : Nat) : u.peak f v = { u with csr := (s.peak f v).csr } := by
  have hget : u.get f = s.get f := by rw [Dev.get, Dev.get, Dev.reg, Dev.reg, h]
  unfold Dev.peak
  rw [hget]
  split
  · simp only [Dev.put, Dev.setReg, Dev.reg, h]
  · rw [← h]

/-- An empty request table takes a MEM request that carries write data, still to come (R137, R171). -/
theorem Dev.enterReq_of_empty {s : Dev} {op : Op} {r : Request} (hreqs : s.cache.reqs = []) (hmem : r.space = .mem)
    (hpulls : op.pulls = true) (n : Nat) (g : Region) :
    s.enterReq op r n g (r.len.toNat + 1) (r.len.toNat + 1) none = (s.nextId, s.entered (pulledEntry s.nextId g op r n)) := by
  have hentry : ({ id := s.nextId, op := op, r := r, region := n, rgn := g, n := r.len.toNat + 1
                   codes := List.replicate (r.len.toNat + 1) none, data := List.replicate (max (r.len.toNat + 1) (r.len.toNat + 1)) 0
                   got := List.replicate (r.len.toNat + 1) false, grant := 0, sent := [], ticket := none, naks := []
                   onDat := false } : ReqEntry) = pulledEntry s.nextId g op r n := by
    rw [pulledEntry, hpulls, Nat.max_self]
    rfl
  have hone : ∀ u : Dev, u.cache.reqs = [pulledEntry s.nextId g op r n] → u.occupancy = 1 := by
    intro u hu
    have hcount : (pulledEntry s.nextId g op r n).counted = true := beq_iff_eq.2 hmem
    rw [Dev.occupancy, hu, List.filter_cons_of_pos hcount, List.filter_nil, List.length_singleton]
  simp only [Dev.enterReq, hmem, hreqs, hentry, List.nil_append, beq_self_eq_true, if_true]
  rw [hone _ rfl]
  refine congrArg (Prod.mk _) (Dev.peak_congr (s := s) ?_ _ _)
  rfl

theorem Dev.entered_reg (s : Dev) (e : ReqEntry) {off : Nat} (h : off ≠ R.fctReq) : (s.entered e).reg off = s.reg off :=
  s.reg_peak_other _ _ _ (Ne.symm h)

/-! The response of a request of one 64 B. -/

/-- An entry of one 64 B that is answered, with its response still to be sent: not urgent, and through no wide view. -/
structure ReqEntry.Answered (e : ReqEntry) (c : Code) (x : Sub) : Prop where
  n : e.n = 1
  sent : e.sent = []
  view : e.r.view = 0
  urgent : e.r.urgent = false
  codes : e.codes = [some c]
  data : e.data = [x]
  notNak : c ≠ .nak

namespace ReqEntry.Answered

variable {e : ReqEntry} {c : Code} {x : Sub}

theorem unit (h : e.Answered c x) : (List.range e.n).filter (fun i => e.unitOf i == e.unitOf 0) = [0] := by
  simp [h.n]

theorem ready (h : e.Answered c x) : e.ready = [e.unitOf 0] := by
  have hviewed : e.viewed = false := by simp [ReqEntry.viewed, h.view]
  simp [ReqEntry.ready, h.n, h.sent, hviewed, ReqEntry.owes, h.codes, List.eraseDups_cons]

/-- Its one response leaves, with the data if any (R467). -/
theorem sendUnit (h : e.Answered c x) {s : Dev} (hf : s.fenced e.r.src.toNat = false) :
    s.sendUnit e (e.unitOf 0) = s.send (.resp e.r.src e.r.txid 0 [c] e.grant 0 (if e.onDat then [codeData c x] else [])) := by
  have hnak : ([some c].getD 0 none == some Code.nak) = false := by simp [h.notNak]
  simp only [Dev.sendUnit, h.unit, h.codes, h.data, List.findSome?_cons, List.findSome?_nil, hnak, Bool.false_eq_true, if_false,
    List.map_cons, List.map_nil, Dev.respond, hf, Dev.noteUrgent, h.urgent]
  rfl

end ReqEntry.Answered

/-- No hold ends where none waits for a response to leave (R241). -/
theorem Dev.endHolds_of_none_leaving {s : Dev} (h : ∀ t ∈ s.cache.txns, t.stage ≠ .leave) (e : ReqEntry) (us : List Nat) :
    s.endHolds e us = s := by
  unfold Dev.endHolds
  rw [List.filter_eq_self.2]
  intro t ht
  simp [h t ht]

theorem Dev.none_leaving {s : Dev} (h : s.cache.txns = []) : ∀ t ∈ s.cache.txns, t.stage ≠ .leave := by
  simp [h]

theorem Dev.urgentDone_of_not_urgent (s : Dev) {r : Request} (h : r.urgent = false) : s.urgentDone r = s := by
  unfold Dev.urgentDone
  split
  · simp [h]
  · rfl

/-- The lone request of the table, once it is answered, sends its response and leaves the table (R137, R467). -/
theorem Dev.flush_of_answered {s : Dev} {e : ReqEntry} {c : Code} {x : Sub} (hreqs : s.cache.reqs = [e]) (h : e.Answered c x)
    (hf : s.fenced e.r.src.toNat = false) (hstay : ∀ t ∈ s.cache.txns, t.stage ≠ .leave) :
    s.flush e.id = { s with cache.reqs := []
                            outbox := s.outbox ++ [.resp e.r.src e.r.txid 0 [c] e.grant 0 (if e.onDat then [codeData c x] else [])] } := by
  have hall : ∀ us : List Nat, us = [e.unitOf 0] → (List.range e.n).all (fun i => us.contains (e.unitOf i)) = true := by
    rintro us rfl
    simp [h.n]
  unfold Dev.flush
  simp only [Dev.req_of_lone hreqs, h.ready, h.sent, Dev.each_cons, Dev.each_nil, h.sendUnit hf, List.nil_append,
    hall _ rfl, if_true]
  rw [Dev.endHolds_of_none_leaving (s := s.send _) hstay, Dev.dropReq_of_lone (s := s.send _) hreqs,
    Dev.urgentDone_of_not_urgent _ h.urgent]
  rfl

/-- Answer 0 of the lone request, of one 64 B, is given: its response leaves, and it leaves the table. -/
theorem Dev.finish_of_lone {s : Dev} {e : ReqEntry} {c : Code} {x : Option Sub} (hreqs : s.cache.reqs = [e])
    (h : ({ e with codes := e.codes.set 0 (some c), data := e.data.set 0 (x.getD 0), onDat := e.onDat || x.isSome } : ReqEntry).Answered
      c (x.getD 0))
    (hf : s.fenced e.r.src.toNat = false) (hstay : ∀ t ∈ s.cache.txns, t.stage ≠ .leave) :
    s.finish e.id 0 c x =
      { s with cache.reqs := []
               outbox := s.outbox ++ [.resp e.r.src e.r.txid 0 [c] e.grant 0
                 (if (e.onDat || x.isSome) = true then [codeData c (x.getD 0)] else [])] } := by
  rw [Dev.finish, Dev.answer, Dev.updReq_of_lone hreqs]
  exact Dev.flush_of_answered (s := { s with cache.reqs := _ }) rfl h hf hstay

/-! The parts of a request that awaits its write data. -/

theorem Dev.park_of_new {s : Dev} {id i : Nat} (h : ∀ k ∈ s.cache.parked, k.reqId = id → k.index ≠ i) (f : Nat) (b : Bound) :
    s.park f id i b = { s with cache.parked := s.cache.parked ++
      [{ facet := f, reqId := id, index := i, bound := b, urgent := false, reentered := false }] } := by
  have hnew : s.cache.parked.any (fun p => p.reqId == id && p.index == i) = false :=
    List.any_eq_false.2 fun k hk => by simpa using h k hk
  rw [Dev.park, if_neg (by rw [hnew]; exact Bool.false_ne_true)]

/-- Parts of one request park one behind the other, where none of them is parked yet. -/
theorem Dev.each_park {s : Dev} {id : Nat} (f : Dev → Nat → Nat) (b : Bound) {l : List Nat} (hl : l.Nodup)
    (h : ∀ k ∈ s.cache.parked, k.reqId = id → k.index ∉ l) (hf : ∀ ps i, f { s with cache.parked := ps } i = f s i) :
    s.each l (fun s i => s.park (f s i) id i b) = { s with cache.parked := (s.cache.parked ++
      l.map (fun i => { facet := f s i, reqId := id, index := i, bound := b, urgent := false, reentered := false })) } := by
  induction l generalizing s with
  | nil => simp
  | cons i l ih =>
    obtain ⟨hi, hl⟩ := List.nodup_cons.1 hl
    have hnew : ∀ k ∈ s.cache.parked, k.reqId = id → k.index ≠ i := fun k hk hid he => h k hk hid (he ▸ List.mem_cons_self)
    rw [Dev.each_cons, Dev.park_of_new hnew, ih hl]
    · simp only [hf, List.append_assoc, List.singleton_append, List.map_cons]
    · intro k hk hid hmem
      rcases List.mem_append.1 hk with hk | hk
      · exact h k hk hid (List.mem_cons_of_mem _ hmem)
      · rw [List.mem_singleton.1 hk] at hmem
        exact hi hmem
    · intro ps i
      simp only [hf]

/-- Where the granules of a plain region lie does not hang on the work under way. -/
theorem Dev.placeOf_congr {s u : Dev} {e : ReqEntry} (hplain : e.rgn.reflection = false) (hfuse : u.fuse = s.fuse)
    (hstrap : u.reg R.rstStrap = s.reg R.rstStrap) (hconfig : u.reg R.shdConfig = s.reg R.shdConfig)
    (hstatus : u.reg R.shdStatus = s.reg R.shdStatus) (i : Nat) : u.placeOf e i = s.placeOf e i := by
  have hpos : u.pos = s.pos := by rw [Dev.pos, Dev.pos, Dev.get_congr hstrap]
  have hset : u.setSize = s.setSize := Dev.get_congr hconfig
  have hadopt : u.adopting = s.adopting := by rw [Dev.adopting, Dev.adopting, Dev.on, Dev.on, Dev.get_congr hstatus]
  simp [Dev.placeOf, Dev.placeAt, Dev.adoptedPlaceAt, hplain, hpos, hset, hadopt, hfuse]

/-- An entry no answer of which has been given, through no wide view and of a plain region. -/
structure ReqEntry.Unanswered (e : ReqEntry) : Prop where
  n : 0 < e.n
  sent : e.sent = []
  view : e.r.view = 0
  plain : e.rgn.reflection = false
  codes : e.codes = List.replicate e.n none

namespace ReqEntry.Unanswered

variable {e : ReqEntry}

theorem owes (h : e.Unanswered) (i : Nat) : e.owes i = true := by
  simp only [ReqEntry.owes, h.codes, List.getD_eq_getElem?_getD, List.getElem?_replicate]
  split <;> rfl

theorem viewed (h : e.Unanswered) : e.viewed = false := by simp [ReqEntry.viewed, h.view]

/-- Each of its granules is a part that has not started. -/
theorem partIndices (h : e.Unanswered) (s : Dev) : s.partIndices e = List.range e.n := by
  simp [Dev.partIndices, Dev.startIndices, h.plain, h.viewed, h.owes]

theorem ready (h : e.Unanswered) : e.ready = [] := by
  refine List.filter_eq_nil_iff.2 fun u hu => ?_
  obtain ⟨i, hi, rfl⟩ := List.mem_map.1 (List.mem_eraseDups.1 hu)
  intro hall
  have hone := List.all_eq_true.1 (Bool.and_eq_true_iff.1 hall).2 i hi
  simp [h.viewed, h.owes] at hone

end ReqEntry.Unanswered

/-- Nothing is sent of a lone request that has no answer yet. -/
theorem Dev.flush_of_unanswered {s : Dev} {e : ReqEntry} (hreqs : s.cache.reqs = [e]) (h : e.Unanswered)
    (hstay : ∀ t ∈ s.cache.txns, t.stage ≠ .leave) : s.flush e.id = s := by
  have hn := h.n
  have hleft : (List.range e.n).all (fun i => ([] : List Nat).contains (e.unitOf i)) = false := by
    rw [List.all_eq_false]
    exact ⟨0, List.mem_range.2 hn, by simp⟩
  simp only [Dev.flush, Dev.req_of_lone hreqs, h.ready, h.sent, Dev.each_nil, List.append_nil, hleft, Bool.false_eq_true, if_false]
  rw [Dev.endHolds_of_none_leaving hstay, Dev.updReq_of_lone hreqs, ← h.sent, ← hreqs]

/-- A slice that holds no atomic record answers none from one (R625). -/
theorem Dev.fromRecords_of_none {s : Dev} {e : ReqEntry} (hreqs : s.cache.reqs = [e]) (h : e.Unanswered)
    (hstay : ∀ t ∈ s.cache.txns, t.stage ≠ .leave) (hrec : s.shadow.records = []) : s.fromRecords e.id = s := by
  unfold Dev.fromRecords
  simp only [Dev.req_of_lone hreqs]
  split
  · rfl
  · rw [s.each_self _ _ fun i _ => by simp [hrec]]
    exact Dev.flush_of_unanswered hreqs h hstay

/-- The parts of the lone request take their places in the empty ingress lists (R138, R139, R440). -/
theorem Dev.waitData_of_lone {s : Dev} {e : ReqEntry} (hreqs : s.cache.reqs = [e]) (h : e.Unanswered) (hparked : s.cache.parked = []) :
    s.waitData e.id = { s with cache.parked := s.awaitingData e } := by
  simp only [Dev.waitData, Dev.req_of_lone hreqs, h.partIndices]
  rw [Dev.each_park (fun s i => (s.placeOf e i).facet) .data List.nodup_range (by simp [hparked])
    (fun ps i => congrArg Place.facet (Dev.placeOf_congr (s := s) h.plain rfl rfl rfl rfl i)), hparked]
  rfl

/-- Nothing is at work in the facets: what `facetsIdle` says one by one. -/
structure FacetsIdle (s : Dev) : Prop where
  quiet : s.quiet = true
  reqs : s.cache.reqs = []
  plrs : s.cache.plrs = []
  parked : s.cache.parked = []
  tickets : s.cache.tickets = []
  wbs : s.cache.wbs = []
  rmw : s.stack.rmw = []
  puts : s.shadow.puts = []
  records : s.shadow.records = []
  blockRun : s.mgmt.blockRun = none
  blocking : s.nakMode = false

theorem Dev.facetsIdle_parts {s : Dev} (h : s.facetsIdle = true) : FacetsIdle s := by
  simp only [Dev.facetsIdle, Bool.and_eq_true, Bool.not_eq_true', List.isEmpty_iff, Option.isNone_iff_eq_none] at h
  obtain ⟨⟨⟨⟨⟨⟨⟨⟨⟨⟨h1, h2⟩, h3⟩, h4⟩, h5⟩, h6⟩, h7⟩, h8⟩, h9⟩, h10⟩, h11⟩ := h
  exact ⟨h1, h2, h3, h4, h5, h6, h7, h8, h9, h10, h11⟩

theorem Dev.txns_of_quiet {s : Dev} (h : s.quiet = true) : s.cache.txns = [] := by
  simp only [Dev.quiet, Bool.and_eq_true, List.isEmpty_iff] at h
  exact h.1.1.1.1.1.1.1.1.1

theorem ReachesHome.unanswered {s : Dev} {op : Op} {r : Request} {n : Nat} (h : ReachesHome s op r n) (id : Nat) (op' : Op) :
    (pulledEntry id (s.region n) op' r n).Unanswered := ⟨Nat.succ_pos _, rfl, h.view, h.plain, rfl⟩

namespace ReachesHome

variable {s : Dev} {op : Op} {r : Request} {n : Nat}

/-- A request with write data enters the table of an idle home. A WRITE with no byte enabled is answered at once; else PULL asks for
the data, and the parts wait for it (R137, R171, R468). -/
theorem memRequest_enters (h : ReachesHome s op r n) (hi : FacetsIdle s) (hpulls : op.pulls = true) {e : ReqEntry}
    (he : e = pulledEntry s.nextId (s.region n) op r n) :
    s.memRequest op r n (s.region n) =
      if r.writesNothing && op == .write then (s.entered e).answerRest e.id .ok
      else ((s.entered e).pullData e.id).waitData e.id := by
  have hid : e.id = s.nextId := by rw [he]; rfl
  have hun : e.Unanswered := he ▸ h.unanswered s.nextId op
  have hticket : ({ e with ticket := none } : ReqEntry) = e := by rw [he]; rfl
  have henter := he ▸ Dev.enterReq_of_empty hi.reqs h.space hpulls n (s.region n)
  have hreq : (s.entered e).req e.id = some e := Dev.req_of_lone rfl
  have hupd : (s.entered e).updReq e.id (fun e => { e with ticket := none }) = s.entered e := by
    rw [Dev.updReq_of_lone rfl, hticket]
    rfl
  have htxns : (s.entered e).cache.txns = [] := Dev.txns_of_quiet (s := s) hi.quiet
  have hfrom : (s.entered e).fromRecords e.id = s.entered e :=
    Dev.fromRecords_of_none rfl hun (Dev.none_leaving htxns) hi.records
  have hocc : s.occupancy = 0 := by simp [Dev.occupancy, hi.reqs]
  have hblock : (s.entered e).naks e = false := by
    have hmode := Dev.get_congr (f := F.fctCohCfg_MODE) (s.entered_reg e (by decide))
    rw [Dev.naks, Dev.nakMode, Dev.on, hmode]
    exact Bool.and_eq_false_iff.2 (Or.inl hi.blocking)
  have hwaits : (s.entered e).ticketWaits e = none := by rw [Dev.ticketWaits, ← hticket]
  simp only [Dev.memRequest, hocc, h.view, hpulls, bne_self_eq_false, Bool.and_false, Bool.not_true, Bool.false_eq_true,
    Nat.reduceLeDiff, if_false, if_true, henter, ← hid, hreq, h.ticket, Option.filter_none, hupd, hticket, hwaits, hfrom, hblock]
  rfl

/-- PULL asks for the data of a request that is not empty, and its parts take their places (R138, R440, R468). -/
theorem memRequest_pulls (h : ReachesHome s op r n) (hi : FacetsIdle s) (hpulls : op.pulls = true)
    (hsome : ¬ (op = .write ∧ r.writesNothing = true)) {e : ReqEntry} (he : e = pulledEntry s.nextId (s.region n) op r n) :
    s.memRequest op r n (s.region n) =
      { s.entered e with cache.parked := s.awaitingData e, outbox := s.outbox ++ [Msg.pull r.src r.txid] } := by
  have hun : e.Unanswered := he ▸ h.unanswered s.nextId op
  have hbytes : (r.writesNothing && op == .write) = false := by
    rw [Bool.and_eq_false_iff]
    by_contra hc
    simp_all
  have hr : e.r = r := by rw [he]; rfl
  have hfence : (s.entered e).fenced r.src.toNat = false := (Dev.fenced_congr (s.entered_reg e (by decide)) _).trans h.fenced
  have hpull : (s.entered e).pullData e.id = (s.entered e).send (.pull r.src r.txid) := by
    simp only [Dev.pullData, Dev.req_of_lone (s := s.entered e) rfl, hr, hfence, Bool.false_eq_true, if_false]
  have hplace : ((s.entered e).send (.pull r.src r.txid)).awaitingData e = s.awaitingData e := by
    refine List.map_congr_left fun i _ => ?_
    rw [Dev.placeOf_congr (u := (s.entered e).send _) (s := s) hun.plain rfl (s.entered_reg e (by decide)) (s.entered_reg e (by decide))
      (s.entered_reg e (by decide))]
  rw [h.memRequest_enters hi hpulls he, hbytes, if_neg Bool.false_ne_true, hpull,
    Dev.waitData_of_lone (s := (s.entered e).send _) rfl hun hi.parked, hplace]
  rfl

/-- A WRITE with no byte enabled is answered OK (R171). -/
theorem memRequest_writesNothing (h : ReachesHome s .write r n) (hi : FacetsIdle s) (hnone : r.writesNothing = true) :
    s.memRequest .write r n (s.region n) = { s with
      csr := (s.peak F.fctReq_PEAK 1).csr, nextId := s.nextId + 1
      outbox := s.outbox ++ [Msg.resp r.src r.txid 0 [.ok] 0 0 []] } := by
  have hlen : r.len = 0 := by
    simp only [Request.writesNothing, Bool.and_eq_true, beq_iff_eq] at hnone
    exact hnone.1
  generalize he : pulledEntry s.nextId (s.region n) .write r n = e
  have hr : e.r = r := by rw [← he]; rfl
  have hn : e.n = 1 := by rw [← he]; simp [pulledEntry, hlen]
  have hun : e.Unanswered := he ▸ h.unanswered s.nextId .write
  have hans : ({ e with codes := e.codes.set 0 (some .ok), data := e.data.set 0 ((none : Option Sub).getD 0)
                        onDat := e.onDat || (none : Option Sub).isSome } : ReqEntry).Answered .ok ((none : Option Sub).getD 0) := by
    rw [← he]
    refine ⟨?_, rfl, h.view, h.urgent, ?_, ?_, by decide⟩
    all_goals simp [pulledEntry, hlen]
  have hrest : (s.entered e).answerRest e.id .ok = (s.entered e).finish e.id 0 .ok none := by
    simp only [Dev.answerRest, Dev.req_of_lone (s := s.entered e) rfl, hn]
    simp [hun.owes, Dev.finish]
  have hfence : (s.entered e).fenced e.r.src.toNat = false := by
    rw [Dev.fenced_congr (s.entered_reg e (by decide)), hr]
    exact h.fenced
  have htxns : (s.entered e).cache.txns = [] := Dev.txns_of_quiet (s := s) hi.quiet
  rw [h.memRequest_enters hi rfl he.symm, hnone, hrest, Dev.finish_of_lone rfl hans hfence (Dev.none_leaving htxns), ← he]
  have hempty : ({ s.cache with reqs := [] } : Cache) = s.cache := by rw [← hi.reqs]
  rw [← hempty]
  rfl

end ReachesHome

/-- A request changes the slice as its operation says, and the slice settles. -/
theorem exec_pulling {c : Instr} {op : Op} {r : Request} (h : (c, op) ∈ [(Instr.write r, Op.write), (.writeBack r, .writeBack),
    (.atomic r, .atomic), (.farAtomic r, .farAtomic), (.reduceStore r, .reduceStore)]) (s : State) :
    op.pulls = true ∧ exec c s = .next { s with toDev := (s.request op r).settle } := by
  simp only [List.mem_cons, Prod.mk.injEq, List.not_mem_nil, or_false] at h
  obtain ⟨rfl, rfl⟩ | ⟨rfl, rfl⟩ | ⟨rfl, rfl⟩ | ⟨rfl, rfl⟩ | ⟨rfl, rfl⟩ := h <;> exact ⟨rfl, rfl⟩

/-- A request that has entered the table, or has been answered, and the parts in the ingress lists bear on no work under way. -/
theorem Dev.peaked_noMoreWork (s : Dev) (reqs : List ReqEntry) (parked : List Parked) (id : Nat) (out : List Msg) : NoMoreWork s { s with
    csr := (s.peak F.fctReq_PEAK 1).csr, nextId := id, cache.reqs := reqs, cache.parked := parked, outbox := out } :=
  { NoMoreWork.refl s with pos := by rw [Dev.pos, Dev.pos, Dev.get_congr (s.reg_peak_other F.fctReq_PEAK 1 R.rstStrap (by decide))] }

/-- Settles O36: the home's table takes the request, and the slice, with no more work under way, settles at once. -/
theorem requestsPullTheirData : Obligations.RequestsPullTheirData := by
  intro c op r n s hc hidle hreach _ hup
  have h := Dev.reaches_home hreach
  have hi := Dev.facetsIdle_parts hidle
  obtain ⟨hpulls, hexec⟩ := exec_pulling hc s
  rw [hexec, h.request_eq hup, Dev.peak_eq]
  constructor
  · intro hsome
    rw [h.memRequest_pulls hi hpulls hsome rfl]
    exact next_congr ((s.peaked_noMoreWork _ _ _ _).settle hi.quiet)
  · rintro rfl hnone
    rw [h.memRequest_writesNothing hi hnone]
    exact next_congr ((s.peaked_noMoreWork s.cache.reqs s.cache.parked _ _).settle hi.quiet)

end Sys2Proof.Machine
end

section
/-! PROOFS. The line of a cached granule: where a lookup finds it after it is written, and what it then reads. -/

namespace Sys2Proof.Machine

/-- The way and line of a place, of a granule of this slice. -/
theorem Dev.lookup_own (s : Dev) {p : Place} (hk : p.kind = .own) :
    s.lookup p = (s.waysOf p.facet p.searches).findSome? (fun w =>
      (s.line p.facet p.set w).bind fun l => if l.matches p then some (w, l) else none) := by
  unfold Dev.lookup
  simp only [hk, Bool.not_true, Bool.false_eq_true, if_false]
  congr 1
  funext w
  cases s.line p.facet p.set w <;> rfl

/-- What a lookup finds is a line of the place, in the way that it names. -/
theorem Dev.lookup_line {s : Dev} {p : Place} {w : Nat} {l : Line} (hk : p.kind = .own) (h : s.lookup p = some (w, l)) :
    s.line p.facet p.set w = some l ∧ l.matches p = true := by
  rw [s.lookup_own hk] at h
  obtain ⟨a, -, ha⟩ := List.exists_of_findSome?_eq_some h
  obtain ⟨m, hm, hml⟩ := Option.bind_eq_some_iff.1 ha
  split at hml
  · cases hml
    exact ⟨hm, by assumption⟩
  · cases hml

/-- A lookup hangs on the lines and on the partition of the ways. -/
theorem Dev.lookup_congr {s u : Dev} {p : Place} (hk : p.kind = .own) (hlines : u.cache.lines = s.cache.lines)
    (hpart : u.reg R.fctPartition = s.reg R.fctPartition) : u.lookup p = s.lookup p := by
  have hways : u.waysOf p.facet p.searches = s.waysOf p.facet p.searches := by
    simp only [Dev.waysOf, Dev.wayClass, Dev.partition, hpart]
  simp only [u.lookup_own hk, s.lookup_own hk, Dev.line, hways, hlines]

/-- The lines with l as the line of way w of a place's set. -/
def setWay (lines : SMap Line) (p : Place) (w : Nat) (l : Line) : SMap Line := tset lines (lineKey p.facet p.set w) l

/-- The line of a place is found where it was once another line of the place takes its way. -/
theorem Dev.lookup_tset {s : Dev} {p : Place} {w : Nat} {l l' : Line} (hk : p.kind = .own) (h : s.lookup p = some (w, l))
    (hm : l'.matches p = true) :
    ({ s with cache.lines := setWay s.cache.lines p w l' } : Dev).lookup p = some (w, l') := by
  rw [s.lookup_own hk] at h
  rw [Dev.lookup_own _ hk]
  obtain ⟨before, a, after, hways, ha, hbefore⟩ := List.findSome?_eq_some_iff.1 h
  have haw : a = w := by
    obtain ⟨m, -, hm⟩ := Option.bind_eq_some_iff.1 ha
    split at hm
    · exact congrArg Prod.fst (Option.some.inj hm)
    · cases hm
  subst haw
  refine List.findSome?_eq_some_iff.2 ⟨before, a, after, hways, ?_, fun x hx => ?_⟩
  · simp [Dev.line, setWay, tget_tset, hm]
  · have hne : x ≠ a := by
      rintro rfl
      rw [hbefore x hx] at ha
      cases ha
    have hkey : lineKey p.facet p.set a ≠ lineKey p.facet p.set x := by unfold lineKey; omega
    have hline : ({ s with cache.lines := setWay s.cache.lines p a l' } : Dev).line p.facet p.set x =
        s.line p.facet p.set x := by
      rw [Dev.line, setWay, tget_tset, if_neg hkey]
      rfl
    rw [hline]
    exact hbefore x hx

theorem bitAt_withBits_same (w i : Nat) (b : Bool) : bitAt (withBits w i i (b2n b)) i = b := by
  have h := bitsOf_withBits w i i (b2n b) (Nat.le_succ i)
  rw [bitsOf, Nat.add_sub_cancel_left, Nat.pow_one] at h
  rw [bitAt, h]
  cases b <;> rfl

/-- Bits of a word of n bits that are set stay within it. -/
theorem toNat_ofNat_withBits {n : Nat} (x : BitVec n) {hi lo : Nat} (h : lo ≤ hi + 1) (hn : hi < n) (v : Nat) :
    (BitVec.ofNat n (withBits x.toNat hi lo v)).toNat = withBits x.toNat hi lo v := by
  rw [BitVec.toNat_ofNat, Nat.mod_eq_of_lt (withBits_lt h hn x.isLt)]

theorem bitAt_set {n : Nat} (x : BitVec n) {i : Nat} (hi : i < n) (b : Bool) :
    bitAt (BitVec.ofNat n (withBits x.toNat i i (b2n b))).toNat i = b := by
  rw [toNat_ofNat_withBits x (Nat.le_succ i) hi, bitAt_withBits_same]

theorem Line.isValid_setSub (l : Line) {i : Nat} (hi : i < 4) (v d : Bool) (x : Sub) : (l.setSub i v d x).isValid i = v :=
  bitAt_set l.valid hi v

theorem Line.isDirty_setSub (l : Line) {i : Nat} (hi : i < 4) (v d : Bool) (x : Sub) : (l.setSub i v d x).isDirty i = (v && d) := by
  rw [Line.isDirty, show bitAt (l.setSub i v d x).valid.toNat i = v from bitAt_set l.valid hi v,
    show bitAt (l.setSub i v d x).dirty.toNat i = d from bitAt_set l.dirty hi d]

/-- A field of n bits that is set in a word reads as the value that was put in. -/
theorem ofNat_shiftRight_set {m n hi lo : Nat} (y : BitVec m) (x : BitVec n) (hw : hi + 1 - lo = n) (h : lo ≤ hi + 1) (hm : hi < m) :
    BitVec.ofNat n ((BitVec.ofNat m (withBits y.toNat hi lo x.toNat)).toNat >>> lo) = x := by
  have hbits := bitsOf_withBits y.toNat hi lo x.toNat h
  rw [bitsOf, hw] at hbits
  apply BitVec.eq_of_toNat_eq
  rw [BitVec.toNat_ofNat, toNat_ofNat_withBits y h hm, hbits, BitVec.toNat_mod_cancel]

/-- A sub-block that is put into a sector reads as it was put. -/
theorem Sector.sub_put (y : Sector) {i : Nat} (hi : i < 4) (x : Sub) : Sector.sub (Sector.put y i x) i = x :=
  ofNat_shiftRight_set y x (by omega) (by omega) (by omega)

theorem Place.sub_lt (p : Place) : p.sub < 4 := Nat.mod_lt _ (by decide)

/-- The line of a place with new data in the place's sub-block, the newest and dirty (R124). -/
def Line.written (l : Line) (p : Place) (x : Sub) : Line := ({ l with age := 0 } : Line).setSub p.sub true true x

/-- A cached granule that is written reads as it was written, and is dirty. -/
theorem Dev.cached_written {s : Dev} {p : Place} {w : Nat} {l : Line} (hk : p.kind = .own) (h : s.lookup p = some (w, l)) (x : Sub) :
    ({ s with cache.lines := setWay s.cache.lines p w (l.written p x) } : Dev).cached p = some x ∧
      ({ s with cache.lines := setWay s.cache.lines p w (l.written p x) } : Dev).dirtyAt p = true := by
  have hm : (l.written p x).matches p = true := (Dev.lookup_line hk h).2
  have hvalid : (l.written p x).isValid p.sub = true := Line.isValid_setSub _ p.sub_lt true true x
  have hdirty : (l.written p x).isDirty p.sub = true := Line.isDirty_setSub _ p.sub_lt true true x
  have hsub : Sector.sub (l.written p x).data p.sub = x := Sector.sub_put l.data p.sub_lt x
  constructor
  · simp [Dev.cached, Dev.lookup_tset hk h hm, hvalid, hsub]
  · simp [Dev.dirtyAt, Dev.lookup_tset hk h hm, hdirty]

end Sys2Proof.Machine
end

section
/-! PROOFS. What an event and the flags of an operation leave of the registers. -/

namespace Sys2Proof.Machine

/-- The registers of the counters of chapter 22 (R796). -/
abbrev counterReg (off : Nat) : Prop := 0x1A0000 ≤ off ∧ off < 0x1C0000

/-- u is s but for registers, of which those outside P are as they were. -/
def Dev.RegsChange (s u : Dev) (P : Nat → Prop) : Prop := (∃ c, u = { s with csr := c }) ∧ ∀ off, ¬ P off → u.reg off = s.reg off

namespace Dev.RegsChange

variable {P : Nat → Prop} {s t u : Dev}

theorem refl (s : Dev) : s.RegsChange s P := ⟨⟨s.csr, rfl⟩, fun _ _ => rfl⟩

theorem trans (h : s.RegsChange t P) (h' : t.RegsChange u P) : s.RegsChange u P := by
  obtain ⟨⟨c, hc⟩, hreg⟩ := h
  obtain ⟨⟨c', hc'⟩, hreg'⟩ := h'
  exact ⟨⟨c', by rw [hc', hc]⟩, fun off hoff => (hreg' off hoff).trans (hreg off hoff)⟩

theorem setReg (h : s.RegsChange t P) (off v : Nat) (hoff : P off) : s.RegsChange (t.setReg off v) P := by
  refine h.trans ⟨⟨_, rfl⟩, fun a ha => t.reg_setReg_other off a v ?_⟩
  rintro rfl
  exact ha hoff

theorem put (h : s.RegsChange t P) (f : Field) (v : Nat) (hoff : P f.off) : s.RegsChange (t.put f v) P := h.setReg f.off _ hoff

theorem raiseIf (h : s.RegsChange t P) (b : Bool) (f : Field) (hoff : P f.off) : s.RegsChange (t.raiseIf b f) P := by
  cases b
  · exact h
  · exact h.put f 1 hoff

/-- The flags of an operation are in CRD_ERR (R431). -/
theorem chordFlags (h : s.RegsChange t P) (x : ArithFlags) (hoff : P R.crdErr) : s.RegsChange (t.chordFlags x) P :=
  ((h.raiseIf _ F.crdErr_OVERFLOW hoff).raiseIf _ F.crdErr_NAN hoff).raiseIf _ F.crdErr_COUNT_SAT hoff

theorem bump (h : s.RegsChange t P) (f : Field) (n : Nat) (hoff : P f.off) : s.RegsChange (t.bump f n) P := h.put f _ hoff

theorem each {α : Type} {f : Dev → α → Dev} {l : List α} (h : s.RegsChange t P) (hf : ∀ u : Dev, ∀ a ∈ l, u.RegsChange (f u a) P) :
    s.RegsChange (t.each l f) P := by
  induction l generalizing t with
  | nil => exact h
  | cons a l ih => exact ih (h.trans (hf t a List.mem_cons_self)) fun u b hb => hf u b (List.mem_cons_of_mem _ hb)

/-- A counter that counts changes its value and its group's overflow bits (R773). -/
theorem countAdd (h : s.RegsChange t P) (hP : ∀ off, counterReg off → P off) {g k : Nat} (n : Nat) (hg : g < 12) (hk : k < 8) :
    s.RegsChange (t.countAdd g k n) P := by
  have hval : P (F.cntVal_VALUE g k).off :=
    hP _ ⟨by simp only [F.cntVal_VALUE, R.cntVal]; omega, by simp only [F.cntVal_VALUE, R.cntVal]; omega⟩
  have hovf : P (R.cntOvf g) := hP _ ⟨by simp only [R.cntOvf]; omega, by simp only [R.cntOvf]; omega⟩
  unfold Dev.countAdd
  dsimp only
  split
  · exact (h.put _ _ hval).setReg _ _ hovf
  · exact h.put _ _ hval

end Dev.RegsChange

/-- A selection register selects for one of 12 groups of eight counters (R796). -/
theorem selCounter_lt {off : Nat} {gk : Nat × Nat} (h : selCounter off = some gk) : gk.1 < 12 ∧ gk.2 < 8 := by
  unfold selCounter at h
  split at h
  · rename_i hoff
    simp only [Bool.and_eq_true, decide_eq_true_eq] at hoff
    dsimp only at h
    split at h
    · rename_i hw
      simp only [Bool.and_eq_true, decide_eq_true_eq] at hw
      obtain rfl := Option.some.inj h
      exact ⟨by dsimp only; omega, by dsimp only; omega⟩
    · cases h
  · cases h

/-- An event counts in the counters that select it. -/
theorem Dev.RegsChange.event {P : Nat → Prop} {s t : Dev} (h : s.RegsChange t P) (hP : ∀ off, counterReg off → P off) (code unit : Nat)
    (hue : Option Hue) (n : Nat) : s.RegsChange (t.event code unit hue n) P := by
  refine h.each fun u e he => ?_
  obtain ⟨x, -, hx⟩ := List.mem_filterMap.1 (List.mem_filter.1 he).1
  obtain ⟨gk, hgk, rfl⟩ := Option.map_eq_some_iff.1 hx
  obtain ⟨hg, hk⟩ := selCounter_lt hgk
  exact (Dev.RegsChange.refl u).countAdd hP n hg hk

/-- The registers that an ATOMIC may change: the counters, CRD_ERR and CRD_COUNT (R404, R431, R433). -/
abbrev atomicReg (off : Nat) : Prop := counterReg off ∨ off = R.crdErr ∨ off = R.crdCount

/-- An ATOMIC on its unit: its flags, its count and its event (R404, R433). -/
def Dev.atomicCounted (s : Dev) (x : ArithFlags) (unit : Nat) (hue : Option Hue) : Dev :=
  ((s.chordFlags x).bump F.crdCount_ATOMICS).event evChord unit hue

theorem Dev.atomicCounted_regs (s : Dev) (x : ArithFlags) (unit : Nat) (hue : Option Hue) :
    s.RegsChange (s.atomicCounted x unit hue) atomicReg :=
  (((Dev.RegsChange.refl s).chordFlags x (Or.inr (Or.inl rfl))).bump F.crdCount_ATOMICS 1 (Or.inr (Or.inr rfl))).event
    (fun _ h => Or.inl h) evChord unit hue 1

theorem Dev.atomicCounted_count (s : Dev) (x : ArithFlags) (unit : Nat) (hue : Option Hue) :
    (s.atomicCounted x unit hue).get F.crdCount_ATOMICS = min (s.get F.crdCount_ATOMICS + 1) F.crdCount_ATOMICS.max := by
  have hflags := ((Dev.RegsChange.refl s).chordFlags (P := fun off => off = R.crdErr) x rfl).2 R.crdCount (by decide)
  have hevent := ((Dev.RegsChange.refl ((s.chordFlags x).bump F.crdCount_ATOMICS)).event (P := counterReg) (fun _ h => h)
    evChord unit hue 1).2 R.crdCount (by decide)
  calc (s.atomicCounted x unit hue).get F.crdCount_ATOMICS
      = ((s.chordFlags x).bump F.crdCount_ATOMICS).get F.crdCount_ATOMICS := Dev.get_congr hevent
    _ = min ((s.chordFlags x).get F.crdCount_ATOMICS + 1) F.crdCount_ATOMICS.max := Dev.get_bump_one _ _ (by decide) (by decide)
    _ = min (s.get F.crdCount_ATOMICS + 1) F.crdCount_ATOMICS.max := by rw [Dev.get_congr (f := F.crdCount_ATOMICS) hflags]

end Sys2Proof.Machine
end

section
/-! PROOFS. The transaction of a lone request's one granule, at a home where no agent holds the granule. -/

namespace Sys2Proof.Machine

/-- An entry of one 64 B with no answer yet, not urgent and with no grant. -/
structure ReqEntry.One (e : ReqEntry) : Prop extends e.Unanswered where
  one : e.n = 1
  urgent : e.r.urgent = false
  data : ∃ x, e.data = [x]
  grant : e.grant = 0
  onDat : e.onDat = false

/-- A transaction of such an entry's granule at p, that no agent's home state bears on. -/
structure Txn.Direct (t : Txn) (e : ReqEntry) (p : Place) : Prop where
  cause : t.cause = .request e.id 0
  op : t.op = e.op
  place : t.place = p
  before : t.before = none
  after : t.after = none
  awaiting : t.awaiting = []
  replies : t.replies = []
  dirtyIn : t.dirtyIn = none
  code : t.code = .ok
  answered : t.answered = false
  filled : t.filled = false
  ackDue : t.ackDue = false

/-- No array is upset, nothing is owed to a stack or a buddy, and no agent holds the granule at p, which is this slice's own and
unshadowed. -/
structure Calm (s : Dev) (p : Place) : Prop where
  tags : s.cache.tagUpset = []
  dirs : s.cache.dirUpset = []
  data : s.cache.dataBad = []
  puts : s.shadow.puts = []
  wbs : s.cache.wbs = []
  kind : p.kind = .own
  shadowed : p.shadowed = false
  home : s.home p = none

/-- s with one transaction open, for the one request of its table: its registers, lines, entry and transaction. -/
def Dev.inFlight (s : Dev) (c : SMap Word) (lines : SMap Line) (e : ReqEntry) (t : Txn) : Dev :=
  { s with csr := c, nextId := s.nextId + 1, cache.lines := lines, cache.reqs := [e], cache.txns := [t], cache.parked := [] }

/-- s with its request answered by a message: its registers and lines. -/
def Dev.served (s : Dev) (c : SMap Word) (lines : SMap Line) (m : Msg) : Dev :=
  { s with csr := c, nextId := s.nextId + 1, outbox := s.outbox ++ [m], cache.lines := lines, cache.reqs := []
           cache.txns := [], cache.parked := [] }

/-- The response to a request of one 64 B: an ATOMIC's carries the old value (R231). -/
def ReqEntry.okResp (e : ReqEntry) (held : Option Sub) : Msg :=
  .resp e.r.src e.r.txid 0 [.ok] 0 0 (if e.op = .atomic then held.toList else [])

section

variable {s : Dev} {c : SMap Word} {lines : SMap Line} {e : ReqEntry} {t t' : Txn} {p : Place}

theorem Dev.updTxn_inFlight (h : t'.id = t.id) (f : Txn → Txn) :
    (s.inFlight c lines e t').updTxn t.id f = s.inFlight c lines e (f t') := by
  simp [Dev.updTxn, Dev.inFlight, h]

theorem Dev.setHome_none {u : Dev} (h : u.home p = none) (way : Option Nat) : u.setHome p none way = u := by
  have hdir : u.dirLookup p = none := Option.map_eq_none_iff.1 h
  unfold Dev.setHome
  split
  · simp only [hdir]
  · rfl

/-- The answer of a direct transaction is the last of its request: the response leaves. -/
theorem Dev.txnAnswer_inFlight (he : e.One) (hop : e.op = .write ∨ e.op = .atomic) (ht : t.Direct e p) (hstage : t.stage = .owed)
    (hf : ({ s with csr := c } : Dev).fenced e.r.src.toNat = false) :
    (s.inFlight c lines e t).txnAnswer t =
      { s.inFlight c lines e t with cache.reqs := [], outbox := s.outbox ++ [e.okResp t.held] } := by
  obtain ⟨x, hx⟩ := he.data
  have hans : ∀ held : Option Sub, ({ e with codes := e.codes.set 0 (some .ok), data := e.data.set 0 (held.getD 0)
                                             onDat := e.onDat || held.isSome } : ReqEntry).Answered .ok (held.getD 0) := fun held =>
    ⟨he.one, he.sent, he.view, he.urgent, by simp [he.codes, he.one], by simp [hx], by decide⟩
  have hstay : ∀ u ∈ (s.inFlight c lines e t).cache.txns, u.stage ≠ .leave := by
    intro u hu
    rw [List.mem_singleton.1 hu, hstage]
    decide
  have hfin := fun held => Dev.finish_of_lone (s := s.inFlight c lines e t) rfl (hans held) hf hstay
  rcases hop with hop | hop
  · simp only [Dev.txnAnswer, ht.cause, ht.op, hop, Op.grants, ht.code, Bool.false_eq_true, if_false, hfin]
    simp [he.onDat, he.grant, ReqEntry.okResp, hop]
    rfl
  · simp only [Dev.txnAnswer, ht.cause, ht.op, hop, Op.grants, ht.code, Bool.false_eq_true, if_false, beq_self_eq_true, if_true, hfin]
    cases hheld : t.held <;> simp [he.onDat, he.grant, ReqEntry.okResp, hop, codeData] <;> rfl

/-- A direct transaction ends with its answer, and its granule keeps its home state: none (R221, R241). -/
theorem Dev.txnEnd_inFlight (hs : Calm s p) (he : e.One) (hop : e.op = .write ∨ e.op = .atomic) (ht : t.Direct e p)
    (hstage : t.stage = .owed) (hf : ({ s with csr := c } : Dev).fenced e.r.src.toNat = false) :
    (s.inFlight c lines e t).txnEnd t = s.served c lines (e.okResp t.held) := by
  have hgrants : t.op.grants = false := by rw [ht.op]; rcases hop with h | h <;> rw [h] <;> rfl
  have hans := Dev.txnAnswer_inFlight (lines := lines) he hop ht hstage hf
  generalize hu : ({ s.inFlight c lines e t with cache.reqs := [], outbox := s.outbox ++ [e.okResp t.held] } : Dev) = u at hans
  have hhome : u.home t.place = none := by rw [← hu, ht.place]; exact hs.home
  have hreq : ∀ i, u.unitOwed e.id i = false := by rw [← hu]; exact fun i => rfl
  have hdrop : u.dropTxn t.id = s.served c lines (e.okResp t.held) := by
    rw [← hu]
    simp [Dev.dropTxn, Dev.inFlight, Dev.served]
  simp only [Dev.txnEnd, ht.cause, ht.answered, ht.after, Dev.withoutDead, Option.bind_none, hans, Dev.txnLeave, hgrants,
    Bool.false_and, Bool.false_eq_true, if_false, hreq, hdrop, Dev.setHome_none hhome]

/-- Such a transaction owes nothing beside its answer. -/
theorem Dev.txnOwed_inFlight (hs : Calm s p) (he : e.One) (hop : e.op = .write ∨ e.op = .atomic) (ht : t.Direct e p) (hid : t'.id = t.id)
    (hf : ({ s with csr := c } : Dev).fenced e.r.src.toNat = false) :
    (s.inFlight c lines e t').txnOwed t = s.served c lines (e.okResp t.held) := by
  have hputs : ∀ u, (s.inFlight c lines e u).shadow.puts = [] := fun _ => hs.puts
  have hwbs : ∀ u, (s.inFlight c lines e u).cache.wbs = [] := fun _ => hs.wbs
  have hnot : ∀ u, (s.inFlight c lines e u).owing { t with stage := .owed } = false := fun u => by
    simp [Dev.owing, hputs, hwbs, ht.awaiting, ht.ackDue]
  simp only [Dev.txnOwed, Dev.updTxn_inFlight hid, hnot, Bool.false_eq_true, if_false]
  exact Dev.txnEnd_inFlight (t := { t with stage := .owed }) hs he hop { ht with } rfl hf

/-- The result of a direct transaction is placed dirty in its line, and it ends (R124, R229). -/
theorem Dev.txnStore_inFlight (hs : Calm s p) (he : e.One) (hop : e.op = .write ∨ e.op = .atomic) (ht : t.Direct e p) (hid : t'.id = t.id)
    (hf : ({ s with csr := c } : Dev).fenced e.r.src.toNat = false) {w : Nat} {l : Line}
    (hlook : (s.inFlight c lines e t').lookup p = some (w, l)) (x : Sub) (resp : Option Sub) :
    (s.inFlight c lines e t').txnStore t x resp =
      s.served c (setWay lines p w (l.written p x)) (e.okResp resp) := by
  have hquota : ∀ u : Dev, u.quotaFull p = false := fun u => by simp [Dev.quotaFull, hs.shadowed]
  have hplace : ∀ cls, (s.inFlight c lines e t').placeDirty p cls false x =
      .ok (s.inFlight c (setWay lines p w (l.written p x)) e t') := fun cls => by
    simp only [Dev.placeDirty, hquota, hlook, Bool.false_eq_true, if_false]
    simp [Dev.setLine, Dev.heal, Dev.inFlight, Line.written, setWay, hs.tags, hs.data, tdel]
  simp only [Dev.txnStore, ht.place, ht.filled, hplace, Dev.updTxn_inFlight hid, Dev.afterDirty, hs.shadowed, Bool.not_false, if_true]
  exact Dev.txnOwed_inFlight hs he hop { ht with place := rfl, dirtyIn := rfl, filled := rfl } rfl hf

/-- A hit makes its line the newest (R120). -/
theorem Dev.touch_inFlight (hs : Calm s p) {w : Nat} {l : Line} (hlook : (s.inFlight c lines e t).lookup p = some (w, l))
    (hvalid : l.isValid p.sub = true) :
    (s.inFlight c lines e t).touch p = s.inFlight c (setWay lines p w { l with age := 0 }) e t := by
  obtain ⟨hline, -⟩ := Dev.lookup_line hs.kind hlook
  have hsome : (l.valid == 0) = false := by
    rw [beq_eq_false_iff_ne]
    intro h0
    rw [Line.isValid, h0] at hvalid
    simp [bitAt] at hvalid
  simp only [Dev.touch, Dev.updAt, hlook, Dev.updLine, hline, hsome, Bool.false_and, Bool.false_eq_true, if_false]
  simp [Dev.setLine, Dev.inFlight, setWay, hs.tags, tdel]

/-- A granule that the cache holds is read there: its line is the newest, and the hit counts (R120, R123). -/
theorem Dev.txnFetch_inFlight (hs : Calm s p) (ht : t.Direct e p) (hstage : t.stage ≠ .base) {w : Nat} {l : Line}
    (hlook : (s.inFlight c lines e t').lookup p = some (w, l)) (hvalid : l.isValid p.sub = true) :
    (s.inFlight c lines e t').txnFetch t =
      ((s.inFlight c (setWay lines p w { l with age := 0 }) e t').event evReadHit p.facet
        ((s.inFlight c lines e t').txnHue t)).txnBase t (some (Sector.sub l.data p.sub)) := by
  have hcheck : (s.inFlight c lines e t').readCheck p = s.inFlight c lines e t' := by
    have hdata : (s.inFlight c lines e t').cache.dataBad = [] := hs.data
    simp [Dev.readCheck, hlook, Dev.dataCheck, hdata, tget]
  have hcached : (s.inFlight c lines e t').cached p = some (Sector.sub l.data p.sub) := by
    simp [Dev.cached, hlook, hvalid]
  have hfirst : (t.stage == Stage.base) = false := beq_eq_false_iff_ne.2 hstage
  simp only [Dev.txnFetch, ht.place, hfirst, hcheck, hcached, Dev.touch_inFlight hs hlook hvalid, Bool.false_eq_true, if_false]

/-- A change of registers leaves the transaction in flight. -/
theorem Dev.inFlight_of_regsChange {P : Nat → Prop} {u : Dev} (h : (s.inFlight c lines e t).RegsChange u P) :
    ∃ c', u = s.inFlight c' lines e t ∧ ∀ off, ¬ P off → ({ s with csr := c' } : Dev).reg off = ({ s with csr := c } : Dev).reg off := by
  obtain ⟨⟨c', rfl⟩, hreg⟩ := h
  exact ⟨c', rfl, hreg⟩

/-- The pulled data of the entry, and the mask of a WRITE (R102). -/
theorem Dev.writeInput_inFlight (ht : t.Direct e p) {x : Sub} (hx : e.data = [x]) :
    (s.inFlight c lines e t').writeInput t =
      (x, if e.op == .write && e.r.len == 0 then e.r.mask.toNat else fullMask.toNat) := by
  have hreq : (s.inFlight c lines e t').req e.id = some e := Dev.req_of_lone rfl
  simp only [Dev.writeInput, ht.cause, hreq, hx]
  rfl

end

/-- The bytes that a WRITE leaves: those that its mask enables are its data's (R124). -/
def writtenSub (mask : BitVec 64) (old new : Sub) : Sub := if mask = fullMask then new else mergeMask mask.toNat old new

section

variable {s : Dev} {c : SMap Word} {lines : SMap Line} {e : ReqEntry} {t t' : Txn} {p : Place} {w : Nat} {l : Line}

/-- A lookup in flight finds what it finds in the lines, where the partition of the ways is as it was. -/
theorem Dev.lookup_inFlight (hs : Calm s p) (hpart : ({ s with csr := c } : Dev).reg R.fctPartition = s.reg R.fctPartition) :
    (s.inFlight c lines e t).lookup p = ({ s with cache.lines := lines } : Dev).lookup p :=
  Dev.lookup_congr hs.kind rfl hpart

/-- What a served request has done to its granule and to registers: those of P may differ, and the granule reads as v. -/
structure ServedWith (s : Dev) (p : Place) (P : Nat → Prop) (c : SMap Word) (lines : SMap Line) (v : Sub) : Prop where
  reg : ∀ off, ¬ P off → ({ s with csr := c } : Dev).reg off = s.reg off
  cached : ({ s with cache.lines := lines } : Dev).cached p = some v

/-- A WRITE of a cached granule: its line is written, and it is answered OK (R124, R229). -/
theorem Dev.txnServe_write (hs : Calm s p) (he : e.One) (hop : e.op = .write) (hlen : e.r.len = 0) (ht : t.Direct e p)
    (hid : t'.id = t.id) (hstage : t.stage ≠ .base) (hf : s.fenced e.r.src.toNat = false) (hlook : s.lookup p = some (w, l))
    (hvalid : l.isValid p.sub = true) {x : Sub} (hx : e.data = [x]) :
    ∃ c' lines', (s.inFlight s.csr s.cache.lines e t').txnServe t = s.served c' lines' (e.okResp none) ∧
      ServedWith s p counterReg c' lines' (writtenSub e.r.mask (Sector.sub l.data p.sub) x) ∧
      ({ s with cache.lines := lines' } : Dev).dirtyAt p = true := by
  have hin : ∀ c lines, (s.inFlight c lines e t').writeInput t = (x, e.r.mask.toNat) := fun c lines => by
    rw [Dev.writeInput_inFlight ht hx, hop, hlen]
    rfl
  have htyped : (s.inFlight s.csr s.cache.lines e t').typedTxn t = false := by
    simp [Dev.typedTxn, ht.cause, Dev.req_of_lone (s := s.inFlight s.csr s.cache.lines e t') rfl, he.view]
  have hfull : (e.r.mask.toNat == fullMask.toNat) = decide (e.r.mask = fullMask) := by
    rw [Bool.eq_iff_iff, beq_iff_eq, decide_eq_true_iff, BitVec.toNat_inj]
  by_cases hmask : e.r.mask = fullMask
  · obtain ⟨hc, hd⟩ := Dev.cached_written hs.kind hlook x
    refine ⟨s.csr, _, ?_, ⟨fun _ _ => rfl, ?_⟩, hd⟩
    · simp only [Dev.txnServe, ht.op, hop, waitsFill, htyped, Dev.needsBase, hin, hmask, bne_self_eq_false, Bool.false_and,
        Bool.false_eq_true, if_false, Dev.txnApply, ht.cause, beq_self_eq_true, if_true]
      exact Dev.txnStore_inFlight hs he (Or.inl hop) ht hid hf hlook x none
    · rw [hc, writtenSub, if_pos hmask]
  · have hlook1 := Dev.lookup_tset (l' := { l with age := 0 }) hs.kind hlook (Dev.lookup_line hs.kind hlook).2
    obtain ⟨hc, hd⟩ := Dev.cached_written hs.kind hlook1 (mergeMask e.r.mask.toNat (Sector.sub l.data p.sub) x)
    obtain ⟨c1, hev, hreg⟩ := Dev.inFlight_of_regsChange
      ((Dev.RegsChange.refl (s.inFlight s.csr (setWay s.cache.lines p w { l with age := 0 }) e t')).event
        (P := counterReg) (fun _ h => h) evReadHit p.facet ((s.inFlight s.csr s.cache.lines e t').txnHue t) 1)
    have hf1 : ({ s with csr := c1 } : Dev).fenced e.r.src.toNat = false := (Dev.fenced_congr (hreg _ (by decide)) _).trans hf
    refine ⟨c1, _, ?_, ⟨hreg, ?_⟩, hd⟩
    · simp only [Dev.txnServe, ht.op, hop, waitsFill, htyped, Dev.needsBase, hin, hfull, hmask, bne, decide_false, Bool.not_false,
        Bool.false_and, Bool.false_eq_true, if_false, if_true, ht.dirtyIn]
      rw [Dev.txnFetch_inFlight hs ht hstage hlook hvalid, hev]
      simp only [Dev.txnBase, Dev.txnApply, ht.op, hop, ht.cause, hin, hfull, hmask, decide_false, Bool.false_eq_true, if_false]
      exact Dev.txnStore_inFlight hs he (Or.inl hop) ht hid hf1 ((Dev.lookup_inFlight hs (hreg _ (by decide))).trans hlook1) _ none
    · rw [hc, writtenSub, if_neg hmask]

/-- The lines once an ATOMIC has run on the line of its granule, in way w: written where there is a new value (R402). -/
def atomicLines (lines : SMap Line) (p : Place) (w : Nat) (l : Line) (new : Option Sub) : SMap Line :=
  new.elim lines fun v => setWay lines p w (l.written p v)

/-- An ATOMIC that has its granule's value: the new value is placed where there is one, and the old one is answered (R231, R402, R404). -/
theorem Dev.txnBase_atomic (hs : Calm s p) (he : e.One) (hop : e.op = .atomic) (ht : t.Direct e p) (hid : t'.id = t.id)
    (hf : ({ s with csr := c } : Dev).fenced e.r.src.toNat = false) {x : Sub} (hx : e.data = [x])
    (hpart : ({ s with csr := c } : Dev).reg R.fctPartition = s.reg R.fctPartition)
    (hlook : ({ s with cache.lines := lines } : Dev).lookup p = some (w, l)) (y : Sub) :
    ∃ c', (s.inFlight c lines e t').txnBase t (some y) =
        s.served c' (atomicLines lines p w l (atomicApply e.r.arg x y).1) (e.okResp (some (atomicApply e.r.arg x y).2.1)) ∧
      (∀ off, ¬ atomicReg off → ({ s with csr := c' } : Dev).reg off = ({ s with csr := c } : Dev).reg off) ∧
      ({ s with csr := c' } : Dev).get F.crdCount_ATOMICS =
        min (({ s with csr := c } : Dev).get F.crdCount_ATOMICS + 1) F.crdCount_ATOMICS.max := by
  have hin : (s.inFlight c lines e t').writeInput t = (x, fullMask.toNat) := by
    rw [Dev.writeInput_inFlight ht hx, hop]
    rfl
  have hreq : (s.inFlight c lines e t').req e.id = some e := Dev.req_of_lone rfl
  generalize hr : atomicApply e.r.arg x y = r
  obtain ⟨c', hev, hreg⟩ := Dev.inFlight_of_regsChange
    ((s.inFlight c lines e t').atomicCounted_regs r.2.2 p.facet ((s.inFlight c lines e t').txnHue t))
  have hcount := (s.inFlight c lines e t').atomicCounted_count r.2.2 p.facet ((s.inFlight c lines e t').txnHue t)
  rw [hev] at hcount
  have hupd : (s.inFlight c' lines e t').updReq e.id (fun e => { e with data := e.data.set 0 r.2.1 }) =
      s.inFlight c' lines { e with data := e.data.set 0 r.2.1 } t' := Dev.updReq_of_lone rfl _
  have he2 : ({ e with data := e.data.set 0 r.2.1 } : ReqEntry).One := { he with data := ⟨r.2.1, by simp [hx]⟩ }
  have ht2 : t.Direct { e with data := e.data.set 0 r.2.1 } p := { ht with }
  have hresp : ∀ held, ({ e with data := e.data.set 0 r.2.1 } : ReqEntry).okResp held = e.okResp held := fun _ => rfl
  have hf2 : ({ s with csr := c' } : Dev).fenced e.r.src.toNat = false := (Dev.fenced_congr (hreg _ (by decide)) _).trans hf
  have hlook2 : (s.inFlight c' lines { e with data := e.data.set 0 r.2.1 } t').lookup p = some (w, l) :=
    (Dev.lookup_inFlight hs ((hreg _ (by decide)).trans hpart)).trans hlook
  refine ⟨c', ?_, hreg, hcount⟩
  rw [Dev.atomicCounted] at hev
  simp only [Dev.txnBase, Dev.txnApply, ht.op, hop, ht.cause, hin, hreq, ht.dirtyIn, Option.map_some, Option.getD_some, hr, ht.place,
    Option.isSome_none, Bool.false_eq_true, if_false]
  rw [hev, hupd]
  cases hv : r.1 with
  | some v => exact Dev.txnStore_inFlight hs he2 (Or.inr hop) ht2 hid hf2 hlook2 v _
  | none =>
    exact Dev.txnOwed_inFlight (t := { t with code := .ok, held := some r.2.1 }) hs he2 (Or.inr hop) { ht2 with code := rfl } hid hf2

/-- An ATOMIC of a cached granule: the hit is read, and the operation runs on what it reads (R231, R402 to R404). -/
theorem Dev.txnServe_atomic (hs : Calm s p) (he : e.One) (hop : e.op = .atomic) (ht : t.Direct e p) (hid : t'.id = t.id)
    (hstage : t.stage ≠ .base) (hf : s.fenced e.r.src.toNat = false) (hlook : s.lookup p = some (w, l))
    (hvalid : l.isValid p.sub = true) {x y : Sub} (hx : e.data = [x]) (hy : Sector.sub l.data p.sub = y) :
    ∃ c' lines', (s.inFlight s.csr s.cache.lines e t').txnServe t =
        s.served c' lines' (e.okResp (some (atomicApply e.r.arg x y).2.1)) ∧
      ServedWith s p atomicReg c' lines' ((atomicApply e.r.arg x y).1.getD y) ∧
      ({ s with csr := c' } : Dev).get F.crdCount_ATOMICS = min (s.get F.crdCount_ATOMICS + 1) F.crdCount_ATOMICS.max := by
  have hlook1 := Dev.lookup_tset (l' := { l with age := 0 }) hs.kind hlook (Dev.lookup_line hs.kind hlook).2
  obtain ⟨c1, hev, hreg1⟩ := Dev.inFlight_of_regsChange
    ((Dev.RegsChange.refl (s.inFlight s.csr (setWay s.cache.lines p w { l with age := 0 }) e t')).event
      (P := counterReg) (fun _ h => h) evReadHit p.facet ((s.inFlight s.csr s.cache.lines e t').txnHue t) 1)
  obtain ⟨c2, hbase, hreg2, hcount⟩ := Dev.txnBase_atomic hs he hop ht hid
    ((Dev.fenced_congr (hreg1 _ (by decide)) _).trans hf) hx (hreg1 _ (by decide)) hlook1 y
  refine ⟨c2, atomicLines (setWay s.cache.lines p w { l with age := 0 }) p w { l with age := 0 } (atomicApply e.r.arg x y).1, ?_,
    ⟨fun off hoff => (hreg2 off hoff).trans (hreg1 off fun h => hoff (Or.inl h)), ?_⟩,
    hcount.trans (by rw [Dev.get_congr (f := F.crdCount_ATOMICS) (hreg1 _ (by decide))])⟩
  · simp only [Dev.txnServe, ht.op, hop, waitsFill, ht.dirtyIn, Bool.false_and, Bool.false_eq_true, if_false]
    rw [Dev.txnFetch_inFlight hs ht hstage hlook hvalid, hev, hy]
    exact hbase
  · cases (atomicApply e.r.arg x y).1 with
    | some v => exact (Dev.cached_written hs.kind hlook1 v).1
    | none =>
      have hvalid1 : ({ l with age := 0 } : Line).isValid p.sub = true := hvalid
      simp only [Dev.cached, atomicLines, Option.elim_none, hlook1, hvalid1, hy, if_true, Option.getD_none]

end

end Sys2Proof.Machine
end

section
/-! PROOFS. A request of one 64 B, with its write data here: its one part opens its transaction at once. -/

namespace Sys2Proof.Machine

section

variable {s : Dev} {e : ReqEntry} {p : Place}

/-- An array read finds nothing amiss where no tag and no directory entry is upset. -/
theorem Dev.readSets_of_sound {u : Dev} (htags : u.cache.tagUpset = []) (hdirs : u.cache.dirUpset = []) (p : Place) :
    u.readSets p = u := by
  simp [Dev.readSets, Dev.readTags, Dev.readDirs, htags, hdirs, Dev.each_nil]

/-- The transaction that a request's one granule opens at p, where nothing is to be snooped. -/
def Dev.direct (s : Dev) (e : ReqEntry) (p : Place) (cls : Nat) (aged strict prefetch : Bool) : Txn :=
  { id := s.nextId, cause := .request e.id 0, op := e.op, src := e.r.src, place := p, stage := .snoop, before := none, after := none
    awaiting := [], replies := [], held := none, dirtyIn := none, grant := 0, code := .ok, podWait := [], answered := false, cls := cls
    aged := aged, strict := strict, prefetch := prefetch, filled := false, dirWay := none, since := s.now, suspect := []
    ackTxid := e.r.txid, broadcast := false, ackDue := false }

theorem Dev.direct_direct (s : Dev) (e : ReqEntry) (p : Place) (cls : Nat) (aged strict prefetch : Bool) :
    (s.direct e p cls aged strict prefetch).Direct e p :=
  ⟨rfl, rfl, rfl, rfl, rfl, rfl, rfl, rfl, rfl, rfl, rfl, rfl⟩

/-- Where no agent holds the granule, the decision leaves the transaction as it is, and it is served (R220, R223). -/
theorem Dev.advance_direct (hs : Calm s p) (hop : e.op = .write ∨ e.op = .atomic) (hscope : e.op = .atomic → argScope e.r.arg ≠ 3)
    {t : Txn} (ht : t.Direct e p) (hstage : t.stage = .snoop) (hgrant : t.grant = 0) (c : SMap Word) (lines : SMap Line) :
    (s.inFlight c lines e t).advance t.id = (s.inFlight c lines e t).txnServe t := by
  have htxn : (s.inFlight c lines e t).txn t.id = some t := by simp [Dev.txn, Dev.inFlight]
  have hadopt : p.adopted = false := by simp [Place.adopted, hs.kind]
  have hdead : (s.inFlight c lines e t).deadOwnerOf t = none := by simp [Dev.deadOwnerOf, ht.before]
  have hreq : (s.inFlight c lines e t).req e.id = some e := Dev.req_of_lone rfl
  have hself : ({ t with op := e.op, place := p, stage := .snoop, after := none, awaiting := [], grant := 0, dirtyIn := none } : Txn) =
      t := by
    simp [← ht.after, ← hgrant, ← ht.dirtyIn, ← ht.op, ← ht.place, ← hstage, ← ht.awaiting]
  have hplace : (s.inFlight c lines e t).txnPlace t = (s.inFlight c lines e t).txnServe t := by simp only [Dev.txnPlace, ht.dirtyIn]
  have hreply : (s.inFlight c lines e t).ownerReply t = { agent := 0, final := 0, data := none, notPresent := true } := by
    simp [Dev.ownerReply, ht.place, ht.before, hadopt]
  have hstate : (s.inFlight c lines e t).decideState t = none := by simp [Dev.decideState, ht.place, ht.before, hadopt]
  have hdec : decide_ e.op none t.src p.shadowed { agent := 0, final := 0, data := none, notPresent := true } = {} := by
    rcases hop with hop | hop <;> rw [hop] <;> rfl
  have htakes : takesBase e.op = true ∧ (e.op == .writeBack) = false := by
    rcases hop with hop | hop <;> rw [hop] <;> exact ⟨rfl, rfl⟩
  have hpod : (s.inFlight c lines e t).txnPod t = (s.inFlight c lines e t).txnServe t := by
    rw [← hplace]
    rcases hop with hop | hop
    · simp [Dev.txnPod, ht.cause, ht.op, hop]
    · simp [Dev.txnPod, ht.cause, ht.op, hop, hreq, hscope hop]
  simp only [Dev.advance, htxn, hstage, ht.awaiting, List.isEmpty_nil, if_true, Dev.txnDecide, hdead, ht.place, hadopt, Bool.false_and,
    ht.op, hreply, hstate, hdec, htakes, Bool.false_eq_true, if_false, hself, hpod]

/-- A request that grants nothing opens its granule's transaction with nothing to snoop, where no agent holds the granule. -/
theorem Dev.openTxn_of_none {u : Dev} (hsets : u.readSets p = u) (hphase : u.phase ≠ .eclipse) (hk : p.kind = .own)
    (hhome : u.home p = none) (hgrants : e.op.grants = false) (hreq : u.req e.id = some e) (cls : Nat) (aged strict prefetch : Bool) :
    u.openTxn (.request e.id 0) e.op e.r.src p cls aged strict prefetch =
      ({ u with nextId := u.nextId + 1, cache.txns := u.cache.txns ++ [u.direct e p cls aged strict prefetch] } : Dev).advance
        u.nextId := by
  have hadopt : p.adopted = false := by simp [Place.adopted, hk]
  have hlit : (u.phase == .eclipse) = false := beq_eq_false_iff_ne.2 hphase
  unfold Dev.openTxn
  simp only [hsets, hlit, hadopt, hhome, hgrants, hreq, snoopsFor, Bool.false_eq_true, if_false, Bool.false_and, List.filter_nil]
  rfl

/-- The one granule of a request opens its transaction, which is served at once. -/
theorem Dev.openTxn_direct (hs : Calm s p) (hop : e.op = .write ∨ e.op = .atomic) (hscope : e.op = .atomic → argScope e.r.arg ≠ 3)
    (hphase : s.phase ≠ .eclipse) (htxns : s.cache.txns = []) (cls : Nat) (aged strict prefetch : Bool) :
    ∃ t : Txn, ({ s with cache.reqs := [e], cache.parked := [] } : Dev).openTxn (.request e.id 0) e.op e.r.src p cls aged strict
        prefetch = (s.inFlight s.csr s.cache.lines e t).txnServe t ∧ t.Direct e p ∧ t.stage ≠ .base := by
  have hgrants : e.op.grants = false := by rcases hop with hop | hop <;> rw [hop] <;> rfl
  have ht := s.direct_direct e p cls aged strict prefetch
  refine ⟨s.direct e p cls aged strict prefetch, ?_, ht, Stage.noConfusion⟩
  have hopen := Dev.openTxn_of_none (u := { s with cache.reqs := [e], cache.parked := [] }) (e := e)
    (Dev.readSets_of_sound (u := { s with cache.reqs := [e], cache.parked := [] }) hs.tags hs.dirs p) hphase hs.kind hs.home
    hgrants (Dev.req_of_lone rfl) cls aged strict prefetch
  rw [hopen, ← Dev.advance_direct hs hop hscope ht rfl rfl, htxns]
  rfl

theorem ReqEntry.Unanswered.entryOf (h : e.Unanswered) (i : Nat) : e.entryOf i = i := by simp [ReqEntry.entryOf, h.viewed]

/-- The lone request of the table has its data, its one part still keeps its place in the ingress list, and its granule, at p, is
cached (R139, R440). -/
structure Arrived (s : Dev) (e : ReqEntry) (p : Place) : Prop extends Calm s p where
  reqs : s.cache.reqs = [e]
  parked : ∃ f, s.cache.parked = [{ facet := f, reqId := e.id, index := 0, bound := .data, urgent := false, reentered := false }]
  place : s.placeOf e 0 = p
  hit : (s.cached p).isSome = true
  txns : s.cache.txns = []
  plrs : s.cache.plrs = []
  tickets : s.cache.tickets = []
  blockRun : s.mgmt.blockRun = none
  phase : s.phase ≠ .eclipse

namespace Arrived

/-- The part does not come back from a bound: it has waited for its data only. -/
theorem comesBack (h : Arrived s e p) : s.comesBack e 0 = false := by
  obtain ⟨f, hf⟩ := h.parked
  simp [Dev.comesBack, hf]

/-- No ticket and no part goes before it. -/
theorem behind (h : Arrived s e p) (he : e.One) : s.behind e 0 p false = none := by
  obtain ⟨f, hf⟩ := h.parked
  simp [Dev.behind, Dev.ticketAhead, Dev.ticketsOf, h.tickets, Dev.aheadOf, hf, he.entryOf]

theorem not_held (h : Arrived s e p) : s.held p = false := by simp [Dev.held, h.txns]

theorem not_granuleWaits (h : Arrived s e p) : s.granuleWaits p = false := by simp [Dev.granuleWaits, Dev.plrAt, h.plrs]

theorem not_filling (h : Arrived s e p) : s.filling p = false := by simp [Dev.filling, Dev.plrAt, h.plrs]

/-- Its line has room for the result, as the line is there (R124). -/
theorem storeBound (h : Arrived s e p) (cls : Nat) (own : Option (BitVec 16)) : s.storeBound p cls own = none := by
  have hsome : (s.lookup p).isSome = true := by
    have hhit := h.hit
    unfold Dev.cached at hhit
    split at hhit
    · rename_i hl; rw [hl]; rfl
    · cases hhit
  simp [Dev.storeBound, Dev.quotaFull, h.shadowed, hsome]

/-- No bound keeps it from starting (R137). -/
theorem ownBound (h : Arrived s e p) (hop : e.op = .write ∨ e.op = .atomic) : s.ownBound e 0 false = none := by
  have hrun : e.runOp = e.op := by rcases hop with hop | hop <;> simp [ReqEntry.runOp, hop]
  rcases hop with hop | hop
  all_goals
    simp [Dev.ownBound, hrun, hop, h.place, h.not_held, h.not_granuleWaits, h.hit, h.storeBound, Dev.needsEntry, Op.grants, waitsFill]

/-- The part leaves the ingress list, and its granule's transaction is served (R137, R139). -/
theorem startPart (h : Arrived s e p) (he : e.One) (hop : e.op = .write ∨ e.op = .atomic)
    (hscope : e.op = .atomic → argScope e.r.arg ≠ 3) (hticket : e.ticket = none) :
    ∃ t : Txn, s.startPart e.id 0 false = (s.inFlight s.csr s.cache.lines e t).txnServe t ∧ t.Direct e p ∧ t.stage ≠ .base := by
  have hrun : e.runOp = e.op := by rcases hop with hop | hop <;> simp [ReqEntry.runOp, hop]
  have hwaits : waitsFill e.op = false := by rcases hop with hop | hop <;> rw [hop] <;> rfl
  have hreq : s.req e.id = some e := Dev.req_of_lone h.reqs
  have hbound : s.partBound e 0 false = none := by
    rw [Dev.partBound, h.place, h.behind he, h.ownBound hop]
    rfl
  have hjoins : s.joins e p false = false := by
    simp [Dev.joins, h.not_held, h.not_granuleWaits, hrun, hwaits]
  have hleave : s.leaveList e 0 = { s with cache.reqs := [e], cache.parked := [] } := by
    obtain ⟨f, hf⟩ := h.parked
    simp only [Dev.leaveList, hticket, Dev.unpark, he.entryOf, hf]
    simp [← h.reqs]
  have hplace : ({ s with cache.reqs := [e], cache.parked := [] } : Dev).placeOf e 0 = p :=
    (Dev.placeOf_congr he.plain rfl rfl rfl rfl 0).trans h.place
  have hlit : (s.phase == .eclipse) = false := beq_eq_false_iff_ne.2 h.phase
  have hstart : s.startPart e.id 0 false = ({ s with cache.reqs := [e], cache.parked := [] } : Dev).openPart e 0 := by
    simp only [Dev.startPart, hreq, h.place, Dev.readSets_of_sound h.tags h.dirs, h.comesBack, hlit, hbound, hjoins, hleave,
      Bool.or_self, Bool.false_eq_true, if_false]
  rw [hstart, Dev.openPart, hplace, hrun]
  exact Dev.openTxn_direct h.toCalm hop hscope h.phase h.txns _ _ _ _

/-- No other part starts or is left (R440). -/
theorem startParts (h : Arrived s e p) (he : e.One) (hserved : ∃ c lines m, s.startPart e.id 0 false = s.served c lines m) :
    s.startParts e.id = s.startPart e.id 0 false := by
  obtain ⟨c, lines, m, hs⟩ := hserved
  have hreq : s.req e.id = some e := Dev.req_of_lone h.reqs
  have hdrain : ∀ f, s.facetDraining f = false := fun f => by simp [Dev.facetDraining, h.blockRun]
  have hat : s.startAt e 0 = s.served c lines m := by
    simp only [Dev.startAt, hdrain, Dev.anyPart, hreq, he.plain, he.viewed, hs, Bool.false_eq_true, if_false]
  have hparked : (s.served c lines m).cache.parked = [] := rfl
  simp only [Dev.startParts, hreq, he.partIndices, he.one, List.range_one, Dev.each_cons, Dev.each_nil, hat, hparked, List.filter_nil,
    ite_self, hs]

end Arrived

end

/-- The entry of a request of one 64 B once its data has come. -/
def arrivedEntry (id : Nat) (g : Region) (op : Op) (r : Request) (n : Nat) (x : Sub) : ReqEntry :=
  { pulledEntry id g op r n with data := [x], got := [true] }

/-- The home waits for the write data of one request of one 64 B, and nothing else is at work; the granule, cached with value y, is
free and unshadowed (R440, R468). -/
structure AwaitsData (s : Dev) (op : Op) (r : Request) (n id : Nat) (y : Sub) : Prop extends ReachesHome s op r n where
  idle : FacetsIdle ({ s with cache.reqs := [], cache.parked := [] } : Dev)
  shadowed : (s.region n).shadowed = false
  unscathed : s.unscathed = true
  reqs : s.cache.reqs = [pulledEntry id (s.region n) op r n]
  parked : s.cache.parked = s.awaitingData (pulledEntry id (s.region n) op r n)
  len : r.len = 0
  cached : s.cached (s.placeFor r n) = some y
  free : s.home (s.placeFor r n) = none
  pulling : op = .write ∨ op = .atomic

namespace AwaitsData

variable {s : Dev} {op : Op} {r : Request} {n id : Nat} {y : Sub}

theorem txns (h : AwaitsData s op r n id y) : s.cache.txns = [] := Dev.txns_of_quiet h.idle.quiet

theorem calm (h : AwaitsData s op r n id y) : Calm s (s.placeFor r n) := by
  have hsound := h.unscathed
  simp only [Dev.unscathed, Bool.and_eq_true, List.isEmpty_iff] at hsound
  obtain ⟨⟨⟨htags, hdirs⟩, hdata⟩, -⟩ := hsound
  exact ⟨htags, hdirs, hdata, h.idle.puts, h.idle.wbs, rfl, h.shadowed, h.free⟩

theorem one (h : AwaitsData s op r n id y) (x : Sub) : (arrivedEntry id (s.region n) op r n x).One :=
  { h.toReachesHome.unanswered id op with
    one := by simp [arrivedEntry, pulledEntry, h.len]
    urgent := h.urgent
    data := ⟨x, rfl⟩
    grant := rfl
    onDat := rfl }

theorem parked_one (h : AwaitsData s op r n id y) :
    ∃ f, s.cache.parked = [{ facet := f, reqId := id, index := 0, bound := .data, urgent := false, reentered := false }] := by
  have hn : (pulledEntry id (s.region n) op r n).n = 1 := by simp [pulledEntry, h.len]
  exact ⟨_, by rw [h.parked, Dev.awaitingData, hn, List.range_one]; rfl⟩

/-- With its data here, nothing keeps the request's part from starting. -/
theorem arrived (h : AwaitsData s op r n id y) (x : Sub) :
    Arrived { s with cache.reqs := [arrivedEntry id (s.region n) op r n x] } (arrivedEntry id (s.region n) op r n x)
      (s.placeFor r n) :=
  { h.calm with
    reqs := rfl
    parked := h.parked_one
    place := h.toReachesHome.placeOf_zero id op
    hit := Option.isSome_iff_exists.2 ⟨y, h.cached⟩
    txns := h.txns
    plrs := h.idle.plrs
    tickets := h.idle.tickets
    blockRun := h.idle.blockRun
    phase := fun he => by
      have hact := h.active
      rw [Dev.active, show s.phase = .eclipse from he] at hact
      cases hact }

/-- WRITE_DATA fills the request's entry, and its part starts (R465, R468). -/
theorem writeDataIn (h : AwaitsData s op r n id y) (x : Sub) :
    s.writeDataIn r.src r.txid 0 [x] = ({ s with cache.reqs := [arrivedEntry id (s.region n) op r n x] } : Dev).startParts id := by
  have hpulls : op.pulls = true := by rcases h.pulling with rfl | rfl <;> rfl
  have hgot : (pulledEntry id (s.region n) op r n).got = [false] := by simp [pulledEntry, hpulls, h.len]
  have hdata : (pulledEntry id (s.region n) op r n).data = [0] := by simp [pulledEntry, h.len]
  have hput : ([x].zipIdx.foldl (fun (e : ReqEntry) x =>
      if 0 + x.2 < e.got.length then { e with data := e.data.set (0 + x.2) x.1, got := e.got.set (0 + x.2) true } else e)
      (pulledEntry id (s.region n) op r n)) = arrivedEntry id (s.region n) op r n x := by
    simp [hgot, hdata, arrivedEntry]
  have hfind : s.cache.reqs.find? (fun e => e.r.src == r.src && e.r.txid == r.txid && e.got.any (fun g => !g)) =
      some (pulledEntry id (s.region n) op r n) := by
    have hr : (pulledEntry id (s.region n) op r n).r = r := rfl
    simp [h.reqs, hgot, hr]
  have hmem : ((pulledEntry id (s.region n) op r n).r.space == .mem) = true := beq_iff_eq.2 h.space
  have hfull : (arrivedEntry id (s.region n) op r n x).got.any (fun g => !g) = false := rfl
  simp only [Dev.writeDataIn, h.active, h.discards, hfind, hput, hfull, hmem, Dev.updReq_of_lone h.reqs, Bool.not_true, Bool.or_self,
    Bool.false_eq_true, if_false, if_true]
  rfl

/-- A served request leaves nothing more to do. -/
theorem settle_served (h : AwaitsData s op r n id y) {c : SMap Word}
    (hstrap : ({ s with csr := c } : Dev).reg R.rstStrap = s.reg R.rstStrap)
    (lines : SMap Line) (m : Msg) : (s.served c lines m).settle = s.served c lines m :=
  NoMoreWork.settle (s := { s with cache.reqs := [], cache.parked := [] })
    { txns := h.txns.symm, maint := rfl, podOps := rfl, deaths := rfl, shadow := rfl, prism := rfl, jobs := rfl, keeps := rfl, runs := rfl
      running := fun _ => Or.inl rfl, items := List.Subset.refl _, img := rfl
      pos := congrArg (· / 2) (Dev.get_congr (f := F.rstStrap_BAND) hstrap) }
    h.idle.quiet

end AwaitsData

/-- WRITE_DATA of the awaited data does what the transaction of the granule does once it is served. -/
theorem exec_writeData_served {s : State} {op : Op} {r : Request} {n id : Nat} {y : Sub} (h : AwaitsData s.toDev op r n id y) (x : Sub)
    (hscope : op = .atomic → argScope r.arg ≠ 3) {m : Msg} {P : SMap Word → SMap Line → Prop}
    (hstrap : ∀ c lines, P c lines → ({ s.toDev with csr := c } : Dev).reg R.rstStrap = s.reg R.rstStrap) {e : ReqEntry}
    (he : e = arrivedEntry id (s.region n) op r n x)
    (hserve : ∀ t : Txn, t.Direct e (s.placeFor r n) → t.stage ≠ .base →
      ∃ c lines, (s.toDev.inFlight s.csr s.cache.lines e t).txnServe t = s.toDev.served c lines m ∧ P c lines) :
    ∃ c lines, exec (.writeData r.src r.txid 0 [x]) s = .next { s with toDev := s.toDev.served c lines m } ∧ P c lines := by
  subst he
  have hone := h.one x
  have harr := h.arrived x
  obtain ⟨t, hstart, ht, hstage⟩ := harr.startPart hone h.pulling hscope rfl
  obtain ⟨c, lines, hserved, hP⟩ := hserve t ht hstage
  refine ⟨c, lines, ?_, hP⟩
  have hin : s.toDev.writeDataIn r.src r.txid 0 [x] = s.toDev.served c lines m :=
    calc s.toDev.writeDataIn r.src r.txid 0 [x]
        = _ := h.writeDataIn x
      _ = _ := harr.startParts hone ⟨c, lines, m, hstart.trans hserved⟩
      _ = _ := hstart.trans hserved
  have hexec : exec (.writeData r.src r.txid 0 [x]) s = .next { s with toDev := (s.toDev.writeDataIn r.src r.txid 0 [x]).settle } := rfl
  rw [hexec, hin, h.settle_served (hstrap c lines hP)]

section

variable {s : Dev} {p : Place} {P : Nat → Prop} {c : SMap Word} {lines : SMap Line} {v : Sub}

theorem ServedWith.cached_served (h : ServedWith s p P c lines v) (hk : p.kind = .own) (hpart : ¬ P R.fctPartition) (m : Msg) :
    (s.served c lines m).cached p = some v := by
  have hlook : (s.served c lines m).lookup p = ({ s with cache.lines := lines } : Dev).lookup p :=
    Dev.lookup_congr hk rfl (h.reg _ hpart)
  rw [← h.cached, Dev.cached, Dev.cached, hlook]

theorem ServedWith.dirtyAt_served (h : ServedWith s p P c lines v) (hk : p.kind = .own) (hpart : ¬ P R.fctPartition) (m : Msg) :
    (s.served c lines m).dirtyAt p = ({ s with cache.lines := lines } : Dev).dirtyAt p := by
  have hlook : (s.served c lines m).lookup p = ({ s with cache.lines := lines } : Dev).lookup p :=
    Dev.lookup_congr hk rfl (h.reg _ hpart)
  rw [Dev.dirtyAt, Dev.dirtyAt, hlook]

end

/-- A cached granule is that of a line, valid there. -/
theorem Dev.lookup_of_cached {s : Dev} {p : Place} {y : Sub} (h : s.cached p = some y) :
    ∃ w l, s.lookup p = some (w, l) ∧ l.isValid p.sub = true ∧ Sector.sub l.data p.sub = y := by
  unfold Dev.cached at h
  split at h
  · rename_i w l hl
    split at h
    · rename_i hv
      exact ⟨w, l, hl, hv, Option.some.inj h⟩
    · cases h
  · cases h

/-- WRITE_DATA of a WRITE: it is answered OK, and its granule is dirty with the enabled bytes replaced (R124, R229). -/
theorem AwaitsData.exec_write {s : State} {r : Request} {n id : Nat} {y : Sub} (h : AwaitsData s.toDev .write r n id y) (x : Sub) :
    ∃ c lines, exec (.writeData r.src r.txid 0 [x]) s =
        .next { s with toDev := s.toDev.served c lines (.resp r.src r.txid 0 [.ok] 0 0 []) } ∧
      ServedWith s.toDev (s.placeFor r n) counterReg c lines (writtenSub r.mask y x) ∧
      ({ s.toDev with cache.lines := lines } : Dev).dirtyAt (s.placeFor r n) = true := by
  obtain ⟨w, l, hlook, hvalid, hsub⟩ := Dev.lookup_of_cached h.cached
  subst hsub
  exact exec_writeData_served h x (fun ho => Op.noConfusion ho)
    (P := fun c lines => ServedWith s.toDev (s.placeFor r n) counterReg c lines (writtenSub r.mask (Sector.sub l.data _) x) ∧
      ({ s.toDev with cache.lines := lines } : Dev).dirtyAt (s.placeFor r n) = true)
    (fun c lines hP => hP.1.reg _ (by decide)) rfl
    fun t ht hstage => Dev.txnServe_write h.calm (h.one x) rfl h.len ht rfl hstage h.fenced hlook hvalid rfl

/-- WRITE_DATA of an ATOMIC: it is answered with the old value, its granule takes the new one, and it counts (R231, R404). -/
theorem AwaitsData.exec_atomic {s : State} {r : Request} {n id : Nat} {y : Sub} (h : AwaitsData s.toDev .atomic r n id y) (x : Sub)
    (hscope : argScope r.arg ≠ 3) :
    ∃ c lines, exec (.writeData r.src r.txid 0 [x]) s =
        .next { s with toDev := s.toDev.served c lines (.resp r.src r.txid 0 [.ok] 0 0 [(atomicApply r.arg x y).2.1]) } ∧
      ServedWith s.toDev (s.placeFor r n) atomicReg c lines ((atomicApply r.arg x y).1.getD y) ∧
      ({ s.toDev with csr := c } : Dev).get F.crdCount_ATOMICS = min (s.get F.crdCount_ATOMICS + 1) F.crdCount_ATOMICS.max := by
  obtain ⟨w, l, hlook, hvalid, hsub⟩ := Dev.lookup_of_cached h.cached
  exact exec_writeData_served h x (fun _ => hscope)
    (P := fun c lines => ServedWith s.toDev (s.placeFor r n) atomicReg c lines ((atomicApply r.arg x y).1.getD y) ∧
      ({ s.toDev with csr := c } : Dev).get F.crdCount_ATOMICS = min (s.get F.crdCount_ATOMICS + 1) F.crdCount_ATOMICS.max)
    (fun c lines hP => hP.1.reg _ (by decide)) rfl
    fun t ht hstage => Dev.txnServe_atomic h.calm (h.one x) rfl ht rfl hstage h.fenced hlook hvalid rfl hsub

/-- The state after: the request is gone, with registers, lines, the outbox and the identifiers of transactions changed. -/
theorem AwaitsData.served_eq {s : Dev} {op : Op} {r : Request} {n id : Nat} {y : Sub} (h : AwaitsData s op r n id y) (c : SMap Word)
    (lines : SMap Line) (m : Msg) :
    s.served c lines m = { s with csr := c, outbox := s.outbox ++ [m], nextId := s.nextId + 1, cache.lines := lines
                                  cache.reqs := [], cache.parked := [] } := by
  simp only [Dev.served, h.txns]

/-- Settles O40: the granule that the data is for is cached and free, so its transaction is decided, served and answered at once. -/
theorem writeDataWritesMemory : Obligations.WriteDataWritesMemory := by
  constructor
  · intro id r n x y s hidle hreach hshadowed hsound hreqs hparked hlen _ hcached hfree
    have h : AwaitsData s.toDev .write r n id y :=
      ⟨Dev.reaches_home hreach, Dev.facetsIdle_parts hidle, hshadowed, hsound, hreqs, hparked, hlen, hcached, hfree, Or.inl rfl⟩
    obtain ⟨c, lines, hexec, hserved, hdirty⟩ := h.exec_write x
    refine ⟨_, hexec, rfl, hserved.cached_served rfl (by decide) _, (hserved.dirtyAt_served rfl (by decide) _).trans hdirty,
      fun _ => rfl, rfl, rfl, fun off _ hoff => hserved.reg off hoff, ?_⟩
    rw [h.served_eq]
  · intro id r n x y s hidle hreach hshadowed hsound hreqs hparked hscope hlen hcached hfree
    have h : AwaitsData s.toDev .atomic r n id y :=
      ⟨Dev.reaches_home hreach, Dev.facetsIdle_parts hidle, hshadowed, hsound, hreqs, hparked, hlen, hcached, hfree, Or.inr rfl⟩
    obtain ⟨c, lines, hexec, hserved, hcount⟩ := h.exec_atomic x hscope
    exact ⟨_, hexec, rfl, hserved.cached_served rfl (by decide) _, hcount, rfl, rfl, rfl, fun _ => rfl⟩

end Sys2Proof.Machine
end

section
/-! PROOFS. The registers of a disabled facet, and set-and-way maintenance that is refused. -/

namespace Sys2Proof.Machine

/-- A set-and-way command of an active slice is a write of FCT_MAINT_SW with an OP of its own (R155, R168). -/
theorem exec_setWay {c : Instr} {f : BitVec 6} {set : BitVec 11} {way : BitVec 4}
    (h : c ∈ [Instr.swClean f set way, .swInvalidate f set way, .swCleanInvalidate f set way]) {s : State} (hact : s.active = true) :
    ∃ op, exec c s = .next { s with toDev := s.maintSw f.toNat op set.toNat way.toNat } := by
  have hon : ∀ op, s.onDev (fun v => if !v.active then v else v.maintSw f.toNat op set.toNat way.toNat) =
      .next { s with toDev := s.maintSw f.toNat op set.toNat way.toNat } := fun op => by
    rw [State.onDev_eq, hact]
    rfl
  simp only [List.mem_cons, List.not_mem_nil, or_false] at h
  obtain rfl | rfl | rfl := h
  · exact ⟨1, hon 1⟩
  · exact ⟨2, hon 2⟩
  · exact ⟨3, hon 3⟩

/-- A disabled facet maintains nothing (R157). -/
theorem Dev.maintSw_of_dead {s : Dev} {f : Nat} (h : s.fuse.dead f = true) (op set way : Nat) : s.maintSw f op set way = s := by
  rw [Dev.maintSw, if_pos h]

/-- A way that is not ordinary, or a facet that is busy, makes the write refused and nothing else (R155). -/
theorem Dev.maintSw_of_refused {s : Dev} {f way : Nat} (hlive : s.fuse.dead f = false)
    (h : s.wayClass f way ≠ clsOrdinary ∨ s.get (F.fctMaintStatus_BUSY f) = 1) (op set : Nat) :
    s.maintSw f op set way = s.put (F.fctMaintStatus_REFUSED f) 1 := by
  have hbad : (s.wayClass f way != clsOrdinary || s.on (F.fctMaintStatus_BUSY f)) = true := by
    rcases h with h | h
    · rw [bne_iff_ne.2 h, Bool.true_or]
    · rw [Dev.on, h]
      exact Bool.or_true _
  rw [Dev.maintSw, hlive, if_neg Bool.false_ne_true, if_pos hbad]
  rfl

/-- The registers of a disabled facet read 0 (R16, R157). -/
theorem Dev.facetReg_of_dead {s : Dev} {f : Nat} (h : s.fuse.dead f = true) (o : Nat) : s.facetReg f o = 0 := by
  unfold Dev.facetReg
  exact if_pos h

/-! The registers of a facet stand in one window of the register space. -/

theorem offset_of_fctConfig (f : Nat) {o : Nat} (ho : o < 0x400) : (R.fctConfig f + o) % 0x400 = o := by
  simp only [R.fctConfig]
  omega

section
variable (s : Dev) {f o : Nat} (hf : f < 64) (ho : o < 0x400)
include hf ho

theorem facet_of_fctConfig : (R.fctConfig f + o - 0x40000) / 0x400 = f := by
  simp only [R.fctConfig]
  omega

theorem fctConfig_window : 0x40000 ≤ R.fctConfig f + o ∧ R.fctConfig f + o < 0x50000 := by
  simp only [R.fctConfig]
  omega

/-- A read of a facet's window reads the facet's register (R157, R158). -/
theorem Dev.csrRead_facet : s.csrRead (R.fctConfig f + o) = s.facetReg f o := by
  obtain ⟨hlo, hhi⟩ := fctConfig_window hf ho
  have hident : R.fctConfig f + o ≠ R.setIdent := by simp only [R.setIdent]; omega
  have henable : R.fctConfig f + o ≠ R.setEnable := by simp only [R.setEnable]; omega
  have hregion : ¬ R.fctConfig f + o < 0x12000 := by omega
  simp [Dev.csrRead, hident, henable, hregion, hlo, hhi, facet_of_fctConfig hf ho, offset_of_fctConfig f ho]

/-- A write of a facet's window is that of FCT_MAINT_SW or of a plain register, and none at all where the facet is disabled (R157). -/
theorem Dev.csrEffect_facet (v : Nat) : s.csrEffect (R.fctConfig f + o) v =
    if s.fuse.dead f then s
    else if R.fctConfig f + o == R.fctMaintSw f then s.maintSw f (bitsOf v 17 16) (bitsOf v 14 4) (bitsOf v 3 0)
    else s.fieldWrite (R.fctConfig f + o) v := by
  obtain ⟨hlo, hhi⟩ := fctConfig_window hf ho
  have hseal : R.fctConfig f + o ≠ R.imgSeal := by simp only [R.imgSeal]; omega
  have hstage : ¬ R.fctConfig f + o < 0x20000 := by omega
  simp [Dev.csrEffect, hseal, hstage, hlo, hhi, facet_of_fctConfig hf ho]

/-- A write of a facet's window needs the right to write (R690, R700). -/
theorem csrRights_facet : csrRights (R.fctConfig f + o) = rightWrite := by
  obtain ⟨hlo, hhi⟩ := fctConfig_window hf ho
  have hcmd : R.fctConfig f + o ≠ R.gnmCmd := by simp only [R.gnmCmd]; omega
  have hstage : ¬ R.fctConfig f + o < 0x20000 := by omega
  simp [csrRights, hcmd, hstage]

end

/-- An admitted write of an aligned register is answered OK and then has its effect; no writer on a sideband is admitted (R9, R488). -/
theorem Dev.csrWriteBy_of_admits {s : Dev} {w : Writer} {off v : Nat} (h : s.admits w off (csrRights off) = true)
    (halign : off % 8 = 0) (hlt : off < 0x200000) :
    s.csrWriteBy w off v = (s.send (.resp w.src w.txid 0 [.ok] 0 0 [])).csrEffect off v := by
  have hform : (off % 8 == 0 && decide (off < 0x200000)) = true := by simp [halign, hlt]
  have hport : s.csrWriteBy w off v =
      s.csrAdmit w off (csrRights off) (off % 8 == 0 && decide (off < 0x200000)) (fun s => s.csrEffect off v) := by
    unfold Dev.csrWriteBy
    split
    · rename_i p hp
      have hvia : s.viaUp w.via = true := by
        simp only [Dev.admits, Bool.and_eq_true] at h
        exact h.1.1.2
      rw [hp] at hvia
      cases hvia
    · rfl
  rw [hport, hform, Dev.csrAdmit_of_admits h]

theorem exec_csrWrite (w : Writer) (off : BitVec 24) (v : BitVec 64) (s : State) :
    exec (.csrWrite w off v) s = .next { s with toDev := s.csrWriteBy w off.toNat v.toNat } := rfl

/-- Settles O9: reads and writes of the facet's window end at its fuse, and so does FCT_MAINT_SW. -/
theorem disabledFacetsIgnoreWrites : Obligations.DisabledFacetsIgnoreWrites := by
  intro f o w v set way s hdead ho
  have hf := f.isLt
  have hnone : ∀ (u : Dev), u.fuse = s.fuse → ∀ v, u.csrEffect (R.fctConfig f.toNat + o) v = u := fun u hu v => by
    rw [u.csrEffect_facet hf ho, hu, if_pos hdead]
  have hsw : s.active = true → ∀ c ∈ [Instr.swClean f set way, .swInvalidate f set way, .swCleanInvalidate f set way],
      exec c s = .next s := fun hact c hc => by
    obtain ⟨op, hexec⟩ := exec_setWay hc hact
    rw [hexec, Dev.maintSw_of_dead hdead]
  refine ⟨?_, hnone s.toDev rfl _, fun hact => ?_, fun halign hadm => ?_⟩
  · rw [s.csrRead_facet hf ho, Dev.facetReg_of_dead hdead]
  · simpa using hsw hact
  · obtain ⟨-, hhi⟩ := fctConfig_window hf ho
    have hoff : (BitVec.ofNat 24 (R.fctConfig f.toNat + o)).toNat = R.fctConfig f.toNat + o := by
      rw [BitVec.toNat_ofNat, Nat.mod_eq_of_lt (by omega)]
    have haligned : (R.fctConfig f.toNat + o) % 8 = 0 := by simp only [R.fctConfig]; omega
    rw [← csrRights_facet hf ho] at hadm
    rw [exec_csrWrite, hoff, Dev.csrWriteBy_of_admits hadm haligned (by omega), hnone (s.send _) rfl]
    rfl

/-- Settles O48: the way class and BUSY are read before the OP. -/
theorem setWayMaintenanceIsRefused : Obligations.SetWayMaintenanceIsRefused := by
  intro f set way s hlive hbad
  have hrefused := fun op => Dev.maintSw_of_refused hlive hbad op set.toNat
  constructor
  · intro hact c hc
    obtain ⟨op, hexec⟩ := exec_setWay hc hact
    rw [hexec, hrefused]
  · intro v hset hway
    have hoff : R.fctMaintSw f.toNat = R.fctConfig f.toNat + 0x50 := by simp only [R.fctMaintSw, R.fctConfig]; omega
    rw [hoff, s.csrEffect_facet f.isLt (by decide), hlive, hset, hway, hrefused, ← hoff, beq_self_eq_true, if_pos rfl]
    rfl

end Sys2Proof.Machine
end

section
/-! PROOFS. READ_ONCE of a granule whose directory entry lists a fenced agent, at once and after it was parked: the entry loses that
agent. -/

namespace Sys2Proof.Machine

/-- An unshadowed MEM region of four chunks whose home is position 0. -/
def memRegion : Region := { Region.empty with base := 0x8000000000000200, attr := 0x4000000000000000 }

/-- The slice of the pair, sealed, with that region. -/
def memSlice : State :=
  { pairedSlice with toDev := { pairedSlice.put F.imgStatus_SEALED 1 with regions := [memRegion] } }

/-- A request of the slice's own cores for one granule of the region. -/
def ownRead : Request :=
  { via := .own, space := .mem, addr := 0x1000, len := 0, mask := fullMask, view := 0, hue := 0, src := 56, txid := 0
    arg := 0, ticket := none, urgent := false, stream := false, upset := {} }

/-- The place of that granule, and a clean line of its sector. -/
def readPlace : Place := { kind := .own, facet := 4, grp := 4, group := false, d := 0x1000, tag := 0, shadowed := false }
def readLine : Line :=
  { tag := 0, group := false, shd := false, refl := false, valid := 0xF, dirty := 0, age := 0, hue := 0, data := 0, d := 0x1000
    grp := 4 }

/-- The granule is cached, and agents 1 and 2 share it. Agent 2 is fenced, with no death of it under way. -/
def fencedSharer : State :=
  let d : Dev := { memSlice.put F.fctFence_MASK (2 ^ 2) with cache.lines := setWay [] readPlace 0 readLine }
  { memSlice with toDev := d.setHome readPlace (some (.shared [1, 2])) none }

/-- That slice with the request for the granule in its table and its one part parked. -/
def parkedReader : State :=
  { fencedSharer with
    cache.reqs := [pulledEntry 9 memRegion .readOnce ownRead 0]
    cache.parked := [{ facet := 4, reqId := 9, index := 0, bound := .plr, urgent := false, reentered := false }] }

theorem fencedSharer_home : fencedSharer.home readPlace = some (.shared [1, 2]) := by decide +kernel
theorem parkedReader_home : parkedReader.home readPlace = some (.shared [1, 2]) := by decide +kernel

/-- The entry is written as the read ends, without the sharers that a death's walk has passed (R262). -/
theorem fencedSharer_readOnce_drops : ∃ t : State, exec (.readOnce ownRead) fencedSharer = .next t ∧
    t.home readPlace = some (.shared [1]) := ⟨_, rfl, by decide +kernel⟩

theorem parkedReader_resume_drops : ∃ t : State, exec (.parkedPartResume 4) parkedReader = .next t ∧
    t.home readPlace = some (.shared [1]) := ⟨_, rfl, by decide +kernel⟩

/-- One sharer is not the two that were listed. -/
theorem home_ne_of_dropped {s t : Dev} (ht : t.home readPlace = some (.shared [1])) (hs : s.home readPlace = some (.shared [1, 2])) :
    t.home readPlace ≠ s.home readPlace := by
  rw [ht, hs]
  decide

/-- Refutes O37, by its clause of READ_ONCE: a read that ends drops the sharers that are fenced and have no walk to come (R262), and
the statement, which has no premise that shuts such a sharer out, lets every home state stand. -/
theorem not_readsHit : ¬ Obligations.ReadsHit := by
  rintro ⟨-, h⟩
  obtain ⟨t, ht, -, hhome, -⟩ := h (.readOnce ownRead) .readOnce ownRead 0 0 fencedSharer (by simp) (by decide +kernel)
    (by decide +kernel) (by decide +kernel) rfl rfl (by decide +kernel) (by decide +kernel)
  obtain ⟨u, hu, hone⟩ := fencedSharer_readOnce_drops
  cases hu.symm.trans ht
  exact home_ne_of_dropped hone fencedSharer_home (hhome readPlace)

/-- Refutes O46, by its clause of PARKED_PART_RESUME: the read that goes on drops a fenced sharer as one that has just come does, and
the statement lets every home state stand. -/
theorem not_waitersGoOn : ¬ Obligations.WaitersGoOn := by
  rintro ⟨h, -⟩
  obtain ⟨t, ht, -, -, -, -, hhome, -⟩ := h 9 0 ownRead 0 .plr false false 4 parkedReader (by decide +kernel)
    (by decide +kernel) (by decide +kernel) rfl (by decide +kernel) (by decide) rfl (by decide +kernel) (by decide +kernel)
    (by decide +kernel)
  obtain ⟨u, hu, hone⟩ := parkedReader_resume_drops
  cases hu.symm.trans ht
  exact home_ne_of_dropped hone parkedReader_home (hhome readPlace)

end Sys2Proof.Machine
end

section
/-! PROOFS. What else the statements of the cache do not shut out: an error in the data array under a line that is invalidated, a far
atomic at its engine in a sector that is prefetched, and a scrub that stands past the last tag set. -/

namespace Sys2Proof.Machine

/-- The slice with the line in way 0 and a single error in its first sub-block. -/
def erringLine : State :=
  { memSlice with
    cache.lines := setWay [] readPlace 0 readLine
    cache.dataBad := [(lineKey 4 0 0 * 4, .single)] }

/-- The error goes with its line. -/
theorem erringLine_swInvalidate : ∃ t : State, exec (.swInvalidate 4 0 0) erringLine = .next t ∧ t.cache.dataBad = [] :=
  ⟨_, rfl, by decide +kernel⟩

/-- Refutes O38, by its clause of SW_INVALIDATE: an error in the data of the line goes with the line, and the statement, which has no
premise that the arrays are sound, lets all but registers and lines stand. -/
theorem not_maintenanceRuns : ¬ Obligations.MaintenanceRuns := by
  rintro ⟨-, h⟩
  obtain ⟨t, ht, -, -, -, -, hsame⟩ := h (.swInvalidate 4 0 0) false 4 0 0 readLine erringLine (by simp) (by decide +kernel)
    (by decide +kernel) (by decide +kernel) rfl (by decide +kernel) (by decide +kernel) (by decide +kernel) (by decide +kernel)
    (by decide +kernel) (by decide +kernel)
  obtain ⟨u, hu, hnone⟩ := erringLine_swInvalidate
  cases hu.symm.trans ht
  rw [hsame] at hnone
  exact List.cons_ne_nil _ _ hnone

/-- A FAR_ATOMIC of the granule whose engine reads the stack (R232, R436). -/
def farAtomicAtEngine : Txn :=
  { id := 1, cause := .request 0 0, op := .farAtomic, src := 56, place := readPlace, stage := .rmw
    before := none, after := none, awaiting := [], replies := [], held := none, dirtyIn := none, grant := 0, code := .ok
    podWait := [], answered := false, cls := 0, aged := false, strict := false, prefetch := false, filled := false
    dirWay := none, since := 0, suspect := [], ackTxid := 0, broadcast := false, ackDue := false }

/-- A slice whose class A0 may use ways 0 and 1, with the far atomic under way and a hint for its sector. -/
def hintBesideFarAtomic : State :=
  { pairedSlice with
    img.force := { Sections.empty with regions := List.replicate 6148 0 ++ [0x3] }
    cache := { pairedSlice.cache with txns := [farAtomicAtEngine], hints := [(readPlace, 0)] } }

theorem hintBesideFarAtomic_victim :
    hintBesideFarAtomic.victim readPlace.facet readPlace.set 0 = some (0, hintBesideFarAtomic.toDev) := by
  have hempty : (hintBesideFarAtomic.candidates readPlace.facet readPlace.set 0).find?
      (hintBesideFarAtomic.wayEmpty readPlace.facet readPlace.set) = some 0 := by decide +kernel
  simp only [Dev.victim, hempty]

/-- The prefetch leaves the sub-block at the engine out. -/
theorem hintBesideFarAtomic_reads_three : ∃ t : State, exec (.prefetchHint 4 0x1000 0 false) hintBesideFarAtomic = .next t ∧
    t.stack.reads.map DramRead.subs = [0xE] := ⟨_, rfl, by decide +kernel⟩

/-- Refutes O44, by its clause of a hint that is taken: no fill takes the sub-block of a far atomic that is at its engine (R232), and
the statement, which has no premise that shuts one out, reads the whole sector. -/
theorem not_fillsComplete : ¬ Obligations.FillsComplete := by
  rintro ⟨h, -⟩
  obtain ⟨-, h⟩ := h 4 0x1000 0 false readPlace hintBesideFarAtomic (by decide +kernel) (by decide +kernel) (by decide +kernel)
    (by decide +kernel) (by decide +kernel)
  obtain ⟨t, ht, -, ⟨r, hreads, -, hsubs, -⟩, -⟩ := h 0 (by decide +kernel) (by decide +kernel) (by decide +kernel) rfl rfl
    hintBesideFarAtomic_victim (by decide +kernel)
  obtain ⟨u, hu, hthree⟩ := hintBesideFarAtomic_reads_three
  cases hu.symm.trans ht
  have hnone : hintBesideFarAtomic.stack.reads = [] := rfl
  rw [hreads, hnone, List.nil_append, List.map_singleton, hsubs] at hthree
  exact absurd hthree (by decide)

/-- The slice of the pair with the tag scrub of facet 4 one past the last set, 2047. -/
def scrubPastLastSet : State := { pairedSlice with cache.tagScrub := [(4, 2048)] }

/-- The bit strikes set 0, which the number 2048 comes to in 11 bits, and the scrub does not read it there. -/
theorem scrubPastLastSet_leaves_upset : ∃ t : State, exec (.tagScrub 4 [(0, 1, 0)]) scrubPastLastSet = .next t ∧
    t.cache.tagUpset = [(lineKey 4 0 0, (1, 0))] := ⟨_, rfl, by decide +kernel⟩

/-- Refutes O47, by its clause of a tag entry with one bad copy: the bit that TAG_SCRUB names is not repaired where the facet's scrub
stands past the last set, and the statement has no premise that bounds where it stands. -/
theorem not_scrubsCheckASet : ¬ Obligations.ScrubsCheckASet := by
  rintro ⟨h, -⟩
  obtain ⟨-, -, h, -⟩ := h 4 scrubPastLastSet (by decide +kernel) (by decide +kernel) (by decide +kernel)
  have hstated := (h 0 1 0).1 (by decide +kernel)
  obtain ⟨t, ht, hleft⟩ := scrubPastLastSet_leaves_upset
  rw [Host.Outcome.next.inj (ht.symm.trans hstated)] at hleft
  exact (List.cons_ne_nil _ _).symm hleft

end Sys2Proof.Machine
end

section
/-! PROOFS. The end of Shade's zero fill, over tag entries that were struck while the fill ran. -/

namespace Sys2Proof.Machine

/-- READY changes nothing in the facets. -/
@[simp] theorem Dev.reportSeal_cache (s : Dev) : s.reportSeal.cache = s.cache := by
  unfold Dev.reportSeal
  split <;> rfl

/-- The first end of the zero fill, from step 6 on, leaves of the upset tag entries what the fill does not write. -/
theorem exec_shadeZeroFillDone_tagUpset {s : State} (hstep : 6 ≤ s.get F.imgStatus_STEP) (hfill : s.img.zeroFilled = false) :
    ∃ t : State, exec .shadeZeroFillDone s = .next t ∧ t.cache.tagUpset = s.clearStores.cache.tagUpset := by
  refine ⟨_, s.onDev_eq Dev.zeroFillDone, ?_⟩
  have hgo : ¬ (s.get F.imgStatus_STEP < 6 || s.img.zeroFilled) = true := by simp [hfill, hstep]
  simp only [Dev.zeroFillDone, if_neg hgo, Dev.reportSeal_cache]
  rfl

/-- The fill writes every tag entry of a Shade way, so none of them stays upset (R188). -/
theorem Dev.not_mem_clearStores_tagUpset {s : Dev} {f set w : Nat} (hset : set < 2048) (hw : w < 16)
    (hshade : s.wayClass f w = clsShade) (u : BitVec 48 × BitVec 48) : (lineKey f set w, u) ∉ s.clearStores.cache.tagUpset := by
  have hfacet : lineKey f set w / 32768 = f := by simp only [lineKey]; omega
  have hway : lineKey f set w % 16 = w := by simp only [lineKey]; omega
  simp [Dev.clearStores, List.mem_filter, hfacet, hway, hshade]

/-- The slice of the pair in step 8 of its load, with one Shade way in half 0. -/
def shadeBuilding : State :=
  { pairedSlice with toDev := (pairedSlice.put F.imgStatus_STEP 8).put F.fctPartition_WORD 1 }

/-- A bit strikes a copy of the tag entry of that way in set 0 of facet 4, before the fill is over. -/
def struckShade : State := { shadeBuilding with toDev := shadeBuilding.inject { tags := [(4, 0, 15, 1, 0)] } }

/-- Refutes O33, by its clause of SHADE_ZERO_FILL_DONE: the fill writes the tag entries of the Shade ways (R188), so an upset bit of
one goes, and the statement, which has no premise that the arrays are sound, lets the cache stand but for the two marks that the
stores hold zeros. -/
theorem not_loadStepsGoOn : ¬ Obligations.LoadStepsGoOn := by
  rintro ⟨h, -⟩
  obtain ⟨-, hunfilled, -⟩ := h 0 1 struckShade (by decide +kernel) (by decide +kernel) (by decide)
  have hstated := (hunfilled rfl).2 rfl
  obtain ⟨t, ht, hcleared⟩ := exec_shadeZeroFillDone_tagUpset (s := struckShade) (by decide +kernel) rfl
  rw [Host.Outcome.next.inj (ht.symm.trans hstated)] at hcleared
  have hstays : (lineKey 4 0 15, (1, 0)) ∈ struckShade.cache.tagUpset := by decide +kernel
  have hgone : (lineKey 4 0 15, (1, 0)) ∉ struckShade.clearStores.cache.tagUpset :=
    Dev.not_mem_clearStores_tagUpset (by decide) (by decide) (by decide +kernel) _
  exact hgone (hcleared ▸ hstays)

end Sys2Proof.Machine
end

section
/-! PROOFS. COMP_ACK, POD_SYNC and POD_SYNC_DONE: a slice whose only open work is a transaction settles once that transaction waits. -/

namespace Sys2Proof.Machine

theorem Dev.keepRun_of_none {s : Dev} (h : s.lens.keeps = []) : s.keepRun = s := by
  have hlens : ({ s.lens with keeps := [] } : Lens) = s.lens := by rw [← h]
  simp only [Dev.keepRun, h, Dev.each_nil, hlens]

theorem Dev.slotsRun_of_none {s : Dev} (h : s.prism.slots = []) : s.slotsRun = s := by
  have hprism : ({ s.prism with slots := [] } : Prism) = s.prism := by rw [← h]
  simp only [Dev.slotsRun, h, List.filter_nil, Dev.each_nil, hprism]

theorem Dev.podOpsRun_of_none {s : Dev} (h : s.cache.podOps = []) : s.podOpsRun = s := by
  have hcache : ({ s.cache with podOps := [] } : Cache) = s.cache := by rw [← h]
  simp only [Dev.podOpsRun, h, List.filter_nil, Dev.each_nil, hcache]

/-- No death is handled further while every walk is still to end (R262, R265). -/
theorem Dev.deathsRun_of_walking {s : Dev} (h : ∀ d ∈ s.cache.deaths, d.walk < 2) : s.deathsRun = s := by
  have hnone : ∀ n, 2 ≤ n → ∀ q : Death → Bool, s.cache.deaths.filter (fun d => d.walk == n && q d) = [] := fun n hn q =>
    List.filter_eq_nil_iff.2 fun d hd hover => by
      have hwalk := h d hd
      have hn' : d.walk = n := beq_iff_eq.1 (Bool.and_eq_true_iff.1 hover).1
      omega
  simp only [Dev.deathsRun, hnone 2 (Nat.le_refl 2), hnone 3 (Nat.le_succ 2), Dev.each_nil]

/-- Beside its transactions, a slice has nothing to go on with; it settles at once where each of them can go no further. -/
theorem Dev.settle_of_waiting {s : Dev} (hq : ({ s with cache.txns := [] } : Dev).quiet = true)
    (hwait : ∀ t ∈ s.cache.txns, t.stage = .owed ∨ t.stage = .pod → s.advance t.id = s) : s.settle = s := by
  simp only [Dev.quiet, Bool.and_eq_true, List.isEmpty_iff, List.all_eq_true, decide_eq_true_eq] at hq
  obtain ⟨⟨⟨⟨⟨⟨⟨⟨⟨-, hrecons⟩, hmaint⟩, htyped⟩, hjobs⟩, hkeeps⟩, hslots⟩, hpods⟩, hdeaths⟩, houts⟩ := hq
  have hadvance : s.each (s.cache.txns.filter (fun t => t.stage == .owed || t.stage == .pod)) (fun s t => s.advance t.id) = s :=
    s.each_self _ _ fun t ht => by
      obtain ⟨hmem, hstage⟩ := List.mem_filter.1 ht
      exact hwait t hmem (by simpa using hstage)
  simp only [Dev.settle, hrecons, htyped, hjobs, hmaint, List.filter_nil, Dev.each_nil, s.conversionsRun_quiet houts,
    Dev.keepRun_of_none hkeeps, hadvance, Dev.maintWake, Dev.deathsRun_of_walking hdeaths, Dev.slotsRun_of_none hslots,
    Dev.podOpsRun_of_none hpods]

section
variable {s : Dev} {u : Txn} (h : s.cache.txns = [u])
include h

theorem Dev.updTxn_of_lone (f : Txn → Txn) : s.updTxn u.id f = { s with cache.txns := [f u] } := by
  simp [Dev.updTxn, h]

theorem Dev.dropTxn_of_lone : s.dropTxn u.id = { s with cache.txns := [] } := by
  simp [Dev.dropTxn, h]

/-- The one open transaction awaits POD_SYNC_DONE of a slice that is live (R449). -/
theorem Dev.advance_of_pod_awaited (hstage : u.stage = .pod) (hlive : ∃ p ∈ u.podWait, s.isLost p = false) : s.advance u.id = s := by
  have hwait : s.podOver u.podWait = false := List.all_eq_false.2 (by simpa using hlive)
  simp [Dev.advance, Dev.txn, h, hstage, hwait]

end

/-- COMP_ACK of the one grant that awaits it ends its hold (R221, R241). -/
theorem Dev.compAck_of_lone {s : Dev} {u : Txn} (hact : s.active = true) (hsrc : s.discards u.src.toNat = false)
    (hq : ({ s with cache.txns := [] } : Dev).quiet = true) (hu : s.cache.txns = [u]) (hstage : u.stage = .ack) :
    s.compAck u.src u.ackTxid = { s with cache.txns := [] } := by
  simp [Dev.compAck, hact, hsrc, hu, hstage, Dev.dropTxn_of_lone hu, Dev.settle_quiet _ hq]

/-- POD_SYNC of another slice is answered at once where no write of its agent is posted (R449). -/
theorem Dev.podSyncIn_of_none_posted {s : Dev} {q : Pos} {src : Agent} (txid : BitVec 12) (hact : s.active = true)
    (hother : q.toNat ≠ s.pos) (hlive : s.deaf q.toNat = false) (hpods : s.cache.pods = []) (hnone : s.postedWrites src = []) :
    s.podSyncIn q.toNat src txid = s.send (.ctl q.toNat (.podSyncDone src txid)) := by
  have hcache : ({ s.cache with pods := [] } : Cache) = s.cache := by rw [← hpods]
  simp [Dev.podSyncIn, hact, hlive, hpods, hnone, Dev.podRun, hother, hcache]

/-- POD_SYNC waits for the writes of its agent that are posted (R449). -/
theorem Dev.podSyncIn_of_posted {s : Dev} {q : Nat} {src : Agent} (txid : BitVec 12) (hact : s.active = true)
    (hlive : s.deaf q = false) (hpods : s.cache.pods = []) (hsome : s.postedWrites src ≠ []) :
    s.podSyncIn q src txid = { s with cache.pods := [(q, src.toNat, txid.toNat, s.postedWrites src)] } := by
  simp [Dev.podSyncIn, hact, hlive, hpods, hsome, Dev.podRun]

/-- POD_SYNC_DONE of one slice is counted, while another that is live is awaited (R449). -/
theorem Dev.podDoneIn_of_awaited {s : Dev} {u : Txn} {q : Nat} (hu : s.cache.txns = [u]) (hstage : u.stage = .pod)
    (hq : q ∈ u.podWait) (hlive : ∃ p ∈ u.podWait.erase q, s.isLost p = false) :
    s.podDoneIn q u.src (BitVec.ofNat 12 u.id) = { s with cache.txns := [{ u with podWait := u.podWait.erase q }] } := by
  have hfind : s.cache.txns.find? (fun t => t.stage == .pod && t.src == u.src && t.id % 4096 == (BitVec.ofNat 12 u.id).toNat &&
      t.podWait.contains q) = some u := by
    simp [hu, hstage, hq]
  simp only [Dev.podDoneIn, Dev.podDoneAt, hfind, Dev.updTxn_of_lone hu]
  exact Dev.advance_of_pod_awaited (u := { u with podWait := u.podWait.erase q }) rfl hstage hlive

/-- Settles O42: a COMP_ACK leaves a quiet slice, and a POD_SYNC_DONE a transaction that waits on, so the slice settles at once. -/
theorem acknowledgementsAreTaken : Obligations.AcknowledgementsAreTaken := by
  refine ⟨?_, ?_, ?_⟩
  · rintro src txid u s hact hdis hq hu hstage rfl rfl
    exact next_congr (Dev.compAck_of_lone hact hdis hq hu hstage)
  · intro q src txid s hact hother hlive hpods
    exact ⟨fun hnone => next_congr (Dev.podSyncIn_of_none_posted txid hact hother hlive hpods hnone),
      fun hsome => next_congr (Dev.podSyncIn_of_posted txid hact hlive hpods hsome)⟩
  · intro q u s hq hu hstage hmem hdeaf hlive
    refine next_congr ((if_neg (by rw [hdeaf]; exact Bool.false_ne_true)).trans ?_)
    rw [Dev.podDoneIn_of_awaited hu hstage hmem hlive]
    refine Dev.settle_of_waiting hq fun t ht _ => ?_
    obtain rfl := List.mem_singleton.1 ht
    exact Dev.advance_of_pod_awaited rfl hstage hlive

end Sys2Proof.Machine
end

section
/-! PROOFS. SNP_DATA of an owner whose granule's directory entry was struck while the snoop was out: the entry is written as the read
ends. -/

namespace Sys2Proof.Machine

/-- A READ_ONCE of the granule, under the request with identity 0, that awaits the reply of its owner, agent 2. -/
def ownerSnooped : Txn :=
  { farAtomicAtEngine with
    op := .readOnce, stage := .snoop, before := some (.excl 2), after := some (.excl 2), awaiting := [2] }

/-- The slice of that request and its transaction. Agent 2 owns the granule. -/
def snoopingOwner : State :=
  let d : Dev := memSlice.setHome readPlace (some (.excl 2)) none
  { memSlice with toDev :=
    { d with cache.reqs := [pulledEntry 0 memRegion .readOnce ownRead 0], cache.txns := [ownerSnooped] } }

/-- A bit strikes a copy of the granule's directory entry before the reply comes. -/
def struckEntry : State := { snoopingOwner with toDev := snoopingOwner.inject { dirs := [(4, 0, 0, 1, 0)] } }

/-- The owner returns its data and keeps the granule as it was. -/
def keepingReply : SnoopReply :=
  { home := 0, src := 2, txid := 1, final := 3, notPresent := false, sector := 0x1000, fgroup := 4, subIndex := 0 }

theorem struckEntry_upset : struckEntry.cache.dirUpset = [(dirKey 4 0 0, (1, 0))] := by decide +kernel

/-- The read ends and writes the entry, both copies of it, so the bit is gone. -/
theorem struckEntry_snpData_heals : ∃ t : State, exec (.snpData keepingReply 0) struckEntry = .next t ∧ t.cache.dirUpset = [] :=
  ⟨_, rfl, by decide +kernel⟩

/-- Refutes O41, by its clause of a READ_ONCE whose owner keeps the granule: the home state is written again as the read ends, so an
upset bit of its entry goes, and the statement, which has no premise here that the arrays are sound, lets all of the cache stand but
for entries, requests and transactions. -/
theorem not_snoopRepliesAreTaken : ¬ Obligations.SnoopRepliesAreTaken := by
  rintro ⟨-, -, h⟩
  obtain ⟨t, ht, -, -, hsame⟩ := h keepingReply 0 ownerSnooped 0 ownRead 0 struckEntry (by decide +kernel) (by decide +kernel)
    (by decide +kernel) (by decide +kernel) (by decide +kernel) (by decide +kernel) (by decide +kernel) (by decide +kernel) rfl rfl
    (by decide) rfl rfl rfl rfl rfl rfl rfl rfl (by decide +kernel) rfl rfl rfl (by decide +kernel) (by decide)
  obtain ⟨u, hu, hnone⟩ := struckEntry_snpData_heals
  cases hu.symm.trans ht
  have hstays : t.cache.dirUpset = struckEntry.cache.dirUpset := by rw [hsame]
  rw [hnone, struckEntry_upset] at hstays
  exact (List.cons_ne_nil _ _).symm hstays

end Sys2Proof.Machine
end

section
/-! PROOFS. What the leader carries to a slice, and EXPOSE. -/

namespace Sys2Proof.Machine

/-- A set-wide command that the leader carries runs at a slice that does not lead (R691). -/
theorem Dev.forwardIn_of_carried {s : Dev} {sender code : Nat} (hact : s.active = true) (hlead : s.isLeader = false)
    (hsender : sender = s.leader) (hdeaf : s.deaf sender = false) (hset : setWide code = true) (arg : Nat) :
    s.forwardIn sender code arg = s.runLocal code arg := by
  subst hsender
  simp [Dev.forwardIn, hact, hlead, hdeaf, hset]

/-- A set-wide command of another slice is carried to the set by the leader (R691). -/
theorem Dev.forwardIn_of_leader {s : Dev} {sender code : Nat} (hact : s.active = true) (hlead : s.isLeader = true)
    (hother : sender ≠ s.pos) (hdeaf : s.deaf sender = false) (hset : setWide code = true) (arg : Nat) :
    s.forwardIn sender code arg = s.distribute code arg := by
  simp [Dev.forwardIn, hact, hlead, hdeaf, hset, hother]

/-- No command runs whose RESULT could be told. -/
theorem Dev.cmdResult_of_none {s : Dev} (h : s.mgmt.cmd = none) (code r : Nat) : s.cmdResult code r = s := by
  simp [Dev.cmdResult, h]

theorem Dev.liftFence_of_agent (s : Dev) {a : Nat} (h : a < 48) :
    s.liftFence a = s.put F.fctFence_MASK (withBits (s.get F.fctFence_MASK) a a 0) := if_pos h

/-- Above 47 there is no agent (log entry 67). -/
theorem Dev.liftFence_of_none (s : Dev) {a : Nat} (h : 48 ≤ a) : s.liftFence a = s := if_neg (Nat.not_lt.2 h)

/-- LIFT_FENCE as it reaches a slice at which no command of its own runs (R268). -/
theorem Dev.runLocal_liftFence {s : Dev} (hcmd : s.mgmt.cmd = none) (a : Nat) : s.runLocal 0x04 a = s.liftFence a := by
  refine Dev.cmdResult_of_none ?_ _ _
  unfold Dev.liftFence
  split <;> exact hcmd

/-- A reset of other slices does nothing here (R701). -/
theorem Dev.runLocal_reset_of_not_target {s : Dev} {code arg : Nat} (hcode : code ∈ [0x14, 0x15, 0x16])
    (h : bitAt arg s.pos = false) : s.runLocal code arg = s := by
  simp only [List.mem_cons, List.not_mem_nil, or_false] at hcode
  rcases hcode with rfl | rfl | rfl <;> simp [Dev.runLocal, h]

/-- The leader sends an EXPOSE that names a boundary to every slice, the last copy to itself (R779). -/
theorem Dev.distribute_expose (s : Dev) {arg : BitVec 48} (h : arg ≠ 0) : s.distribute 0x20 arg.toNat = { s with
    outbox := s.outbox ++ s.others.map (fun p => Msg.ctl p (.expose arg)) ++ [.ctl s.pos (.expose arg)] } := by
  have hne : (arg.toNat == 0) = false := beq_false_of_ne fun h0 => h (BitVec.eq_of_toNat_eq h0)
  have hframe : BitVec.ofNat 48 (if arg.toNat == 0 then s.namedBoundary else arg.toNat) = arg := by
    simp [hne]
  simp only [Dev.distribute, beq_self_eq_true, if_true, hframe, Dev.ctlSet_eq]
  rfl

/-- Settles O29: each carried command runs at the slice, and the leader sends CTL_EXPOSE to the set. -/
theorem carriedCommandsRun : Obligations.CarriedCommandsRun := by
  refine ⟨fun sender s hact hlead hsender hdeaf hcmd => ?_, fun sender frame arg s hact => ⟨?_, fun hlead hother hdeaf harg => ?_⟩⟩
  · have hrun : ∀ (code : BitVec 8) (arg : BitVec 48), setWide code.toNat = true →
        exec (.forward sender code arg) s = .next { s with toDev := s.runLocal code.toNat arg.toNat } := fun code arg hset =>
      next_congr (Dev.forwardIn_of_carried hact hlead hsender hdeaf hset arg.toNat)
    refine ⟨hrun 0x02 0 (by decide), hrun 0x12 0 (by decide), fun arg harg => ?_, fun arg harg => ?_, fun arg harg => ⟨?_, ?_, ?_⟩⟩
    · exact (hrun 0x04 arg (by decide)).trans
        (next_congr ((Dev.runLocal_liftFence hcmd _).trans (s.liftFence_of_agent harg)))
    · exact (hrun 0x04 arg (by decide)).trans
        (next_congr ((Dev.runLocal_liftFence hcmd _).trans (s.liftFence_of_none harg)))
    · exact (hrun 0x14 arg (by decide)).trans (next_congr (Dev.runLocal_reset_of_not_target (by decide) harg))
    · exact (hrun 0x15 arg (by decide)).trans (next_congr (Dev.runLocal_reset_of_not_target (by decide) harg))
    · exact (hrun 0x16 arg (by decide)).trans (next_congr (Dev.runLocal_reset_of_not_target (by decide) harg))
  · exact next_congr (if_pos hact)
  · exact next_congr ((Dev.forwardIn_of_leader hact hlead hother hdeaf (by decide) _).trans (s.distribute_expose harg))

end Sys2Proof.Machine
end

section
/-! PROOFS. Tickets: RETRY for the earliest one with room, and the lapse of a reservation. -/

namespace Sys2Proof.Machine

theorem exec_parkedPartResume (f : BitVec 6) {s : State} (hact : s.active = true) :
    exec (.parkedPartResume f) s = .next { s with toDev := s.parkedResume f.toNat } := by
  refine next_congr (if_neg ?_)
  simp [hact]

/-- A ticket of a live agent gets RETRY and its reservation (R252). -/
theorem Dev.retry_of_unfenced {s : Dev} {t : Ticket} (h : s.fenced t.agent.toNat = false) : s.retry t = { s with
    cache.tickets := s.cache.tickets.map (fun (k : Ticket) =>
      if k.facet == t.facet && k.ticket == t.ticket then { k with reserved := true } else k)
    outbox := s.outbox ++ [Msg.retry t.agent t.ticket t.txid] } := by
  refine if_neg (c := s.fenced t.agent.toNat = true) ?_
  simp [h]

/-- Nothing waits for a directory set where no part is parked and no ticket stands for one. -/
theorem Dev.dirWaits_of_none {s : Dev} (hparked : s.cache.parked = []) (htickets : ∀ t ∈ s.cache.tickets, t.bound ≠ .directory)
    (f : Nat) : s.dirWaits f = [] := by
  have hnone : (s.ticketsOf f).filter (fun t => t.bound == .directory) = [] :=
    List.filter_eq_nil_iff.2 fun t ht => by simpa using htickets t (List.mem_filter.1 ht).1
  simp [Dev.dirWaits, hparked, hnone]

section
variable {s : Dev} (hq : s.quiet = true) (hparked : s.cache.parked = [])
  (htickets : ∀ t ∈ s.cache.tickets, t.bound ≠ .directory) {f : Nat}
include hq hparked htickets

/-- With no part parked, the freed resource goes to the earliest ticket that has room (R251, R252). -/
theorem Dev.parkedResume_of_ticket {t : Ticket} (hnext : s.nextTicket f (fun _ => true) = some t) :
    s.parkedResume f = (s.retry t).settle := by
  simp [Dev.parkedResume, Dev.txns_of_quiet hq, Dev.dirWaits_of_none hparked htickets, hnext]

/-- With no such ticket either, it stays free. -/
theorem Dev.parkedResume_of_none (hnext : s.nextTicket f (fun _ => true) = none) : s.parkedResume f = s := by
  have hpick : s.pickList = [] := by simp [Dev.pickList, hparked]
  simp [Dev.parkedResume, Dev.txns_of_quiet hq, Dev.dirWaits_of_none hparked htickets, hnext, hpick, s.settle_quiet hq]

end

/-- A reserved ticket that is dropped and counted as lapsed (R255). -/
def Dev.lapsed (s : Dev) (f : Nat) (tk : BitVec 16) : Dev := (s.dropTicket f tk).bump (F.fctTicket_LAPSED f)

/-- Dropping a ticket touches no register, so it may as well be dropped after the count. -/
theorem Dev.lapsed_eq (s : Dev) (f : Nat) (tk : BitVec 16) : s.lapsed f tk = { s.bump (F.fctTicket_LAPSED f) with
    cache.tickets := s.cache.tickets.filter (fun e => !(e.facet == f && e.ticket == tk)) } := rfl

/-- The count of lapsed tickets is no fence. -/
theorem Dev.lapsed_fenced (s : Dev) (f : Nat) (tk : BitVec 16) (a : Nat) : (s.lapsed f tk).fenced a = s.fenced a := by
  have hoff : (F.fctTicket_LAPSED f).off ≠ F.fctFence_MASK.off := by
    simp only [F.fctTicket_LAPSED, F.fctFence_MASK, R.fctTicket, R.fctFence]
    omega
  have hmask : (s.lapsed f tk).get F.fctFence_MASK = s.get F.fctFence_MASK := (s.dropTicket f tk).get_put_other _ _ _ hoff
  rw [Dev.fenced, Dev.fenced, hmask]

section
variable {s : Dev} {f : Nat} {tk : BitVec 16} {t : Ticket} (ht : s.ticket f tk = some t) (hres : t.reserved = true)
include ht hres

theorem Dev.ticketLapse_of_none (hnext : (s.lapsed f tk).nextTicket f (fun x => x.sameInstance t) = none) :
    s.ticketLapse f tk = s.lapsed f tk := by
  unfold Dev.lapsed at hnext
  simp [Dev.ticketLapse, ht, hres, hnext, Dev.lapsed]

theorem Dev.ticketLapse_of_next {n : Ticket} (hnext : (s.lapsed f tk).nextTicket f (fun x => x.sameInstance t) = some n) :
    s.ticketLapse f tk = (s.lapsed f tk).retry n := by
  unfold Dev.lapsed at hnext
  simp [Dev.ticketLapse, ht, hres, hnext, Dev.lapsed]

end

/-- Settles O45: RETRY bears on no work, so the slice settles at once after it, and a lapse only passes the reservation on. -/
theorem ticketsAreRetried : Obligations.TicketsAreRetried := by
  refine ⟨fun f t s hact hq hparked htickets hnext hlive => ?_, fun f s hact hq hparked hnone => ?_,
    fun f tk t s ht hres hnext => ?_, fun f tk t n s ht hres hnext hlive => ?_⟩
  · refine (exec_parkedPartResume f hact).trans (next_congr ?_)
    rw [Dev.parkedResume_of_ticket hq hparked htickets hnext, Dev.retry_of_unfenced hlive]
    exact Dev.settle_quiet _ hq
  · refine (exec_parkedPartResume f hact).trans (next_congr (Dev.parkedResume_of_none hq hparked (by simp [hnone]) ?_))
    simp [Dev.nextTicket, Dev.ticketsOf, hnone]
  · exact next_congr (Dev.ticketLapse_of_none ht hres hnext)
  · refine next_congr ((Dev.ticketLapse_of_next ht hres hnext).trans (Dev.retry_of_unfenced ?_))
    rwa [Dev.lapsed_fenced]

end Sys2Proof.Machine
end

section
/-! PROOFS. SNOOP_TIMEOUT of an agent that owes a reply to a granule's poison write and the granule's COMP_ACK. -/

namespace Sys2Proof.Machine

/-- A READ_SHARED that agent 2 was granted, in the poison write of its granule: the hold waits for agent 2's COMP_ACK and for its
reply to the SNP_INV of the death (R241, R263). -/
def poisonedGrant : Txn :=
  { farAtomicAtEngine with op := .readShared, src := 2, stage := .owed, code := .poison, awaiting := [2], ackDue := true }

/-- The slice of the pair with that transaction. -/
def poisoningSlice : State := { memSlice with cache.txns := [poisonedGrant] }

/-- The suspicion names the COMP_ACK, which the transaction awaits in its poison write too (R259). -/
theorem poisoningSlice_suspects_ack : ∃ t : State, exec (.snoopTimeout 1 2) poisoningSlice = .next t ∧
    t.outbox = [.ctl 0 (.agentSuspect 2 1)] := ⟨_, rfl, by decide +kernel⟩

/-- Refutes O49, by its clause of SNOOP_TIMEOUT: a transaction in its poison write may await a COMP_ACK as well (R241, R262), and
the cause then is that of a COMP_ACK, where the statement has the cause of a snoop reply at every stage but the one that waits for the
COMP_ACK alone. -/
theorem not_deathsAreDecided : ¬ Obligations.DeathsAreDecided := by
  rintro ⟨h, -⟩
  have hstated := h 1 2 poisonedGrant poisoningSlice (by decide +kernel) rfl (by decide) (by decide +kernel) (.inl (by decide))
  obtain ⟨t, ht, hack⟩ := poisoningSlice_suspects_ack
  rw [Host.Outcome.next.inj (ht.symm.trans hstated)] at hack
  exact absurd hack (by decide +kernel)

end Sys2Proof.Machine
end

section
/-! PROOFS. DEATH_WALK_END: the deaths whose walk is over, their records and FCT_DEATH. -/

namespace Sys2Proof.Machine

/-! ### The list of deaths -/

/-- A death once the walk of agent a's stands at k: at the end of the walk, where no poison write was done before it, its last one
counts as done (R273). -/
def Death.endedAt (d : Death) (a : Agent) (k now : Nat) : Death :=
  if d.agent == a then { d with walk := k, last := d.last.or (some now) } else d

theorem Death.endedAt_same (d : Death) (k now : Nat) :
    d.endedAt d.agent k now = { d with walk := k, last := d.last.or (some now) } := if_pos (beq_self_eq_true _)

theorem Death.endedAt_other {d : Death} {a : Agent} (h : d.agent ≠ a) (k now : Nat) : d.endedAt a k now = d :=
  if_neg fun hd => h (beq_iff_eq.1 hd)

@[simp] theorem Death.endedAt_agent (d : Death) (a : Agent) (k now : Nat) : (d.endedAt a k now).agent = d.agent := by
  unfold Death.endedAt
  split <;> rfl

/-- The deaths under way with agent a's walk at k. -/
def Dev.deathsAt (s : Dev) (a : Agent) (k : Nat) : List Death := s.cache.deaths.map fun d => d.endedAt a k s.now

/-- The other deaths are as they were. -/
theorem Dev.deathsAt_filter_other (s : Dev) (a : Agent) (k : Nat) :
    (s.deathsAt a k).filter (fun d => d.agent != a) = s.cache.deaths.filter (fun d => d.agent != a) := by
  rw [Dev.deathsAt, List.filter_map]
  simp only [Function.comp_def, Death.endedAt_agent]
  refine (List.map_congr_left fun d hd => ?_).trans (List.map_id _)
  exact Death.endedAt_other (by simpa using (List.mem_filter.1 hd).2) k s.now

/-- A walk at 2 goes to 3. -/
theorem Dev.deathsAt_recorded (s : Dev) (a : Agent) :
    (s.deathsAt a 2).map (fun (d : Death) => if d.agent == a then { d with walk := 3 } else d) = s.deathsAt a 3 := by
  rw [Dev.deathsAt, List.map_map]
  refine List.map_congr_left fun d _ => ?_
  by_cases h : d.agent = a
  · subst h
    simp [Death.endedAt_same]
  · simp [Death.endedAt_other h, h]

/-- The slice with other deaths under way. -/
def Dev.setDeaths (s : Dev) (l : List Death) : Dev := { s with cache.deaths := l }

@[simp] theorem Dev.setDeaths_deaths (s : Dev) (l : List Death) : (s.setDeaths l).cache.deaths = l := rfl
@[simp] theorem Dev.setDeaths_deathCount (s : Dev) (l : List Death) : (s.setDeaths l).cache.deathCount = s.cache.deathCount := rfl
@[simp] theorem Dev.setDeaths_deathOpen (s : Dev) (l : List Death) (a : Agent) : (s.setDeaths l).deathOpen a = s.deathOpen a := rfl

/-! ### The steps of a death's end -/

/-- What FCT_DEATH shows of a death whose handling ends, where its walk ended now and some granules were poisoned (R273). -/
def Death.word (x : Death) (now poisoned : Nat) : Nat :=
  2 ^ 63 + x.agent.toNat * 2 ^ 50 + x.cause.toNat * 2 ^ 48 + min ((x.last.getD now - x.start) / 1600) 65535 * 2 ^ 32 +
    min poisoned (2 ^ 32 - 1)

/-- Whether a write-back poisons a granule for a dead agent. -/
def Wb.poisonsFor (w : Wb) (a : Agent) : Bool :=
  match w.why with
  | .poison b _ => b == a
  | _ => false

theorem Dev.deathsRun_eq (s : Dev) : s.deathsRun =
    let s1 := s.each (s.cache.deaths.filter (fun d => d.walk == 2 && !s.deathOpen d.agent)) Dev.deathRecords
    s1.each (s1.cache.deaths.filter (fun d => d.walk == 3 && !s1.cache.wbs.any (fun w => w.poisonsFor d.agent))) Dev.deathOver := rfl

section
variable {s : Dev} {x : Death}

/-- A facet that poisoned nothing writes no record (R265). -/
theorem Dev.deathRecords_of_none (hcount : s.cache.deathCount = []) :
    (s.setDeaths (s.deathsAt x.agent 2)).deathRecords (x.endedAt x.agent 2 s.now) = s.setDeaths (s.deathsAt x.agent 3) := by
  have hnone : s.cache.deathCount.filter (fun e => e.1 == x.agent) = [] := by simp [hcount]
  simp only [Dev.deathRecords, Dev.setDeaths_deathCount, Death.endedAt_agent, hnone, Dev.each_nil]
  rw [← Dev.deathsAt_recorded]
  rfl

/-- The one facet that poisoned writes the record of type 6 (R265, R786). -/
theorem Dev.deathRecords_of_one {f n d : Nat} (hcount : s.cache.deathCount = [(x.agent, f, n, d)]) :
    (s.setDeaths (s.deathsAt x.agent 2)).deathRecords (x.endedAt x.agent 2 s.now) =
      (s.errorRecord 0x06 f d (x.agent.toNat + x.cause.toNat * 64) n).setDeaths (s.deathsAt x.agent 3) := by
  have hmine : s.cache.deathCount.filter (fun e => e.1 == x.agent) = [(x.agent, f, n, d)] := by simp [hcount]
  simp only [Dev.deathRecords, Dev.setDeaths_deathCount, hmine, Dev.each_cons, Dev.each_nil, Death.endedAt_same]
  rw [← Dev.deathsAt_recorded]
  rfl

/-- The end of a death's handling writes FCT_DEATH, with the granules that its facets counted, and takes the death off (R265,
R273). -/
theorem Dev.deathOver_endedAt {u : Dev} {n : Nat} {rest : List (Agent × Nat × Nat × Nat)}
    (hsum : (u.cache.deathCount.filter (fun e => e.1 == x.agent)).foldl (fun n e => n + e.2.2.1) 0 = n)
    (hrest : u.cache.deathCount.filter (fun e => e.1 != x.agent) = rest) :
    (u.setDeaths (s.deathsAt x.agent 3)).deathOver (x.endedAt x.agent 3 s.now) =
      { (u.setReg R.fctDeath (x.word s.now n)).alert alertFct with
        cache.deaths := s.cache.deaths.filter (fun d => d.agent != x.agent), cache.deathCount := rest } := by
  have hlast : ∀ n, (x.last.or (some s.now)).getD n = x.last.getD s.now := fun n => by cases x.last <;> rfl
  rw [← Dev.deathsAt_filter_other s x.agent 3, Death.word, ← hlast u.now, Death.endedAt_same, ← hsum, ← hrest]
  rfl

end

/-! ### A death whose walk ends -/

section
variable {s : Dev} {x : Death} (hmine : s.cache.deaths.filter (fun d => d.agent == x.agent) = [x])
include hmine

theorem Dev.death_eq_of_agent {d : Death} (hd : d ∈ s.cache.deaths) (hagent : d.agent = x.agent) : d = x :=
  List.mem_singleton.1 (hmine ▸ List.mem_filter.2 ⟨hd, beq_iff_eq.2 hagent⟩)

/-- Before its end, the walk of the one death of its agent comes to 2. -/
theorem Dev.deathEnd_eq (hwalk : x.walk < 2) : s.deathEnd x.agent = (s.setDeaths (s.deathsAt x.agent 2)).deathsRun := by
  have hdeaths : s.cache.deaths.map (fun (d : Death) =>
      if d.agent == x.agent then { d with walk := max 2 d.walk, last := d.last.or (some s.now) } else d) =
      s.deathsAt x.agent 2 := by
    refine List.map_congr_left fun d hd => ?_
    by_cases hagent : d.agent = x.agent
    · obtain rfl := Dev.death_eq_of_agent hmine hd hagent
      rw [if_pos (beq_self_eq_true _), Death.endedAt_same, Nat.max_eq_left (Nat.le_of_lt hwalk)]
    · rw [if_neg (by simpa using hagent), Death.endedAt_other hagent]
  rw [Dev.deathEnd, hdeaths, Dev.setDeaths]

variable (hothers : ∀ d ∈ s.cache.deaths, d.agent ≠ x.agent → d.walk < 2)
include hothers

/-- Of the deaths, at most that of the agent is further than its walk. -/
theorem Dev.deathsAt_filter_walk {k n : Nat} (hn : 2 ≤ n) (q : Death → Bool) :
    (s.deathsAt x.agent k).filter (fun d => d.walk == n && q d) =
      if k = n ∧ q (x.endedAt x.agent k s.now) = true then [x.endedAt x.agent k s.now] else [] := by
  have hat : ∀ d ∈ s.cache.deaths, ((fun (d : Death) => d.walk == n && q d) ∘ fun d => d.endedAt x.agent k s.now) d =
      (d.agent == x.agent && (k == n && q (x.endedAt x.agent k s.now))) := by
    intro d hd
    by_cases hagent : d.agent = x.agent
    · obtain rfl := Dev.death_eq_of_agent hmine hd hagent
      simp [Death.endedAt_same]
    · have hwalk : d.walk ≠ n := by have := hothers d hd hagent; omega
      simp [Death.endedAt_other hagent, beq_false_of_ne hagent, beq_false_of_ne hwalk]
  rw [Dev.deathsAt, List.filter_map, List.filter_congr hat]
  by_cases hgo : k = n ∧ q (x.endedAt x.agent k s.now) = true
  · have hyes : (k == n && q (x.endedAt x.agent k s.now)) = true := by simpa using hgo
    simp only [hyes, Bool.and_true, hmine, List.map_cons, List.map_nil, if_pos hgo]
  · have hno : (k == n && q (x.endedAt x.agent k s.now)) = false := by simpa using hgo
    simp only [hno, Bool.and_false, List.filter_false, List.map_nil, if_neg hgo]

/-- A death whose transactions are still open goes no further (R262). -/
theorem Dev.deathsRun_of_open (hopen : s.deathOpen x.agent = true) :
    (s.setDeaths (s.deathsAt x.agent 2)).deathsRun = s.setDeaths (s.deathsAt x.agent 2) := by
  simp [Dev.deathsRun_eq, Dev.deathsAt_filter_walk hmine hothers, hopen]

/-- With none open its facets write their records, and it waits for its poison writes (R265, R273; log entry 98). -/
theorem Dev.deathsRun_of_closed (hopen : s.deathOpen x.agent = false) {r : Dev}
    (hr : (s.setDeaths (s.deathsAt x.agent 2)).deathRecords (x.endedAt x.agent 2 s.now) = r.setDeaths (s.deathsAt x.agent 3)) :
    (s.setDeaths (s.deathsAt x.agent 2)).deathsRun =
      if r.cache.wbs.any (fun w => w.poisonsFor x.agent) = true then r.setDeaths (s.deathsAt x.agent 3)
      else (r.setDeaths (s.deathsAt x.agent 3)).deathOver (x.endedAt x.agent 3 s.now) := by
  have hwbs : (r.setDeaths (s.deathsAt x.agent 3)).cache.wbs = r.cache.wbs := rfl
  simp only [Dev.deathsRun_eq, Dev.setDeaths_deaths, Dev.setDeaths_deathOpen, Dev.deathsAt_filter_walk hmine hothers (Nat.le_refl 2),
    Death.endedAt_agent, hopen, Bool.not_false, and_self, if_true, Dev.each_cons, Dev.each_nil, hr,
    Dev.deathsAt_filter_walk hmine hothers (Nat.le_succ 2), hwbs, true_and]
  cases r.cache.wbs.any (fun w => w.poisonsFor x.agent) <;> rfl

variable (hwalk : x.walk < 2)
include hwalk

theorem Dev.deathEnd_of_open (hopen : s.deathOpen x.agent = true) : s.deathEnd x.agent = s.setDeaths (s.deathsAt x.agent 2) :=
  (Dev.deathEnd_eq hmine hwalk).trans (Dev.deathsRun_of_open hmine hothers hopen)

variable (hopen : s.deathOpen x.agent = false)
include hopen

/-- The death waits for its poison writes. -/
theorem Dev.deathEnd_of_writing (hcount : s.cache.deathCount = [])
    (hleft : s.cache.wbs.any (fun w => w.poisonsFor x.agent) = true) : s.deathEnd x.agent = s.setDeaths (s.deathsAt x.agent 3) := by
  rw [Dev.deathEnd_eq hmine hwalk, Dev.deathsRun_of_closed hmine hothers hopen (Dev.deathRecords_of_none hcount), if_pos hleft]

variable (hleft : s.cache.wbs.any (fun w => w.poisonsFor x.agent) = false)
include hleft

/-- The death of an agent that owned nothing here is over with its walk. -/
theorem Dev.deathEnd_of_none (hcount : s.cache.deathCount = []) : s.deathEnd x.agent =
    { (s.setReg R.fctDeath (x.word s.now 0)).alert alertFct with
      cache.deaths := s.cache.deaths.filter (fun d => d.agent != x.agent) } := by
  have hrest : s.cache.deathCount.filter (fun e => e.1 != x.agent) =
      ((s.setReg R.fctDeath (x.word s.now 0)).alert alertFct).cache.deathCount := by
    rw [Dev.alert_cache, Dev.setReg_cache, hcount, List.filter_nil]
  rw [Dev.deathEnd_eq hmine hwalk, Dev.deathsRun_of_closed hmine hothers hopen (Dev.deathRecords_of_none hcount),
    if_neg (ne_true_of_eq_false hleft), Dev.deathOver_endedAt (n := 0) (by simp [hcount]) hrest]

/-- The death of an agent with granules poisoned in one facet, all written. -/
theorem Dev.deathEnd_of_one {f n d : Nat} (hcount : s.cache.deathCount = [(x.agent, f, n, d)]) : s.deathEnd x.agent =
    { ((s.errorRecord 0x06 f d (x.agent.toNat + x.cause.toNat * 64) n).setReg R.fctDeath (x.word s.now n)).alert alertFct with
      cache.deaths := s.cache.deaths.filter (fun d => d.agent != x.agent), cache.deathCount := [] } := by
  have hcache : (s.errorRecord 0x06 f d (x.agent.toNat + x.cause.toNat * 64) n).cache = s.cache := rfl
  rw [Dev.deathEnd_eq hmine hwalk, Dev.deathsRun_of_closed hmine hothers hopen (Dev.deathRecords_of_one hcount), hcache,
    if_neg (ne_true_of_eq_false hleft),
    Dev.deathOver_endedAt (n := n) (rest := []) (by simp [hcache, hcount]) (by simp [hcache, hcount])]

end

end Sys2Proof.Machine
end

section
/-! PROOFS. RECLAIM: the walk over a directory of one entry. -/

namespace Sys2Proof.Machine

/-! ### The walk -/

theorem Dev.dirUpset_of_unscathed (s : Dev) (h : s.unscathed = true) : s.cache.dirUpset = [] := by
  simp only [Dev.unscathed, Bool.and_eq_true, List.isEmpty_iff] at h
  obtain ⟨⟨⟨-, hdirs⟩, -⟩, -⟩ := h
  exact hdirs

/-- The deaths under way once the walk of agent a's is made. -/
def Dev.walkMade (s : Dev) (a : Agent) : List Death :=
  s.cache.deaths.map (fun (d : Death) => if d.agent == a then { d with walk := max 1 d.walk } else d)

/-- A slice whose walks are still to end stays quiet when one of them is made. -/
theorem Dev.quiet_walkMade {s : Dev} (hq : s.quiet = true) (a : Agent) : (s.setDeaths (s.walkMade a)).quiet = true := by
  simp only [Dev.quiet, Bool.and_eq_true] at hq ⊢
  obtain ⟨⟨hwork, hdeaths⟩, houts⟩ := hq
  refine ⟨⟨hwork, List.all_eq_true.2 fun x hx => ?_⟩, houts⟩
  obtain ⟨d, hd, rfl⟩ := List.mem_map.1 hx
  have hwalk : d.walk < 2 := by simpa using List.all_eq_true.1 hdeaths d hd
  split
  · exact decide_eq_true (Nat.max_lt.2 ⟨Nat.one_lt_two, hwalk⟩)
  · exact decide_eq_true hwalk

/-- With nothing under way and no copy of an entry upset, the walk comes to its step at the one entry (R262). -/
theorem Dev.reclaimIn_of_lone {s : Dev} {a : Agent} {k : Nat} {e : DirEntry} (hact : s.active = true)
    (hfenced : s.fenced a.toNat = true) (hq : s.quiet = true) (hsound : s.cache.dirUpset = []) (hdir : s.cache.dir = [(k, e)]) :
    s.reclaimIn a = ((s.walkEntry e a).setDeaths ((s.walkEntry e a).walkMade a)).settle := by
  have hlit : s.phase ≠ .eclipse := fun h => by simp [Dev.active, h] at hact
  have hreads : s.walkReads = s := by simp [Dev.walkReads, hsound]
  simp only [Dev.reclaimIn, hact, hfenced, hreads, beq_false_of_ne hlit, Dev.txns_of_quiet hq, hdir, Bool.not_true, Bool.or_self,
    Bool.false_eq_true, if_false, List.map_nil, List.map_cons, Dev.each_nil, Dev.each_cons]
  rfl

/-- The way that holds the one entry of the directory, written or freed. -/
theorem Dev.setDir_of_lone {s : Dev} {f set w : Nat} {e : DirEntry} (hsound : s.cache.dirUpset = [])
    (hdir : s.cache.dir = [(dirKey f set w, e)]) (x : Option DirEntry) :
    s.setDir f set w x = { s with cache.dir := x.toList.map fun y => (dirKey f set w, y) } := by
  have hheal : tdel s.cache.dirUpset (dirKey f set w) = s.cache.dirUpset := by rw [hsound]; rfl
  have hdel : tdel s.cache.dir (dirKey f set w) = [] := by simp [hdir, tdel]
  have hset : ∀ y, tset s.cache.dir (dirKey f set w) y = [(dirKey f set w, y)] := fun y => by simp [hdir, tset]
  cases x with
  | none => simp only [Dev.setDir, hheal, hdel]; rfl
  | some y => simp only [Dev.setDir, hheal, hset]; rfl

/-- An entry that a lookup finds in a directory of one is that one. -/
theorem Dev.key_of_dirLookup {s : Dev} {p : Place} {k w : Nat} {e x : DirEntry} (hk : p.kind = .own)
    (hdir : s.cache.dir = [(k, e)]) (hlook : s.dirLookup p = some (w, x)) : k = dirKey p.facet (dirSet p.d) w := by
  simp only [Dev.dirLookup, hk, hdir] at hlook
  obtain ⟨v, -, hv⟩ := List.exists_of_findSome?_eq_some hlook
  by_cases hkey : k = dirKey p.facet (dirSet p.d) v
  · have hvw : v = w := by
      simp only [tget, hkey, beq_self_eq_true, if_true] at hv
      split at hv
      · exact congrArg Prod.fst (Option.some.inj hv)
      · cases hv
    rw [hkey, hvw]
  · simp [tget, hkey] at hv

/-- A home state that a lone entry takes. -/
theorem Dev.setHome_of_lone {s : Dev} {p : Place} {k w : Nat} {e : DirEntry} (hk : p.kind = .own)
    (hsound : s.cache.dirUpset = []) (hdir : s.cache.dir = [(k, e)]) (hlook : s.dirLookup p = some (w, e))
    (st : Option HomeState) (way : Option Nat) :
    s.setHome p st way = { s with cache.dir := st.toList.map fun h => (k, { e with st := h }) } := by
  obtain rfl := Dev.key_of_dirLookup hk hdir hlook
  cases st <;> simp [Dev.setHome, hk, hlook, Dev.setDir_of_lone hsound hdir]

/-- The walk takes the dead agent off a shared entry (R262). -/
theorem Dev.walkEntry_of_shared (s : Dev) {e : DirEntry} {a : Agent} {l : List Agent} (hst : e.st = .shared l) (ha : a ∈ l) :
    s.walkEntry e a = s.setHome (s.dirPlace e) (mkShared (l.filter fun b => b != a)) none := by
  simp [Dev.walkEntry, hst, ha, withoutAgent]

/-- RECLAIM over one shared entry that lists the agent. -/
theorem Dev.reclaimIn_of_shared {s : Dev} {a : Agent} {k w : Nat} {e : DirEntry} {l : List Agent} (hact : s.active = true)
    (hfenced : s.fenced a.toNat = true) (hq : s.quiet = true) (hsound : s.cache.dirUpset = []) (hdir : s.cache.dir = [(k, e)])
    (hlook : s.dirLookup (s.dirPlace e) = some (w, e)) (hst : e.st = .shared l) (ha : a ∈ l) :
    s.reclaimIn a = Dev.setDeaths { s with
      cache.dir := (mkShared (l.filter fun b => b != a)).toList.map fun h => (k, { e with st := h }) } (s.walkMade a) := by
  rw [Dev.reclaimIn_of_lone hact hfenced hq hsound hdir, s.walkEntry_of_shared hst ha, Dev.setHome_of_lone rfl hsound hdir hlook]
  exact Dev.settle_quiet _ (Dev.quiet_walkMade hq a)

/-! ### A granule that the dead agent owned -/

/-- u is s after a poison write of a place has begun for a death, under a transaction: its write-back waits for the write that stands
last in the stack's queue, as urgent demand (R263, R264). -/
structure Dev.WritesPoison (s u : Dev) (p : Place) (a : Agent) (id : Nat) : Prop where
  aside : Aside s u
  wb : ∃ w ∈ u.cache.wbs, w.why = .poison a id
  write : ∃ x, u.stack.writes = s.stack.writes ++ [x] ∧ x.d = p.d ∧ x.poison = true ∧ x.cls = .urgent

/-- What stands aside may change first. -/
theorem Dev.WritesPoison.of_aside {s t u : Dev} {p : Place} {a : Agent} {id : Nat} (h : t.WritesPoison u p a id) (hst : Aside s t)
    (hwrites : t.stack.writes = s.stack.writes) : s.WritesPoison u p a id :=
  ⟨hst.trans h.aside, h.wb, hwrites ▸ h.write⟩

/-- An event only counts. -/
theorem Dev.event_eq (s : Dev) (code unit : Nat) (hue : Option Hue) (n : Nat) : ∃ c, s.event code unit hue n = { s with csr := c } :=
  ((Dev.RegsChange.refl s).event (P := counterReg) (fun _ h => h) code unit hue n).1

/-- Bus time that is taken leaves what is queued. -/
theorem Dev.busUse_queues (s : Dev) (pc : Nat) (c : DramClass) (n : Nat) :
    (s.busUse pc c n).cache.wbs = s.cache.wbs ∧ (s.busUse pc c n).stack.writes = s.stack.writes := by
  obtain ⟨r, hr⟩ := Dev.event_eq (s.busTaken pc c n) evBus pc none (s.busCycles n)
  have hbus : s.busUse pc c n = { s.busTaken pc c n with csr := r } := hr
  rw [hbus]
  exact ⟨rfl, rfl⟩

/-- A write of the stack is queued last, whether or not the arbiter lets it go at once (R44). -/
theorem Dev.issueWrite_queued (s : Dev) (grp d : Nat) (data : Sub) (poison : Bool) (c : DramClass) (why : WriteFor) :
    Aside s (s.issueWrite grp d data poison c why).2 ∧ (s.issueWrite grp d data poison c why).2.cache.wbs = s.cache.wbs ∧
      ∃ x, (s.issueWrite grp d data poison c why).2.stack.writes = s.stack.writes ++ [x] ∧ x.d = d ∧ x.poison = poison ∧ x.cls = c := by
  have hqueued : ∀ id reads x, Aside s { s with nextId := id, stack.writes := s.stack.writes ++ [x], stack.reads := reads } :=
    fun _ _ _ => ⟨fun _ _ => rfl, rfl, rfl, rfl, rfl, rfl, rfl, rfl, rfl, rfl, rfl, rfl⟩
  unfold Dev.issueWrite
  dsimp only
  split
  · obtain ⟨hwbs, hwrites⟩ := Dev.busUse_queues _ (pcNumber grp d) c 1
    exact ⟨(hqueued _ _ _).trans (Dev.busUse_aside _ _ _ _), hwbs, _, hwrites, rfl, rfl, rfl⟩
  · exact ⟨hqueued _ _ _, rfl, _, rfl, rfl, rfl, rfl⟩

/-- The write-back that poisons a granule for a death. -/
def Dev.deathWb (s : Dev) (p : Place) (a : Agent) (id : Nat) : Wb :=
  { id := s.nextId, facet := p.facet, grp := p.grp, d := p.d, data := 0, poison := true, shadowed := p.shadowed, adopted := p.adopted
    old := 0, oldPoison := false, step := .held, why := .poison a id }

/-- The slice with that write-back entered and its event counted. -/
def Dev.deathWbEntered (s : Dev) (p : Place) (a : Agent) (id : Nat) : Dev :=
  (({ s with nextId := s.nextId + 1, cache.wbs := s.cache.wbs ++ [s.deathWb p a id] } : Dev).event evWriteBack p.facet).updWb
    s.nextId fun w => { w with step := .write }

theorem Dev.deathWbEntered_aside (s : Dev) (p : Place) (a : Agent) (id : Nat) : Aside s (s.deathWbEntered p a id) := by
  have hentered : Aside s { s with nextId := s.nextId + 1, cache.wbs := s.cache.wbs ++ [s.deathWb p a id] } :=
    ⟨fun _ _ => rfl, rfl, rfl, rfl, rfl, rfl, rfl, rfl, rfl, rfl, rfl, rfl⟩
  exact (hentered.event _ _ _ _).cache _ rfl rfl rfl rfl

theorem Dev.deathWbEntered_queues (s : Dev) (p : Place) (a : Agent) (id : Nat) :
    (∃ w ∈ (s.deathWbEntered p a id).cache.wbs, w.why = .poison a id) ∧
      (s.deathWbEntered p a id).stack.writes = s.stack.writes := by
  obtain ⟨r, hr⟩ := Dev.event_eq { s with nextId := s.nextId + 1, cache.wbs := s.cache.wbs ++ [s.deathWb p a id] } evWriteBack
    p.facet none 1
  rw [Dev.deathWbEntered, hr]
  have hentered : s.deathWb p a id ∈ s.cache.wbs ++ [s.deathWb p a id] := List.mem_append_right _ (List.mem_singleton.2 rfl)
  exact ⟨⟨_, List.mem_map.2 ⟨_, hentered, rfl⟩, by simp [Dev.deathWb]⟩, rfl⟩

/-- Such a write-back, in an unshadowed chunk, starts its write at once (R263, R264, R598). -/
theorem Dev.startWb_writesPoison (s : Dev) {p : Place} (hplain : p.shadowed = false) (a : Agent) (id : Nat) :
    s.WritesPoison (s.startWb p 0 true (.poison a id)) p a id := by
  have hstart : s.startWb p 0 true (.poison a id) =
      ((s.deathWbEntered p a id).issueWrite p.grp p.d 0 true .urgent (.wb s.nextId)).2 := by
    simp [Dev.startWb, hplain, Dev.wbBegin, Dev.wbWrite, Dev.deathWbEntered, Dev.deathWb, Wb.dramClass]
  obtain ⟨haside, hwbs, x, hwrite, hx⟩ := (s.deathWbEntered p a id).issueWrite_queued p.grp p.d 0 true .urgent (.wb s.nextId)
  obtain ⟨hwb, hwrites⟩ := s.deathWbEntered_queues p a id
  rw [hstart]
  exact ⟨(s.deathWbEntered_aside p a id).trans haside, hwbs ▸ hwb, x, hwrites ▸ hwrite, hx⟩

/-- A granule that the cache does not hold is poisoned in the stack (R263). -/
theorem Dev.poisonGranule_writesPoison {s : Dev} {p : Place} (hnone : s.lookup p = none) (hplain : p.shadowed = false) (a : Agent)
    (id : Nat) : s.WritesPoison (s.poisonGranule p (.poison a id)) p a id := by
  have hfill : ∀ l : List Plr, s.WritesPoison (({ s with cache.plrs := l } : Dev).startWb p 0 true (.poison a id)) p a id := fun l =>
    (Dev.startWb_writesPoison _ hplain a id).of_aside ((Aside.refl s).cache { s.cache with plrs := l } rfl rfl rfl rfl) rfl
  simp only [Dev.poisonGranule, Dev.updAt, hnone, hplain, Bool.and_false, Bool.false_eq_true, if_false]
  split
  · split
    · exact hfill _
    · exact hfill s.cache.plrs
  · exact hfill s.cache.plrs

/-- The hold of a granule that the walk poisons, before its poison write (R263). -/
def Dev.deathHold (s : Dev) (e : DirEntry) (a : Agent) : Txn :=
  { id := s.nextId, cause := .death a, op := .invalidate, src := sliceAgent s.pos, place := s.dirPlace e, stage := .owed
    before := some e.st, after := none, awaiting := [], replies := [], held := none, dirtyIn := none, grant := 0, code := .ok
    podWait := [], answered := true, cls := 0, aged := false, strict := false, prefetch := false, filled := false, dirWay := none
    since := s.now, suspect := [], ackTxid := 0, broadcast := false, ackDue := false }

/-- The same, in its poison write. -/
def Dev.deathPoison (s : Dev) (e : DirEntry) (a : Agent) : Txn := { s.deathHold e a with code := .poison, held := some 0 }

/-- The slice with one transaction open, the newest. -/
def Dev.holding (s : Dev) (t : Txn) : Dev := { s with nextId := s.nextId + 1, cache.txns := [t] }

/-- A transaction other than a side access holds its place. -/
theorem Dev.held_of_lone (s : Dev) {t : Txn} {p : Place} (h : s.cache.txns = [t]) (hp : t.place = p) (hside : t.isSide = false) :
    s.held p = true := by
  subst hp
  simp [Dev.held, h, hside, Place.same]

/-- A transaction in its poison write goes no further (R263). -/
theorem Dev.txnOwed_of_writing {s : Dev} {t : Txn} (h : s.cache.txns = [t]) (hstage : t.stage = .owed) (howing : s.owing t = true) :
    s.txnOwed t = s := by
  have hsame : ({ t with stage := .owed } : Txn) = t := by rw [← hstage]
  have hupd : s.updTxn t.id (fun _ => t) = s := by
    rw [Dev.updTxn_of_lone h, ← h]
  simp only [Dev.txnOwed, hsame, hupd, howing, if_true]

theorem Dev.advance_of_writing {s : Dev} {t : Txn} (h : s.cache.txns = [t]) (hstage : t.stage = .owed) (howing : s.owing t = true) :
    s.advance t.id = s := by
  have hfind : s.txn t.id = some t := by simp [Dev.txn, h]
  simp only [Dev.advance, hfind, hstage]
  exact Dev.txnOwed_of_writing h hstage howing

/-- The poison write of a death is owed. -/
theorem Dev.WritesPoison.owing {s u : Dev} {p : Place} {a : Agent} {t : Txn} (h : s.WritesPoison u p a t.id) : u.owing t = true := by
  obtain ⟨w, hw, hwhy⟩ := h.wb
  simp only [Dev.owing, Bool.or_eq_true]
  exact .inl (.inr (List.any_eq_true.2 ⟨w, hw, by simp [hwhy]⟩))

/-- The poisoned granules of a death are counted aside. -/
theorem Dev.countPoisoned_aside (s : Dev) (a : Agent) (facet d : Nat) :
    Aside s (s.countPoisoned a facet d) ∧ (s.countPoisoned a facet d).stack = s.stack ∧
      ∀ p : Place, (s.countPoisoned a facet d).lookup p = s.lookup p := by
  unfold Dev.countPoisoned
  dsimp only
  split
  · exact ⟨(Aside.refl s).cache _ rfl rfl rfl rfl, rfl, fun _ => rfl⟩
  · exact ⟨(Aside.refl s).cache _ rfl rfl rfl rfl, rfl, fun _ => rfl⟩

/-- The slice in the poison write of a granule that the agent owned alone. -/
def Dev.deathPoisoned (s : Dev) (e : DirEntry) (a : Agent) : Dev :=
  ((s.holding (s.deathPoison e a)).countPoisoned a (s.dirPlace e).facet (s.dirPlace e).d).poisonGranule (s.dirPlace e)
    (.poison a (s.deathPoison e a).id)

theorem Dev.deathPoisoned_writesPoison {s : Dev} {e : DirEntry} (hplain : e.shadowed = false)
    (hnone : s.lookup (s.dirPlace e) = none) (a : Agent) :
    (s.holding (s.deathPoison e a)).WritesPoison (s.deathPoisoned e a) (s.dirPlace e) a (s.deathPoison e a).id := by
  obtain ⟨haside, hstack, hlookup⟩ := (s.holding (s.deathPoison e a)).countPoisoned_aside a (s.dirPlace e).facet (s.dirPlace e).d
  exact (Dev.poisonGranule_writesPoison ((hlookup (s.dirPlace e)).trans hnone) hplain a _).of_aside haside (by rw [hstack])

/-- An owner alone leaves no sharer to snoop: its death's hold goes to the poison write. -/
theorem Dev.poisonOwner_of_excl (s : Dev) (e : DirEntry) (a : Agent) :
    (s.holding (s.deathHold e a)).poisonOwner (s.deathHold e a) (some (.excl a)) a =
      s.deathPoisoned e a := by
  have hupd : ∀ f, (s.holding (s.deathHold e a)).updTxn (s.deathHold e a).id f = s.holding (f (s.deathHold e a)) := fun f =>
    Dev.updTxn_of_lone rfl f
  simp only [Dev.poisonOwner, hupd, List.filter_nil, List.append_nil, Dev.each_nil, List.isEmpty_nil, Bool.not_true, Bool.and_false,
    Bool.false_and, Bool.false_eq_true, if_false]
  rfl

/-- With no transaction open, an entry of the dead agent opens the hold of its poison write. -/
theorem Dev.deadEntry_of_none_open {s u : Dev} {e : DirEntry} {a : Agent} {t : Txn} (htxns : s.cache.txns = [])
    (hu : (s.holding (s.deathHold e a)).poisonOwner (s.deathHold e a) (some e.st) a = u)
    (hfind : u.txn (s.deathHold e a).id = some t) : s.deadEntry e a = u.txnOwed t := by
  simp only [Dev.holding, Dev.deathHold] at hu hfind
  simp only [Dev.deadEntry, htxns, List.find?_nil, List.nil_append, hu, hfind]

/-- The walk poisons a granule that the agent owned alone and that the cache does not hold (R262, R263). -/
theorem Dev.walkEntry_of_owned {s : Dev} {e : DirEntry} {a : Agent} (htxns : s.cache.txns = []) (hst : e.st = .excl a)
    (hplain : e.shadowed = false) (hnone : s.lookup (s.dirPlace e) = none) : s.walkEntry e a = s.deathPoisoned e a := by
  have hwrites := Dev.deathPoisoned_writesPoison hplain hnone a
  have hopen : (s.deathPoisoned e a).cache.txns = [s.deathPoison e a] := hwrites.aside.txns
  have hfind : (s.deathPoisoned e a).txn (s.deathHold e a).id = some (s.deathPoison e a) := by
    rw [Dev.txn, hopen]
    exact List.find?_cons_of_pos (beq_self_eq_true _)
  have hwalk : s.walkEntry e a = s.deadEntry e a := by simp [Dev.walkEntry, hst]
  rw [hwalk, Dev.deadEntry_of_none_open htxns (hst ▸ s.poisonOwner_of_excl e a) hfind]
  exact Dev.txnOwed_of_writing hopen rfl hwrites.owing

/-- Once the walk is made, the slice waits for the poison write (R263). -/
theorem Dev.settle_of_poisoned {s : Dev} {e : DirEntry} {a : Agent} (hq : s.quiet = true)
    (hwrites : (s.holding (s.deathPoison e a)).WritesPoison (s.deathPoisoned e a) (s.dirPlace e) a (s.deathPoison e a).id) :
    ((s.deathPoisoned e a).setDeaths ((s.deathPoisoned e a).walkMade a)).settle =
      (s.deathPoisoned e a).setDeaths ((s.deathPoisoned e a).walkMade a) := by
  have hopen : (s.deathPoisoned e a).cache.txns = [s.deathPoison e a] := hwrites.aside.txns
  have hdeaths : (s.deathPoisoned e a).walkMade a = s.walkMade a := by
    rw [Dev.walkMade, hwrites.aside.deaths]
    rfl
  have h := hwrites.aside.noMoreWork
  rw [hdeaths]
  have hwork : NoMoreWork (s.setDeaths (s.walkMade a))
      { (s.deathPoisoned e a).setDeaths (s.walkMade a) with cache.txns := [] } :=
    { txns := (Dev.txns_of_quiet hq).symm, maint := h.maint, podOps := h.podOps, deaths := rfl, shadow := h.shadow, prism := h.prism
      jobs := h.jobs, keeps := h.keeps, runs := h.runs, running := h.running, items := h.items, img := h.img, pos := h.pos }
  refine Dev.settle_of_waiting (hwork.quiet (Dev.quiet_walkMade hq a)) fun t ht _ => ?_
  obtain rfl := List.mem_singleton.1 (hopen ▸ ht)
  exact Dev.advance_of_writing hopen rfl hwrites.owing

/-- RECLAIM over one unshadowed entry that the agent owned alone. -/
theorem Dev.reclaimIn_of_owned {s : Dev} {a : Agent} {k : Nat} {e : DirEntry} (hact : s.active = true)
    (hfenced : s.fenced a.toNat = true) (hq : s.quiet = true) (hsound : s.cache.dirUpset = []) (hdir : s.cache.dir = [(k, e)])
    (hst : e.st = .excl a) (hplain : e.shadowed = false) (hnone : s.lookup (s.dirPlace e) = none) :
    s.reclaimIn a = (s.deathPoisoned e a).setDeaths ((s.deathPoisoned e a).walkMade a) := by
  rw [Dev.reclaimIn_of_lone hact hfenced hq hsound hdir, Dev.walkEntry_of_owned (Dev.txns_of_quiet hq) hst hplain hnone]
  exact Dev.settle_of_poisoned hq (Dev.deathPoisoned_writesPoison hplain hnone a)

/-- Settles O50: the walk over the one entry leaves nothing to go on with but a poison write, and the end of a walk takes the one
death of its agent as far as its transactions and its poison writes let it. -/
theorem deathsAreReclaimed : Obligations.DeathsAreReclaimed := by
  constructor
  · intro a k w e s hact hfenced hq hsound hdir hlook
    have hupset : s.cache.dirUpset = [] := s.dirUpset_of_unscathed hsound
    refine ⟨fun l hst ha => (next_congr (Dev.reclaimIn_of_shared hact hfenced hq hupset hdir hlook hst ha)).trans ?_,
      fun hst hplain hnone _ _ => ⟨_, next_congr (Dev.reclaimIn_of_owned hact hfenced hq hupset hdir hst hplain hnone), ?_⟩⟩
    · cases mkShared (l.filter fun b => b != a) <;> rfl
    · have hwrites := Dev.deathPoisoned_writesPoison hplain hnone a
      obtain ⟨x, hqueue, hd, hpoison, hcls⟩ := hwrites.write
      have hopen : (s.deathPoisoned e a).cache.txns = [s.deathPoison e a] := hwrites.aside.txns
      exact ⟨(s.deathPoisoned e a).held_of_lone hopen rfl rfl, x, hqueue, hd, hpoison, hcls⟩
  · intro x s hmine hwalk hothers left at_ v
    refine ⟨fun hopen => ?_, fun hopen hcount hleft => ?_, fun hopen hcount hleft => ?_, fun f n d hopen hcount hleft => ?_⟩
    · exact next_congr (Dev.deathEnd_of_open hmine hothers hwalk hopen)
    · exact next_congr (Dev.deathEnd_of_writing hmine hothers hwalk hopen hcount hleft)
    · exact next_congr (Dev.deathEnd_of_none hmine hothers hwalk hopen hleft hcount)
    · exact next_congr (Dev.deathEnd_of_one hmine hothers hwalk hopen hleft hcount)

end Sys2Proof.Machine
end

section
/-! PROOFS. SIDE_ACCESS that writes a slot which a claim has taken: the claim is over. -/

namespace Sys2Proof.Machine

/-- The slice with the granule's line in way 0 and the granule taken, as a slot, for block 5. -/
def claimedSlot : State :=
  { memSlice with
    cache.lines := setWay [] readPlace 0 readLine
    prism := { memSlice.prism with claims := [((4, 0x1000), 5)] } }

/-- The side write that the block's home then sends to the slot. -/
def slotWrite : SideAccess :=
  { sender := 57, txid := 3, home := 0, grp := 4, d := 0x1000, shadowed := false, store := some (fullMask, 1), upset := {} }

/-- A slot that is written is kept for its claim no longer (R314; log entry 100). -/
theorem claimedSlot_slotWrite_endsClaim : ∃ t : State, exec (.sideAccess slotWrite) claimedSlot = .next t ∧ t.prism.claims = [] :=
  ⟨_, rfl, by decide +kernel⟩

/-- Refutes O43, by its clause of SIDE_ACCESS: a side write of a slot ends the claim that keeps it for its block, and the statement,
which has no premise that the slot is unclaimed, lets all of the typed storage's state stand. -/
theorem not_sideAccessesRun : ¬ Obligations.SideAccessesRun := by
  rintro ⟨h, -⟩
  obtain ⟨t, ht, -, -, hsame, -⟩ := h slotWrite readPlace 0 claimedSlot (by decide +kernel) (by decide +kernel) (by decide +kernel)
    (by decide +kernel) (by decide +kernel) (by decide +kernel) (by decide +kernel) (by decide +kernel) rfl (by decide +kernel) rfl
    (by decide +kernel) rfl
  obtain ⟨u, hu, hnone⟩ := claimedSlot_slotWrite_endsClaim
  cases hu.symm.trans ht
  have hstays : t.prism.claims = claimedSlot.prism.claims := by rw [hsame]
  rw [hnone] at hstays
  exact (List.cons_ne_nil _ _).symm hstays

end Sys2Proof.Machine
end

section
/-! PROOFS. FLOW_LINE_APPLY to a sub-block of the tile store that holds an error: the line's write takes the error away. -/

namespace Sys2Proof.Machine

/-- A plan with one flow of a single line: position 0 is its root and its one contributor, and the sum is written as it is to the
front of the tile store. -/
def tileFlowPlan : List Byte :=
  let words := [2 ^ 56 + 2 ^ 48 + 2 ^ 45 + 2 ^ 32, 2 * 2 ^ 62 + 0x1000, 0, 2 * 2 ^ 62, 0, 0, 0, 0]
  List.replicate 10 0 ++ [1, 0] ++ List.replicate 2100 0 ++ words.flatMap (bytesOf 8)

/-- The run of that flow, which has taken its source. -/
def takenFlow : LineRun :=
  { flow := true, desc := 0, started := true, recv := [], handled := [], own := [(0, 7, false)], taken := [(0, [(7, false)])] }

/-- The slice of the pair with one tile-store way in half 0 and that flow under way. A single-bit error stands in the data of the
sub-block that the flow writes. -/
def erringDestination : State :=
  let d : Dev := pairedSlice.put F.fctPartition_WORD 0x10
  { pairedSlice with toDev :=
    { d with
      img.force := { Sections.empty with plan := tileFlowPlan }
      cache.storeRest := true
      cache.dataBad := [(lineKey 0 0 15 * 4, .single)]
      lens.runs := [takenFlow]
      frm.items := [(.flow 0, 0)] } }

/-- The sum is written as it is over the whole sub-block, and a sub-block that is written holds no error (R419, `Dev.setStoreSub`). -/
theorem erringDestination_flowLineApply_heals : ∃ t : State, exec (.flowLineApply 0 0) erringDestination = .next t ∧
    t.cache.dataBad = [] := ⟨_, rfl, by decide +kernel⟩

/-- Refutes O55, by its clause of FLOW_LINE_APPLY: an error in the data of the destination goes with the write of the line, and the
statement, which has no premise in this clause that the arrays are sound, lets all of the cache but its lines stand. -/
theorem not_plannedWorkStarts : ¬ Obligations.PlannedWorkStarts := by
  rintro ⟨-, -, h⟩
  obtain ⟨t, ht, -, -, -, -, hsame⟩ := h 0 0 takenFlow 7 false {} clsTile 0 0 erringDestination (by decide +kernel)
    (by decide +kernel) rfl rfl rfl rfl (by decide +kernel) (by decide +kernel) (by decide +kernel) (by decide) (by decide +kernel)
    (by decide +kernel) (by decide +kernel) (by decide +kernel) (by decide +kernel)
  obtain ⟨u, hu, hhealed⟩ := erringDestination_flowLineApply_heals
  cases hu.symm.trans ht
  rw [hsame] at hhealed
  exact List.cons_ne_nil _ _ hhealed

end Sys2Proof.Machine
end

section
/-! PROOFS. A read that waits in a wake for its stack to leave self-refresh: it goes as the wake ends, and its data-bus use is counted. -/

namespace Sys2Proof.Machine

/-- The slice of the pair in its wake, under position 1 as the leader: its PLL is locked, and its stacks run at 9600 Mb/s. -/
def wakingSlice : State :=
  { pairedSlice with
    toDev := { ((pairedSlice.put F.frmConfig_LEADER 1).put F.pwrState_SCLK_PLL 1).put F.stkConfig_TRAINED 9600 with phase := .waking } }

/-- That slice once position 1 has asked it for a sub-block of a reconstruction. -/
def readAwaitsStack : State := { wakingSlice with toDev := wakingSlice.reconRead 1 3 0x1000 false }

/-- RECON_READ of a position that the slice hears, at a device offset of its stacks. -/
theorem exec_reconRead {s : State} {x : ReconSender} {txid : BitVec 12} {d : BitVec 64} (hact : s.active = true)
    (hhear : s.deaf x.pos.toNat = false) (hd : d.toNat < deviceEnd) :
    exec (.reconRead x txid d) s = .next { s with toDev := s.reconRead x.pos txid (d.toNat / 64 * 64) x.urgent } := by
  have hserved : (!s.active || s.deaf x.pos.toNat) = false := by simp [hact, hhear]
  calc exec (.reconRead x txid d) s
      = s.onDevAt d.toNat (fun v =>
          if !v.active || v.deaf x.pos.toNat then v else v.reconRead x.pos txid (d.toNat / 64 * 64) x.urgent) := rfl
    _ = .next { s with toDev :=
          if !s.active || s.deaf x.pos.toNat then s.toDev else s.reconRead x.pos txid (d.toNat / 64 * 64) x.urgent } :=
        (s.onDevAt_eq _ _).trans (if_neg (Nat.not_le.2 hd))
    _ = .next { s with toDev := s.reconRead x.pos txid (d.toNat / 64 * 64) x.urgent } := by
        simp only [hserved, Bool.false_eq_true, if_false]

/-- RECON_READ leads to `readAwaitsStack`: the arbiter holds the read back for as long as the slice wakes (R731). -/
theorem wakingSlice_reconRead_waits :
    exec (.reconRead { pos := 1, urgent := false } 3 0x1000) wakingSlice = .next readAwaitsStack ∧
      readAwaitsStack.stack.reads.map DramRead.issued = [false] :=
  ⟨exec_reconRead (by decide +kernel) (by decide +kernel) (by decide), by decide +kernel⟩

theorem readAwaitsStack_busUse : readAwaitsStack.cache.busUse = 0 := by decide +kernel

/-- The read goes as the wake ends, and the 3 cycles that it takes of its pseudo-channel's data bus are counted among those that tell
a hot frame (R149, `Dev.busUse`). -/
theorem readAwaitsStack_wakeLit_usesBus : ∃ t : State, exec (.wakeLit 0) readAwaitsStack = .next t ∧
    t.stack.reads.map DramRead.issued = [true] ∧ t.cache.busUse = 3 := ⟨_, rfl, by decide +kernel, by decide +kernel⟩

/-- Refutes O22, by its clause of WAKE_LIT: a read that waited for its stack goes as the wake ends, which counts its data-bus use, and
the statement, which has no premise that no command waits, lets all of the cache's state stand. -/
theorem not_sliceWakes : ¬ Obligations.SliceWakes := by
  rintro ⟨-, h⟩
  obtain ⟨t, ht, -, -, -, -, -, hcache, -⟩ := h 0 readAwaitsStack (by decide +kernel) (by decide +kernel) (by decide +kernel)
    (by decide +kernel) (by decide +kernel)
  obtain ⟨u, hu, -, hcounted⟩ := readAwaitsStack_wakeLit_usesBus
  cases hu.symm.trans ht
  rw [hcache, readAwaitsStack_busUse] at hcounted
  exact absurd hcounted (by decide)

end Sys2Proof.Machine
end

section
/-! PROOFS. COMP of the delta of a death's poison write: the death notes when it was done. -/

namespace Sys2Proof.Machine

/-- The poison write of the dead agent 2 to a sub-block of a shadowed chunk, its delta on the way to position 1 (R264, R598). -/
def deltaOfPoison : Wb :=
  { id := 4, facet := 4, grp := 4, d := 0x1000, data := 0, poison := true, shadowed := true, adopted := false
    old := 0, oldPoison := false, step := .delta, why := .poison 2 0 }

/-- The slice of the pair in the directory walk of that agent's death, with the write's delta under identity 6. -/
def poisonDeltaOut : State :=
  { pairedSlice with
    cache.wbs := [deltaOfPoison]
    cache.deaths := [{ agent := 2, cause := 0, start := 0, walk := 1, last := none }]
    shadow.deltaOut := [(6, 4, 1)] }

/-- A mirror put, of which the statement's clause of PULL speaks and that of COMP does not. -/
def otherPut : Put := { txid := 0, grp := 0, sector := 0, subs := 0, data := [], record := none, txn := 0 }

/-- The write-back is over with its delta, and so the death's last poison write is done now (R273). -/
theorem poisonDeltaOut_comp_notes : ∃ t : State, exec (.comp 1 6 [0]) poisonDeltaOut = .next t ∧
    t.cache.deaths.map Death.last = [some 0] := ⟨_, rfl, by decide +kernel⟩

/-- Refutes O53, by its clause of COMP: where the write-back is the poison write of a death, the death notes when it was done, and the
statement, which has no premise that the write-back evicts a line, lets all of the cache stand but for the write-backs. -/
theorem not_shadowAnswersAreTaken : ¬ Obligations.ShadowAnswersAreTaken := by
  rintro ⟨-, h⟩
  have hsame := (h 1 6 otherPut deltaOfPoison 6 1 poisonDeltaOut (by decide +kernel) (by decide +kernel) (by decide +kernel)).2 rfl
    rfl rfl rfl rfl (by decide +kernel) (by decide +kernel)
  obtain ⟨t, ht, hnoted⟩ := poisonDeltaOut_comp_notes
  cases ht.symm.trans hsame
  exact absurd hnoted (by decide)

end Sys2Proof.Machine
end

section
/-! PROOFS. LATTICE_FLIT of a transfer that has issued and has no run: its line is written at once. -/

namespace Sys2Proof.Machine

/-- A lattice body with one transfer of a single line, from its root, position 1, to the front of position 0's tile store. -/
def tileTransferBody : List Byte :=
  let transfer := [2 ^ 61 + 2 ^ 53 + 2 ^ 40 + 1, 0, 2 * 2 ^ 62, 0, 0, 0, 0, 0]
  [1, 0, 0, 0, 0, 0, 0, 0, 1, 0, 0, 0] ++ bytesOf 4 1 ++ bytesOf 4 24 ++ bytesOf 4 64 ++ transfer.flatMap (bytesOf 8)

/-- Position 1 of the pair, which has that line for position 0. -/
def lineSender : Dev :=
  { (pairedSlice.put F.rstStrap_BAND 2).put (F.pwkCfg_NEIGHBOUR 0) 0 with outbox := [.latticeLine 0 0 1 false 0 0 7 false] }

/-- The flit that brings the line, with the number that position 0 awaits next. -/
def lineFlit : Flit := lineSender.flitBits (plainFlit 2 1 [] [0])

/-- The slice of the pair with one tile-store way in half 0, where the transfer is among the plan frame's items and no run is open. -/
def transferIssued : State :=
  { pairedSlice with toDev :=
    { pairedSlice.put F.fctPartition_WORD 0x10 with
      img.force := { Sections.empty with lattice := tileTransferBody }
      cache.storeRest := true
      frm.items := [(.transfer 0, 0)] } }

/-- The line opens the transfer's run, and as the slice goes on with its items, the line is written (R517, `Dev.conversionsRun`). -/
theorem transferIssued_latticeFlit_writes : ∃ t : State, exec (.latticeFlit 0 lineFlit) transferIssued = .next t ∧
    t.lens.runs.map LineRun.handled = [[0]] := ⟨_, rfl, by decide +kernel⟩

/-- Refutes O58, by its clause of a good LATTICE_FLIT: the line of a transfer that has issued is written as it comes, and the
statement, which asks that no run is open and has no premise that the transfer has not issued, leaves every line unhandled. -/
theorem not_flitsAreReceived : ¬ Obligations.FlitsAreReceived := by
  rintro ⟨-, h, -⟩
  obtain ⟨-, -, hgood⟩ := h 0 lineFlit transferIssued (by decide +kernel) (by decide +kernel) (by decide +kernel)
  obtain ⟨t, ht, hkept, -⟩ := hgood (by decide +kernel) (by decide +kernel) (by decide +kernel) (by decide +kernel) (by decide +kernel)
    (by decide +kernel) (by decide +kernel) (by decide +kernel) (by decide +kernel) rfl
  obtain ⟨u, hu, hwritten⟩ := transferIssued_latticeFlit_writes
  cases hu.symm.trans ht
  rw [hkept] at hwritten
  exact absurd hwritten (by decide)

end Sys2Proof.Machine
end
section
/-! PROOFS. The queue, the reset state, IDCODE, and what no step takes back. -/

namespace Sys2Proof.Machine

/-! ### The queue -/

/-- Settles O1: `step` looks at the front of the queue first. -/
theorem stepRunsFrontCommand : Obligations.StepRunsFrontCommand := by
  intro c rest s hs
  rw [step, hs]

/-- A command that names no device offset answers a state with the same queue. -/
theorem exec_pending_of_no_offset {c : Instr} (s : State) (h : stackOffset c = none) :
    ∃ d : Dev, exec c s = .next { toDev := d, pending := s.pending } := by
  cases c with
  | sideAccess | escapeClaimSlot | escapeReleaseSlot | prefetchHint | mirrorPut | mirrorRelease | parityDelta | parityRelease
  | reconRead => cases h
  | _ => exact ⟨_, rfl⟩

/-- Settles O3: every command is a change of the slice, and such a change leaves the queue alone. -/
theorem commandsLeaveTheQueue : Obligations.CommandsLeaveTheQueue := by
  intro c s t h
  cases hd : stackOffset c with
  | none =>
    obtain ⟨d, hd⟩ := exec_pending_of_no_offset s hd
    cases hd.symm.trans h
    rfl
  | some d =>
    obtain ⟨f, hf⟩ := exec_eq_onDevAt s hd
    rw [onDevAt_next (hf.symm.trans h)]

/-! ### The reset state -/

/-- Settles O5: reset stores no byte, lists its registers in rising order and has no work. -/
theorem resetIsCanonical : Obligations.ResetIsCanonical :=
  ⟨rfl, by decide +kernel, by decide +kernel, rfl⟩

/-! ### IDCODE -/

/-- STEP, the part number and the manufacturer stand side by side above the 1 in bit 0 (R813). -/
theorem Dev.idcode_fields (s : Dev) : bitsOf s.idcode 31 28 = s.fuse.stepping.toNat % 16 ∧ bitsOf s.idcode 27 12 = 0x0537 ∧
    bitsOf s.idcode 11 1 = 0x25C ∧ bitsOf s.idcode 0 0 = 1 ∧ s.idcode < 2 ^ 32 := by
  have h : s.fuse.stepping.toNat % 16 < 16 := Nat.mod_lt _ (by decide)
  simp only [bitsOf, Nat.shiftRight_eq_div_pow, Dev.idcode]
  generalize s.fuse.stepping.toNat % 16 = n at h ⊢
  omega

/-- Settles O11: the value shifted out is that of the fields. -/
theorem idcodeReads : Obligations.IdcodeReads := by
  intro s
  obtain ⟨hstep, hpart, hmaker, hone, hlt⟩ := s.toDev.idcode_fields
  refine ⟨s.idcode, rfl, hstep, hpart, hmaker, hone, hlt, fun h => ?_⟩
  simp [Dev.idcode, h]

/-! ### What no step takes back -/

/-- FUSE_BLOW sends nothing and leaves the clock. -/
theorem execFuseBlow_keeps (target : FuseTarget) (s t : State) (h : execFuseBlow target s = .next t) :
    t.outbox = s.outbox ∧ t.now = s.now := by
  rw [onDev_next h]
  dsimp only
  split <;> exact ⟨rfl, rfl⟩

/-- No command takes back a message or moves the clock, and but for FUSE_BLOW each leaves the fuses as blown. -/
theorem exec_takes_nothing_back (c : Instr) (s t : State) (h : exec c s = .next t) :
    ((∀ target, c ≠ .fuseBlow target) → s.fuse.stays t.fuse) ∧ s.outbox <+: t.outbox ∧ t.now = s.now := by
  by_cases hc : ∃ target, c = .fuseBlow target
  · obtain ⟨target, rfl⟩ := hc
    obtain ⟨hout, hnow⟩ := execFuseBlow_keeps target s t h
    exact ⟨fun hne => absurd rfl (hne target), hout ▸ List.prefix_refl _, hnow⟩
  · have hk : Kept s.toDev t.toDev := exec_kept c s t (fun target e => hc ⟨target, e⟩) h
    exact ⟨fun _ => hk.fuse, hk.sent, hk.now⟩

/-- Settles O7: the command at the front of the queue takes nothing back, and a cycle, which advances the clock by 1, neither. -/
theorem stepsTakeNothingBack : Obligations.StepsTakeNothingBack := by
  intro s t h
  unfold step at h
  split at h
  next c rest hs =>
    obtain ⟨hfuse, ⟨l, hl⟩, hnow⟩ := exec_takes_nothing_back c { s with pending := rest } t h
    refine ⟨fun hne => hfuse fun target e => hne target rest (by rw [hs, e]), ⟨l, hl.symm⟩, ?_⟩
    rw [hs, if_neg (List.cons_ne_nil _ _)]
    exact hnow
  next hs =>
    cases h
    have hk : Kept { s.toDev with now := s.now + 1 } s.toDev.tick := s.toDev.tick_kept
    obtain ⟨l, hl⟩ := hk.sent
    refine ⟨fun _ => hk.fuse, ⟨l, hl.symm⟩, ?_⟩
    rw [hs, if_pos rfl]
    exact hk.now

end Sys2Proof.Machine
end


section
/-! PROOFS. The test access port and the wrapper. -/

namespace Sys2Proof.Machine

/-- EXTEST and SAMPLE/PRELOAD, open: the pins are captured, the shifted bits taken (R812). -/
theorem Dev.boundaryScan_of_unlocked {s : Dev} (h : s.unlocked 0 = true) (ir : Nat) (pins : BitVec 64) :
    s.boundaryScan ir pins =
      { s with
        tap.ir := BitVec.ofNat 8 ir, tap.dr := Config.freeValue s.freeCount, tap.viaTap := ir == 0x30, tap.boundary := pins
        freeCount := s.freeCount + 1, outbox := s.outbox ++ [.tdo (Config.freeValue s.freeCount).toNat] } := by
  simp [Dev.boundaryScan, h, Dev.free, Dev.tapRead, Dev.tapSelect, Dev.send]

theorem Dev.boundaryScan_of_locked {s : Dev} (h : s.unlocked 0 = false) (ir : Nat) (pins : BitVec 64) :
    s.boundaryScan ir pins = s := by
  simp [Dev.boundaryScan, h]

/-- A code other than WRAPPER's that selects BYPASS (R812). -/
theorem Dev.tapSelect_bypass (s : Dev) {code : BitVec 8} (h : code ≠ 0x30) :
    s.tapSelect code.toNat 0 = { s with tap.ir := code, tap.dr := 0, tap.viaTap := false } := by
  have hne : (code.toNat == 0x30) = false := beq_false_of_ne fun h0 => h (BitVec.eq_of_toNat_eq h0)
  simp [Dev.tapSelect, hne]

/-- A read through the CSR instruction shifts out what the register reads (R812). -/
theorem Dev.tapCsr_read {s : Dev} (hopen : s.unlocked 2 = true) (hclk : s.clocked = true) {off : Nat} (hoff : off % 8 = 0) :
    s.tapCsr off none = s.tapRead 0x40 (s.csrRead off) := by
  simp [Dev.tapCsr, hopen, hclk, Nat.div_mul_cancel (Nat.dvd_of_mod_eq_zero hoff)]

/-- A write through the CSR instruction has the register's effect (R812). -/
theorem Dev.tapCsr_write {s : Dev} (hopen : s.unlocked 2 = true) (hact : s.active = true) {off : Nat} (hoff : off % 8 = 0)
    (v : BitVec 64) : s.tapCsr off (some v) = (s.csrEffect off v.toNat).tapSelect 0x40 v.toNat := by
  simp [Dev.tapCsr, hopen, hact, Nat.div_mul_cancel (Nat.dvd_of_mod_eq_zero hoff)]

theorem Dev.wrapper_of_unlocked {s : Dev} (h : s.unlocked 0 = true) (w : Wir) : s.wrapper w = { s with tap.wir := w } := by
  simp [Dev.wrapper, h]

theorem Dev.wrapper_of_locked {s : Dev} (h : s.unlocked 0 = false) {w : Wir} (hw : w ≠ .wsBypass) : s.wrapper w = s := by
  simp [Dev.wrapper, h, hw]

/-- Settles O34: each instruction by its own rule, open or locked. -/
theorem testAccessRuns : Obligations.TestAccessRuns := by
  refine ⟨fun pins code s => ⟨rfl, ?_, fun hcode => next_congr (s.tapSelect_bypass hcode), fun hopen => ⟨?_, ?_, ?_⟩,
    fun hlock c hc => ?_, rfl⟩, fun offset v s hopen hact hclk hoff => ⟨?_, ?_⟩, fun s => ⟨rfl, fun hopen => ⟨?_, ?_, ?_⟩,
    fun hlock c hc => ?_⟩⟩
  · rfl
  · exact next_congr (if_pos hopen)
  · exact next_congr (if_pos hopen)
  · intro c hc
    simp only [List.mem_cons, List.not_mem_nil, or_false] at hc
    rcases hc with rfl | rfl
    · exact next_congr (Dev.boundaryScan_of_unlocked hopen 0x00 pins)
    · exact next_congr (Dev.boundaryScan_of_unlocked hopen 0x02 pins)
  · have hclosed : ¬ s.unlocked 0 = true := by simp [hlock]
    simp only [List.mem_cons, List.not_mem_nil, or_false] at hc
    rcases hc with rfl | rfl | rfl | rfl
    · exact next_congr (b := s.toDev) (if_neg hclosed)
    · exact next_congr (b := s.toDev) (if_neg hclosed)
    · exact next_congr (b := s.toDev) (Dev.boundaryScan_of_locked hlock 0x00 pins)
    · exact next_congr (b := s.toDev) (Dev.boundaryScan_of_locked hlock 0x02 pins)
  · exact next_congr (Dev.tapCsr_read hopen hclk hoff)
  · refine next_congr ((Dev.tapCsr_write hopen hact hoff v).trans ?_)
    simp [Dev.tapSelect]
  · exact next_congr (Dev.wrapper_of_unlocked hopen _)
  · exact next_congr (Dev.wrapper_of_unlocked hopen _)
  · exact next_congr (Dev.wrapper_of_unlocked hopen _)
  · simp only [List.mem_cons, List.not_mem_nil, or_false] at hc
    rcases hc with rfl | rfl | rfl
    · exact next_congr (b := s.toDev) (Dev.wrapper_of_locked hlock (by decide))
    · exact next_congr (b := s.toDev) (Dev.wrapper_of_locked hlock (by decide))
    · exact next_congr (b := s.toDev) (Dev.wrapper_of_locked hlock (by decide))

end Sys2Proof.Machine
end


section
/-! PROOFS. Commands of the Gnomon mailbox: what an accepted one comes to, those of this slice alone, their end and their refusal. -/

namespace Sys2Proof.Machine

/-- The CODE, RESULT and DONE of a command that does not run (R794). -/
def Dev.toldResult (s : Dev) (code result : Nat) : Dev :=
  ((s.put F.gnmCmdStatus_CODE code).put F.gnmCmdStatus_RESULT result).raise F.gnmCmdStatus_DONE

/-- A mailbox command whose write is admitted is answered OK and reaches the mailbox (R700). -/
theorem Dev.command_of_admits {s : Dev} {w : Writer} (h : s.admits w R.gnmCmd rightManage = true) (code arg : Nat) :
    s.command w code arg = (s.send (.resp w.src w.txid 0 [.ok] 0 0 [])).mailboxWrite code arg :=
  Dev.csrAdmit_of_admits h _

theorem Dev.commandRefusal_send (s : Dev) (m : Msg) (code arg : Nat) :
    (s.send m).commandRefusal code arg = s.commandRefusal code arg := rfl

theorem Dev.admits_of_mayCommand {s : Dev} {w : Writer} {code arg : Nat} (h : s.mayCommand w code arg = true) :
    s.admits w R.gnmCmd rightManage = true := by
  simp only [Dev.mayCommand, Bool.and_eq_true] at h
  exact h.1.1

/-- A command that may run is accepted, and then has its effect (R794). -/
theorem Dev.command_of_mayCommand {s : Dev} {w : Writer} {code arg : Nat} (h : s.mayCommand w code arg = true) :
    s.command w code arg = (s.accepted w code arg none).runCommand code arg := by
  rw [Dev.command_of_admits (Dev.admits_of_mayCommand h)]
  simp only [Dev.mayCommand, Bool.and_eq_true, Bool.not_eq_true', Option.isNone_iff_eq_none] at h
  obtain ⟨⟨-, hbusy⟩, hallowed⟩ := h
  simp only [Dev.mailboxWrite, Dev.send_on, hbusy, Dev.commandRefusal_send, hallowed]
  rfl

/-- A command while one is in progress is told 0x30 (R794). -/
theorem Dev.command_of_busy {s : Dev} {w : Writer} (h : s.admits w R.gnmCmd rightManage = true)
    (hbusy : s.get F.gnmCmdStatus_BUSY = 1) (code arg : Nat) :
    s.command w code arg = (s.send (.resp w.src w.txid 0 [.ok] 0 0 [])).toldResult code 0x30 := by
  have hon : s.on F.gnmCmdStatus_BUSY = true := by simp [Dev.on, hbusy]
  simp only [Dev.command_of_admits h, Dev.mailboxWrite, Dev.send_on, hon, if_true]
  rfl

/-- A command that a rule refuses is told why; a refused load or patch is reported beside (R701, R795). -/
theorem Dev.command_of_refused {s : Dev} {w : Writer} (h : s.admits w R.gnmCmd rightManage = true)
    (hbusy : s.get F.gnmCmdStatus_BUSY = 0) {code arg r : Nat} (href : s.commandRefusal code arg = some r)
    (hload : code ≠ 1 ∧ code ≠ 3) :
    s.command w code arg = (s.send (.resp w.src w.txid 0 [.ok] 0 0 [])).toldResult code r := by
  have hon : s.on F.gnmCmdStatus_BUSY = false := by simp [Dev.on, hbusy]
  simp [Dev.command_of_admits h, Dev.mailboxWrite, hon, Dev.commandRefusal_send, href, hload.1, hload.2, Dev.toldResult]

/-- A code that names no command is refused with 0x31 (R795). -/
theorem Dev.commandRefusal_of_reserved (s : Dev) {code : BitVec 8}
    (h : code = 0 ∨ 0x09 ≤ code.toNat ∧ code.toNat ≤ 0x0F ∨ 0x17 ≤ code.toNat ∧ code.toNat ≤ 0x1F ∨ 0x23 ≤ code.toNat) (arg : Nat) :
    s.commandRefusal code.toNat arg = some 0x31 := by
  have hcode : code.toNat = 0 ∨ 0x09 ≤ code.toNat ∧ code.toNat ≤ 0x0F ∨ 0x17 ≤ code.toNat ∧ code.toNat ≤ 0x1F ∨ 0x23 ≤ code.toNat := by
    rcases h with rfl | h
    · exact .inl rfl
    · exact .inr h
  unfold Dev.commandRefusal
  dsimp only
  split
  rotate_right
  · rfl
  all_goals omega

/-! ### The command in progress -/

/-- The slice with a command in progress, or none. -/
def Dev.withCmd (s : Dev) (c : Option CmdRun) : Dev := { s with mgmt.cmd := c }

theorem Dev.put_withCmd (s : Dev) (c : Option CmdRun) (f : Field) (v : Nat) : (s.withCmd c).put f v = (s.put f v).withCmd c := rfl

theorem Dev.setReg_withCmd (s : Dev) (c : Option CmdRun) (off v : Nat) : (s.withCmd c).setReg off v = (s.setReg off v).withCmd c := rfl

@[simp] theorem Dev.withCmd_fuse (s : Dev) (c : Option CmdRun) : (s.withCmd c).fuse = s.fuse := rfl

@[simp] theorem Dev.withCmd_img (s : Dev) (c : Option CmdRun) : (s.withCmd c).img = s.img := rfl

@[simp] theorem Dev.withCmd_freeCount (s : Dev) (c : Option CmdRun) : (s.withCmd c).freeCount = s.freeCount := rfl

theorem Dev.reg_withCmd (s : Dev) (c : Option CmdRun) (off : Nat) : (s.withCmd c).reg off = s.reg off := rfl

theorem Dev.each_withCmd {α : Type} (s : Dev) (c : Option CmdRun) (l : List α) {f : Dev → α → Dev}
    (h : ∀ (u : Dev) (a : α), f (u.withCmd c) a = (f u a).withCmd c) : (s.withCmd c).each l f = (s.each l f).withCmd c := by
  induction l generalizing s with
  | nil => rfl
  | cons a l ih => rw [Dev.each_cons, Dev.each_cons, h, ih]

/-- The command of a code, with what is known of its RESULT. -/
def runOf (code arg : Nat) (result : Option Nat) : CmdRun :=
  { code := BitVec.ofNat 8 code, arg := BitVec.ofNat 48 arg, result := result.map (BitVec.ofNat 8) }

/-- The slice with a command's write answered and BUSY standing. -/
def Dev.answered (s : Dev) (w : Writer) : Dev := (s.send (.resp w.src w.txid 0 [.ok] 0 0 [])).raise F.gnmCmdStatus_BUSY

@[simp] theorem Dev.answered_fuse (s : Dev) (w : Writer) : (s.answered w).fuse = s.fuse := Dev.raise_fuse (s.send _) _

@[simp] theorem Dev.answered_afterglow (s : Dev) (w : Writer) : (s.answered w).afterglow = s.afterglow :=
  Dev.raise_afterglow (s.send _) _

@[simp] theorem Dev.answered_img (s : Dev) (w : Writer) : (s.answered w).img = s.img := Dev.raise_img (s.send _) _

@[simp] theorem Dev.answered_freeCount (s : Dev) (w : Writer) : (s.answered w).freeCount = s.freeCount := Dev.raise_freeCount (s.send _) _

theorem Dev.accepted_eq (s : Dev) (w : Writer) (code arg : Nat) (r : Option Nat) :
    s.accepted w code arg r = (s.answered w).withCmd (some (runOf code arg r)) := rfl

/-- The RESULT of the command in progress is known (R794). -/
theorem Dev.cmdResult_withCmd (s : Dev) {code : Nat} (hcode : code < 256) (arg r : Nat) (x : Option Nat) :
    (s.withCmd (some (runOf code arg x))).cmdResult code r = s.withCmd (some (runOf code arg (some r))) := by
  simp [Dev.cmdResult, Dev.withCmd, runOf, Nat.mod_eq_of_lt hcode]

/-! ### Counters that are cleared -/

/-- Fields that are set to 0 read 0, and a field that is none of them reads as before. -/
theorem Dev.each_put_zero_get {α : Type} {f : α → Field} {g : Field} (hlo : g.lo ≤ g.hi + 1) (hhi : g.hi < 64) {l : List α}
    (hoff : ∀ a ∈ l, (f a).off = g.off → f a = g) {s : Dev} (hwf : s.registersWf = true) :
    (s.each l (fun s a => s.put (f a) 0)).get g = if g ∈ l.map f then 0 else s.get g := by
  induction l generalizing s with
  | nil => rfl
  | cons a l ih =>
    rw [Dev.each_cons, ih (fun b hb => hoff b (List.mem_cons_of_mem _ hb)) (s.put_registersWf _ _ hwf), List.map_cons]
    by_cases ha : f a = g
    · rw [ha, s.get_put g 0 hwf hlo hhi, Nat.zero_mod, ite_self, if_pos List.mem_cons_self]
    · have hne : (f a).off ≠ g.off := fun h => ha (hoff a List.mem_cons_self h)
      simp only [Dev.get_put_other _ _ _ _ hne, List.mem_cons, Ne.symm ha, false_or]

/-- The counters of the groups of a mask. -/
def countersOf (groups : Nat) : List (Nat × Nat) := (onesOf 12 groups).flatMap fun g => (List.range 8).map fun k => (g, k)

theorem mem_countersOf {groups : Nat} {gk : Nat × Nat} :
    gk ∈ countersOf groups ↔ gk.1 < 12 ∧ bitAt groups gk.1 = true ∧ gk.2 < 8 := by
  simp only [countersOf, onesOf, List.mem_flatMap, List.mem_filter, List.mem_range, List.mem_map]
  constructor
  · rintro ⟨g, ⟨hg, hbit⟩, k, hk, rfl⟩
    exact ⟨hg, hbit, hk⟩
  · rintro ⟨hg, hbit, hk⟩
    exact ⟨gk.1, ⟨hg, hbit⟩, gk.2, hk, rfl⟩

theorem Dev.clearCounters_eq (s : Dev) (groups : Nat) :
    s.clearCounters groups = s.each (countersOf groups) fun s gk => s.put (F.cntVal_VALUE gk.1 gk.2) 0 := by
  simp only [Dev.clearCounters, Dev.each, countersOf, List.foldl_flatMap, List.foldl_map]

/-- The value registers of the counters are their own. -/
theorem cntVal_inj {g g' k k' : Nat} (hk : k < 8) (hk' : k' < 8)
    (h : (F.cntVal_VALUE g k).off = (F.cntVal_VALUE g' k').off) : g = g' ∧ k = k' := by
  simp only [F.cntVal_VALUE, R.cntVal] at h
  omega

/-- CLEAR_COUNTERS: the counters of the groups named read 0, the others as before (R795). -/
theorem Dev.clearCounters_get {s : Dev} (hwf : s.registersWf = true) (groups : Nat) {g k : Nat} (hg : g < 12) (hk : k < 8) :
    (s.clearCounters groups).get (F.cntVal_VALUE g k) = if bitAt groups g then 0 else s.get (F.cntVal_VALUE g k) := by
  have hoff : ∀ gk ∈ countersOf groups, (F.cntVal_VALUE gk.1 gk.2).off = (F.cntVal_VALUE g k).off →
      F.cntVal_VALUE gk.1 gk.2 = F.cntVal_VALUE g k := fun gk hgk h => by
    obtain ⟨rfl, rfl⟩ := cntVal_inj (mem_countersOf.1 hgk).2.2 hk h
    rfl
  have hmem : F.cntVal_VALUE g k ∈ (countersOf groups).map (fun gk => F.cntVal_VALUE gk.1 gk.2) ↔ bitAt groups g = true := by
    rw [List.mem_map]
    constructor
    · rintro ⟨gk, hgk, h⟩
      obtain ⟨-, hbit, hk'⟩ := mem_countersOf.1 hgk
      obtain ⟨rfl, -⟩ := cntVal_inj hk' hk (congrArg Field.off h)
      exact hbit
    · exact fun hbit => ⟨(g, k), mem_countersOf.2 ⟨hg, hbit, hk⟩, rfl⟩
  rw [Dev.clearCounters_eq, Dev.each_put_zero_get (Nat.zero_le _) (by decide : 47 < 64) hoff hwf]
  simp only [hmem]

/-- The value registers of the counters (R796). -/
def counterValueReg (off : Nat) : Prop := ∃ g < 12, ∃ k < 8, off = (F.cntVal_VALUE g k).off

/-- CLEAR_COUNTERS changes no register but the values of counters (R795). -/
theorem Dev.clearCounters_regs (s : Dev) (groups : Nat) : s.RegsChange (s.clearCounters groups) counterValueReg := by
  rw [Dev.clearCounters_eq]
  refine (Dev.RegsChange.refl s).each fun u gk hgk => (Dev.RegsChange.refl u).put _ _ ?_
  obtain ⟨hg, -, hk⟩ := mem_countersOf.1 hgk
  exact ⟨gk.1, hg, gk.2, hk, rfl⟩

/-! ### Commands of this slice alone -/

/-- A register other than GNM_CMD_STATUS is as it was before the command was accepted. -/
theorem Dev.answered_reg (s : Dev) (w : Writer) {off : Nat} (h : off ≠ R.gnmCmdStatus) : (s.answered w).reg off = s.reg off :=
  Dev.reg_put_other (s.send _) F.gnmCmdStatus_BUSY off 1 (Ne.symm h)

theorem Dev.answered_get (s : Dev) (w : Writer) {f : Field} (h : f.off ≠ R.gnmCmdStatus) : (s.answered w).get f = s.get f :=
  Dev.get_congr (s.answered_reg w h)

theorem Dev.answered_registersWf {s : Dev} (h : s.registersWf = true) (w : Writer) : (s.answered w).registersWf = true :=
  Dev.put_registersWf (s.send _) F.gnmCmdStatus_BUSY 1 h

/-- A command of this slice alone, accepted. -/
theorem Dev.command_alone {s : Dev} {w : Writer} {code arg : Nat} (h : s.mayCommand w code arg = true) (hset : setWide code = false) :
    s.command w code arg = ((s.answered w).withCmd (some (runOf code arg none))).runAlone code arg := by
  rw [Dev.command_of_mayCommand h, Dev.runCommand, hset, Dev.accepted_eq]
  rfl

/-! The commands, each on a slice where it is in progress (R701, R722, R723, R795). -/

section
variable (u : Dev)

theorem Dev.runAlone_debugLock : (u.withCmd (some (runOf 0x06 0 none))).runAlone 0x06 0 =
    (u.withCmd (some (runOf 0x06 0 (some 0)))).put F.secDebug_PERMS 0 := by
  rw [Dev.runAlone, Dev.put_withCmd, Dev.cmdResult_withCmd _ (by decide), Dev.put_withCmd]

theorem Dev.runAlone_revokeKey (slot : Nat) : (u.withCmd (some (runOf 0x07 slot none))).runAlone 0x07 slot =
    { u.withCmd (some (runOf 0x07 slot (some 0))) with
      fuse.keys := u.fuse.keys.zipIdx.map (fun (e : KeySlot × Nat) => if e.2 == slot then { e.1 with revoked := true } else e.1) } := by
  rw [Dev.runAlone]
  exact Dev.cmdResult_withCmd { u with
    fuse.keys := u.fuse.keys.zipIdx.map (fun (e : KeySlot × Nat) => if e.2 == slot then { e.1 with revoked := true } else e.1) }
    (by decide) _ _ _

theorem Dev.runAlone_raiseVersion : (u.withCmd (some (runOf 0x08 0 none))).runAlone 0x08 0 =
    { u.withCmd (some (runOf 0x08 0 (some 0))) with
      fuse.minVersion := BitVec.ofNat 16 (max u.fuse.minVersion.toNat u.img.force.secVersion.toNat) } := by
  rw [Dev.runAlone]
  exact Dev.cmdResult_withCmd { u with
    fuse.minVersion := BitVec.ofNat 16 (max u.fuse.minVersion.toNat u.img.force.secVersion.toNat) } (by decide) _ _ _

theorem Dev.runAlone_dim : (u.withCmd (some (runOf 0x10 0 none))).runAlone 0x10 0 =
    { (u.withCmd (some (runOf 0x10 0 (some 0)))).put F.pwrState_STATE 2 with phase := .dim } := by
  rw [Dev.runAlone, Dev.put_withCmd, Dev.put_withCmd]
  exact Dev.cmdResult_withCmd { u.put F.pwrState_STATE 2 with phase := .dim } (by decide) _ _ _

theorem Dev.runAlone_lit : (u.withCmd (some (runOf 0x11 0 none))).runAlone 0x11 0 =
    { (u.withCmd (some (runOf 0x11 0 (some 0)))).put F.pwrState_STATE 1 with phase := .lit } := by
  rw [Dev.runAlone, Dev.put_withCmd, Dev.put_withCmd]
  exact Dev.cmdResult_withCmd { u.put F.pwrState_STATE 1 with phase := .lit } (by decide) _ _ _

theorem Dev.runAlone_clearLog : (u.withCmd (some (runOf 0x22 0 none))).runAlone 0x22 0 =
    { (u.withCmd (some (runOf 0x22 0 (some 0)))).setReg R.rstAg3 0 with
      afterglow := u.afterglow.filter (fun e => 0x3000 ≤ e.1), frm.deniedRec := none } := by
  rw [Dev.runAlone, Dev.clearLog, Dev.setReg_withCmd, Dev.setReg_withCmd]
  exact Dev.cmdResult_withCmd { u.setReg R.rstAg3 0 with
    afterglow := u.afterglow.filter (fun e => 0x3000 ≤ e.1), frm.deniedRec := none } (by decide) _ _ _

/-- CLEAR_COUNTERS (R795). -/
theorem Dev.runAlone_clearCounters (groups : Nat) : (u.withCmd (some (runOf 0x21 groups none))).runAlone 0x21 groups =
    { u.withCmd (some (runOf 0x21 groups (some 0))) with csr := (u.clearCounters groups).csr } := by
  obtain ⟨⟨c, hc⟩, -⟩ := u.clearCounters_regs groups
  have hcmd : (u.withCmd (some (runOf 0x21 groups none))).clearCounters groups =
      (u.clearCounters groups).withCmd (some (runOf 0x21 groups none)) := by
    rw [Dev.clearCounters_eq, Dev.clearCounters_eq]
    exact Dev.each_withCmd _ _ _ fun u gk => u.put_withCmd _ _ _
  rw [Dev.runAlone, hcmd, Dev.cmdResult_withCmd _ (by decide), hc]
  rfl

end

/-- COMMAND_END writes the RESULT that is known (R794). -/
theorem Dev.commandEnd_of_known {s : Dev} {code r : BitVec 8} {arg : BitVec 48}
    (h : s.mgmt.cmd = some { code := code, arg := arg, result := some r }) : s.commandEnd = s.endCommand code.toNat r.toNat := by
  simp only [Dev.commandEnd, h]

/-- Settles O26: each command is accepted and runs at once, or is told its refusal. -/
theorem localCommandsRun : Obligations.LocalCommandsRun := by
  refine ⟨fun w s => ⟨fun h => ?_, fun slot h => ?_, fun h => ?_, fun h => ?_, fun h => ?_, fun h => ?_⟩,
    fun w groups s h hwf => ?_, fun code result arg s hcmd => ?_, fun w code s hadm hbusy hcode => ?_, fun w agent s hadm hbusy => ?_⟩
  · exact next_congr ((Dev.command_alone h (by decide)).trans (Dev.runAlone_debugLock _))
  · refine next_congr ((Dev.command_alone h (by decide)).trans ?_)
    rw [Dev.runAlone_revokeKey, Dev.answered_fuse, Dev.accepted_eq]
  · refine next_congr ((Dev.command_alone h (by decide)).trans ?_)
    rw [Dev.runAlone_raiseVersion, Dev.answered_fuse, Dev.answered_img, Dev.accepted_eq]
  · exact next_congr ((Dev.command_alone h (by decide)).trans (Dev.runAlone_dim _))
  · exact next_congr ((Dev.command_alone h (by decide)).trans (Dev.runAlone_lit _))
  · refine next_congr ((Dev.command_alone h (by decide)).trans ?_)
    rw [Dev.runAlone_clearLog, Dev.answered_afterglow, Dev.accepted_eq]
  · obtain ⟨-, hregs⟩ := (s.answered w).clearCounters_regs groups.toNat
    refine ⟨_, next_congr ((Dev.command_alone h (by decide)).trans (Dev.runAlone_clearCounters (s.answered w) _)), fun g hg k hk => ?_, fun off hoff hcnt => ?_, rfl⟩
    · refine (Dev.clearCounters_get (Dev.answered_registersWf hwf w) groups.toNat hg hk).trans ?_
      rw [Dev.answered_get _ _ (by simp only [F.cntVal_VALUE, R.cntVal, R.gnmCmdStatus]; omega)]
    · refine (hregs off ?_).trans (s.answered_reg w hoff)
      rintro ⟨g, hg, k, hk, rfl⟩
      exact hcnt g hg k hk rfl
  · exact next_congr (Dev.commandEnd_of_known hcmd)
  · refine next_congr (Dev.command_of_refused hadm hbusy (s.commandRefusal_of_reserved hcode 0) ⟨?_, ?_⟩)
    · rcases hcode with rfl | h
      · decide
      · omega
    · rcases hcode with rfl | h
      · decide
      · omega
  · exact next_congr (Dev.command_of_busy hadm hbusy 0x04 agent.toNat)

end Sys2Proof.Machine
end


section
/-! PROOFS. Debug tokens, and set-wide commands at a slice that does not lead. -/

namespace Sys2Proof.Machine

/-! ### Tokens (R705 to R707) -/

/-- The slice after a free value has become its nonce (R707). -/
def Dev.renonced (s : Dev) : Dev :=
  { s.setReg R.secNonce (Config.freeValue s.freeCount).toNat with freeCount := s.freeCount + 1 }

/-- A valid token grants its permissions (R706). -/
theorem Dev.checkToken_of_valid {s : Dev} {t : List Byte} (hfails : s.get F.secDebug_FAILS < 3) (hvalid : s.tokenValid t = true) :
    s.checkToken t = (s.renonced.put F.secDebug_PERMS (leAt t 4 1), true) := by
  simp only [Dev.checkToken, hfails, hvalid, decide_true, Bool.and_self, if_true]
  rfl

/-- Any other counts a failure (R707, R717). -/
theorem Dev.checkToken_of_refused {s : Dev} {t : List Byte} (h : 3 ≤ s.get F.secDebug_FAILS ∨ s.tokenValid t = false) :
    s.checkToken t = ((s.renonced.bump F.secDebug_FAILS).alert alertImgSec, false) := by
  have hcond : (decide (s.get F.secDebug_FAILS < 3) && s.tokenValid t) = false := by
    rcases h with h | h
    · simp [Nat.not_lt.2 h]
    · simp [h]
  simp only [Dev.checkToken, hcond]
  rfl

theorem Dev.tokenValid_congr {s u : Dev} (hfuse : u.fuse = s.fuse) (hnonce : u.reg R.secNonce = s.reg R.secNonce) (t : List Byte) :
    u.tokenValid t = s.tokenValid t := by
  simp only [Dev.tokenValid, hfuse, hnonce]

theorem Dev.tokenValid_withCmd (s : Dev) (c : Option CmdRun) (t : List Byte) : (s.withCmd c).tokenValid t = s.tokenValid t :=
  Dev.tokenValid_congr (s.withCmd_fuse c) (s.reg_withCmd c _) t

theorem Dev.renonced_withCmd (s : Dev) (c : Option CmdRun) : (s.withCmd c).renonced = s.renonced.withCmd c := rfl

theorem Dev.bump_withCmd (s : Dev) (c : Option CmdRun) (f : Field) (n : Nat) : (s.withCmd c).bump f n = (s.bump f n).withCmd c := rfl

theorem Dev.alert_withCmd (s : Dev) (c : Option CmdRun) (src : Nat) : (s.withCmd c).alert src = (s.alert src).withCmd c := rfl

theorem Dev.get_withCmd (s : Dev) (c : Option CmdRun) (f : Field) : (s.withCmd c).get f = s.get f := rfl

/-- How many free values have been taken bears on no register. -/
theorem Dev.put_of_freeCount (s : Dev) (n : Nat) (f : Field) (v : Nat) :
    ({ s with freeCount := n } : Dev).put f v = { s.put f v with freeCount := n } := rfl

theorem Dev.bump_alert_freeCount (s : Dev) (m n : Nat) (f : Field) (src : Nat) :
    ({ (({ s with freeCount := m } : Dev).bump f).alert src with freeCount := n } : Dev) =
      { (s.bump f).alert src with freeCount := n } := rfl

/-- DEBUG_TOKEN of a valid token (R706). -/
theorem Dev.runAlone_validToken {u : Dev} (hfails : u.get F.secDebug_FAILS < 3)
    (hvalid : u.tokenValid (memBytes u.img.stage 0 224) = true) :
    (u.withCmd (some (runOf 0x05 0 none))).runAlone 0x05 0 =
      (u.renonced.withCmd (some (runOf 0x05 0 (some 0)))).put F.secDebug_PERMS (leAt (memBytes u.img.stage 0 224) 4 1) := by
  have hcheck := Dev.checkToken_of_valid (s := u.withCmd (some (runOf 0x05 0 none))) hfails
    ((u.tokenValid_withCmd _ _).trans hvalid)
  rw [Dev.runAlone, Dev.withCmd_img, hcheck, Dev.renonced_withCmd, Dev.put_withCmd, Dev.put_withCmd]
  exact Dev.cmdResult_withCmd (code := 0x05) _ (by decide) _ _ _

/-- DEBUG_TOKEN of any other, whose RESULT is a second free value (R707; log entry 7). -/
theorem Dev.runAlone_refusedToken {u : Dev}
    (h : 3 ≤ u.get F.secDebug_FAILS ∨ u.tokenValid (memBytes u.img.stage 0 224) = false) :
    (u.withCmd (some (runOf 0x05 0 none))).runAlone 0x05 0 =
      { ((u.renonced.withCmd (some (runOf 0x05 0 (some ((Config.freeValue (u.freeCount + 1)).toNat % 256))))).bump
          F.secDebug_FAILS).alert alertImgSec with freeCount := u.freeCount + 2 } := by
  have hcheck := Dev.checkToken_of_refused (s := u.withCmd (some (runOf 0x05 0 none)))
    (h.imp_right ((u.tokenValid_withCmd _ _).trans ·))
  rw [Dev.runAlone, Dev.withCmd_img, hcheck, Dev.renonced_withCmd, Dev.bump_withCmd, Dev.alert_withCmd, Dev.bump_withCmd,
    Dev.alert_withCmd]
  exact Dev.cmdResult_withCmd { (u.renonced.bump F.secDebug_FAILS).alert alertImgSec with freeCount := u.freeCount + 2 }
    (code := 0x05) (by decide) _ _ _

theorem Dev.tokenValid_answered (s : Dev) (w : Writer) (t : List Byte) : (s.answered w).tokenValid t = s.tokenValid t :=
  Dev.tokenValid_congr (s.answered_fuse w) (s.answered_reg w (by decide)) t

/-- Settles O27: DEBUG_TOKEN and TOKEN check their token alike. -/
theorem tokensAreChecked : Obligations.TokensAreChecked := by
  refine ⟨fun w s h => ⟨fun hfails hvalid => ?_, fun href => ?_⟩, fun bytes s => ⟨fun hfails hvalid => ?_, fun href => ?_⟩⟩
  · refine next_congr ((Dev.command_alone h (by decide)).trans ?_)
    rw [Dev.runAlone_validToken (by rwa [Dev.answered_get _ _ (by decide)])
      (by rwa [Dev.answered_img, Dev.tokenValid_answered]), Dev.answered_img, Dev.accepted_eq, Dev.setReg_withCmd,
      Dev.renonced, Dev.answered_freeCount]
    exact Dev.put_of_freeCount (((s.answered w).setReg R.secNonce _).withCmd _) _ _ _
  · refine next_congr ((Dev.command_alone h (by decide)).trans ?_)
    rw [Dev.runAlone_refusedToken (by rwa [Dev.answered_get _ _ (by decide), Dev.answered_img, Dev.tokenValid_answered]),
      Dev.renonced, Dev.answered_freeCount, Dev.accepted_eq, Dev.setReg_withCmd]
    exact Dev.bump_alert_freeCount (((s.answered w).setReg R.secNonce _).withCmd _) _ _ _ _
  · exact next_congr (congrArg Prod.fst (Dev.checkToken_of_valid (s := s.tapSelect 0x20 0) hfails hvalid))
  · exact next_congr (congrArg Prod.fst (Dev.checkToken_of_refused (s := s.tapSelect 0x20 0) href))

/-! ### Set-wide commands (R691, R701) -/

theorem Dev.answered_isLost (s : Dev) (w : Writer) (p : Nat) : (s.answered w).isLost p = s.isLost p := by
  rw [Dev.isLost, Dev.isLost, Dev.answered_get _ _ (by decide)]

theorem Dev.answered_pos (s : Dev) (w : Writer) : (s.answered w).pos = s.pos := by
  rw [Dev.pos, Dev.pos, Dev.answered_get _ _ (by decide)]

theorem Dev.answered_links (s : Dev) (w : Writer) : (s.answered w).links = s.links := Dev.raise_links (s.send _) _

theorem Dev.answered_setCount (s : Dev) (w : Writer) : (s.answered w).setCount = s.setCount := by
  rw [Dev.setCount, Dev.setCount, Dev.setSize, Dev.answered_get _ _ (by decide), Dev.answered_links]
  rfl

theorem Dev.answered_leader (s : Dev) (w : Writer) : (s.answered w).leader = s.leader :=
  s.answered_get w (f := F.frmConfig_LEADER) (by decide)

theorem Dev.answered_isLeader (s : Dev) (w : Writer) : (s.answered w).isLeader = s.isLeader := by
  rw [Dev.isLeader, Dev.isLeader, Dev.answered_leader, Dev.answered_pos]

theorem Dev.answered_others (s : Dev) (w : Writer) : (s.answered w).others = s.others := by
  simp only [Dev.others, Dev.answered_setCount, Dev.answered_pos, Dev.answered_isLost]

theorem Dev.answered_liveSet (s : Dev) (w : Writer) : (s.answered w).liveSet = s.liveSet := by
  simp only [Dev.liveSet, Dev.answered_setCount, Dev.answered_isLost]

theorem Dev.answered_outbox (s : Dev) (w : Writer) : (s.answered w).outbox = s.outbox ++ [.resp w.src w.txid 0 [.ok] 0 0 []] :=
  Dev.raise_outbox (s.send _) _

/-- The staged copy goes to each of some slices (R689). -/
theorem Dev.each_stageCopy (s : Dev) (l : List Nat) :
    s.each l (fun s p => s.send (.stageCopy p (s.get F.imgStage_LENGTH))) =
      s.sendAll (l.map fun p => .stageCopy p (s.get F.imgStage_LENGTH)) := by
  induction l generalizing s with
  | nil => simp [Dev.sendAll]
  | cons p l ih =>
    rw [Dev.each_cons, ih, Dev.send_get]
    simp [Dev.sendAll, Dev.send]

/-- A position is below 8 (R20). -/
theorem Dev.pos_lt (s : Dev) : s.pos < 8 := by
  have h : s.get F.rstStrap_BAND < 2 ^ 4 := Nat.mod_lt _ (by decide)
  unfold Dev.pos
  omega

/-- TARGETS of a command's ARG, by its bits (R746). -/
theorem bitAt_targets (targets block : BitVec 8) {p : Nat} (h : p < 8) :
    bitAt (targets.toNat + block.toNat * 256) p = bitAt targets.toNat p := by
  have hp : (targets.toNat + block.toNat * 256) / 2 ^ p = targets.toNat / 2 ^ p + block.toNat * 2 ^ (8 - p) := by
    rw [show block.toNat * 256 = block.toNat * 2 ^ (8 - p) * 2 ^ p by rw [Nat.mul_assoc, ← Nat.pow_add, Nat.sub_add_cancel h.le],
      Nat.add_mul_div_right _ _ (Nat.two_pow_pos p)]
  have heven : block.toNat * 2 ^ (8 - p) % 2 = 0 := by
    rw [show 8 - p = 7 - p + 1 by omega, Nat.pow_succ, ← Nat.mul_assoc, Nat.mul_mod_left]
  rw [bitAt, bitAt, Nat.shiftRight_eq_div_pow, Nat.shiftRight_eq_div_pow, hp]
  congr 1
  omega

/-- The block of a command's ARG (R746). -/
theorem bitsOf_block (targets block : BitVec 8) : bitsOf (targets.toNat + block.toNat * 256) 15 8 = block.toNat := by
  simp only [bitsOf, Nat.shiftRight_eq_div_pow]
  omega

/-- A set-wide command of its own, as a slice forwards it to the leader. -/
def Dev.forwarded (s : Dev) (code arg : Nat) : Msg := .ctl s.leader (.mgmt 0 (BitVec.ofNat 8 code) (BitVec.ofNat 48 arg))

theorem Dev.forwarded_withCmd (s : Dev) (c : Option CmdRun) (code arg : Nat) :
    (s.withCmd c).forwarded code arg = s.forwarded code arg := rfl

theorem Dev.others_withCmd (s : Dev) (c : Option CmdRun) : (s.withCmd c).others = s.others := rfl

theorem Dev.liveSet_withCmd (s : Dev) (c : Option CmdRun) : (s.withCmd c).liveSet = s.liveSet := rfl

theorem Dev.pos_withCmd (s : Dev) (c : Option CmdRun) : (s.withCmd c).pos = s.pos := rfl

theorem Dev.isLeader_withCmd (s : Dev) (c : Option CmdRun) : (s.withCmd c).isLeader = s.isLeader := rfl

theorem Dev.forwarded_sendAll (s : Dev) (l : List Msg) (code arg : Nat) :
    (s.sendAll l).forwarded code arg = s.forwarded code arg := rfl

section
variable {u : Dev} (hlead : u.isLeader = false) {code arg : Nat}
include hlead

/-- A command of which nothing more is known here is forwarded. -/
theorem Dev.runCommand_forwarded (hcode : code = 0x02 ∨ code = 0x12 ∨ code = 0x13 ∨ code = 0x16 ∧ bitAt arg u.pos = true) :
    u.runCommand code arg = u.send (u.forwarded code arg) := by
  rcases hcode with rfl | rfl | rfl | ⟨rfl, hbit⟩
  · simp [Dev.runCommand, setWide, hlead, Dev.forwarded]
  · simp [Dev.runCommand, setWide, hlead, Dev.forwarded]
  · simp [Dev.runCommand, setWide, hlead, Dev.forwarded]
  · simp [Dev.runCommand, setWide, hlead, Dev.forwarded, hbit]

/-- LIFT_FENCE, the resets of slices and EXPOSE are forwarded with their RESULT known. -/
theorem Dev.runCommand_known (hcode : code = 0x04 ∨ code = 0x14 ∨ code = 0x15 ∨ code = 0x20) (x : Option Nat) (a : Nat) :
    (u.withCmd (some (runOf code a x))).runCommand code arg =
      (u.withCmd (some (runOf code a (some 0)))).send (u.forwarded code arg) := by
  have hlead' : (u.withCmd (some (runOf code a (some 0)))).isLeader = false := hlead
  rw [← u.forwarded_withCmd (some (runOf code a (some 0)))]
  rcases hcode with rfl | rfl | rfl | rfl
  · simp [Dev.runCommand, setWide, Dev.cmdResult_withCmd, hlead', Dev.forwarded]
  · simp [Dev.runCommand, setWide, Dev.cmdResult_withCmd, hlead', Dev.forwarded]
  · simp [Dev.runCommand, setWide, Dev.cmdResult_withCmd, hlead', Dev.forwarded]
  · simp [Dev.runCommand, setWide, Dev.cmdResult_withCmd, hlead', Dev.forwarded]

/-- A load or patch sends its staged copy before it is forwarded (R689). -/
theorem Dev.runCommand_load (hcode : code = 0x01 ∨ code = 0x03) :
    u.runCommand code arg =
      (u.sendAll (u.others.map fun p => .stageCopy p (u.get F.imgStage_LENGTH))).send (u.forwarded code arg) := by
  have hlead' : (u.sendAll (u.others.map fun p => .stageCopy p (u.get F.imgStage_LENGTH))).isLeader = false := hlead
  rw [← u.forwarded_sendAll (u.others.map fun p => .stageCopy p (u.get F.imgStage_LENGTH))]
  rcases hcode with rfl | rfl
  · simp [Dev.runCommand, setWide, Dev.each_stageCopy, hlead', Dev.forwarded]
  · simp [Dev.runCommand, setWide, Dev.each_stageCopy, hlead', Dev.forwarded]

end

/-- The slice with a number of free values taken. -/
def Dev.withFree (s : Dev) (n : Nat) : Dev := { s with freeCount := n }

theorem Dev.withFree_withCmd (s : Dev) (c : Option CmdRun) (n : Nat) : (s.withCmd c).withFree n = (s.withFree n).withCmd c := rfl

theorem Dev.isLeader_withFree (s : Dev) (n : Nat) : (s.withFree n).isLeader = s.isLeader := rfl

theorem Dev.forwarded_withFree (s : Dev) (n code arg : Nat) : (s.withFree n).forwarded code arg = s.forwarded code arg := rfl

/-- The RESULT of a RESET_BLOCK of other slices alone, as far as it is known here (R746; log entry 66). -/
theorem Dev.blockResult_away {u : Dev} {targets : Nat} (haway : bitAt targets u.pos = false) (block : Nat) :
    ∃ r ∈ [0, 0x30, 0x31], ∃ n,
      ((∀ p ∈ u.liveSet, bitAt targets p = false) → r = 0) ∧
      ((∃ p ∈ u.liveSet, bitAt targets p = true) → reservedBlock block = true → r = 0x31) ∧
      u.blockResult targets block 0 = (r, u.withFree n) := by
  by_cases hnone : u.liveSet.filter (bitAt targets) = []
  · have hfar : ∀ p ∈ u.liveSet, bitAt targets p = false := fun p hp => by simpa using List.filter_eq_nil_iff.1 hnone p hp
    refine ⟨0, by decide, u.freeCount, fun _ => rfl, fun ⟨p, hp, hbit⟩ => ?_, by simp [Dev.blockResult, hnone, Dev.withFree]⟩
    rw [hfar p hp] at hbit
    cases hbit
  · have hsome : ¬ ∀ p ∈ u.liveSet, bitAt targets p = false := fun h =>
      hnone (List.filter_eq_nil_iff.2 fun p hp => by simp [h p hp])
    by_cases hres : reservedBlock block = true
    · exact ⟨0x31, by decide, u.freeCount, fun h => absurd h hsome, fun _ _ => rfl, by simp [Dev.blockResult, hnone, hres, Dev.withFree]⟩
    · have hself : (u.liveSet.filter (bitAt targets) == [u.pos]) = false := beq_false_of_ne fun h => by
        have hmem : u.pos ∈ u.liveSet.filter (bitAt targets) := by rw [h]; exact List.mem_singleton_self _
        rw [(List.mem_filter.1 hmem).2] at haway
        cases haway
      refine ⟨[0, 0x30, 0x31].getD ((Config.freeValue u.freeCount).toNat % 3) 0, ?_, u.freeCount + 1, fun h => absurd h hsome,
        fun _ h => absurd h hres, ?_⟩
      · have hlt : (Config.freeValue u.freeCount).toNat % 3 < 3 := Nat.mod_lt _ (by decide)
        rw [List.getD_eq_getElem _ _ (by simpa using hlt)]
        exact List.getElem_mem _
      · simp [Dev.blockResult, hnone, hres, hself, Dev.free, Dev.withFree]

/-- RESET_BLOCK of other slices is forwarded. -/
theorem Dev.runCommand_resetBlock {u : Dev} {targets block : BitVec 8} {c : Option CmdRun} {r : Nat}
    {v : Dev} (haway : bitAt targets.toNat u.pos = false) (hr : (u.withCmd c).blockResult targets.toNat block.toNat 0 = (r, v))
    (hv : (v.cmdResult 0x16 r).isLeader = false) :
    (u.withCmd c).runCommand 0x16 (targets.toNat + block.toNat * 256) =
      (v.cmdResult 0x16 r).send ((v.cmdResult 0x16 r).forwarded 0x16 (targets.toNat + block.toNat * 256)) := by
  have hbit : bitAt (targets.toNat + block.toNat * 256) (u.withCmd c).pos = false :=
    (bitAt_targets targets block (u.withCmd c).pos_lt).trans haway
  have hmod : (targets.toNat + block.toNat * 256) % 256 = targets.toNat := by omega
  simp [Dev.runCommand, setWide, hbit, hmod, bitsOf_block, hr, hv, Dev.forwarded]

/-- The messages that a command's slice sends after its answer. -/
theorem Dev.sendAll_accepted (s : Dev) (w : Writer) (code arg : Nat) (r : Option Nat) (l : List Msg) :
    (s.accepted w code arg r).sendAll l =
      { s.accepted w code arg r with outbox := s.outbox ++ [.resp w.src w.txid 0 [.ok] 0 0 []] ++ l } := by
  have hout : (s.accepted w code arg r).outbox = s.outbox ++ [.resp w.src w.txid 0 [.ok] 0 0 []] := s.answered_outbox w
  rw [Dev.sendAll, hout]

theorem Dev.forwarded_answered (s : Dev) (w : Writer) (code arg : Nat) : (s.answered w).forwarded code arg = s.forwarded code arg := by
  rw [Dev.forwarded, Dev.forwarded, Dev.answered_leader]

theorem Dev.send_eq_sendAll (s : Dev) (m : Msg) : s.send m = s.sendAll [m] := rfl

theorem Dev.sendAll_send (s : Dev) (l : List Msg) (m : Msg) : (s.sendAll l).send m = s.sendAll (l ++ [m]) := by
  simp [Dev.sendAll, Dev.send]

/-- A set-wide command at a slice that does not lead, but for RESET_BLOCK of other slices. -/
theorem Dev.command_setWide {s : Dev} {w : Writer} {code arg : Nat} (h : s.mayCommand w code arg = true) (hlead : s.isLeader = false)
    (hcode : (code = 0x01 ∨ code = 0x03) ∨ (code = 0x02 ∨ code = 0x12 ∨ code = 0x13 ∨ code = 0x16 ∧ bitAt arg s.pos = true) ∨
      (code = 0x04 ∨ code = 0x14 ∨ code = 0x15 ∨ code = 0x20)) :
    s.command w code arg = (s.accepted w code arg (if code ∈ [0x04, 0x14, 0x15, 0x20] then some 0 else none)).sendAll
      ((if code = 1 ∨ code = 3 then s.others.map (fun p => Msg.stageCopy p (s.get F.imgStage_LENGTH)) else []) ++
        [s.forwarded code arg]) := by
  have hlead' : (s.answered w).isLeader = false := (s.answered_isLeader w).trans hlead
  have hothers := s.answered_others w
  have hlength := s.answered_get w (f := F.imgStage_LENGTH) (by decide)
  rw [Dev.command_of_mayCommand h, Dev.accepted_eq, Dev.accepted_eq, ← s.forwarded_answered w]
  rcases hcode with hload | hplain | hknown
  · have hcond : code = 1 ∨ code = 3 := hload
    rw [Dev.runCommand_load ((Dev.isLeader_withCmd _ _).trans hlead') hload, Dev.sendAll_send, Dev.others_withCmd, hothers, Dev.get_withCmd,
      hlength, Dev.forwarded_withCmd, if_pos hcond]
    rcases hload with rfl | rfl <;> simp
  · rw [Dev.runCommand_forwarded ((Dev.isLeader_withCmd _ _).trans hlead') (by rwa [Dev.pos_withCmd, Dev.answered_pos]), Dev.forwarded_withCmd]
    rcases hplain with rfl | rfl | rfl | ⟨rfl, -⟩ <;> simp [Dev.send_eq_sendAll]
  · rw [Dev.runCommand_known hlead' hknown]
    rcases hknown with rfl | rfl | rfl | rfl <;> simp [Dev.send_eq_sendAll]

/-- RESET_BLOCK of other slices, accepted. -/
theorem Dev.command_resetBlock {s : Dev} {w : Writer} {targets block : BitVec 8}
    (h : s.mayCommand w 0x16 (targets.toNat + block.toNat * 256) = true) (hlead : s.isLeader = false)
    (haway : bitAt targets.toNat s.pos = false) :
    ∃ r ∈ [0, 0x30, 0x31], ∃ n,
      ((∀ p ∈ s.liveSet, bitAt targets.toNat p = false) → r = 0) ∧
      ((∃ p ∈ s.liveSet, bitAt targets.toNat p = true) → reservedBlock block.toNat = true → r = 0x31) ∧
      s.command w 0x16 (targets.toNat + block.toNat * 256) =
        ((s.accepted w 0x16 (targets.toNat + block.toNat * 256) (some r)).sendAll
            [s.forwarded 0x16 (targets.toNat + block.toNat * 256)]).withFree n := by
  have haway' : bitAt targets.toNat (s.answered w).pos = false := by rwa [Dev.answered_pos]
  obtain ⟨r, hr, n, hnone, hres, heq⟩ := Dev.blockResult_away
    (u := (s.answered w).withCmd (some (runOf 0x16 (targets.toNat + block.toNat * 256) none)))
    ((congrArg _ (Dev.pos_withCmd _ _)).trans haway') block.toNat
  rw [Dev.liveSet_withCmd, Dev.answered_liveSet] at hnone hres
  rw [Dev.withFree_withCmd] at heq
  have hresult := ((s.answered w).withFree n).cmdResult_withCmd (code := 0x16) (by decide)
    (targets.toNat + block.toNat * 256) r none
  refine ⟨r, hr, n, hnone, hres, ?_⟩
  rw [Dev.command_of_mayCommand h, Dev.accepted_eq, Dev.accepted_eq, Dev.runCommand_resetBlock haway' heq, hresult,
    Dev.forwarded_withCmd, Dev.forwarded_withFree, Dev.forwarded_answered, ← Dev.withFree_withCmd]
  · rfl
  · rw [hresult, Dev.isLeader_withCmd, Dev.isLeader_withFree, Dev.answered_isLeader, hlead]

/-- The device after a set-wide command, in the statement's form: the messages written out, the rest as accepted. -/
theorem Dev.withFree_sendAll_accepted (s : Dev) (w : Writer) (code arg : Nat) (r : Option Nat) (l : List Msg) (n : Nat) :
    ((s.accepted w code arg r).sendAll l).withFree n =
      { s.accepted w code arg r with freeCount := n, outbox := s.outbox ++ [.resp w.src w.txid 0 [.ok] 0 0 []] ++ l } := by
  rw [Dev.sendAll_accepted, Dev.withFree]

/-- Settles O28: each command is accepted and forwarded; what differs is whether its RESULT is known. -/
theorem setWideCommandsAreForwarded : Obligations.SetWideCommandsAreForwarded := by
  refine ⟨fun w c code arg s h hlead hc => ?_, fun w targets block s h hlead haway => ?_⟩
  · have hrun := fun hcode => (Dev.command_setWide h hlead hcode).trans (Dev.sendAll_accepted _ _ _ _ _ _)
    simp only [← List.append_assoc] at hrun
    rcases hc with ⟨rfl, rfl, rfl⟩ | ⟨rfl, rfl, rfl⟩ | ⟨rfl, rfl, rfl⟩ | ⟨a, rfl, rfl, rfl⟩ | ⟨rfl, rfl, rfl⟩ | ⟨rfl, rfl, rfl⟩ |
      ⟨t, rfl, rfl, rfl⟩ | ⟨t, rfl, rfl, rfl⟩ | ⟨t, b, rfl, rfl, rfl, hbit⟩ | ⟨f, rfl, rfl, rfl⟩
    · exact next_congr (hrun (by simp))
    · exact next_congr (hrun (by simp))
    · exact next_congr (hrun (by simp))
    · exact next_congr (hrun (by simp))
    · exact next_congr (hrun (by simp))
    · exact next_congr (hrun (by simp))
    · exact next_congr (hrun (by simp))
    · exact next_congr (hrun (by simp))
    · exact next_congr (hrun (.inr (.inl (.inr (.inr (.inr ⟨rfl, (bitAt_targets t b s.pos_lt).trans hbit⟩))))))
    · exact next_congr (hrun (by simp))
  · obtain ⟨r, hr, n, hnone, hres, heq⟩ := Dev.command_resetBlock h hlead haway
    have hdev := heq.trans (Dev.withFree_sendAll_accepted _ _ _ _ _ _ _)
    exact ⟨_, next_congr hdev, r, hr, hnone, hres, by simp [Dev.forwarded]⟩

end Sys2Proof.Machine
end


section
/-! PROOFS. Corners of the resets and supplies: a bad word of afterglow memory, and a register kept twice. -/

namespace Sys2Proof.Machine

/-- A stack that qualifies and trains, as its slice senses it. -/
def soundStack : StackReport :=
  { height := 16, density := 48, banks := 64, trefwMs := 32, refPerBank := 100, trfcNs := 100, rateMax := 9600, accessNs := 20,
    qualified := true, trains := true }

/-- What a slice senses that has no REFCLK and finds the first word of its afterglow memory bad (R749). -/
def badAfterglow : BootInputs := { strap := 1, refclk := false, stack0 := soundStack, stack1 := soundStack, afterglowBad := [0] }

/-- The out-of-reset order zeroes the bad word, and keeps what was sensed without it. -/
theorem reset_rstNRelease_bootInputs : ∃ t : State, exec (.rstNRelease badAfterglow) State.reset = .next t ∧ 
    t.mgmt.boot = some { badAfterglow with afterglowBad := [] } :=
  ⟨_, rfl, by decide +kernel⟩

/-- Refutes O16, by its clause of what the slice sensed: the bad words of afterglow memory are spent as the out-of-reset order zeroes
them (R749), and the statement lets what was sensed stand. -/
theorem not_resetIsLeft : ¬ Obligations.ResetIsLeft := by
  intro h
  obtain ⟨t, ht, -, -, -, -, hstated, -⟩ := h badAfterglow State.reset (.rstNRelease badAfterglow) (by decide +kernel) rfl rfl
    (.inl ⟨rfl, rfl, rfl⟩)
  obtain ⟨u, hu, hboot⟩ := reset_rstNRelease_bootInputs
  cases hu.symm.trans ht
  exact absurd (hboot.symm.trans hstated) (by decide)

/-- A slice in Eclipse that is to leave it by a warm reset, with a byte of data in the bad word of afterglow memory. -/
def eclipsedBadAfterglow : State :=
  { pairedSlice with phase := .eclipse, pins.refclk := false, mgmt.boot := some badAfterglow, mgmt.exitKind := 1, afterglow := [(0, 1)] }

/-- The warm reset zeroes the word. -/
theorem eclipsedBadAfterglow_exit_zeroes :
    ∃ t : State, exec .eclipseExitTimer eclipsedBadAfterglow = .next t ∧ t.afterglow = [] := ⟨_, rfl, by decide +kernel⟩

/-- Refutes O17, by its clause of ECLIPSE_EXIT_TIMER: a bad word of afterglow memory is zeroed in the out-of-reset order (R749), and
the statement, which has no premise on the bad words, lets afterglow memory stand. -/
theorem not_eclipseIsLeft : ¬ Obligations.EclipseIsLeft := by
  rintro ⟨h, -⟩
  obtain ⟨t, ht, -, -, -, -, hstated, -⟩ := (h badAfterglow eclipsedBadAfterglow (by decide +kernel) rfl rfl).1 (.inl rfl)
  obtain ⟨u, hu, hzeroed⟩ := eclipsedBadAfterglow_exit_zeroes
  cases hu.symm.trans ht
  exact absurd (hzeroed.symm.trans hstated) (by decide)

/-- A slice in Dusk's drain whose register file keeps RST_AG2 twice. -/
def doubledAg2 : State := { pairedSlice with phase := .toDusk, pins.pwrGood := true, csr := [(R.rstAg2, 0), (R.rstAg2, 0)] }

/-- The registers that `Dev.cleared` keeps of a register file: the afterglow registers, over the Reset values (R744). -/
def keptRegs (m : List (Nat × BitVec 64)) : List (Nat × BitVec 64) :=
  (m.filter (fun e => isAfterglowReg e.1)).foldl (fun m e => tset m e.1 e.2) resetCsr

/-- What a register other than the strap and SEC_NONCE reads after a cold reset has cleared the slice (R744). -/
theorem Dev.reg_cleared_other (s : Dev) {off : Nat} (hnonce : R.secNonce ≠ off) (hstrap : R.rstStrap ≠ off) :
    (s.cleared true).reg off = (tgetD (keptRegs s.csr) off 0).toNat := by
  simp only [Dev.cleared, Bool.true_or, if_pos]
  rw [Dev.reg_setReg_other _ _ _ _ hnonce, Dev.reg_setReg_other _ _ _ _ hstrap]
  rfl

/-- The brown-out's mark goes to the first of the two, and the reset keeps the second. -/
theorem doubledAg2_brownout_unmarked :
    ∃ t : State, exec .vddCoreBrownout doubledAg2 = .next t ∧ t.get F.rstAg2_CORE_BROWNOUT = 0 := by
  have hreg : ((doubledAg2.raise F.rstAg2_CORE_BROWNOUT).cleared true).reg R.rstAg2 = (0 : Nat) :=
    ((doubledAg2.raise F.rstAg2_CORE_BROWNOUT).reg_cleared_other (by decide) (by decide)).trans (by decide +kernel)
  refine ⟨_, rfl, ?_⟩
  change bitsOf (((doubledAg2.raise F.rstAg2_CORE_BROWNOUT).cleared true).reg R.rstAg2) _ _ = 0
  rw [hreg]
  decide

/-- Refutes O18, by its clause of the brown-out, which has no premise that the register file is canonical: where a register is kept
twice, the mark that CORE_BROWNOUT sets is not the one that the reset keeps. -/
theorem not_suppliesAreLost : ¬ Obligations.SuppliesAreLost := by
  rintro ⟨-, -, h⟩
  obtain ⟨t, ht, -, -, -, hmarked, -⟩ := h doubledAg2 (by decide +kernel) (by decide) (by decide)
  obtain ⟨u, hu, hunmarked⟩ := doubledAg2_brownout_unmarked
  cases hu.symm.trans ht
  exact absurd (hunmarked.symm.trans hmarked) (by decide)

end Sys2Proof.Machine
end


section
/-! PROOFS. What a cold reset leaves of the registers, and the pins that hold the slice in reset. -/

namespace Sys2Proof.Machine

/-! ### The registers after a cold reset (R744) -/

theorem tget_filter {α : Type} (p : Nat → Bool) (m : SMap α) (i : Nat) :
    tget (m.filter fun e => p e.1) i = if p i = true then tget m i else none := by
  induction m with
  | nil => simp [tget]
  | cons e t ih =>
    obtain ⟨k, v⟩ := e
    by_cases hk : k = i
    · subst hk
      by_cases hp : p k = true <;> simp [hp, tget, ih]
    · by_cases hp : p k = true <;> simp [hp, tget, ih, hk]

/-- Registers laid over others: those laid over show. -/
theorem tget_foldl_tset {b : Nat} {l : SMap Word} (hl : registersWfFrom b l = true) (m : SMap Word) (i : Nat) :
    tget (l.foldl (fun m e => tset m e.1 e.2) m) i = (tget l i).or (tget m i) := by
  induction l generalizing b m with
  | nil => rfl
  | cons e t ih =>
    simp only [registersWfFrom, Bool.and_eq_true, decide_eq_true_eq] at hl
    obtain ⟨-, ht⟩ := hl
    rw [List.foldl_cons, ih ht, tget_tset]
    by_cases he : e.1 = i
    · simp [tget, tget_below ht (Nat.lt_succ_of_le he.ge), he]
    · simp [tget, he]

theorem resetCsr_not_afterglow {off : Nat} (h : isAfterglowReg off = true) : tget resetCsr off = none := by
  have hnone : (resetCsr.filter fun e => !isAfterglowReg e.1) = resetCsr := by decide
  rw [← hnone, tget_filter fun k => !isAfterglowReg k]
  simp [h]

/-- The afterglow registers stay, the others take their Reset values. -/
theorem tgetD_keptRegs {m : SMap Word} (h : registersWfFrom 0 m = true) (off : Nat) :
    tgetD (keptRegs m) off 0 = if isAfterglowReg off = true then tgetD m off 0 else tgetD resetCsr off 0 := by
  rw [tgetD, keptRegs, tget_foldl_tset (filter_registersWfFrom h), tget_filter]
  by_cases hag : isAfterglowReg off = true
  · rw [if_pos hag, if_pos hag, resetCsr_not_afterglow hag, Option.or_none, tgetD]
  · rw [if_neg hag, if_neg hag, Option.none_or, tgetD]

theorem keptRegs_wf {m : SMap Word} (h : registersWfFrom 0 m = true) : registersWfFrom 0 (keptRegs m) = true :=
  foldl_tset_wf (fun e he => registersWfFrom_ne h e (List.mem_of_mem_filter he)) resetCsr_wf

/-- The register file after a cold reset has cleared the slice. -/
theorem Dev.cleared_csr (s : Dev) : (s.cleared true).csr =
    tput 0 (tput 0 (keptRegs s.csr) R.rstStrap (BitVec.ofNat 64 (s.reg R.rstStrap))) R.secNonce (BitVec.ofNat 64 (Config.freeValue s.freeCount).toNat) := by
  rfl

/-- What a register reads after a cold reset has cleared the slice (R707, R744). -/
theorem Dev.reg_cleared {s : Dev} (h : s.registersWf = true) (off : Nat) :
    (s.cleared true).reg off = if off = R.secNonce then (Config.freeValue s.freeCount).toNat
      else if off = R.rstStrap ∨ isAfterglowReg off = true then s.reg off else (tgetD resetCsr off 0).toNat := by
  by_cases hnonce : off = R.secNonce
  · rw [if_pos hnonce, hnonce, Dev.reg, Dev.cleared_csr, tgetD_tput_same (tput_wfFrom (Nat.zero_le _) (keptRegs_wf h))]
    simp
  · rw [if_neg hnonce]
    by_cases hstrap : off = R.rstStrap
    · rw [if_pos (.inl hstrap), hstrap, Dev.reg, Dev.cleared_csr, tgetD, tget_tput_other _ _ _ _ _ (by decide), ← tgetD,
        tgetD_tput_same (keptRegs_wf h)]
      simp [Dev.reg]
    · rw [Dev.reg_cleared_other s (Ne.symm hnonce) (Ne.symm hstrap), tgetD_keptRegs h]
      by_cases hag : isAfterglowReg off = true
      · rw [if_pos hag, if_pos (.inr hag), Dev.reg]
      · rw [if_neg hag, if_neg (by simp [hstrap, hag])]

/-! ### PWR_GOOD falls, RST_N is asserted (R743, R805) -/

/-- Settles O15: both hold the slice, after a cold reset has cleared it. -/
theorem pinsHoldTheSlice : Obligations.PinsHoldTheSlice := by
  intro s c hwf hc
  rcases hc with ⟨rfl, hgood⟩ | ⟨rfl, hrst, hheld, hnight⟩
  · have hrun : s.toDev.pwrGoodFall = { s.hold 0 with pins.pwrGood := false, pins.droop := false } := by
      simp [Dev.pwrGoodFall, hgood]
    refine ⟨_, next_congr hrun, fun off => Dev.reg_cleared hwf off, rfl, rfl, ?_, rfl, rfl, rfl, rfl, rfl, rfl, rfl, rfl, rfl, rfl,
      rfl, rfl, rfl, rfl, rfl, rfl⟩
    simp [Dev.hold, Dev.cleared, Dev.setReg]
  · have hrun : s.toDev.rstAssert = { ({ s.toDev with pins.rstN := false } : Dev).hold 1 with pins.droop := false } := by
      simp [Dev.rstAssert, hrst, hheld, hnight]
    refine ⟨_, next_congr hrun, fun off => Dev.reg_cleared (s := { s.toDev with pins.rstN := false }) hwf off, rfl, rfl, ?_, rfl, rfl,
      rfl, rfl, rfl, rfl, rfl, rfl, rfl, rfl, rfl, rfl, rfl, rfl, rfl, rfl⟩
    simp [Dev.hold, Dev.cleared, Dev.setReg]

end Sys2Proof.Machine
end


section
/-! PROOFS. The throttles: what comes into force and ends, on a droop and by the die's temperature. -/

namespace Sys2Proof.Machine

/-! ### A throttle comes into force (R739) -/

/-- The registers as a throttle that is not in force comes into force. -/
def Dev.throttleRegs (s : Dev) (reason : Nat) : Dev :=
  let s1 := (s.raise (throttleBit reason)).raise (throttleSeen reason)
  if reason == 3 then s1.alert alertPwrRst else s1

theorem throttleBit_off (reason : Nat) : (throttleBit reason).off = R.pwrThrottle := by
  unfold throttleBit
  split <;> rfl

theorem throttleSeen_off (reason : Nat) : (throttleSeen reason).off = R.pwrThrottle := by
  unfold throttleSeen
  split <;> rfl

/-- Only the registers and the runs change. -/
theorem Dev.throttleOn_frame (s : Dev) (reason : Nat) : s.throttleOn reason = { s with
    csr := (s.throttleOn reason).csr, mgmt.throttleRuns := (s.throttleOn reason).mgmt.throttleRuns } := by
  have hput : ∀ (u : Dev) (f : Field), u.raise f = { u with csr := (u.raise f).csr } := fun _ _ => rfl
  have halert : ∀ (u : Dev) (k : Nat), u.alert k = { u with csr := (u.alert k).csr } := fun _ _ => rfl
  unfold Dev.throttleOn
  split
  · rfl
  · dsimp only
    split
    · rw [halert, hput, hput]
    · rw [hput, hput]

theorem Dev.throttleOff_idle {s : Dev} {reason : Nat} (h : s.get (throttleBit reason) = 0) : s.throttleOff reason = s := by
  simp [Dev.throttleOff, Dev.on, h]

theorem Dev.throttleOn_csr (s : Dev) {reason : Nat} (h : s.get (throttleBit reason) = 0) :
    (s.throttleOn reason).csr = (s.throttleRegs reason).csr := by
  simp [Dev.throttleOn, Dev.on, h, Dev.throttleRegs]

theorem Dev.throttleRegs_registersWf {s : Dev} (hwf : s.registersWf = true) (reason : Nat) : (s.throttleRegs reason).registersWf = true := by
  have hraised := Dev.put_registersWf _ (throttleSeen reason) 1 (s.put_registersWf (throttleBit reason) 1 hwf)
  unfold Dev.throttleRegs
  split
  · exact Dev.setReg_registersWf _ _ _ hraised
  · exact hraised

theorem Dev.throttleRegs_reg_other (s : Dev) (reason : Nat) {off : Nat} (hthrottle : R.pwrThrottle ≠ off) (halert : R.gnmAlert ≠ off) :
    (s.throttleRegs reason).reg off = s.reg off := by
  have hraised : ((s.raise (throttleBit reason)).raise (throttleSeen reason)).reg off = s.reg off :=
    (Dev.reg_put_other _ _ _ _ (by rwa [throttleSeen_off])).trans (Dev.reg_put_other _ _ _ _ (by rwa [throttleBit_off]))
  unfold Dev.throttleRegs
  split
  · exact (Dev.reg_setReg_other _ _ _ _ halert).trans hraised
  · exact hraised

/-- The bits of PWR_THROTTLE as a throttle comes into force. -/
theorem Dev.throttleRegs_get {s : Dev} (hwf : s.registersWf = true) (reason : Nat) {f : Field} (hoff : R.pwrThrottle = f.off)
    (hseen : f.hi < (throttleSeen reason).lo) :
    (s.throttleRegs reason).get f = (s.raise (throttleBit reason)).get f := by
  have hraised : ((s.raise (throttleBit reason)).raise (throttleSeen reason)).get f = (s.raise (throttleBit reason)).get f :=
    Dev.get_put_field _ _ _ _ (s.put_registersWf _ _ hwf) ((throttleSeen_off reason).trans hoff)
      (by unfold throttleSeen; split <;> decide) (by unfold throttleSeen; split <;> decide) (.inl hseen)
  unfold Dev.throttleRegs
  split
  · exact (Dev.get_congr (Dev.reg_setReg_other _ _ _ _ (by rw [← hoff]; decide))).trans hraised
  · exact hraised

/-- The registers and the runs as a throttle comes into force. -/
structure Throttled (s t : Dev) (reason : Nat) : Prop where
  wf : t.registersWf = true
  on : t.get (throttleBit reason) = 1
  bits : ∀ f : Field, R.pwrThrottle = f.off → f.hi < (throttleSeen reason).lo →
    f.hi < (throttleBit reason).lo ∨ (throttleBit reason).hi < f.lo → t.get f = s.get f
  other : ∀ f : Field, R.pwrThrottle ≠ f.off → R.gnmAlert ≠ f.off → t.get f = s.get f
  frame : t = { s with csr := t.csr, mgmt.throttleRuns := t.mgmt.throttleRuns }

theorem throttleBit_one (reason : Nat) : (throttleBit reason).lo = (throttleBit reason).hi ∧ (throttleBit reason).hi < (throttleSeen reason).lo := by
  unfold throttleBit throttleSeen
  split <;> decide

theorem throttleSeen_one (reason : Nat) : (throttleSeen reason).lo ≤ (throttleSeen reason).hi + 1 ∧ (throttleSeen reason).hi < 64 := by
  unfold throttleSeen
  split <;> decide

theorem Dev.throttleOn_throttled {s : Dev} (hwf : s.registersWf = true) {reason : Nat} (h : s.get (throttleBit reason) = 0) :
    Throttled s (s.throttleOn reason) reason := by
  obtain ⟨hlo, hbelow⟩ := throttleBit_one reason
  obtain ⟨hseen, hseen64⟩ := throttleSeen_one reason
  have hbit64 : (throttleBit reason).hi < 64 := by omega
  have hget := fun f : Field => Dev.get_congr (f := f) (show (s.throttleOn reason).reg f.off = (s.throttleRegs reason).reg f.off by
    rw [Dev.reg, Dev.reg, s.throttleOn_csr h])
  refine { wf := ?_, on := ?_, bits := fun f hoff hlow hapart => ?_, other := fun f hoff halert => ?_, frame := s.throttleOn_frame reason }
  · rw [Dev.registersWf, s.throttleOn_csr h]
    exact Dev.throttleRegs_registersWf hwf reason
  · rw [hget, Dev.throttleRegs_get hwf reason (throttleBit_off reason).symm hbelow, Dev.raise, Dev.get_put _ _ _ hwf (by omega) hbit64, hlo]
    simp
  · rw [hget, Dev.throttleRegs_get hwf reason hoff hlow]
    exact Dev.get_put_field _ _ _ _ hwf ((throttleBit_off reason).trans hoff) (by omega) hbit64 hapart
  · exact (hget f).trans (Dev.get_congr (s.throttleRegs_reg_other reason hoff halert))

/-! ### A sample of the temperature (R739, R757, R760) -/

/-- The slice with a sample in PWR_TEMP. -/
def Dev.sampled (s : Dev) (t : Nat) : Dev := (s.put F.pwrTemp_DIE_C t).peak F.pwrTemp_PEAK_C t

theorem Dev.sampled_frame (s : Dev) (t : Nat) : s.sampled t = { s with csr := (s.sampled t).csr } :=
  (s.put F.pwrTemp_DIE_C t).peak_eq F.pwrTemp_PEAK_C t

theorem Dev.sampled_get_other (s : Dev) (t : Nat) {f : Field} (h : R.pwrTemp ≠ f.off) : (s.sampled t).get f = s.get f :=
  Dev.get_congr ((Dev.reg_peak_other _ _ _ _ h).trans (s.reg_put_other _ _ _ h))

theorem Dev.sampled_registersWf {s : Dev} (hwf : s.registersWf = true) (t : Nat) : (s.sampled t).registersWf = true := by
  have hput := s.put_registersWf F.pwrTemp_DIE_C t hwf
  unfold Dev.sampled Dev.peak
  split
  · exact Dev.put_registersWf _ _ _ hput
  · exact hput

theorem Dev.sampled_temp {s : Dev} (hwf : s.registersWf = true) {t : Nat} (ht : t < 256) :
    (s.sampled t).get F.pwrTemp_DIE_C = t ∧ (s.sampled t).get F.pwrTemp_PEAK_C = max (s.get F.pwrTemp_PEAK_C) t := by
  have hput := s.put_registersWf F.pwrTemp_DIE_C t hwf
  have hdie : (s.put F.pwrTemp_DIE_C t).get F.pwrTemp_DIE_C = t :=
    (s.get_put _ t hwf (by decide) (by decide)).trans (Nat.mod_eq_of_lt ht)
  have hpeak : (s.put F.pwrTemp_DIE_C t).get F.pwrTemp_PEAK_C = s.get F.pwrTemp_PEAK_C :=
    s.get_put_field _ _ t hwf rfl (by decide) (by decide) (by decide)
  have hmin : min t F.pwrTemp_PEAK_C.max = t := Nat.min_eq_left (Nat.le_pred_of_lt ht)
  by_cases hlt : s.get F.pwrTemp_PEAK_C < t
  · have hs : s.sampled t = (s.put F.pwrTemp_DIE_C t).put F.pwrTemp_PEAK_C t := by
      rw [Dev.sampled, Dev.peak, hpeak, if_pos hlt, hmin]
    rw [hs, Dev.get_put _ _ _ hput (by decide) (by decide), max_eq_right hlt.le,
      Dev.get_put_field _ F.pwrTemp_PEAK_C F.pwrTemp_DIE_C _ hput rfl (by decide) (by decide) (by decide)]
    exact ⟨hdie, Nat.mod_eq_of_lt ht⟩
  · have hs : s.sampled t = s.put F.pwrTemp_DIE_C t := by rw [Dev.sampled, Dev.peak, hpeak, if_neg hlt]
    rw [hs, max_eq_left (Nat.le_of_not_lt hlt)]
    exact ⟨hdie, hpeak⟩

/-- A sample at CRIT_C or above brings the CRIT throttle, one below does not (R739). -/
theorem Dev.tempSample_eq {s : Dev} (hactive : s.active = true) {t : Nat} (hcrit : (s.sampled t).get F.pwrThrottle_CRIT = 0) :
    s.tempSample t =
      let s2 := if (s.sampled t).get F.pwrClass_CRIT_C ≤ t then (s.sampled t).throttleOn 3 else s.sampled t
      if s2.get F.pwrClass_THROTTLE_C ≤ t || s2.on F.pwrThrottle_CRIT then s2.throttleOn 0 else s2 := by
  have hidle : (s.sampled t).throttleOff 3 = s.sampled t := Dev.throttleOff_idle hcrit
  unfold Dev.tempSample
  rw [hactive]
  change (let s1 := s.sampled t
    let s2 := if s1.get F.pwrClass_CRIT_C ≤ t then s1.throttleOn 3 else if t + 3 < s1.get F.pwrClass_CRIT_C then s1.throttleOff 3 else s1
    if s2.get F.pwrClass_THROTTLE_C ≤ t || s2.on F.pwrThrottle_CRIT then s2.throttleOn 0 else s2) = _
  dsimp only
  rw [hidle, ite_self]

/-- The slice after the CRIT throttle has been decided. -/
structure CritDecided (s u : Dev) (t : Nat) : Prop where
  wf : u.registersWf = true
  crit : u.get F.pwrThrottle_CRIT = if s.get F.pwrClass_CRIT_C ≤ t then 1 else 0
  thermal : u.get F.pwrThrottle_THERMAL = 0
  other : ∀ f : Field, R.pwrThrottle ≠ f.off → R.gnmAlert ≠ f.off → u.get f = s.get f
  frame : u = { s with csr := u.csr, mgmt.throttleRuns := u.mgmt.throttleRuns }

theorem Dev.critDecided {s : Dev} (hwf : s.registersWf = true) (hth : s.get F.pwrThrottle_THERMAL = 0)
    (hcrit : s.get F.pwrThrottle_CRIT = 0) (t : Nat) :
    CritDecided s (if s.get F.pwrClass_CRIT_C ≤ t then s.throttleOn 3 else s) t := by
  by_cases hhot : s.get F.pwrClass_CRIT_C ≤ t
  · have hon := Dev.throttleOn_throttled hwf (reason := 3) hcrit
    rw [if_pos hhot]
    exact { wf := hon.wf, crit := hon.on.trans (if_pos hhot).symm,
            thermal := (hon.bits F.pwrThrottle_THERMAL rfl (by decide) (by decide)).trans hth, other := hon.other, frame := hon.frame }
  · rw [if_neg hhot]
    exact { wf := hwf, crit := hcrit.trans (if_neg hhot).symm, thermal := hth, other := fun _ _ _ => rfl, frame := rfl }

/-- The THERMAL throttle comes into force at THROTTLE_C or above, and with CRIT (R739). -/
theorem Dev.thermalDecided {s u : Dev} {t : Nat} (h : CritDecided s u t) :
    ∃ v : Dev, (if u.get F.pwrClass_THROTTLE_C ≤ t || u.on F.pwrThrottle_CRIT then u.throttleOn 0 else u) = v ∧
      v.get F.pwrThrottle_CRIT = (if s.get F.pwrClass_CRIT_C ≤ t then 1 else 0) ∧
      v.get F.pwrThrottle_THERMAL = (if s.get F.pwrClass_THROTTLE_C ≤ t ∨ s.get F.pwrClass_CRIT_C ≤ t then 1 else 0) ∧
      (∀ f : Field, R.pwrThrottle ≠ f.off → R.gnmAlert ≠ f.off → v.get f = s.get f) ∧
      v = { s with csr := v.csr, mgmt.throttleRuns := v.mgmt.throttleRuns } := by
  have hiff : (u.get F.pwrClass_THROTTLE_C ≤ t || u.on F.pwrThrottle_CRIT) = true ↔
      s.get F.pwrClass_THROTTLE_C ≤ t ∨ s.get F.pwrClass_CRIT_C ≤ t := by
    rw [h.other F.pwrClass_THROTTLE_C (by decide) (by decide), Dev.on, h.crit]
    by_cases hhot : s.get F.pwrClass_CRIT_C ≤ t <;> simp [hhot]
  by_cases hwarm : s.get F.pwrClass_THROTTLE_C ≤ t ∨ s.get F.pwrClass_CRIT_C ≤ t
  · have hon := Dev.throttleOn_throttled h.wf (reason := 0) h.thermal
    rw [if_pos (hiff.2 hwarm), if_pos hwarm]
    refine ⟨_, rfl, (hon.bits F.pwrThrottle_CRIT rfl (by decide) (by decide)).trans h.crit, hon.on,
      fun f hf ha => (hon.other f hf ha).trans (h.other f hf ha), hon.frame.trans ?_⟩
    rw [h.frame]
  · rw [if_neg (hiff.not.2 hwarm), if_neg hwarm]
    exact ⟨u, rfl, h.crit, h.thermal, h.other, h.frame⟩

/-! ### Droop, and a throttle's end (R739, R759) -/

/-- The slice with the droop of VDD_CORE noted or not. -/
def Dev.withDroop (s : Dev) (b : Bool) : Dev := { s with pins.droop := b }

theorem Dev.put_withDroop (s : Dev) (b : Bool) (f : Field) (v : Nat) : (s.withDroop b).put f v = (s.put f v).withDroop b := rfl

theorem Dev.raise_withDroop (s : Dev) (b : Bool) (f : Field) : (s.withDroop b).raise f = (s.raise f).withDroop b := rfl

theorem Dev.bump_withDroop (s : Dev) (b : Bool) (f : Field) (n : Nat) : (s.withDroop b).bump f n = (s.bump f n).withDroop b := rfl

theorem Dev.get_withDroop (s : Dev) (b : Bool) (f : Field) : (s.withDroop b).get f = s.get f := rfl

theorem Dev.frameNo_withDroop (s : Dev) (b : Bool) : (s.withDroop b).frameNo = s.frameNo := rfl

theorem throttleBit_current : throttleBit 1 = F.pwrThrottle_CURRENT := rfl

theorem throttleSeen_current : throttleSeen 1 = F.pwrThrottle_CURRENT_SEEN := rfl

/-- The slice with a throttle's run. -/
def Dev.withRun (s : Dev) (reason : Nat) (run : Nat × Nat × Frame) : Dev :=
  { s with mgmt.throttleRuns := tset s.mgmt.throttleRuns reason run }

/-- The slice with its droop and a throttle's run, in the statement's form. -/
theorem Dev.withDroop_withRun (s u : Dev) (f g : Field) (v w : Nat) (hu : u = (s.put f v).put g w) (b : Bool) (reason : Nat)
    (run : Nat × Nat × Frame) :
    (u.withDroop b).withRun reason run = { u with pins.droop := b, mgmt.throttleRuns := tset s.mgmt.throttleRuns reason run } := by
  subst hu
  rfl

/-- A throttle comes into force for the first time. -/
theorem Dev.throttleOn_first {s : Dev} {reason : Nat} (hidle : s.get (throttleBit reason) = 0)
    (hnone : tget s.mgmt.throttleRuns reason = none) (hcrit : reason ≠ 3) :
    s.throttleOn reason = ((s.raise (throttleBit reason)).raise (throttleSeen reason)).withRun reason
      (s.now, 0, BitVec.ofNat 48 s.frameNo) := by
  simp [Dev.throttleOn, Dev.on, hidle, hnone, hcrit, Dev.withRun]

/-- A throttle in force ends, its time added. -/
theorem Dev.throttleOff_run {s : Dev} {reason : Nat} (hon : s.get (throttleBit reason) = 1) {start past : Nat} {frame : Frame}
    (hrun : tget s.mgmt.throttleRuns reason = some (start, past, frame)) {time : Field} (htime : throttleTime reason = some time) :
    s.throttleOff reason = ((s.put (throttleBit reason) 0).bump time ((s.now - start) / 1600)).withRun reason
      (s.frameNo, past + (s.now - start), frame) := by
  simp [Dev.throttleOff, Dev.on, hon, hrun, htime, Dev.withRun, Dev.bump, Dev.put, Dev.setReg]

theorem Dev.droop_eq {s : Dev} (hactive : s.active = true) : s.droop = (s.withDroop true).throttleOn 1 := by
  rw [Dev.droop, hactive, if_neg (by decide), Dev.withDroop]

theorem Dev.vddRecover_eq {s : Dev} (hactive : s.active = true) (hdroop : s.pins.droop = true) (b : BootInputs) :
    s.vddRecover b = (s.withDroop false).throttleOff 1 := by
  have hheld : (s.phase == .held) = false := by
    refine beq_false_of_ne fun h => ?_
    rw [Dev.active, h] at hactive
    cases hactive
  simp [Dev.vddRecover, hdroop, hheld, Dev.withDroop]

/-- Settles O21: the throttles of droop by their cases; a sample's two throttles one after the other. -/
theorem throttlesRun : Obligations.ThrottlesRun := by
  refine ⟨fun b s hactive => ⟨fun hidle hnone => ?_, fun start past frame hdroop hon hrun => ?_⟩, fun celsius s hactive hwf hth hcrit => ?_⟩
  · have hidle' : (s.withDroop true).get (throttleBit 1) = 0 := by rwa [throttleBit_current, Dev.get_withDroop]
    refine next_congr ((Dev.droop_eq hactive).trans ((Dev.throttleOn_first hidle' hnone (by decide)).trans ?_))
    rw [Dev.raise_withDroop, Dev.raise_withDroop, Dev.frameNo_withDroop, throttleBit_current, throttleSeen_current]
    exact Dev.withDroop_withRun s.toDev _ _ _ _ _ rfl true 1 _
  · have hon' : (s.withDroop false).get (throttleBit 1) = 1 := by rwa [throttleBit_current, Dev.get_withDroop]
    refine next_congr ((Dev.vddRecover_eq hactive hdroop b).trans ((Dev.throttleOff_run hon' hrun rfl).trans ?_))
    rw [Dev.put_withDroop, Dev.bump_withDroop, Dev.frameNo_withDroop, throttleBit_current]
    exact Dev.withDroop_withRun s.toDev _ _ _ _ _ rfl false 1 _
  · have hother : ∀ f : Field, R.pwrTemp ≠ f.off → (s.sampled celsius.toNat).get f = s.get f := fun f => s.sampled_get_other _
    obtain ⟨hdie, hpeak⟩ := Dev.sampled_temp hwf celsius.isLt
    have hdecided := Dev.critDecided (Dev.sampled_registersWf hwf celsius.toNat) ((hother _ (by decide)).trans hth)
      ((hother _ (by decide)).trans hcrit) celsius.toNat
    obtain ⟨v, hv, hvcrit, hvthermal, hvother, hvframe⟩ := Dev.thermalDecided hdecided
    refine ⟨_, next_congr ((Dev.tempSample_eq hactive ((hother _ (by decide)).trans hcrit)).trans hv),
      (hvother _ (by decide) (by decide)).trans hdie, (hvother _ (by decide) (by decide)).trans hpeak, ?_, ?_, ?_⟩
    · rw [hvcrit, hother _ (by decide)]
      by_cases h : s.get F.pwrClass_CRIT_C ≤ celsius.toNat <;> simp [h]
    · rw [hvthermal, hother _ (by decide), hother _ (by decide)]
      by_cases h : s.get F.pwrClass_THROTTLE_C ≤ celsius.toNat ∨ s.get F.pwrClass_CRIT_C ≤ celsius.toNat <;> simp [h]
    · rw [hvframe, s.sampled_frame]

end Sys2Proof.Machine
end


section
/-! PROOFS. Resets that run at once: what the out-of-reset order leaves, CTL_RESET, and the start of a block reset. -/

namespace Sys2Proof.Machine

/-! ### The out-of-reset order (R743, R750, R753) -/

/-- u is s but for registers other than RST_AG0, and for the links. -/
def Dev.Trained (s u : Dev) : Prop := (∃ c l, u = { s with csr := c, links := l }) ∧ u.reg R.rstAg0 = s.reg R.rstAg0

namespace Dev.Trained

variable {s t u : Dev}

theorem refl (s : Dev) : s.Trained s := ⟨⟨s.csr, s.links, rfl⟩, rfl⟩

theorem trans (h : s.Trained t) (h' : t.Trained u) : s.Trained u := by
  obtain ⟨⟨c, l, hc⟩, hreg⟩ := h
  obtain ⟨⟨c', l', hc'⟩, hreg'⟩ := h'
  exact ⟨⟨c', l', by rw [hc', hc]⟩, hreg'.trans hreg⟩

theorem setReg (h : s.Trained t) {off : Nat} (v : Nat) (hoff : off ≠ R.rstAg0) : s.Trained (t.setReg off v) :=
  h.trans ⟨⟨_, _, rfl⟩, t.reg_setReg_other off _ v hoff⟩

theorem put (h : s.Trained t) {f : Field} (v : Nat) (hoff : f.off ≠ R.rstAg0) : s.Trained (t.put f v) := h.setReg _ hoff

theorem updPort (h : s.Trained t) (p : Nat) (g : Port → Port) : s.Trained (t.updPort p g) := h.trans ⟨⟨_, _, rfl⟩, rfl⟩

theorem updTx (h : s.Trained t) (p : Nat) (g : Tx → Tx) : s.Trained (t.updTx p g) := h.trans ⟨⟨_, _, rfl⟩, rfl⟩

theorem each {α : Type} {f : Dev → α → Dev} {l : List α} (h : s.Trained t) (hf : ∀ u : Dev, ∀ a ∈ l, u.Trained (f u a)) :
    s.Trained (t.each l f) := by
  induction l generalizing t with
  | nil => exact h
  | cons a l ih => exact ih (h.trans (hf t a List.mem_cons_self)) fun u b hb => hf u b (List.mem_cons_of_mem _ hb)

theorem stkErr (h : s.Trained t) {f : Field} (hoff : f.off ≠ R.rstAg0) : s.Trained (t.stkErr f) := by
  unfold Dev.stkErr
  dsimp only
  split
  · exact (h.put 1 hoff).setReg _ (by decide)
  · exact h.put 1 hoff

theorem trainStack (h : s.Trained t) {id : Nat} {state : Field} (r : StackReport) (rate : Nat) (hid : id ≠ R.rstAg0)
    (hstate : state.off ≠ R.rstAg0) : s.Trained (t.trainStack id state r rate) := by
  unfold Dev.trainStack
  dsimp only
  split
  · exact (h.setReg _ hid).put 2 hstate
  · exact ((h.setReg _ hid).put 4 hstate).stkErr (by decide)

theorem trainStacks (h : s.Trained t) (b : BootInputs) : s.Trained (t.trainStacks b) :=
  ((h.trainStack b.stack0 _ (by decide) (by decide)).trainStack b.stack1 _ (by decide) (by decide)).put _ (by decide)

theorem trainPorts (h : s.Trained t) : s.Trained t.trainPorts :=
  h.each fun u p hp => (((Dev.Trained.refl u).updPort p _).updTx p _).put 1 (by
    have : p < 6 := List.mem_range.1 hp
    simp only [F.pwkStatus_STATE, R.pwkStatus, R.rstAg0]
    omega)

end Dev.Trained

/-- RST_AG0 as a reset is noted in it (R750). -/
theorem Dev.noteReset_get {s : Dev} (h : s.registersWf = true) (source kind block : Nat) :
    (s.noteReset source kind block).get F.rstAg0_SOURCE = source % 256 ∧ (s.noteReset source kind block).get F.rstAg0_KIND = kind % 256 ∧
      (s.noteReset source kind block).get F.rstAg0_BLOCK = block % 256 := by
  have h1 := s.put_registersWf F.rstAg0_COUNT (min (s.get F.rstAg0_COUNT + 1) F.rstAg0_COUNT.max) h
  have h2 := Dev.put_registersWf _ F.rstAg0_SOURCE source h1
  have h3 := Dev.put_registersWf _ F.rstAg0_KIND kind h2
  unfold Dev.noteReset Dev.bump
  refine ⟨?_, ?_, ?_⟩
  · rw [Dev.get_put_field _ F.rstAg0_BLOCK F.rstAg0_SOURCE _ h3 rfl (by decide) (by decide) (by decide),
      Dev.get_put_field _ F.rstAg0_KIND F.rstAg0_SOURCE _ h2 rfl (by decide) (by decide) (by decide),
      Dev.get_put _ F.rstAg0_SOURCE _ h1 (by decide) (by decide)]
    rfl
  · rw [Dev.get_put_field _ F.rstAg0_BLOCK F.rstAg0_KIND _ h3 rfl (by decide) (by decide) (by decide),
      Dev.get_put _ F.rstAg0_KIND _ h2 (by decide) (by decide)]
    rfl
  · rw [Dev.get_put _ F.rstAg0_BLOCK _ h3 (by decide) (by decide)]
    rfl

/-- What a reset of a source other than power-on leaves, where the slice has REFCLK and has sensed its stacks (R743, R753). -/
structure ResetRun (s t : Dev) (cold : Bool) (source : Nat) : Prop where
  phase : t.phase = .boot 8
  source : t.get F.rstAg0_SOURCE = source % 256
  kind : t.get F.rstAg0_KIND = b2n !cold
  fuse : t.fuse = (s.cleared cold).fuse
  cache : t.cache = Cache.reset
  regions : t.regions = []
  dram : t.stack.dram = (s.cleared cold).stack.dram

theorem Dev.checkAfterglow_eq {s : Dev} {b : BootInputs} (h : s.mgmt.boot = some b) : s.checkAfterglow = { s with
    afterglow := s.afterglow.filter (fun e => !b.afterglowBad.any (fun w => w.toNat == e.1 / 8))
    mgmt.boot := some { b with afterglowBad := [] } } := by
  simp [Dev.checkAfterglow, h]

/-- Steps 6 to 8 with REFCLK. -/
theorem Dev.bootOn_trained {s : Dev} {b : BootInputs} (hboot : s.mgmt.boot = some b) (hrefclk : s.pins.refclk = true) :
    ∃ u, s.Trained u ∧ s.bootOn = { u with phase := .boot 8 } := by
  refine ⟨_, (((Dev.Trained.refl s).put (f := F.pwrState_SCLK_PLL) 1 (by decide)).trainStacks b).trainPorts, ?_⟩
  simp only [Dev.bootOn, hboot, hrefclk, Bool.not_true, Bool.false_eq_true, if_false]

theorem Dev.noteReset_change (s : Dev) (source kind block : Nat) : s.RegsChange (s.noteReset source kind block) (fun off => off = R.rstAg0 ∨ off = R.gnmCoreStatus 0) :=
  ((((Dev.RegsChange.refl s).bump F.rstAg0_COUNT 1 (.inl rfl)).put F.rstAg0_SOURCE source (.inl rfl)).put F.rstAg0_KIND kind (.inl rfl)).put F.rstAg0_BLOCK block (.inl rfl)

theorem Dev.cleared_cache (s : Dev) (cold : Bool) : (s.cleared cold).cache = Cache.reset ∧ (s.cleared cold).regions = [] := by
  cases cold <;> exact ⟨rfl, rfl⟩

/-- The slice as steps 1 to 5 leave it, with its RST_AG0 written and its first core running. -/
def Dev.noted (s : Dev) (cold : Bool) (source : Nat) : Dev :=
  { (s.checkAfterglow.noteReset source (b2n !cold) 0).put (F.gnmCoreStatus_STATE 0) 1 with
    phase := .boot 6, mgmt.coldBoot := cold, mgmt.bootSource := BitVec.ofNat 8 source }

theorem Dev.noted_reg (s : Dev) (cold : Bool) (source off : Nat) : (s.noted cold source).reg off =
    ((s.checkAfterglow.noteReset source (b2n !cold) 0).put (F.gnmCoreStatus_STATE 0) 1).reg off := by
  rw [Dev.reg, Dev.reg, Dev.noted]

theorem Dev.startReset_eq (s : Dev) (cold : Bool) {source : Nat} (h : source ≠ 0) :
    s.startReset cold source = ((s.cleared cold).noted cold source).bootOn := by
  simp only [Dev.startReset, beq_eq_false_iff_ne.2 h, Bool.false_eq_true, if_false, Dev.noted]

theorem Dev.noted_frame {s : Dev} {b : BootInputs} (hboot : s.mgmt.boot = some b) (cold : Bool) (source : Nat) :
    ∃ c a m, s.noted cold source = { s with csr := c, afterglow := a, mgmt := m, phase := .boot 6 } ∧
      m.boot = some { b with afterglowBad := [] } := by
  obtain ⟨⟨c, hc⟩, -⟩ := (s.checkAfterglow.noteReset_change source (b2n !cold) 0).put (F.gnmCoreStatus_STATE 0) 1 (Or.inr rfl)
  rw [Dev.noted, hc, Dev.checkAfterglow_eq hboot]
  exact ⟨_, _, _, rfl, rfl⟩

theorem Dev.noted_get {s : Dev} {b : BootInputs} (hboot : s.mgmt.boot = some b) (hwf : s.registersWf = true) (cold : Bool) (source : Nat) :
    (s.noted cold source).get F.rstAg0_SOURCE = source % 256 ∧ (s.noted cold source).get F.rstAg0_KIND = b2n !cold := by
  have hwf' : s.checkAfterglow.registersWf = true := by rw [Dev.checkAfterglow_eq hboot]; exact hwf
  obtain ⟨hsource, hkind, -⟩ := Dev.noteReset_get hwf' source (b2n !cold) 0
  have hbit : b2n (!cold) % 256 = b2n !cold := by cases cold <;> rfl
  have hother : ∀ f : Field, R.gnmCoreStatus 0 ≠ f.off →
      (s.noted cold source).get f = (s.checkAfterglow.noteReset source (b2n !cold) 0).get f :=
    fun f hf => Dev.get_congr ((s.noted_reg cold source f.off).trans (Dev.reg_put_other _ (F.gnmCoreStatus_STATE 0) _ 1 hf))
  exact ⟨(hother _ (by decide)).trans hsource, (hother _ (by decide)).trans (hkind.trans hbit)⟩

theorem Dev.startReset_run {s : Dev} {cold : Bool} {source : Nat} {b : BootInputs} (hsource : source ≠ 0)
    (hwf : (s.cleared cold).registersWf = true) (hboot : (s.cleared cold).mgmt.boot = some b)
    (hrefclk : (s.cleared cold).pins.refclk = true) : ResetRun s (s.startReset cold source) cold source := by
  obtain ⟨hcache, hregions⟩ := s.cleared_cache cold
  obtain ⟨hsrc, hkind⟩ := Dev.noted_get hboot hwf cold source
  obtain ⟨c, a, m, hnoted, hm⟩ := Dev.noted_frame hboot cold source
  have hboot' : ((s.cleared cold).noted cold source).mgmt.boot = some { b with afterglowBad := [] } := by rw [hnoted, hm]
  have hrefclk' : ((s.cleared cold).noted cold source).pins.refclk = true := by rw [hnoted, hrefclk]
  obtain ⟨u, ⟨⟨c', l, hu⟩, hreg⟩, hrun⟩ := Dev.bootOn_trained hboot' hrefclk'
  rw [s.startReset_eq cold hsource, hrun]
  refine { phase := rfl, source := ?_, kind := ?_, fuse := ?_, cache := ?_, regions := ?_, dram := ?_ }
  · exact (Dev.get_congr (f := F.rstAg0_SOURCE) hreg).trans hsrc
  · exact (Dev.get_congr (f := F.rstAg0_KIND) hreg).trans hkind
  · rw [hu, hnoted]
  · rw [hu, hnoted, hcache]
  · rw [hu, hnoted, hregions]
  · rw [hu, hnoted]

/-! ### CTL_RESET (R702, R703) -/

/-- Writes under way end in the stacks alone. -/
theorem Dev.finishWrites_frame (s : Dev) : ∃ st, s.finishWrites = { s with stack := st } := by
  have hall : ∀ (l : List DramWrite) (u : Dev), ∃ st, u.each l (fun s w =>
      if s.channelFailed (s.groupAt w.d) then { s with stack.writes := s.stack.writes.filter (fun x => x.id != w.id) }
      else s.commitWrite w) = { u with stack := st } := by
    intro l
    induction l with
    | nil => exact fun u => ⟨u.stack, rfl⟩
    | cons w l ih =>
      intro u
      rw [Dev.each_cons]
      split
      · obtain ⟨st, hst⟩ := ih { u with stack.writes := u.stack.writes.filter (fun x => x.id != w.id) }
        exact ⟨st, hst⟩
      · obtain ⟨st, hst⟩ := ih (u.commitWrite w)
        exact ⟨st, hst⟩
  exact hall _ s

/-- What a reset does not clear: fuses, pins and what the slice sensed. -/
theorem Dev.cleared_keeps (s : Dev) (cold : Bool) : (s.cleared cold).fuse = s.fuse ∧ (s.cleared cold).pins = s.pins ∧
    (s.cleared cold).mgmt.boot = s.mgmt.boot := by
  have h : ∃ st, (if cold || s.phase == .eclipse then s else s.finishWrites) = { s with stack := st } := by
    split
    · exact ⟨s.stack, rfl⟩
    · exact s.finishWrites_frame
  obtain ⟨st, hst⟩ := h
  unfold Dev.cleared
  rw [hst]
  cases cold <;> exact ⟨rfl, rfl, rfl⟩

theorem Dev.cleared_registersWf {s : Dev} (h : s.registersWf = true) (cold : Bool) : (s.cleared cold).registersWf = true :=
  (Dev.cleared_kept s cold (Kept.refl s)).regs h

/-- A reset that a slice in Lit takes runs at once. -/
theorem Dev.requestReset_run {s : Dev} {b : BootInputs} (hwf : s.registersWf = true) (hlit : s.phase = .lit) (hboot : s.mgmt.boot = some b)
    (hrefclk : s.pins.refclk = true) (cold : Bool) {source : Nat} (hsource : source ≠ 0) :
    ResetRun s (s.requestReset cold source) cold source := by
  obtain ⟨-, hpins, hkept⟩ := s.cleared_keeps cold
  have hrun : s.requestReset cold source = s.startReset cold source := by simp [Dev.requestReset, Dev.resetting, hlit]
  rw [hrun]
  exact Dev.startReset_run hsource (Dev.cleared_registersWf hwf cold) (hkept.trans hboot) (by rw [hpins, hrefclk])

/-- CTL_RESET of this slice's own sender. -/
theorem Dev.ctlReset_own {s : Dev} {w : Sender} (hactive : s.active = true) (hsrc : w.src.toNat = 56 + s.pos)
    (hfence : s.fenced w.src.toNat = false) {kind : Nat} (hkind : kind ≠ 3) (targets block : Nat) :
    s.ctlReset .own w kind targets block = s.applyReset kind targets block := by
  have hdeaf : s.discards (56 + s.pos) = false := by
    rw [Dev.discards, ← hsrc, hfence, hsrc, Nat.add_sub_cancel_left, Dev.deaf]
    simp
  simp [Dev.ctlReset, hactive, hsrc, hdeaf, Dev.viaUp, Dev.srcOk, hkind]

/-- CTL_RESET of a sender that is heard, where its source may not enter (R465). -/
theorem Dev.ctlReset_denied {s : Dev} {via : Via} {w : Sender} (hactive : s.active = true) (hheard : s.discards w.src.toNat = false)
    (hup : s.viaUp via = true) (hsrc : s.srcOk via w.src.toNat = false) (kind targets block : Nat) :
    s.ctlReset via w kind targets block = s.send (.resp w.src w.txid 0 [.deny] 0 0 []) := by
  rw [Dev.ctlReset, hactive, hheard, hup, hsrc, respond_of_not_discards hheard]
  rfl

/-- CTL_RESET with the reserved KIND, of a source that may enter (R703). -/
theorem Dev.ctlReset_reserved {s : Dev} {via : Via} {w : Sender} (hactive : s.active = true) (hheard : s.discards w.src.toNat = false)
    (hup : s.viaUp via = true) (hsrc : s.srcOk via w.src.toNat = true) :
    s.ctlReset via w 3 0 0 = if 56 ≤ w.src.toNat then s else s.send (.resp w.src w.txid 0 [.deny] 0 0 []) := by
  rw [Dev.ctlReset, hactive, hheard, hup, hsrc, respond_of_not_discards hheard]
  rfl

/-- Settles O25: a reset that is taken runs at once through step 8; what is denied is answered by the sender's case. -/
theorem ctlResetResets : Obligations.CtlResetResets := by
  refine ⟨fun b w targets s hwf hlit hsrc hfence htarget hboot hrefclk => ?_, fun via w targets s hactive hheard hup => ⟨?_, ?_, ?_⟩⟩
  · have hactive : s.active = true := by rw [Dev.active, hlit]
    have hcleared := s.cleared_keeps
    have hreset : ∀ (kind : Nat) (cold : Bool), (kind = 0 ∧ cold = false ∨ kind = 1 ∧ cold = true) →
        s.ctlReset .own w kind targets.toNat 0 = s.requestReset cold 2 := by
      rintro kind cold (⟨rfl, rfl⟩ | ⟨rfl, rfl⟩)
      · rw [Dev.ctlReset_own hactive hsrc hfence (by decide), Dev.applyReset, htarget]
        rfl
      · rw [Dev.ctlReset_own hactive hsrc hfence (by decide), Dev.applyReset, htarget]
        rfl
    have hwarm := Dev.requestReset_run hwf hlit hboot hrefclk false (source := 2) (by decide)
    have hcold := Dev.requestReset_run hwf hlit hboot hrefclk true (source := 2) (by decide)
    exact ⟨⟨_, next_congr (hreset 0 false (.inl ⟨rfl, rfl⟩)), hwarm.phase, hwarm.source, hwarm.kind,
        hwarm.fuse.trans (hcleared false).1, hwarm.cache, hwarm.regions⟩,
      _, next_congr (hreset 1 true (.inr ⟨rfl, rfl⟩)), hcold.phase, hcold.source, hcold.kind,
        hcold.fuse.trans (hcleared true).1, hcold.cache, hcold.regions, hcold.dram⟩
  · intro hsrc hslice
    exact next_congr ((Dev.ctlReset_reserved hactive hheard hup hsrc).trans (if_pos hslice))
  · intro hdenied
    cases hsrc : s.srcOk via w.src.toNat with
    | false => exact next_congr (Dev.ctlReset_denied hactive hheard hup hsrc 3 0 0)
    | true =>
      have hagent : w.src.toNat < 56 := hdenied.resolve_left (by simp [hsrc])
      exact next_congr ((Dev.ctlReset_reserved hactive hheard hup hsrc).trans (if_neg (Nat.not_le.2 hagent)))
  · intro hsrc
    exact next_congr (Dev.ctlReset_denied hactive hheard hup hsrc 0 _ 0)

/-! ### The start of a block reset (R746, R747) -/

/-- The start of a block reset, as the statement writes it. -/
theorem Dev.startBlock_eq (s : Dev) (code source : BitVec 8) :
    s.startBlock code.toNat source.toNat = { (s.raise F.rstBlockStatus_BUSY).put F.rstBlockStatus_LAST code.toNat with
      mgmt.blockRun := some { code := code, source := source, start := s.now } } := by
  rw [Dev.startBlock, BitVec.ofNat_toNat, BitVec.ofNat_toNat, BitVec.setWidth_eq, BitVec.setWidth_eq]

theorem Dev.rstBlockWrite_of_free {s : Dev} {code : Nat} (h : s.blockRefusal code = none) : s.rstBlockWrite code = s.startBlock code 6 := by
  rw [Dev.rstBlockWrite, h]

theorem Dev.targetBlock_of_free {s : Dev} {code : Nat} (h : s.blockRefusal code = none) (source : Nat) :
    (s.targetBlock code source).1 = s.startBlock code source := by
  rw [Dev.targetBlock, h]

theorem Dev.applyReset_block {s : Dev} {targets code : Nat} (htarget : bitAt targets s.pos = true) (h : s.blockRefusal code = none) :
    s.applyReset 2 targets code = s.startBlock code 2 := by
  simp [Dev.applyReset, htarget, Dev.targetBlock_of_free h]

theorem Dev.coreExpiry_of_free {s : Dev} {core : Nat} (hactive : s.active = true) (hrun : s.get (F.gnmCoreStatus_STATE core) = 1)
    (h : s.blockRefusal (200 + core) = none) : s.coreExpiry core = s.startBlock (200 + core) 4 := by
  simp [Dev.coreExpiry, hactive, hrun, h]

/-- Settles O23: each request comes to the same start where nothing refuses it. -/
theorem blockResetStarts : Obligations.BlockResetStarts := by
  refine ⟨fun s c code source hactive hfree hc => ?_, fun v r s hactive hrefused => next_congr ?_, fun core s => ⟨rfl, rfl⟩⟩
  · rcases hc with ⟨v, rfl, hcode, rfl⟩ | ⟨w, targets, rfl, hsrc, hfence, htarget, rfl⟩ | ⟨core, rfl, hrun, hcode, rfl⟩
    · refine next_congr (Eq.trans ?_ (s.startBlock_eq code 6))
      dsimp only
      rw [hactive, ← hcode, if_pos rfl]
      exact Dev.rstBlockWrite_of_free hfree
    · refine next_congr (Eq.trans ?_ (s.startBlock_eq code 2))
      dsimp only
      rw [Dev.ctlReset_own hactive hsrc hfence (by decide)]
      exact Dev.applyReset_block htarget hfree
    · refine next_congr (Eq.trans ?_ (s.startBlock_eq code 4))
      rw [hcode] at hfree ⊢
      exact Dev.coreExpiry_of_free hactive hrun hfree
  · dsimp only
    rw [hactive, if_pos rfl, Dev.rstBlockWrite, hrefused]

end Sys2Proof.Machine
end


section
/-! PROOFS. The leader's decisions: READY and REFUSED of the slices, COMMIT, ABORT and SEAL. -/

namespace Sys2Proof.Machine

/-! ### A message to every slice (R691) -/

theorem Dev.toAll_eq (s : Dev) (op code arg : Nat) : s.toAll op code arg = { s with
    outbox := s.outbox ++ s.others.map (fun p => Msg.ctl p (.mgmt (BitVec.ofNat 8 op) (BitVec.ofNat 8 code) (BitVec.ofNat 48 arg))) ++
      [.ctl s.pos (.mgmt (BitVec.ofNat 8 op) (BitVec.ofNat 8 code) (BitVec.ofNat 48 arg))] } := by
  rw [Dev.toAll, Dev.ctlSet_eq]
  rfl

/-- The slice with another loader. -/
def Dev.withImg (s : Dev) (i : Img) : Dev := { s with img := i }

theorem Dev.others_withImg (s : Dev) (i : Img) : (s.withImg i).others = s.others := rfl

theorem Dev.pos_withImg (s : Dev) (i : Img) : (s.withImg i).pos = s.pos := rfl

theorem Dev.phase_withImg (s : Dev) (i : Img) : (s.withImg i).phase = s.phase := rfl

theorem Dev.liveSet_withImg (s : Dev) (i : Img) : (s.withImg i).liveSet = s.liveSet := rfl

theorem Dev.toAll_withImg (s : Dev) (i : Img) (op code arg : Nat) : (s.withImg i).toAll op code arg = (s.toAll op code arg).withImg i := by
  rw [Dev.toAll_eq, Dev.toAll_eq, Dev.others_withImg, Dev.pos_withImg]
  rfl

/-! ### The leader's decision (R689) -/

/-- Whether every live slice has answered, where one has refused at most. -/
theorem all_answered_iff {live ready : List Nat} {refusals : SMap (BitVec 8)} :
    live.all (fun p => ready.contains p || (tget refusals p).isSome) = true ↔ ∀ p ∈ live, p ∈ ready ∨ (tget refusals p).isSome = true := by
  simp

/-- The leader waits while a live slice has not answered. -/
theorem Dev.decideLoad_waits {s : Dev} (h : ∃ p ∈ s.liveSet, p ∉ s.img.readyFrom ∧ tget s.img.refusals p = none) : s.decideLoad = s := by
  obtain ⟨p, hp, hready, hrefused⟩ := h
  have hall : s.liveSet.all (fun p => s.img.readyFrom.contains p || (tget s.img.refusals p).isSome) = false := by
    refine Bool.eq_false_iff.2 fun h => ?_
    have := all_answered_iff.1 h p hp
    simp [hready, hrefused] at this
  unfold Dev.decideLoad
  dsimp only
  rw [hall]
  rfl

/-- The leader commits once every live slice is ready. -/
theorem Dev.decideLoad_commits {s : Dev} (hall : ∀ p ∈ s.liveSet, p ∈ s.img.readyFrom) (hnone : s.img.refusals = []) :
    s.decideLoad = (s.withImg { s.img with readyFrom := [], refusals := [] }).toAll 3 0 s.commitFrame := by
  have hanswered := (all_answered_iff (refusals := s.img.refusals)).2 fun p hp => .inl (hall p hp)
  have hfind : s.liveSet.find? (fun p => (tget s.img.refusals p).isSome) = none := by simp [hnone, tget]
  unfold Dev.decideLoad
  dsimp only
  rw [hanswered, hfind]
  rfl

/-- IMG_REFUSAL and ALERT_N as the leader notes another slice's refusal (R709, R717). -/
def Dev.refusalNoted (s : Dev) (p : Nat) (code : BitVec 8) : Dev :=
  if p = s.pos ∨ s.phase = .toDusk then s
  else (s.setReg R.imgRefusal (2 ^ 63 + p * 2 ^ 56 + code.toNat * 2 ^ 48)).alert alertImgSec

/-- The leader aborts once every live slice has answered and one has refused. -/
theorem Dev.decideLoad_aborts {s : Dev} {p : Nat} {code : BitVec 8} (hall : ∀ q ∈ s.liveSet, q = p ∨ q ∈ s.img.readyFrom)
    (hone : s.img.refusals = [(p, code)]) (hlive : p ∈ s.liveSet) :
    s.decideLoad = ((s.withImg { s.img with readyFrom := [], refusals := [] }).refusalNoted p code).toAll 4 code.toNat 0 := by
  have hget : ∀ q, tget s.img.refusals q = if p = q then some code else none := fun q => by simp [hone, tget]
  have hanswered := (all_answered_iff (live := s.liveSet) (ready := s.img.readyFrom) (refusals := s.img.refusals)).2 fun q hq =>
    (hall q hq).elim (fun h => .inr (by simp [hget, h])) .inl
  have hfind : s.liveSet.find? (fun q => (tget s.img.refusals q).isSome) = some p := by
    cases h : s.liveSet.find? (fun q => (tget s.img.refusals q).isSome) with
    | none => simpa [hget] using List.find?_eq_none.1 h p hlive
    | some q =>
      have hq := List.find?_some h
      rw [hget] at hq
      by_cases hpq : p = q
      · rw [hpq]
      · simp [hpq] at hq
  have hcode : tgetD s.img.refusals p 0 = code := by simp [tgetD, hget]
  unfold Dev.decideLoad
  dsimp only
  rw [hanswered, hfind]
  dsimp only
  rw [hcode, Dev.refusalNoted, ← Dev.withImg, Dev.pos_withImg, Dev.phase_withImg]
  by_cases hnote : p = s.pos ∨ s.phase = .toDusk
  · simp [hnote]
  · simp [hnote]

theorem Dev.refusalNoted_withImg (s : Dev) (i : Img) (p : Nat) (code : BitVec 8) :
    (s.withImg i).refusalNoted p code = (s.refusalNoted p code).withImg i := by
  have hset : ∀ (u : Dev) (off v : Nat), (u.withImg i).setReg off v = (u.setReg off v).withImg i := fun _ _ _ => rfl
  have halert : ∀ (u : Dev) (k : Nat), (u.withImg i).alert k = (u.alert k).withImg i := fun _ _ => rfl
  rw [Dev.refusalNoted, Dev.refusalNoted, Dev.pos_withImg, Dev.phase_withImg, hset, halert, ← apply_ite (Dev.withImg · i)]

/-- The refusal is noted in registers that bear on no message. -/
theorem Dev.refusalNoted_change (s : Dev) (p : Nat) (code : BitVec 8) :
    s.RegsChange (s.refusalNoted p code) fun off => off = R.imgRefusal ∨ off = R.gnmAlert := by
  unfold Dev.refusalNoted
  split
  · exact .refl s
  · exact ((Dev.RegsChange.refl s).setReg R.imgRefusal _ (.inl rfl)).setReg R.gnmAlert _ (.inr rfl)

theorem Dev.refusalNoted_get (s : Dev) (p : Nat) (code : BitVec 8) {f : Field} (hrefusal : f.off ≠ R.imgRefusal) (halert : f.off ≠ R.gnmAlert) :
    (s.refusalNoted p code).get f = s.get f :=
  Dev.get_congr ((s.refusalNoted_change p code).2 f.off fun h => h.elim hrefusal halert)

theorem Dev.refusalNoted_others (s : Dev) (p : Nat) (code : BitVec 8) :
    (s.refusalNoted p code).others = s.others ∧ (s.refusalNoted p code).pos = s.pos := by
  obtain ⟨⟨c, hc⟩, -⟩ := s.refusalNoted_change p code
  have hlinks : (s.refusalNoted p code).links = s.links := by rw [hc]
  have hband := s.refusalNoted_get p code (f := F.rstStrap_BAND) (by decide) (by decide)
  have hsize := s.refusalNoted_get p code (f := F.shdConfig_SET_SIZE) (by decide) (by decide)
  have hlost := s.refusalNoted_get p code (f := F.shdStatus_LOST) (by decide) (by decide)
  have hpos : (s.refusalNoted p code).pos = s.pos := by rw [Dev.pos, Dev.pos, hband]
  have hcount : (s.refusalNoted p code).setCount = s.setCount := by rw [Dev.setCount, Dev.setCount, Dev.setSize, Dev.setSize, hsize, hlinks]
  have hisLost : ∀ q, (s.refusalNoted p code).isLost q = s.isLost q := fun q => by rw [Dev.isLost, Dev.isLost, hlost]
  exact ⟨by simp only [Dev.others, hcount, hpos, hisLost], hpos⟩

/-- ABORT goes out, the refusal noted. -/
theorem Dev.refusalNoted_toAll (s : Dev) (p : Nat) (code : BitVec 8) : (s.refusalNoted p code).toAll 4 code.toNat 0 =
    { s.refusalNoted p code with
      outbox := s.outbox ++ s.others.map (fun q => Msg.ctl q (.mgmt 4 code 0)) ++ [.ctl s.pos (.mgmt 4 code 0)] } := by
  obtain ⟨⟨c, hc⟩, -⟩ := s.refusalNoted_change p code
  obtain ⟨hothers, hpos⟩ := s.refusalNoted_others p code
  have hout : (s.refusalNoted p code).outbox = s.outbox := by rw [hc]
  rw [Dev.toAll_eq, hothers, hpos, hout]
  simp

/-! ### The leader's READY and REFUSED -/

/-- A message of a slice that the leader hears. -/
theorem leader_hears {s : Dev} {sender : Pos} (hactive : s.active = true) (hlead : s.isLeader = true) (hheard : s.deaf sender.toNat = false) :
    (s.active && s.isLeader && !s.deaf sender.toNat) = true := by
  simp [hactive, hlead, hheard]

theorem Dev.readyIn_loading {s : Dev} (h : s.get F.imgStatus_STEP < 6) (sender : Nat) :
    s.readyIn sender = (s.withImg { s.img with readyFrom := sender :: s.img.readyFrom }).decideLoad := by
  rw [Dev.readyIn, if_neg (Nat.not_le.2 h)]
  rfl

theorem Dev.readyIn_sealing {s : Dev} (h : 6 ≤ s.get F.imgStatus_STEP) (sender : Nat) :
    s.readyIn sender = if ∀ p ∈ s.liveSet, p = sender ∨ p ∈ s.img.sealFrom
      then (s.withImg { s.img with sealFrom := [] }).toAll 5 0 s.namedBoundary
      else s.withImg { s.img with sealFrom := sender :: s.img.sealFrom } := by
  have hall : (s.liveSet.all fun p => (sender :: s.img.sealFrom).contains p) = true ↔ ∀ p ∈ s.liveSet, p = sender ∨ p ∈ s.img.sealFrom := by
    simp
  rw [Dev.readyIn, if_pos h]
  dsimp only
  by_cases hp : ∀ p ∈ s.liveSet, p = sender ∨ p ∈ s.img.sealFrom
  · rw [if_pos hp, if_pos (hall.2 hp)]
    rfl
  · rw [if_neg hp, if_neg (hall.not.2 hp)]
    rfl

theorem Dev.refusedIn_first {s : Dev} (h : s.img.refusals = []) (sender : Nat) (code : BitVec 8) :
    s.refusedIn sender code = (s.withImg { s.img with refusals := [(sender, code)] }).decideLoad := by
  rw [Dev.refusedIn, h]
  rfl

/-- Settles O31: each message is taken into the leader's lists, which decide or wait. -/
theorem leaderDecidesTheLoad : Obligations.LeaderDecidesTheLoad := by
  refine ⟨⟨fun sender s hactive hlead hheard hstep hnone hwait => ?_, fun sender s hactive hlead hheard hstep hnone hall => ?_,
    fun sender code s hactive hlead hheard hnone hwait => ?_, fun sender code s hactive hlead hheard hnone hall hlive => ?_⟩,
    fun sender s hactive hlead hheard hstep hwait => ?_, fun sender s hactive hlead hheard hstep hall => ?_⟩
  · refine next_congr ((if_pos (leader_hears hactive hlead hheard)).trans ((Dev.readyIn_loading hstep _).trans ?_))
    obtain ⟨p, hp, hne, hnot⟩ := hwait
    exact Dev.decideLoad_waits ⟨p, hp, by simp [Dev.withImg, hne, hnot], by simp [Dev.withImg, hnone, tget]⟩
  · refine next_congr ((if_pos (leader_hears hactive hlead hheard)).trans ((Dev.readyIn_loading hstep _).trans ?_))
    rw [Dev.decideLoad_commits (s := s.toDev.withImg { s.img with readyFrom := sender.toNat :: s.img.readyFrom })
      (fun p hp => List.mem_cons.2 (hall p hp)) hnone, Dev.toAll_withImg,
      Dev.toAll_withImg, Dev.toAll_eq]
    simp only [Dev.withImg, ← hnone]
    rfl
  · refine next_congr ((if_pos (leader_hears hactive hlead hheard)).trans ((Dev.refusedIn_first hnone _ _).trans ?_))
    obtain ⟨p, hp, hne, hnot⟩ := hwait
    exact Dev.decideLoad_waits ⟨p, hp, hnot, by simp [Dev.withImg, tget, hne.symm]⟩
  · refine next_congr ((if_pos (leader_hears hactive hlead hheard)).trans ((Dev.refusedIn_first hnone _ _).trans ?_))
    rw [Dev.decideLoad_aborts (s := s.toDev.withImg { s.img with refusals := [(sender.toNat, code)] }) hall rfl hlive, Dev.refusalNoted_withImg, Dev.refusalNoted_withImg, Dev.toAll_withImg, Dev.toAll_withImg,
      Dev.refusalNoted_toAll]
    obtain ⟨⟨c, hc⟩, -⟩ := s.refusalNoted_change sender.toNat code
    rw [← Dev.refusalNoted, hc]
    rfl
  · refine next_congr ((if_pos (leader_hears hactive hlead hheard)).trans ((Dev.readyIn_sealing hstep _).trans ?_))
    obtain ⟨p, hp, hne, hnot⟩ := hwait
    rw [if_neg fun h => (h p hp).elim hne hnot]
    rfl
  · refine next_congr ((if_pos (leader_hears hactive hlead hheard)).trans ((Dev.readyIn_sealing hstep _).trans ?_))
    rw [if_pos hall, Dev.toAll_withImg, Dev.toAll_eq]
    rfl

end Sys2Proof.Machine
end


section
/-! PROOFS. COMMIT and ABORT at a slice: what an installed image leaves, and what waits for its boundary. -/

namespace Sys2Proof.Machine

/-! ### What the steps of an installation leave (R689 step 6) -/

/-- The registers up to those that say which image is in force. -/
abbrev imageReg (off : Nat) : Prop := off ≤ R.imgId

/-- u is s but for what the steps of an installation set: the image, its regions and hues, the cache's lines, the fuses, memory, and
the registers that name the image stay. -/
structure Installs (s u : Dev) : Prop where
  img : u.img = s.img
  regions : u.regions = s.regions
  hues : u.rfl_.hues = s.rfl_.hues
  lines : u.cache.lines = s.cache.lines
  fuse : u.fuse = s.fuse
  dram : u.stack.dram = s.stack.dram
  cmd : u.mgmt.cmd = s.mgmt.cmd
  reg : ∀ off, imageReg off → u.reg off = s.reg off
  wf : s.registersWf = true → u.registersWf = true

namespace Installs

variable {s t u : Dev}

theorem refl (s : Dev) : Installs s s := ⟨rfl, rfl, rfl, rfl, rfl, rfl, rfl, fun _ _ => rfl, id⟩

theorem trans (h : Installs s t) (g : Installs t u) : Installs s u where
  img := g.img.trans h.img
  regions := g.regions.trans h.regions
  hues := g.hues.trans h.hues
  lines := g.lines.trans h.lines
  fuse := g.fuse.trans h.fuse
  dram := g.dram.trans h.dram
  cmd := g.cmd.trans h.cmd
  reg off hoff := (g.reg off hoff).trans (h.reg off hoff)
  wf hwf := g.wf (h.wf hwf)

theorem setReg (h : Installs s t) (off v : Nat) (hoff : ¬ imageReg off) : Installs s (t.setReg off v) :=
  h.trans { img := rfl, regions := rfl, hues := rfl, lines := rfl, fuse := rfl, dram := rfl, cmd := rfl
            reg := fun a ha => t.reg_setReg_other off a v fun heq => hoff (heq ▸ ha), wf := t.setReg_registersWf off v }

theorem put (h : Installs s t) (f : Field) (v : Nat) (hoff : ¬ imageReg f.off) : Installs s (t.put f v) := h.setReg f.off _ hoff

theorem bump (h : Installs s t) (f : Field) (n : Nat) (hoff : ¬ imageReg f.off) : Installs s (t.bump f n) := h.put f _ hoff

theorem frames (h : Installs s t) (fr : Frm) (sh : Shadow) : Installs s { t with frm := fr, shadow := sh } :=
  h.trans ⟨rfl, rfl, rfl, rfl, rfl, rfl, rfl, fun _ _ => rfl, id⟩

theorem phase (h : Installs s t) (ph : Phase) : Installs s { t with phase := ph } :=
  h.trans ⟨rfl, rfl, rfl, rfl, rfl, rfl, rfl, fun _ _ => rfl, id⟩

theorem manage (h : Installs s t) {m : Mgmt} (hm : m.cmd = t.mgmt.cmd) : Installs s { t with mgmt := m } :=
  h.trans ⟨rfl, rfl, rfl, rfl, rfl, rfl, hm, fun _ _ => rfl, id⟩

theorem stack (h : Installs s t) {st : Stack} (hst : st.dram = t.stack.dram) : Installs s { t with stack := st } :=
  h.trans ⟨rfl, rfl, rfl, rfl, rfl, hst, rfl, fun _ _ => rfl, id⟩

theorem updPort (h : Installs s t) (p : Nat) (g : Port → Port) : Installs s (t.updPort p g) :=
  h.trans ⟨rfl, rfl, rfl, rfl, rfl, rfl, rfl, fun _ _ => rfl, id⟩

theorem each {α : Type} {f : Dev → α → Dev} {l : List α} (h : Installs s t) (hf : ∀ u : Dev, ∀ a ∈ l, Installs u (f u a)) :
    Installs s (t.each l f) := by
  induction l generalizing t with
  | nil => exact h
  | cons a l ih => exact ih (h.trans (hf t a List.mem_cons_self)) fun u b hb => hf u b (List.mem_cons_of_mem _ hb)

/-- A change of registers that keeps the file canonical. -/
theorem regs (h : Installs s t) {P : Nat → Prop} (hc : t.RegsChange u P) (hP : ∀ off, imageReg off → ¬ P off) (hk : Kept t u) : Installs s u := by
  obtain ⟨⟨c, rfl⟩, hreg⟩ := hc
  exact h.trans ⟨rfl, rfl, rfl, rfl, rfl, rfl, rfl, fun off hoff => hreg off (hP off hoff), hk.regs⟩

theorem event (h : Installs s t) (code unit : Nat) (hue : Option Hue) (n : Nat) : Installs s (t.event code unit hue n) :=
  h.regs ((Dev.RegsChange.refl t).event (fun _ => id) code unit hue n) (fun off hoff hcount => by
    have := hcount.1
    simp only [imageReg, R.imgId] at hoff
    omega) (Dev.event_kept t code unit hue n (Kept.refl t))

theorem busUse (h : Installs s t) (pc : Nat) (c : DramClass) (n : Nat) : Installs s (t.busUse pc c n) :=
  Installs.event (t := { t with
    stack.used := tset t.stack.used (4 * pc + c.index) (t.busUsed pc c + t.busCycles n)
    cache.busUse := t.cache.busUse + t.busCycles n, mgmt.slotBus := t.mgmt.slotBus + t.busCycles n })
    (h.trans ⟨rfl, rfl, rfl, rfl, rfl, rfl, rfl, fun _ _ => rfl, id⟩) evBus pc none _

theorem issueWrite (h : Installs s t) (grp d : Nat) (data : Sub) (poison : Bool) (c : DramClass) (why : WriteFor) :
    Installs s (t.issueWrite grp d data poison c why).2 := by
  have hqueued : ∀ st : Stack, st.dram = t.stack.dram → Installs s { t with nextId := t.nextId + 1, stack := st } := fun st hst =>
    h.trans ⟨rfl, rfl, rfl, rfl, rfl, hst, rfl, fun _ _ => rfl, id⟩
  unfold Dev.issueWrite
  dsimp only
  split
  · exact Installs.busUse (hqueued _ (by rfl)) _ _ _
  · exact hqueued _ (by rfl)

theorem topology (h : Installs s t) : Installs s t.installTopology := by
  refine (h.put F.fctCohCfg_MODE _ (by decide)).each fun u k _ => ?_
  have hstate : ∀ v, Installs u ((u.setReg (R.pwkCfg k) v)) := fun v =>
    (refl u).setReg _ v (by simp only [imageReg, R.imgId, R.pwkCfg]; omega)
  dsimp only
  split
  · exact hstate _
  · exact ((hstate _).updPort _ _).put _ _ (by simp only [imageReg, R.imgId, F.pwkStatus_STATE, R.pwkStatus]; omega)

theorem shadow (h : Installs s t) : Installs s t.installShadow :=
  (((h.put _ _ (by decide)).put _ _ (by decide)).put _ _ (by decide)).put _ _ (by decide)

theorem plan (h : Installs s t) : Installs s t.installPlan := by
  have hregs := fun v w => (((h.setReg R.frmConfig v (by decide)).put F.frmStatus_PLAN_INDEX 0 (by decide)).put F.frmStatus_TEMPLATE w
    (by decide)).put F.frmStatus_DEGRADED 0 (by decide)
  exact (hregs _ _).frames _ _

theorem power (h : Installs s t) : Installs s t.installPower := h.setReg _ _ (by decide)

theorem counters (h : Installs s t) : Installs s t.installCounters := by
  refine h.each fun u g _ => ((refl u).setReg (R.cntCfg g) _ (by simp only [imageReg, R.imgId, R.cntCfg]; omega)).each fun v k _ => ?_
  dsimp only
  split
  · exact refl v
  · exact ((refl v).setReg _ _ (by simp only [imageReg, R.imgId, R.cntSel]; omega)).put _ _
      (by simp only [imageReg, R.imgId, F.cntVal_VALUE, R.cntVal]; omega)

theorem remaps (h : Installs s t) : Installs s t.installRemaps := by
  have hrow : ∀ (u : Dev) (b : Bool) (m : Remap), Installs u
      (if b then u.bump F.stkRows_TABLE_FULL else { u with stack.remaps := u.stack.remaps ++ [m] }) := fun u b m => by
    split
    · exact (refl u).bump F.stkRows_TABLE_FULL 1 (by decide)
    · exact (refl u).stack rfl
  unfold Dev.installRemaps
  refine Installs.each ?_ fun u i _ => hrow u _ _
  exact h.stack rfl

theorem repairs (h : Installs s t) : Installs s t.hardRepairs := by
  refine h.each fun u w _ => ?_
  split
  · exact refl u
  · split
    · exact ⟨rfl, rfl, rfl, rfl, rfl, rfl, rfl, fun _ _ => rfl, id⟩
    · exact (refl u).bump F.stkRows_FAILED 1 (by decide)

theorem headers (h : Installs s t) (gone : Nat → Bool) : Installs s (t.dropHeaders gone) := by
  refine h.each fun u x _ => (refl u).each fun v d _ => ?_
  split
  · split
    · exact (refl v).issueWrite _ _ _ _ _ _
    · exact refl v
  · exact refl v

theorem firmware (h : Installs s t) : Installs s t.startFirmware := by
  have hcores := h.each (f := fun s c => s.put (F.gnmCoreStatus_STATE c) 1) (l := List.range 4) fun u c _ =>
    (refl u).put _ 1 (by simp only [imageReg, R.imgId, F.gnmCoreStatus_STATE, R.gnmCoreStatus]; omega)
  exact hcores.manage rfl

theorem lit (h : Installs s t) : Installs s t.leaveDim := by
  unfold Dev.leaveDim
  split
  · exact (h.put F.pwrState_STATE 1 (by decide)).phase .lit
  · exact h

end Installs

/-- The image's sections are in force, and what it ends is cleared, before its registers are set. -/
def Dev.imageTaken (s : Dev) (n : Sections) : Dev :=
  { s with
    img := { s.img with
      force := n, idle := none, idleTypes := [], zeroFilled := false, fwReady := false, sealFrom := [], former := [] }
    regions := imageRegions n.regions
    cache.lines := [], cache.storeRet := false, cache.storeRest := false, cache.tagUpset := [], cache.dataBad := []
    rfl_.hues := imageHues n.regions, rfl_.sweepSet := 0, rfl_.headersAt := []
    lens.acc := [], lens.marks := [], lens.accBad := [], lens.markAll := false
    frm.haltTick := false, frm.haltRoute := false, frm.haltOrdered := false, frm.haltPending := false, frm.haltAlarm := false
    frm.follow := true, frm.go := none, frm.doneFrom := [], frm.restart := false, frm.goFor := 0, frm.commitGo := false }

/-- The image is named in the registers. -/
def Dev.imageNamed (s : Dev) (n : Sections) : Dev :=
  (((s.imageTaken n).setReg R.imgId n.imageId.toNat).put F.imgStatus_PATCH_SEQ 0).raise F.imgStatus_LOADED

/-- The steps of the installation have run (R689 step 6). -/
def Dev.imageInstalled (s : Dev) (n : Sections) : Dev :=
  let part := leAt n.partition 0 8
  let s3 := (((s.imageNamed n).installTopology.installShadow.installPlan.installPower.installCounters).setReg R.fctPartition part).put
    F.fctShadeState_BUILT 0
  let s5 := ((s3.put F.pwrRet_BUDGET (retentionBudget s.fuse.leakClass.toNat)).put F.pwrRet_RETAINED (s.retained part)).installRemaps
  ((if s.mgmt.coldBoot && !s.img.firstSealed && !s.img.initDone then s5.hardRepairs else s5).dropHeaders fun _ => true).startFirmware.leaveDim

theorem Dev.imageInstalled_installs (s : Dev) (n : Sections) : Installs (s.imageNamed n) (s.imageInstalled n) := by
  have h := (((((Installs.refl (s.imageNamed n)).topology.shadow.plan.power.counters).setReg R.fctPartition (leAt n.partition 0 8)
    (by decide)).put F.fctShadeState_BUILT 0 (by decide)).put F.pwrRet_BUDGET (retentionBudget s.fuse.leakClass.toNat) (by decide)).put
    F.pwrRet_RETAINED (s.retained (leAt n.partition 0 8)) (by decide)
  unfold Dev.imageInstalled
  dsimp only
  split
  · exact (h.remaps.repairs.headers _).firmware.lit
  · exact (h.remaps.headers _).firmware.lit

/-- The slice in another phase. -/
def Dev.withPhase (s : Dev) (ph : Phase) : Dev := { s with phase := ph }

theorem Dev.reg_withPhase (s : Dev) (ph : Phase) (off : Nat) : (s.withPhase ph).reg off = s.reg off := rfl

theorem Installs.step {s t : Dev} (h : Installs s t) (v : Nat) (ph : Phase) : ((t.put F.imgStatus_STEP v).withPhase ph).img = s.img ∧
    ((t.put F.imgStatus_STEP v).withPhase ph).regions = s.regions ∧ ((t.put F.imgStatus_STEP v).withPhase ph).rfl_.hues = s.rfl_.hues ∧
    ((t.put F.imgStatus_STEP v).withPhase ph).cache.lines = s.cache.lines ∧ ((t.put F.imgStatus_STEP v).withPhase ph).fuse = s.fuse ∧
    ((t.put F.imgStatus_STEP v).withPhase ph).stack.dram = s.stack.dram ∧ ((t.put F.imgStatus_STEP v).withPhase ph).mgmt.cmd = s.mgmt.cmd :=
  ⟨h.img, h.regions, h.hues, h.lines, h.fuse, h.dram, h.cmd⟩

/-- The loader's next step, and the phase it goes with. -/
theorem Dev.installImage_eq (s : Dev) (n : Sections) : ∃ ph, s.installImage n = ((s.imageInstalled n).put F.imgStatus_STEP
    (if s.mgmt.coldBoot && !s.img.firstSealed && !s.img.initDone then 7 else 8)).withPhase ph := by
  have hrun : s.installImage n = if s.mgmt.coldBoot && !s.img.firstSealed && !s.img.initDone
      then { (s.imageInstalled n).put F.imgStatus_STEP 7 with phase := .boot 11 }
      else match s.phase with
        | .boot _ => { (s.imageInstalled n).put F.imgStatus_STEP 8 with phase := .boot 12 }
        | _ => (s.imageInstalled n).put F.imgStatus_STEP 8 := rfl
  rw [hrun]
  split
  · exact ⟨_, rfl⟩
  · split
    · exact ⟨_, rfl⟩
    · exact ⟨((s.imageInstalled n).put F.imgStatus_STEP 8).phase, rfl⟩

theorem Dev.imageTaken_registersWf {s : Dev} (h : s.registersWf = true) (n : Sections) : (s.imageTaken n).registersWf = true := h

/-- The registers that name the image. -/
theorem Dev.imageNamed_regs {s : Dev} (h : s.registersWf = true) (n : Sections) : (s.imageNamed n).registersWf = true ∧
    (s.imageNamed n).reg R.imgId = n.imageId.toNat ∧ (s.imageNamed n).get F.imgStatus_LOADED = 1 := by
  have h0 := Dev.imageTaken_registersWf h n
  have h1 := Dev.setReg_registersWf _ R.imgId n.imageId.toNat h0
  have h2 := Dev.put_registersWf _ F.imgStatus_PATCH_SEQ 0 h1
  refine ⟨Dev.put_registersWf _ F.imgStatus_LOADED 1 h2, ?_, ?_⟩
  · rw [Dev.imageNamed, Dev.raise, Dev.reg_put_other _ _ _ _ (by decide), Dev.reg_put_other _ _ _ _ (by decide), Dev.reg_setReg _ _ _ h0]
    exact Nat.mod_eq_of_lt n.imageId.isLt
  · rw [Dev.imageNamed, Dev.raise, Dev.get_put _ _ _ h2 (by decide) (by decide)]
    rfl

/-- What the naming of the image leaves of the rest. -/
theorem Dev.imageNamed_rest (s : Dev) (n : Sections) : (s.imageNamed n).img = (s.imageTaken n).img ∧
    (s.imageNamed n).regions = imageRegions n.regions ∧ (s.imageNamed n).rfl_.hues = imageHues n.regions ∧
    (s.imageNamed n).cache.lines = [] ∧ (s.imageNamed n).fuse = s.fuse ∧ (s.imageNamed n).stack.dram = s.stack.dram ∧
    (s.imageNamed n).mgmt.cmd = s.mgmt.cmd := by
  obtain ⟨⟨c, hc⟩, -⟩ : (s.imageTaken n).RegsChange (s.imageNamed n) fun _ => True :=
    (((Dev.RegsChange.refl _).setReg R.imgId n.imageId.toNat trivial).put F.imgStatus_PATCH_SEQ 0 trivial).put F.imgStatus_LOADED 1 trivial
  rw [hc]
  exact ⟨rfl, rfl, rfl, rfl, rfl, rfl, rfl⟩

/-- What an installed image leaves (R689 step 6). -/
structure ImageInForce (s t : Dev) (n : Sections) : Prop where
  force : t.img.force = n
  idle : t.img.idle = none
  regions : t.regions = imageRegions n.regions
  hues : t.rfl_.hues = imageHues n.regions
  lines : t.cache.lines = []
  step : t.get F.imgStatus_STEP = if s.mgmt.coldBoot && !s.img.firstSealed && !s.img.initDone then 7 else 8
  loaded : t.get F.imgStatus_LOADED = 1
  imageId : t.reg R.imgId = n.imageId.toNat
  fuse : t.fuse = s.fuse
  dram : t.stack.dram = s.stack.dram
  cmd : t.mgmt.cmd = s.mgmt.cmd

theorem Dev.installImage_inForce {s : Dev} (h : s.registersWf = true) (n : Sections) : ImageInForce s (s.installImage n) n := by
  obtain ⟨hwf, hid, hloaded⟩ := Dev.imageNamed_regs h n
  obtain ⟨nimg, nregions, nhues, nlines, nfuse, ndram, ncmd⟩ := s.imageNamed_rest n
  have hinst := s.imageInstalled_installs n
  have hwf' := hinst.wf hwf
  obtain ⟨ph, hrun⟩ := s.installImage_eq n
  rw [hrun]
  obtain ⟨himg, hregions, hhues, hlines, hfuse, hdram, hcmd⟩ := hinst.step
    (if s.mgmt.coldBoot && !s.img.firstSealed && !s.img.initDone then 7 else 8) ph
  exact {
    force := by rw [himg, nimg]; rfl
    idle := by rw [himg, nimg]; rfl
    regions := hregions.trans nregions
    hues := hhues.trans nhues
    lines := hlines.trans nlines
    step := by
      rw [Dev.get_congr (f := F.imgStatus_STEP) (Dev.reg_withPhase _ ph _), Dev.get_put _ _ _ hwf' (by decide) (by decide)]
      split <;> rfl
    loaded := by
      rw [Dev.get_congr (f := F.imgStatus_LOADED) (Dev.reg_withPhase _ ph _),
        Dev.get_put_field _ F.imgStatus_STEP F.imgStatus_LOADED _ hwf' rfl (by decide) (by decide) (by decide),
        Dev.get_congr (f := F.imgStatus_LOADED) (hinst.reg R.imgStatus (by decide)), hloaded]
    imageId := by
      rw [Dev.reg_withPhase, Dev.reg_put_other _ _ _ _ (by decide), hinst.reg R.imgId (by decide), hid]
    fuse := hfuse.trans nfuse
    dram := hdram.trans ndram
    cmd := hcmd.trans ncmd }

/-! ### COMMIT and ABORT -/

theorem Dev.endIf_of_none {s : Dev} (h : s.mgmt.cmd = none) (codes : List Nat) (result : Nat) : s.endIf codes result = s := by
  rw [Dev.endIf, h]

theorem Dev.commitIn_image {s : Dev} {n : Sections} (hphase : s.phase ≠ .toDusk) (hidle : s.img.idle = some n) (hkind : s.img.idleKind = .image)
    (frame : Frame) : s.commitIn frame = (s.installImage n).endIf [0x01] 0 := by
  simp [Dev.commitIn, hphase, hidle, hkind]

theorem Dev.commitIn_dusk {s : Dev} (hphase : s.phase = .toDusk) (hcmd : s.mgmt.cmd = none) (frame : Frame) : s.commitIn frame =
    { s with frm.commitAt := some (.dusk, if frame == 0 then none else some frame) } := by
  have hdusk : (s.phase == .toDusk) = true := by rw [hphase]; rfl
  rw [Dev.commitIn, hdusk, if_pos rfl]
  apply Dev.endIf_of_none
  exact hcmd

theorem Dev.commitIn_patch {s : Dev} {n : Sections} (hphase : s.phase ≠ .toDusk) (hidle : s.img.idle = some n) (hkind : s.img.idleKind = .patch)
    (hcmd : s.mgmt.cmd = none) (frame : Frame) : s.commitIn frame =
    { s with frm.commitAt := some (.patch, if frame == 0 then none else some frame) } := by
  have hdusk : (s.phase == .toDusk) = false := beq_false_of_ne hphase
  rw [Dev.commitIn, hdusk, hidle, hkind, if_neg (by decide)]
  apply Dev.endIf_of_none
  exact hcmd

/-- Discarding the idle copies and setting fields are apart. -/
theorem Dev.discarded_puts (s : Dev) (f g : Field) (v w : Nat) :
    (Dev.put { s with img.idle := none, img.idleTypes := [], frm.commitAt := none } f v).put g w =
      { (s.put f v).put g w with img.idle := none, img.idleTypes := [], frm.commitAt := none } := rfl

theorem Dev.abortIn_load {s : Dev} (hphase : s.phase ≠ .toDusk) (hstep : s.get F.imgStatus_STEP ≤ 5) (hcmd : s.mgmt.cmd = none) (code : Nat) :
    s.abortIn code = { (s.put F.imgStatus_STEP 0).put F.imgStatus_PATCH_PENDING 0 with
      img.idle := none, img.idleTypes := [], frm.commitAt := none } := by
  have hdusk : (s.phase == .toDusk) = false := beq_false_of_ne hphase
  rw [Dev.abortIn, hdusk, if_neg (by decide)]
  dsimp only
  rw [if_pos hstep]
  refine (Dev.endIf_of_none ?_ _ _).trans (s.discarded_puts _ _ 0 0)
  exact hcmd

/-- A slice that goes back to Lit leads or follows as before. -/
theorem Dev.isLeader_litAgain (s u : Dev) (h : ∀ f : Field, R.pwrState ≠ f.off → u.get f = s.get f) (ph : Phase) (m : Mgmt) (fr : Frm) :
    Dev.isLeader { u with phase := ph, mgmt := m, frm := fr } = s.isLeader := by
  have hlead : Dev.leader { u with phase := ph, mgmt := m, frm := fr } = s.leader := h F.frmConfig_LEADER (by decide)
  have hband : Dev.get { u with phase := ph, mgmt := m, frm := fr } F.rstStrap_BAND = s.get F.rstStrap_BAND := h _ (by decide)
  rw [Dev.isLeader, Dev.isLeader, hlead, Dev.pos, Dev.pos, hband]

theorem Dev.abortIn_dusk {s : Dev} (hphase : s.phase = .toDusk) (hlead : s.isLeader = false) (hcmd : s.mgmt.cmd = none) (code : Nat) :
    s.abortIn code = { s.put F.pwrState_STATE 1 with phase := .lit, mgmt.duskNext := false, frm.haltOrdered := false } := by
  have hdusk : (s.phase == .toDusk) = true := by rw [hphase]; rfl
  have hfollow : Dev.isLeader { s.put F.pwrState_STATE 1 with phase := .lit, mgmt.duskNext := false, frm.haltOrdered := false } = false := by
    rw [← hlead]
    exact s.isLeader_litAgain (s.put F.pwrState_STATE 1) (fun f hf => s.get_put_other F.pwrState_STATE f 1 hf) _ _ _
  rw [Dev.abortIn, hdusk, if_pos rfl]
  dsimp only
  rw [Dev.endIf_of_none (by exact hcmd), hfollow, if_neg (by decide)]

/-- Settles O32: an image by what its installation leaves, the others by the branch that each message takes. -/
theorem loaderMessagesAreTaken : Obligations.LoaderMessagesAreTaken := by
  refine ⟨fun n frame s hactive hphase hidle hkind hcmd hwf => ?_, fun n frame s hactive hcmd => ⟨fun hphase => ?_, fun hphase hidle hkind => ?_⟩,
    fun code s hactive hcmd => ⟨fun hphase hstep => ?_, fun hphase hlead => ?_⟩⟩
  · have h := Dev.installImage_inForce hwf n
    exact ⟨_, next_congr ((if_pos hactive).trans ((Dev.commitIn_image hphase hidle hkind frame).trans
      (Dev.endIf_of_none (h.cmd.trans hcmd) _ _))), h.force, h.idle, h.regions, h.hues, h.lines, h.step, h.loaded, h.imageId, h.fuse, h.dram⟩
  · exact next_congr ((if_pos hactive).trans (Dev.commitIn_dusk hphase hcmd frame))
  · exact next_congr ((if_pos hactive).trans (Dev.commitIn_patch hphase hidle hkind hcmd frame))
  · exact next_congr ((if_pos hactive).trans (Dev.abortIn_load hphase hstep hcmd _))
  · exact next_congr ((if_pos hactive).trans (Dev.abortIn_dusk hphase hlead hcmd _))

end Sys2Proof.Machine
end


section
/-! PROOFS. The end of an adoption, and a rebuilt chunk. -/

namespace Sys2Proof.Machine

/-! ### Fields of a register that is not 0, whatever form the register file has -/

/-- A register with a field other than 0 holds what a field beside it is set to. -/
theorem Dev.reg_put_beside {s : Dev} {f g : Field} (v : Nat) (hoff : f.off = g.off) (hlo : f.lo ≤ f.hi + 1) (hhi : f.hi < 64)
    (hapart : g.hi < f.lo ∨ f.hi < g.lo) (hg : s.get g ≠ 0) : (s.put f v).reg f.off = withBits (s.reg f.off) f.hi f.lo v := by
  have hkept : bitsOf (withBits (s.reg f.off) f.hi f.lo v) g.hi g.lo = s.get g := by
    rw [Dev.get, ← hoff]
    rcases hapart with h | h
    · exact bitsOf_withBits_below _ _ _ _ _ _ hlo h
    · exact bitsOf_withBits_above _ _ _ _ _ _ hlo h
  have hlt : withBits (s.reg f.off) f.hi f.lo v % 2 ^ 64 = withBits (s.reg f.off) f.hi f.lo v :=
    Nat.mod_eq_of_lt (withBits_lt hlo hhi (s.reg_lt _))
  have hne : withBits (s.reg f.off) f.hi f.lo v ≠ 0 := fun h0 => hg (by rw [← hkept, h0]; simp [bitsOf])
  rw [Dev.put, Dev.reg_setReg_of_ne_zero _ _ _ (by rwa [hlt]), hlt]

/-- The field that is set. -/
theorem Dev.get_put_beside {s : Dev} {f g : Field} (v : Nat) (hoff : f.off = g.off) (hlo : f.lo ≤ f.hi + 1) (hhi : f.hi < 64)
    (hapart : g.hi < f.lo ∨ f.hi < g.lo) (hg : s.get g ≠ 0) : (s.put f v).get f = v % 2 ^ (f.hi + 1 - f.lo) := by
  rw [Dev.get, Dev.reg_put_beside v hoff hlo hhi hapart hg, bitsOf_withBits _ _ _ _ hlo]

/-- A field beside the one that is set. -/
theorem Dev.get_put_kept {s : Dev} {f g k : Field} (v : Nat) (hoff : f.off = g.off) (hlo : f.lo ≤ f.hi + 1) (hhi : f.hi < 64)
    (hapart : g.hi < f.lo ∨ f.hi < g.lo) (hg : s.get g ≠ 0) (hk : f.off = k.off) (hkapart : k.hi < f.lo ∨ f.hi < k.lo) :
    (s.put f v).get k = s.get k := by
  rw [Dev.get, ← hk, Dev.reg_put_beside v hoff hlo hhi hapart hg, Dev.get, ← hk]
  rcases hkapart with h | h
  · exact bitsOf_withBits_below _ _ _ _ _ _ hlo h
  · exact bitsOf_withBits_above _ _ _ _ _ _ hlo h

/-! ### The end of an adoption (R621, R623, R640) -/

/-- The takeover as it is recorded in the registers. -/
def Dev.takeoverNoted (s : Dev) (lost us frame : Nat) : Dev :=
  ((((s.put F.shdTakeover_VALID 1).put F.shdTakeover_LOST lost).put F.shdTakeover_DURATION_US us).put F.shdTakeover_FRAME frame).put
    F.shdStatus_STATE 2

/-- With SHD_TAKEOVER.VALID set, its other fields are set one beside the other. -/
theorem Dev.takeover_put {u : Dev} (hu : u.get F.shdTakeover_VALID = 1) {f : Field} (v : Nat) (hoff : f.off = R.shdTakeover)
    (hlo : f.lo ≤ f.hi + 1) (hhi : f.hi < 63) :
    (u.put f v).get F.shdTakeover_VALID = 1 ∧ (u.put f v).get f = v % 2 ^ (f.hi + 1 - f.lo) ∧
      ∀ k : Field, f.off = k.off → k.hi < f.lo ∨ f.hi < k.lo → (u.put f v).get k = u.get k := by
  have hne : u.get F.shdTakeover_VALID ≠ 0 := by rw [hu]; decide
  have hkept := fun k hk => Dev.get_put_kept (k := k) v hoff hlo (Nat.lt_succ_of_lt hhi) (.inr hhi) hne hk
  exact ⟨(hkept _ hoff (.inr hhi)).trans hu, Dev.get_put_beside v hoff hlo (Nat.lt_succ_of_lt hhi) (.inr hhi) hne, hkept⟩

theorem Dev.takeoverNoted_get (s : Dev) {lost : Nat} (us frame : Nat) (h : lost < 8) :
    (s.takeoverNoted lost us frame).get F.shdTakeover_VALID = 1 ∧ (s.takeoverNoted lost us frame).get F.shdTakeover_LOST = lost ∧
      (s.takeoverNoted lost us frame).get F.shdStatus_STATE = 2 := by
  obtain ⟨hvalid1, hlost, -⟩ := Dev.takeover_put (s.get_put_of_ne_zero F.shdTakeover_VALID 1 (by decide) (by decide) (by decide))
    (f := F.shdTakeover_LOST) lost rfl (by decide) (by decide)
  obtain ⟨hvalid2, -, hkept2⟩ := Dev.takeover_put hvalid1 (f := F.shdTakeover_DURATION_US) us rfl (by decide) (by decide)
  obtain ⟨hvalid3, -, hkept3⟩ := Dev.takeover_put hvalid2 (f := F.shdTakeover_FRAME) frame rfl (by decide) (by decide)
  have hother := fun f hf => Dev.get_put_other ((((s.put F.shdTakeover_VALID 1).put F.shdTakeover_LOST lost).put F.shdTakeover_DURATION_US
    us).put F.shdTakeover_FRAME frame) F.shdStatus_STATE f 2 hf
  refine ⟨(hother _ (by decide)).trans hvalid3, (hother F.shdTakeover_LOST (by decide)).trans ?_,
    Dev.get_put_of_ne_zero _ F.shdStatus_STATE 2 (by decide) (by decide) (by decide)⟩
  rw [hkept3 F.shdTakeover_LOST rfl (by decide), hkept2 F.shdTakeover_LOST rfl (by decide), hlost]
  exact Nat.mod_eq_of_lt h

theorem Dev.takeoverNoted_change (s : Dev) (lost us frame : Nat) :
    s.RegsChange (s.takeoverNoted lost us frame) fun off => off = R.shdStatus ∨ off = R.shdTakeover :=
  (((((Dev.RegsChange.refl s).put F.shdTakeover_VALID 1 (.inr rfl)).put F.shdTakeover_LOST lost (.inr rfl)).put F.shdTakeover_DURATION_US us
    (.inr rfl)).put F.shdTakeover_FRAME frame (.inr rfl)).put F.shdStatus_STATE 2 (.inl rfl)

/-- The slice with another state of the shadowing, and messages sent. -/
def Dev.shadowSent (s : Dev) (sh : Shadow) (o : List Msg) : Dev := { s with shadow := sh, outbox := o }

theorem Dev.put_shadowSent (s : Dev) (sh : Shadow) (o : List Msg) (f : Field) (v : Nat) :
    (s.shadowSent sh o).put f v = (s.put f v).shadowSent sh o := rfl

theorem Dev.get_shadowSent (s : Dev) (sh : Shadow) (o : List Msg) (f : Field) : (s.shadowSent sh o).get f = s.get f := rfl

theorem Dev.reg_shadowSent (s : Dev) (sh : Shadow) (o : List Msg) (off : Nat) : (s.shadowSent sh o).reg off = s.reg off := rfl

theorem Dev.shadowSent_shadowSent (s : Dev) (sh sh' : Shadow) (o o' : List Msg) : (s.shadowSent sh o).shadowSent sh' o' = s.shadowSent sh' o' := rfl

theorem Dev.takeoverNoted_shadowSent (s : Dev) (sh : Shadow) (o : List Msg) (lost us frame : Nat) :
    (s.shadowSent sh o).takeoverNoted lost us frame = (s.takeoverNoted lost us frame).shadowSent sh o := by
  rw [Dev.takeoverNoted, Dev.put_shadowSent, Dev.put_shadowSent, Dev.put_shadowSent, Dev.put_shadowSent, Dev.put_shadowSent, Dev.takeoverNoted]

/-- t is s but for messages after those that s has sent. -/
def Dev.SendsOn (s t : Dev) : Prop := ∃ l, t = { s with outbox := s.outbox ++ l }

theorem Dev.SendsOn.refl (s : Dev) : s.SendsOn s := ⟨[], by rw [List.append_nil]⟩

theorem Dev.SendsOn.send {s t : Dev} (h : s.SendsOn t) (m : Msg) : s.SendsOn (t.send m) := by
  obtain ⟨l, rfl⟩ := h
  exact ⟨l ++ [m], by rw [Dev.send, ← List.append_assoc]⟩

theorem Dev.SendsOn.each {s t : Dev} {α : Type} {f : Dev → α → Dev} {l : List α} (h : s.SendsOn t)
    (hf : ∀ u : Dev, ∀ a, s.SendsOn u → s.SendsOn (f u a)) : s.SendsOn (t.each l f) := by
  induction l generalizing t with
  | nil => exact h
  | cons a l ih => exact ih (hf t a h)

/-- What ends with the walk: the takeover is recorded, and no request waits for the lost home. -/
theorem Dev.walkEnded_effect (s : Dev) (lost : Nat) : ∃ us frame l, s.walkEnded lost = (s.takeoverNoted lost us frame).shadowSent
    { s.shadow with ports := s.shadow.ports.filter (fun q => q.home != lost) } (s.outbox ++ l) := by
  obtain ⟨us, frame, hrun⟩ : ∃ us frame, Dev.SendsOn { s.takeoverNoted lost us frame with
      shadow.ports := (s.takeoverNoted lost us frame).shadow.ports.filter (fun q => q.home != lost) } (s.walkEnded lost) := by
    refine ⟨_, _, ((Dev.SendsOn.refl _).each fun u q h => ?_).each fun u a h => h.send _⟩
    split
    · split
      · exact h
      · exact h.send _
    · exact h.send _
  obtain ⟨l, hl⟩ := hrun
  obtain ⟨⟨c, hc⟩, -⟩ := s.takeoverNoted_change lost us frame
  refine ⟨us, frame, l, ?_⟩
  rw [hl, hc]
  rfl

theorem Dev.ctlOthers_eq (s : Dev) (m : Ctl) :
    s.ctlOthers m = { s with outbox := s.outbox ++ (s.livePositions.filter (fun p => p != s.pos)).map (fun p => Msg.ctl p m) } :=
  s.each_send _ _

/-- The walk is over: the other live slices are told, and the takeover is recorded. -/
theorem Dev.walkEnd_effect {s : Dev} (hactive : s.active = true) (hwalk : s.shadow.walking = true) :
    ∃ us frame l b, s.walkEnd = (s.takeoverNoted (s.get F.shdStatus_ADOPTED) us frame).shadowSent
      { s.shadow with walking := false, ports := s.shadow.ports.filter (fun q => q.home != s.get F.shdStatus_ADOPTED) }
      (s.outbox ++ (s.livePositions.filter (fun p => p != s.pos)).map (fun p => Msg.ctl p (.homeMoved
        (BitVec.ofNat 3 (s.get F.shdStatus_ADOPTED)) (BitVec.ofNat 3 s.pos) true b)) ++ l) := by
  obtain ⟨b, hrun⟩ : ∃ b, s.walkEnd = Dev.walkEnded (s.shadowSent { s.shadow with walking := false }
      (s.outbox ++ (s.livePositions.filter (fun p => p != s.pos)).map (fun p => Msg.ctl p (.homeMoved
        (BitVec.ofNat 3 (s.get F.shdStatus_ADOPTED)) (BitVec.ofNat 3 s.pos) true b)))) (s.get F.shdStatus_ADOPTED) := by
    rw [Dev.walkEnd, hactive, hwalk, if_neg (by decide)]
    exact ⟨_, congrArg (Dev.walkEnded · _) (Dev.ctlOthers_eq _ _)⟩
  rw [hrun]
  obtain ⟨us, frame, l, hend⟩ := Dev.walkEnded_effect (s.shadowSent { s.shadow with walking := false }
      (s.outbox ++ (s.livePositions.filter (fun p => p != s.pos)).map (fun p => Msg.ctl p (.homeMoved
        (BitVec.ofNat 3 (s.get F.shdStatus_ADOPTED)) (BitVec.ofNat 3 s.pos) true b)))) (s.get F.shdStatus_ADOPTED)
  refine ⟨us, frame, l, b, ?_⟩
  rw [hend, Dev.takeoverNoted_shadowSent, Dev.shadowSent_shadowSent]
  rfl

/-! ### A rebuilt chunk (R630 to R632) -/

/-- The slice with what a rebuilt chunk leaves of the shadowing's state. -/
def Dev.chunkRebuilt (s : Dev) (copies : SMap ((Pos × BitVec 17) × (Pos × BitVec 17))) : Dev :=
  { s with shadow.copies := copies, shadow.rebuildAt := [], shadow.bufferWanted := [] }

theorem Dev.put_chunkRebuilt (s : Dev) (copies : SMap ((Pos × BitVec 17) × (Pos × BitVec 17))) (f : Field) (v : Nat) :
    (s.chunkRebuilt copies).put f v = (s.put f v).chunkRebuilt copies := rfl

theorem Dev.rebuildDone_eq {s : Dev} {chunk : Nat} {c0 c1 : Pos × BitVec 17} (hactive : s.active = true) (hrebuild : s.rebuilding.isSome = true)
    (hnext : s.rebuildNext = some chunk) (hcopies : s.rebuildCopies chunk = (c0, c1))
    (hown : s.rebuildHere chunk = none ∨ (∀ pc < 128, 256 ≤ tgetD s.shadow.rebuildAt pc 0) ∧ s.rebuildOpen = false) :
    s.rebuildDone chunk c0 c1 =
      let copies := tset s.shadow.copies chunk (c0, c1)
      let s1 := s.put F.shdStatus_REBUILD_PCT (copies.length * 100 / s.get F.shdConfig_SHADOWED)
      (if copies.length = s.get F.shdConfig_SHADOWED then (s1.put F.shdErr_REBUILD_DONE 1).put F.shdStatus_STATE 0
         else s1.put F.shdStatus_STATE 3).chunkRebuilt copies := by
  have hwritten : ((s.rebuildHere chunk).isNone ||
      ((List.range 128).all (fun pc => 256 ≤ tgetD s.shadow.rebuildAt pc 0) && !s.rebuildOpen)) = true := by
    rcases hown with h | ⟨hat, hopen⟩
    · rw [h]; rfl
    · rw [hopen, List.all_eq_true.2 fun pc hpc => decide_eq_true (hat pc (List.mem_range.1 hpc))]
      simp
  have hsome : s.rebuilding.isNone = false := by rw [Option.isNone_eq_false_iff, hrebuild]
  have hrun : s.rebuildDone chunk c0 c1 =
      if !s.active || s.rebuilding.isNone || s.rebuildNext != some chunk || s.rebuildCopies chunk != (c0, c1) ||
        !((s.rebuildHere chunk).isNone || ((List.range 128).all (fun pc => 256 ≤ tgetD s.shadow.rebuildAt pc 0) && !s.rebuildOpen)) then s
      else
        let copies := tset s.shadow.copies chunk (c0, c1)
        let s2 := (s.chunkRebuilt copies).put F.shdStatus_REBUILD_PCT (copies.length * 100 / s.get F.shdConfig_SHADOWED)
        if copies.length == s.get F.shdConfig_SHADOWED then (s2.raise F.shdErr_REBUILD_DONE).put F.shdStatus_STATE 0
        else s2.put F.shdStatus_STATE 3 := rfl
  rw [hrun, hwritten, hactive, hsome, hnext, hcopies, if_neg (by simp)]
  dsimp only
  rw [Dev.put_chunkRebuilt, Dev.raise, Dev.put_chunkRebuilt, Dev.put_chunkRebuilt, Dev.put_chunkRebuilt]
  by_cases hlast : (tset s.shadow.copies chunk (c0, c1)).length = s.get F.shdConfig_SHADOWED
  · rw [if_pos hlast, if_pos (beq_iff_eq.2 hlast)]
  · rw [if_neg hlast, if_neg (beq_iff_eq.not.2 hlast)]

/-- Settles O54: the walk's end by its effect, a chunk by its count against the shadowed chunks. -/
theorem failoverEnds : Obligations.FailoverEnds := by
  refine ⟨fun s hactive hwalk => ?_, fun chunk c0 c1 s hactive hrebuild hnext hcopies hown =>
    next_congr (Dev.rebuildDone_eq hactive hrebuild hnext hcopies hown)⟩
  obtain ⟨us, frame, l, b, hend⟩ := Dev.walkEnd_effect hactive hwalk
  have hpos : s.get F.shdStatus_ADOPTED < 8 := Nat.mod_lt _ (by decide)
  obtain ⟨hvalid, hlost, hstate⟩ := s.toDev.takeoverNoted_get us frame hpos
  obtain ⟨⟨c, hc⟩, hreg⟩ := s.toDev.takeoverNoted_change (s.get F.shdStatus_ADOPTED) us frame
  refine ⟨_, next_congr hend, rfl, (Dev.get_shadowSent _ _ _ _).trans hstate, (Dev.get_shadowSent _ _ _ _).trans hvalid,
    (Dev.get_shadowSent _ _ _ _).trans hlost, fun q hq => ?_, fun p hp hne => ⟨b, ?_⟩, fun off hoff _ => ?_, ?_⟩
  · simpa using (List.mem_filter.1 hq).2
  · exact List.mem_append_left _ (List.mem_append_right _ (List.mem_map.2 ⟨p, List.mem_filter.2 ⟨hp, by simpa using hne⟩, rfl⟩))
  · exact (Dev.reg_shadowSent _ _ _ _).trans (hreg off (by simpa using hoff))
  · rw [hc]
    rfl

end Sys2Proof.Machine
end


section
/-! PROOFS. Discovery: a round's merged words, the eighth round without change, and the time limit. -/

namespace Sys2Proof.Machine

/-! ### Fields of ORed words -/

theorem bitsOf_or (a b hi lo : Nat) : bitsOf (a ||| b) hi lo = bitsOf a hi lo ||| bitsOf b hi lo := by
  rw [bitsOf, bitsOf, bitsOf, Nat.shiftRight_or_distrib, Nat.or_mod_two_pow]

theorem bitsOf_mul_above (x : Nat) {k hi lo : Nat} (h : hi < k) : bitsOf (x * 2 ^ k) hi lo = 0 := by
  by_cases hlo : lo ≤ hi
  · obtain ⟨j, rfl⟩ := Nat.exists_eq_add_of_lt h
    have hsplit : x * 2 ^ (hi + j + 1) = x * 2 ^ j * 2 ^ (hi + 1 - lo) * 2 ^ lo := by
      rw [Nat.mul_assoc, Nat.mul_assoc, ← Nat.pow_add, ← Nat.pow_add]
      congr 2
      omega
    rw [bitsOf, hsplit, Nat.shiftRight_eq_div_pow, Nat.mul_div_cancel _ (Nat.two_pow_pos lo), Nat.mul_mod_left]
  · rw [bitsOf, show hi + 1 - lo = 0 by omega, pow_zero, Nat.mod_one]

theorem bitsOf_of_lt {x lo : Nat} (hi : Nat) (h : x < 2 ^ lo) : bitsOf x hi lo = 0 := by
  rw [bitsOf, Nat.shiftRight_eq_div_pow, Nat.div_eq_of_lt h, Nat.zero_mod]

theorem bitsOf_word {x hi : Nat} (lo : Nat) (h : hi < 64) : bitsOf (BitVec.ofNat 64 x).toNat hi lo = bitsOf x hi lo := by
  by_cases hlo : lo ≤ hi
  · have hsplit : (2 : Nat) ^ 64 = 2 ^ lo * 2 ^ (64 - lo) := by rw [← Nat.pow_add]; congr 1; omega
    rw [BitVec.toNat_ofNat, bitsOf, bitsOf, Nat.shiftRight_eq_div_pow, Nat.shiftRight_eq_div_pow, hsplit, Nat.mod_mul_right_div_self,
      Nat.mod_mod_of_dvd _ (Nat.pow_dvd_pow 2 (by omega))]
  · rw [bitsOf, bitsOf, show hi + 1 - lo = 0 by omega, pow_zero, Nat.mod_one, Nat.mod_one]

/-- A field of words ORed together. -/
theorem bitsOf_foldl_or {α : Type} (f : α → Nat) (hi lo : Nat) (l : List α) (w : Nat) :
    bitsOf (l.foldl (fun w a => w ||| f a) w) hi lo = l.foldl (fun w a => w ||| bitsOf (f a) hi lo) (bitsOf w hi lo) := by
  induction l generalizing w with
  | nil => rfl
  | cons a l ih => rw [List.foldl_cons, List.foldl_cons, ih, bitsOf_or]

/-! ### The discovery word (R508, R509) -/

theorem Dev.disc_setDisc (s : Dev) {hi lo : Nat} (v : Nat) (hlo : lo ≤ hi + 1) (hhi : hi < 64) :
    (s.setDisc hi lo v).links.disc.toNat = withBits s.links.disc.toNat hi lo v := by
  rw [Dev.setDisc, BitVec.toNat_ofNat]
  exact Nat.mod_eq_of_lt (withBits_lt hlo hhi s.links.disc.isLt)

theorem Dev.discField_setDisc (s : Dev) {hi lo : Nat} (v : Nat) (hlo : lo ≤ hi + 1) (hhi : hi < 64) :
    (s.setDisc hi lo v).discField hi lo = v % 2 ^ (hi + 1 - lo) := by
  rw [Dev.discField, s.disc_setDisc v hlo hhi, bitsOf_withBits _ _ _ _ hlo]

theorem Dev.discField_setDisc_other (s : Dev) {hi lo hi' lo' : Nat} (v : Nat) (hlo : lo ≤ hi + 1) (hhi : hi < 64)
    (hapart : hi' < lo ∨ hi < lo') : (s.setDisc hi lo v).discField hi' lo' = s.discField hi' lo' := by
  rw [Dev.discField, s.disc_setDisc v hlo hhi, Dev.discField]
  rcases hapart with h | h
  · exact bitsOf_withBits_below _ _ _ _ _ _ hlo h
  · exact bitsOf_withBits_above _ _ _ _ _ _ hlo h

theorem Dev.discField_alert (s : Dev) (k hi lo : Nat) : (s.alert k).discField hi lo = s.discField hi lo := rfl

/-- An error is noted in the field of errors alone. -/
theorem Dev.discField_discErr_other (s : Dev) (code : Nat) {hi lo : Nat} (h : hi < 60 ∨ 62 < lo) :
    (s.discErr code).discField hi lo = s.discField hi lo := by
  unfold Dev.discErr
  split
  · rfl
  · exact (Dev.discField_alert _ _ _ _).trans (s.discField_setDisc_other code (by decide) (by decide) h)

/-- The first error stands. -/
theorem Dev.discErr_of_err {s : Dev} (h : s.discField 62 60 ≠ 0) (code : Nat) : s.discErr code = s := by
  simp [Dev.discErr, h]

/-- The partners' words merged into this slice's. -/
def Dev.wordsMerged (s : Dev) (links : List PartnerRead) : Dev :=
  let own := s.links.disc.toNat
  let mine := links.foldl (fun w r => if gridNext s.pos (partnerAt r) then w ||| 2 ^ (32 + linkIndex s.pos (partnerAt r)) else w) own
  { s with links.disc := BitVec.ofNat 64 (links.foldl
      (fun w r => w ||| (bitsOf r.disc.toNat 41 32 * 2 ^ 32) ||| (bitsOf r.disc.toNat 31 24 * 2 ^ 24)) mine) }

/-- The error of the round's own causes. -/
def Dev.roundChecked (s : Dev) (links : List PartnerRead) : Dev :=
  match s.roundErr links with
  | some c => s.discErr c
  | none => s

/-- The partners' errors merged. -/
def Dev.errMerged (s : Dev) (links : List PartnerRead) : Dev :=
  let err := links.foldl (fun w r => w ||| bitsOf r.disc.toNat 62 60) (s.discField 62 60)
  if err == s.discField 62 60 then s else (s.setDisc 62 60 err).alert alertPwk

theorem Dev.mergeWords_eq (s : Dev) (links : List PartnerRead) : ∃ round,
    s.mergeWords links = (((s.wordsMerged links).roundChecked links).errMerged links).setDisc 59 48 round := ⟨_, rfl⟩

/-- What a partner's word adds to the links known and to the slices present. -/
def partnerWord (r : PartnerRead) : Nat := bitsOf r.disc.toNat 41 32 * 2 ^ 32 ||| bitsOf r.disc.toNat 31 24 * 2 ^ 24

/-- What a partner's place adds to the links known. -/
def partnerLink (p : Nat) (r : PartnerRead) : Nat := if gridNext p (partnerAt r) then 2 ^ (32 + linkIndex p (partnerAt r)) else 0

theorem linkIndex_lt {p : Nat} (hp : p < 8) (q : Nat) : linkIndex p q < 12 := by
  unfold linkIndex
  split <;> omega

theorem partnerLink_present (p : Nat) (r : PartnerRead) : bitsOf (partnerLink p r) 31 24 = 0 := by
  unfold partnerLink
  split
  · have h := bitsOf_mul_above 1 (k := 32 + linkIndex p (partnerAt r)) (hi := 31) (lo := 24) (by omega)
    rwa [one_mul] at h
  · rfl

theorem partnerLink_high {p : Nat} (hp : p < 8) (r : PartnerRead) {hi lo : Nat} (hlo : 60 ≤ lo) : bitsOf (partnerLink p r) hi lo = 0 := by
  refine bitsOf_of_lt hi (lt_of_lt_of_le ?_ (Nat.pow_le_pow_right (by decide) hlo))
  unfold partnerLink
  split
  · exact Nat.pow_lt_pow_right (by decide) (by have := linkIndex_lt hp (partnerAt r); omega)
  · decide

theorem partnerWord_present (r : PartnerRead) : bitsOf (partnerWord r) 31 24 = bitsOf r.disc.toNat 31 24 := by
  have hlt : bitsOf r.disc.toNat 31 24 < 256 := Nat.mod_lt _ (by decide)
  rw [partnerWord, bitsOf_or, bitsOf_mul_above _ (by decide), Nat.zero_or]
  generalize bitsOf r.disc.toNat 31 24 = x at hlt
  rw [bitsOf, Nat.shiftRight_eq_div_pow, Nat.mul_div_cancel _ (by decide)]
  exact Nat.mod_eq_of_lt hlt

theorem partnerWord_high (r : PartnerRead) {hi lo : Nat} (hlo : 60 ≤ lo) : bitsOf (partnerWord r) hi lo = 0 := by
  have hlinks : bitsOf r.disc.toNat 41 32 < 2 ^ 10 := Nat.mod_lt _ (by decide)
  have hpresent : bitsOf r.disc.toNat 31 24 < 2 ^ 8 := Nat.mod_lt _ (by decide)
  refine bitsOf_of_lt hi (lt_of_lt_of_le ?_ (Nat.pow_le_pow_right (by decide) hlo))
  exact Nat.or_lt_two_pow (by omega) (by omega)

theorem Dev.wordsMerged_disc (s : Dev) (links : List PartnerRead) : (s.wordsMerged links).links.disc =
    BitVec.ofNat 64 (links.foldl (fun w r => w ||| partnerWord r) (links.foldl (fun w r => w ||| partnerLink s.pos r) s.links.disc.toNat)) := by
  have hlink : (fun (w : Nat) (r : PartnerRead) => if gridNext s.pos (partnerAt r) then w ||| 2 ^ (32 + linkIndex s.pos (partnerAt r)) else w) =
      fun w r => w ||| partnerLink s.pos r := by
    funext w r
    unfold partnerLink
    split
    · rfl
    · rw [Nat.or_zero]
  have hword : (fun (w : Nat) (r : PartnerRead) => w ||| (bitsOf r.disc.toNat 41 32 * 2 ^ 32) ||| (bitsOf r.disc.toNat 31 24 * 2 ^ 24)) =
      fun w r => w ||| partnerWord r := by
    funext w r
    rw [partnerWord, Nat.or_assoc]
  rw [Dev.wordsMerged, hlink, hword]

theorem Dev.wordsMerged_field (s : Dev) (links : List PartnerRead) {hi : Nat} (lo : Nat) (hhi : hi < 64) :
    (s.wordsMerged links).discField hi lo = links.foldl (fun w r => w ||| bitsOf (partnerWord r) hi lo)
      (links.foldl (fun w r => w ||| bitsOf (partnerLink s.pos r) hi lo) (s.discField hi lo)) := by
  rw [Dev.discField, Dev.wordsMerged_disc, bitsOf_word lo hhi, bitsOf_foldl_or, bitsOf_foldl_or, Dev.discField]

theorem foldl_or_zero {α : Type} {f : α → Nat} {l : List α} (h : ∀ a, f a = 0) (w : Nat) : l.foldl (fun w a => w ||| f a) w = w := by
  induction l generalizing w with
  | nil => rfl
  | cons a l ih => rw [List.foldl_cons, h, Nat.or_zero, ih]

theorem Dev.wordsMerged_present (s : Dev) (links : List PartnerRead) : (s.wordsMerged links).discField 31 24 =
    links.foldl (fun w r => w ||| bitsOf r.disc.toNat 31 24) (s.discField 31 24) := by
  rw [s.wordsMerged_field links 24 (by decide), foldl_or_zero (partnerLink_present s.pos)]
  simp only [partnerWord_present]

theorem Dev.wordsMerged_high (s : Dev) (links : List PartnerRead) {hi lo : Nat} (hhi : hi < 64) (hlo : 60 ≤ lo) :
    (s.wordsMerged links).discField hi lo = s.discField hi lo := by
  rw [s.wordsMerged_field links lo hhi, foldl_or_zero (fun r => partnerLink_high s.pos_lt r hlo),
    foldl_or_zero (fun r => partnerWord_high r hlo)]

theorem Dev.roundChecked_other (s : Dev) (links : List PartnerRead) {hi lo : Nat} (h : hi < 60 ∨ 62 < lo) :
    (s.roundChecked links).discField hi lo = s.discField hi lo := by
  unfold Dev.roundChecked
  split
  · exact s.discField_discErr_other _ h
  · rfl

theorem Dev.roundChecked_of_err {s : Dev} (h : s.discField 62 60 ≠ 0) (links : List PartnerRead) : s.roundChecked links = s := by
  unfold Dev.roundChecked
  split
  · exact Dev.discErr_of_err h _
  · rfl

theorem Dev.errMerged_other (s : Dev) (links : List PartnerRead) {hi lo : Nat} (h : hi < 60 ∨ 62 < lo) :
    (s.errMerged links).discField hi lo = s.discField hi lo := by
  unfold Dev.errMerged
  dsimp only
  split
  · rfl
  · exact (Dev.discField_alert _ _ _ _).trans (s.discField_setDisc_other _ (by decide) (by decide) h)

theorem foldl_or_lt {α : Type} {f : α → Nat} {l : List α} {n : Nat} (h : ∀ a, f a < 2 ^ n) {w : Nat} (hw : w < 2 ^ n) :
    l.foldl (fun w a => w ||| f a) w < 2 ^ n := by
  induction l generalizing w with
  | nil => exact hw
  | cons a l ih => exact ih (Nat.or_lt_two_pow hw (h a))

theorem Dev.errMerged_err (s : Dev) (links : List PartnerRead) : (s.errMerged links).discField 62 60 =
    links.foldl (fun w r => w ||| bitsOf r.disc.toNat 62 60) (s.discField 62 60) := by
  have hlt : links.foldl (fun w r => w ||| bitsOf r.disc.toNat 62 60) (s.discField 62 60) < 2 ^ 3 :=
    foldl_or_lt (fun r => Nat.mod_lt _ (by decide)) (Nat.mod_lt _ (by decide))
  unfold Dev.errMerged
  dsimp only
  split
  next h => exact (beq_iff_eq.1 h).symm
  next => exact (Dev.discField_alert _ _ _ _).trans ((s.discField_setDisc _ (by decide) (by decide)).trans (Nat.mod_eq_of_lt hlt))

/-- What the merged words hold: the slices present and the errors are ORed, and STABLE is as it was. -/
theorem Dev.mergeWords_fields (s : Dev) (links : List PartnerRead) :
    (s.mergeWords links).discField 31 24 = links.foldl (fun w r => w ||| bitsOf r.disc.toNat 31 24) (s.discField 31 24) ∧
    (s.discField 62 60 ≠ 0 → (s.mergeWords links).discField 62 60 =
      links.foldl (fun w r => w ||| bitsOf r.disc.toNat 62 60) (s.discField 62 60)) := by
  obtain ⟨round, hrun⟩ := s.mergeWords_eq links
  rw [hrun]
  refine ⟨?_, fun herr => ?_⟩
  · rw [Dev.discField_setDisc_other _ _ (by decide) (by decide) (by decide), Dev.errMerged_other _ _ (by decide),
      Dev.roundChecked_other _ _ (by decide), Dev.wordsMerged_present]
  · have hkept := s.wordsMerged_high links (hi := 62) (lo := 60) (by decide) (by decide)
    rw [Dev.discField_setDisc_other _ _ (by decide) (by decide) (by decide), Dev.errMerged_err,
      Dev.roundChecked_of_err (ne_of_eq_of_ne hkept herr), hkept]

/-- A round that finds no slice counts, and changes nothing else. -/
theorem Dev.mergeWords_nil (s : Dev) : s.mergeWords [] = s.setDisc 59 48 (min 4095 (s.discField 59 48 + 1)) := by
  have hmerged : s.wordsMerged [] = s := by simp [Dev.wordsMerged]
  have hchecked : s.roundChecked [] = s := by simp [Dev.roundChecked, Dev.roundErr]
  have herr : s.errMerged [] = s := by simp [Dev.errMerged]
  have hrun : s.mergeWords [] = (((s.wordsMerged []).roundChecked []).errMerged []).setDisc 59 48
      (if (((s.wordsMerged []).roundChecked []).errMerged []).links.disc == s.links.disc
        then min 4095 ((((s.wordsMerged []).roundChecked []).errMerged []).discField 59 48 + 1) else 0) := rfl
  rw [hrun, hmerged, hchecked, herr, if_pos (beq_self_eq_true _)]

/-! ### The classes of the ports (R506) -/

/-- What stays as the ports are classed: the word, the phase, which ports are up, and that a port is a die link. -/
structure Classed (s t : Dev) : Prop where
  disc : t.links.disc = s.links.disc
  phase : t.phase = s.phase
  status : ∀ p, t.reg (R.pwkStatus p) = s.reg (R.pwkStatus p)
  die : ∀ p, (s.port p).dieLink = true → (t.port p).dieLink = true

namespace Classed

variable {s t u : Dev}

theorem refl (s : Dev) : Classed s s := ⟨rfl, rfl, fun _ => rfl, fun _ => id⟩

theorem trans (h : Classed s t) (g : Classed t u) : Classed s u where
  disc := g.disc.trans h.disc
  phase := g.phase.trans h.phase
  status p := (g.status p).trans (h.status p)
  die p hp := g.die p (h.die p hp)

theorem portUp (h : Classed s t) (p : Nat) : t.portUp p = s.portUp p := by
  rw [Dev.portUp, Dev.portUp, Dev.get_congr (f := F.pwkStatus_STATE p) (h.status p)]

theorem setCfg (h : Classed s t) (k v : Nat) : Classed s (t.setReg (R.pwkCfg k) v) :=
  h.trans ⟨rfl, rfl, fun p => t.reg_setReg_other _ _ _ (by simp only [R.pwkCfg, R.pwkStatus]; omega), fun _ => id⟩

end Classed

theorem Dev.port_updPort (s : Dev) (k p : Nat) (g : Port → Port) : (s.updPort k g).port p = if k = p then g (s.port k) else s.port p := by
  rw [Dev.port, Dev.updPort, tgetD, tget_tset]
  split
  · rfl
  · rfl

theorem Classed.updPort {s t : Dev} (h : Classed s t) (k : Nat) {g : Port → Port} (hg : ∀ x : Port, x.dieLink = true → (g x).dieLink = true) :
    Classed s (t.updPort k g) := by
  refine h.trans ⟨rfl, rfl, fun _ => rfl, fun p hp => ?_⟩
  rw [t.port_updPort]
  split
  next heq => exact hg _ (heq ▸ hp)
  next => exact hp

/-- A port's class by its partner's identity (R506). -/
def Dev.classPort (s : Dev) (e : PartnerRead × Nat) : Dev :=
  if !s.portUp e.2 then s.setReg (R.pwkCfg e.2) 0
  else if partnerSlice e.1 then
    ((s.setReg (R.pwkCfg e.2) (2 ^ 32 + partnerAt e.1 * 2 ^ 29))).updPort e.2 (fun x => { x with dieLink := true })
  else if e.1.trained then (s.setReg (R.pwkCfg e.2) (2 ^ 33)).updPort e.2 (fun x => { x with agentPort := true })
  else s.setReg (R.pwkCfg e.2) 0

theorem Dev.classPort_classed (s : Dev) (e : PartnerRead × Nat) : Classed s (s.classPort e) := by
  have h := fun v => (Classed.refl s).setCfg e.2 v
  unfold Dev.classPort
  split
  · exact h 0
  · split
    · exact (h _).updPort e.2 fun _ _ => rfl
    · split
      · exact (h _).updPort e.2 fun _ hx => hx
      · exact h 0

/-- A port that is up and has a slice for partner is a die link. -/
theorem Dev.classPort_die {s : Dev} {e : PartnerRead × Nat} (hup : s.portUp e.2 = true) (hslice : partnerSlice e.1 = true) :
    ((s.classPort e).port e.2).dieLink = true := by
  rw [Dev.classPort, hup, hslice, if_neg (by decide), if_pos rfl, Dev.port_updPort, if_pos rfl]

theorem Dev.classPorts_classed (s : Dev) (ps : List (PartnerRead × Nat)) : Classed s (s.classPorts ps) ∧
    ∀ e ∈ ps, s.portUp e.2 = true → partnerSlice e.1 = true → ((s.classPorts ps).port e.2).dieLink = true := by
  have hall : ∀ u : Dev, Classed u (u.each ps Dev.classPort) ∧
      ∀ e ∈ ps, u.portUp e.2 = true → partnerSlice e.1 = true → ((u.each ps Dev.classPort).port e.2).dieLink = true := by
    induction ps with
    | nil => exact fun u => ⟨Classed.refl u, fun e he => nomatch he⟩
    | cons a l ih =>
      intro u
      obtain ⟨hrest, hdie⟩ := ih (u.classPort a)
      refine ⟨(u.classPort_classed a).trans hrest, fun e he hup hslice => ?_⟩
      rcases List.mem_cons.1 he with rfl | he
      · exact hrest.die _ (Dev.classPort_die hup hslice)
      · exact hdie e he (((u.classPort_classed a).portUp _).trans hup) hslice
  exact hall s

/-! ### A round (R506 to R510) -/

/-- The words that a round merges: of the partners at ports that are up, by the classes before or after STABLE. -/
def Dev.roundLinks (s : Dev) (partners : List PartnerRead) : List PartnerRead :=
  ((partners.take 6).zipIdx.filter (fun e => s.portUp e.2 && partnerSlice e.1 &&
    (s.discField 63 63 == 0 || (s.port e.2).dieLink))).map Prod.fst

theorem Dev.stable_eq (s : Dev) : s.discField 63 63 = 0 ∨ s.discField 63 63 = 1 := by
  have h : s.discField 63 63 < 2 := Nat.mod_lt _ (by decide)
  omega

/-- The slice as a round merges the words: its ports are classed until STABLE. -/
theorem Dev.roundClassed (s : Dev) (partners : List PartnerRead) : ∃ u : Dev, Classed s u ∧
    (if s.discField 63 63 == 1 then s else s.classPorts (partners.take 6).zipIdx) = u ∧
    ((partners.take 6).zipIdx.filter (fun e => u.portUp e.2 && partnerSlice e.1 && (u.port e.2).dieLink)).map Prod.fst = s.roundLinks partners := by
  rcases s.stable_eq with hopen | hstable
  · obtain ⟨hclassed, hdie⟩ := s.classPorts_classed (partners.take 6).zipIdx
    refine ⟨_, hclassed, by rw [hopen]; rfl, ?_⟩
    rw [Dev.roundLinks, hopen]
    congr 1
    refine List.filter_congr fun e he => ?_
    rw [hclassed.portUp]
    by_cases hboth : s.portUp e.2 = true ∧ partnerSlice e.1 = true
    · rw [hboth.1, hboth.2, hdie e he hboth.1 hboth.2]
      rfl
    · have hnot : (s.portUp e.2 && partnerSlice e.1) = false := by simpa using hboth
      rw [hnot]
      rfl
  · exact ⟨s, Classed.refl s, by rw [hstable]; rfl, by rw [Dev.roundLinks, hstable]; rfl⟩

theorem Dev.discField_put (s : Dev) (f : Field) (v hi lo : Nat) : (s.put f v).discField hi lo = s.discField hi lo := rfl

theorem Dev.discField_phase (s : Dev) (ph : Phase) (hi lo : Nat) : ({ s with phase := ph } : Dev).discField hi lo = s.discField hi lo := rfl

/-- What the checks after STABLE leave of the word (R509, R510). -/
theorem Dev.discStable_fields (s : Dev) : s.discStable.discField 63 63 = 1 ∧
    ∀ {hi lo : Nat}, hi < 60 → s.discStable.discField hi lo = s.discField hi lo := by
  have hset : (s.setDisc 63 63 1).discField 63 63 = 1 := s.discField_setDisc 1 (by decide) (by decide)
  have hother : ∀ {hi lo : Nat}, hi < 60 → (s.setDisc 63 63 1).discField hi lo = s.discField hi lo :=
    fun h => s.discField_setDisc_other 1 (by decide) (by decide) (.inl (by omega))
  have herr := fun code => (s.setDisc 63 63 1).discField_discErr_other code (hi := 63) (lo := 63) (by decide)
  unfold Dev.discStable
  dsimp only
  split
  · exact ⟨(herr _).trans hset, fun h => ((s.setDisc 63 63 1).discField_discErr_other _ (.inl h)).trans (hother h)⟩
  · split
    · exact ⟨(herr _).trans hset, fun h => ((s.setDisc 63 63 1).discField_discErr_other _ (.inl h)).trans (hother h)⟩
    · have hroutes : ∀ hi lo, (Dev.normalRoutes { s.setDisc 63 63 1 with phase := .boot 10 }).discField hi lo =
          (s.setDisc 63 63 1).discField hi lo := fun hi lo => by rw [Dev.normalRoutes, Dev.discField_put, Dev.discField_phase]
      exact ⟨(hroutes _ _).trans hset, fun h => (hroutes _ _).trans (hother h)⟩

theorem Dev.discoveryRound_eq {s : Dev} (hphase : s.phase = .boot 9 ∨ s.phase = .lit ∨ s.phase = .dim) (partners : List PartnerRead) :
    ∃ u : Dev, Classed s u ∧ s.discoveryRound partners =
      if !(s.discField 63 63 == 1) && 8 ≤ (u.mergeWords (s.roundLinks partners)).discField 59 48 &&
        (u.mergeWords (s.roundLinks partners)).discField 62 60 == 0 then (u.mergeWords (s.roundLinks partners)).discStable
      else u.mergeWords (s.roundLinks partners) := by
  obtain ⟨u, hclassed, hu, hlinks⟩ := s.roundClassed partners
  refine ⟨u, hclassed, ?_⟩
  unfold Dev.discoveryRound
  dsimp only
  rw [hu, hlinks]
  rcases hphase with h | h | h
  · rw [h]; rfl
  · rw [h]; rfl
  · rw [h]; rfl

theorem Dev.discoveryTimeout_eq {s : Dev} (hphase : s.phase = .boot 9) (hopen : s.discField 63 63 = 0) (herr : s.discField 62 60 = 0) :
    s.discoveryTimeout = (s.setDisc 62 60 7).alert alertPwk := by
  simp [Dev.discoveryTimeout, Dev.discErr, hphase, hopen, herr]

theorem Dev.alert_setDisc (s : Dev) (hi lo v k : Nat) : (s.setDisc hi lo v).alert k =
    { s.alert k with links.disc := BitVec.ofNat 64 (withBits s.links.disc.toNat hi lo v) } := rfl

theorem foldl_or_ne_zero {α : Type} (f : α → Nat) (l : List α) {w : Nat} (hw : w ≠ 0) : l.foldl (fun w a => w ||| f a) w ≠ 0 := by
  induction l generalizing w with
  | nil => exact hw
  | cons a l ih => exact ih fun h => hw (Nat.or_eq_zero_iff.1 h).1

/-- What a round leaves of the slices present and of the errors (R508, R509). -/
theorem Dev.discoveryRound_fields {s : Dev} (hphase : s.phase = .boot 9 ∨ s.phase = .lit ∨ s.phase = .dim) (partners : List PartnerRead) :
    (s.discoveryRound partners).discField 31 24 =
      (s.roundLinks partners).foldl (fun w r => w ||| bitsOf r.disc.toNat 31 24) (s.discField 31 24) ∧
    (s.discField 62 60 ≠ 0 → (s.discoveryRound partners).discField 62 60 =
      (s.roundLinks partners).foldl (fun w r => w ||| bitsOf r.disc.toNat 62 60) (s.discField 62 60)) := by
  obtain ⟨u, hclassed, hrun⟩ := Dev.discoveryRound_eq hphase partners
  have hfield : ∀ hi lo, u.discField hi lo = s.discField hi lo := fun hi lo => by rw [Dev.discField, Dev.discField, hclassed.disc]
  obtain ⟨hpresent, herr⟩ := u.mergeWords_fields (s.roundLinks partners)
  rw [hfield] at hpresent
  rw [hfield 62 60] at herr
  rw [hrun]
  refine ⟨?_, fun hne => ?_⟩
  · split
    · exact ((u.mergeWords (s.roundLinks partners)).discStable_fields.2 (by decide)).trans hpresent
    · exact hpresent
  · have hbad := foldl_or_ne_zero (fun r => bitsOf r.disc.toNat 62 60) (s.roundLinks partners) hne
    rw [if_neg (by simp [herr hne, hbad])]
    exact herr hne

/-- A round that finds no slice is counted, and the eighth makes the word stable (R508). -/
theorem Dev.discoveryRound_unchanged {s : Dev} (hboot : s.phase = .boot 9) (hopen : s.discField 63 63 = 0) {partners : List PartnerRead}
    (hnone : s.roundLinks partners = []) (herr : s.discField 62 60 = 0) (hlt : s.discField 59 48 < 4095) :
    (s.discoveryRound partners).discField 59 48 = s.discField 59 48 + 1 ∧
      ((s.discoveryRound partners).discField 63 63 = 1 ↔ 7 ≤ s.discField 59 48) := by
  obtain ⟨u, hclassed, hrun⟩ := Dev.discoveryRound_eq (.inl hboot) partners
  have hfield : ∀ hi lo, u.discField hi lo = s.discField hi lo := fun hi lo => by rw [Dev.discField, Dev.discField, hclassed.disc]
  have hcount : (u.mergeWords []).discField 59 48 = s.discField 59 48 + 1 := by
    rw [u.mergeWords_nil, hfield, Dev.discField_setDisc _ _ (by decide) (by decide)]
    omega
  have hother : ∀ {hi lo : Nat}, 59 < lo → (u.mergeWords []).discField hi lo = s.discField hi lo := fun h => by
    rw [u.mergeWords_nil, Dev.discField_setDisc_other _ _ (by decide) (by decide) (.inr h), hfield]
  rw [hrun, hnone, hopen, hcount, hother (by decide), herr]
  by_cases height : 7 ≤ s.discField 59 48
  · obtain ⟨hstable, hkept⟩ := (u.mergeWords []).discStable_fields
    rw [if_pos (by simp; omega)]
    exact ⟨(hkept (by decide)).trans hcount, ⟨fun _ => height, fun _ => hstable⟩⟩
  · rw [if_neg (by simp; omega)]
    refine ⟨hcount, ?_⟩
    rw [hother (by decide), hopen]
    exact ⟨fun h => absurd h (by decide), fun h => absurd h height⟩

/-- Settles O59: a round by what it merges and counts, the time limit by its one branch. -/
theorem discoveryRuns : Obligations.DiscoveryRuns := by
  intro s hphase
  have hphase' : s.phase = .boot 9 ∨ s.phase = .lit ∨ s.phase = .dim := hphase.imp_right And.left
  refine ⟨fun partners => ⟨_, next_congr rfl, Dev.discoveryRound_fields hphase' partners, fun hboot hopen hnone herr hlt => ?_⟩,
    fun hboot hopen herr => next_congr ((Dev.discoveryTimeout_eq hboot hopen herr).trans (Dev.alert_setDisc _ _ _ _ _))⟩
  refine Dev.discoveryRound_unchanged hboot hopen ?_ herr hlt
  rw [Dev.roundLinks, List.filter_eq_nil_iff.2 fun e he => ?_, List.map_nil]
  simpa using fun hup hslice => absurd ⟨hup, hslice⟩ (hnone e he)

end Sys2Proof.Machine
end


section
/-! PROOFS. Entries of the reflection queue that end: the reads' answers, and a posted write that is lost. -/

namespace Sys2Proof.Machine

/-! ### An entry's data window -/

theorem Sector.sub_eq_bitsOf (x : Sector) (i : Nat) : Sector.sub x i = BitVec.ofNat 512 (bitsOf x.toNat (512 * i + 511) (512 * i)) := by
  have hwidth : 512 * i + 511 + 1 - 512 * i = 512 := by omega
  apply BitVec.eq_of_toNat_eq
  rw [Sector.sub, bitsOf, hwidth, BitVec.toNat_ofNat, BitVec.toNat_ofNat, Nat.mod_mod]

theorem Sector.toNat_put (y : Sector) {i : Nat} (hi : i < 4) (x : Sub) :
    (Sector.put y i x).toNat = withBits y.toNat (512 * i + 511) (512 * i) x.toNat := by
  rw [Sector.put, BitVec.toNat_ofNat]
  exact Nat.mod_eq_of_lt (withBits_lt (by omega) (by omega) y.isLt)

/-- A sub-block that is put leaves the others. -/
theorem Sector.sub_put_other (y : Sector) {i j : Nat} (hi : i < 4) (h : i ≠ j) (x : Sub) : Sector.sub (Sector.put y i x) j = Sector.sub y j := by
  rw [Sector.sub_eq_bitsOf, Sector.sub_eq_bitsOf, Sector.toNat_put y hi]
  rcases Nat.lt_or_gt_of_ne h with h | h
  · rw [bitsOf_withBits_above _ _ _ _ _ _ (by omega) (by omega)]
  · rw [bitsOf_withBits_below _ _ _ _ _ _ (by omega) (by omega)]

/-- The sector of an entry's window. -/
def Dev.windowSector (s : Dev) (e : Nat) : Sector := (List.range 4).foldl (fun (a : Sector) k => Sector.put a k (s.windowSub e k)) 0

theorem Dev.windowSector_sub (s : Dev) (e : Nat) {k : Nat} (hk : k < 4) : Sector.sub (s.windowSector e) k = s.windowSub e k := by
  have hrange : List.range 4 = [0, 1, 2, 3] := rfl
  rw [Dev.windowSector, hrange]
  simp only [List.foldl_cons, List.foldl_nil]
  obtain rfl | rfl | rfl | rfl : k = 0 ∨ k = 1 ∨ k = 2 ∨ k = 3 := by omega
  · rw [Sector.sub_put_other _ (by decide) (by decide), Sector.sub_put_other _ (by decide) (by decide),
      Sector.sub_put_other _ (by decide) (by decide), Sector.sub_put _ (by decide)]
  · rw [Sector.sub_put_other _ (by decide) (by decide), Sector.sub_put_other _ (by decide) (by decide), Sector.sub_put _ (by decide)]
  · rw [Sector.sub_put_other _ (by decide) (by decide), Sector.sub_put _ (by decide)]
  · rw [Sector.sub_put _ (by decide)]

/-! ### The end of an entry that fills nothing (R654, R657) -/

/-- The slice with an entry of the queue freed. -/
def Dev.freed (s : Dev) (i : Nat) : Dev := { s with rfl_.queue := tdel s.rfl_.queue i }

theorem Dev.rflFree_of_no_pods {s : Dev} (h : s.cache.pods = []) (i : Nat) : s.rflFree i = s.freed i := by
  have hcache : ({ s.cache with pods := [] } : Cache) = s.cache := by rw [← h]
  rw [Dev.rflFree, h, List.map_nil, hcache, Dev.freed]

theorem Dev.podRun_of_no_pods {s : Dev} (h : s.cache.pods = []) : s.podRun = s := by
  have hcache : ({ s.cache with pods := [] } : Cache) = s.cache := by rw [← h]
  rw [Dev.podRun, h]
  simp [hcache]

/-- An entry that fills nothing and that no one waits for ends. -/
theorem Dev.rflEnd_unawaited {s : Dev} {i : Nat} {e : RflEntry} (he : tget s.rfl_.queue i = some e) (hfills : e.fills = false)
    (hnone : e.waiters = []) (hpods : s.cache.pods = []) (c : Code) : s.rflEnd i c = (s.freed i).freeHues := by
  rw [Dev.rflEnd, he]
  simp only [hfills, hnone, Bool.false_eq_true, if_false, Dev.each_nil]
  rw [Dev.rflFree_of_no_pods hpods, Dev.podRun_of_no_pods (s := (s.freed i).freeHues) hpods]

/-- Where the granules of a request lie hangs on the fuses, and on the registers of the topology. -/
theorem Dev.placeOf_of_registers {s u : Dev} (hfuse : u.fuse = s.fuse) (hstrap : u.reg R.rstStrap = s.reg R.rstStrap)
    (hconfig : u.reg R.shdConfig = s.reg R.shdConfig) (hstatus : u.reg R.shdStatus = s.reg R.shdStatus) (e : ReqEntry) (i : Nat) :
    u.placeOf e i = s.placeOf e i := by
  have hset : u.setSize = s.setSize := Dev.get_congr hconfig
  cases hplain : e.rgn.reflection with
  | false => exact Dev.placeOf_congr hplain hfuse hstrap hconfig hstatus i
  | true => simp [Dev.placeOf, Dev.reflPlace, hplain, hset, hfuse]

/-- The answer to a direct read of one 64 B. -/
def directAnswer (s : Dev) (i : Nat) (q : ReqEntry) (c : Code) : Msg :=
  .resp q.r.src q.r.txid 0 [c] q.grant 0 [if c = .ok then s.windowSub i (s.placeOf q 0).sub else 0]

/-- An entry of one 64 B, of a request that takes one answer, once that answer is given. -/
theorem pulledEntry_answered {id n : Nat} {g : Region} {op : Op} {r : Request} (hlen : r.len = 0) (hurgent : r.urgent = false)
    (hview : r.view = 0) {c : Code} (hc : c ≠ .nak) (x : Sub) (dat : Bool) :
    ({ pulledEntry id g op r n with codes := (pulledEntry id g op r n).codes.set 0 (some c)
                                    data := (pulledEntry id g op r n).data.set 0 x, onDat := dat } : ReqEntry).Answered c x where
  n := by simp [pulledEntry, hlen]
  sent := rfl
  view := hview
  urgent := hurgent
  codes := by simp [pulledEntry, hlen]
  data := by simp [pulledEntry, hlen]
  notNak := hc

/-- A direct read of one 64 B, the lone request, is answered as its entry ends. -/
theorem Dev.rflEnd_direct {s : Dev} {i : Nat} {e : RflEntry} {q : ReqEntry} (he : tget s.rfl_.queue i = some e) (hfills : e.fills = false)
    (hwait : e.waiters = [(q.id, 0)]) (hpods : s.cache.pods = []) (hreqs : s.cache.reqs = [q]) (c : Code)
    (hans : ∀ (x : Sub) (dat : Bool), ({ q with codes := q.codes.set 0 (some c), data := q.data.set 0 x, onDat := dat } : ReqEntry).Answered c x)
    (hfence : s.fenced q.r.src.toNat = false) (htxns : s.cache.txns = []) : s.rflEnd i c =
      Dev.freeHues { s.freed i with cache.reqs := [], outbox := s.outbox ++ [directAnswer s i q c] } := by
  have hreqs' : (s.freed i).cache.reqs = [q] := hreqs
  have hplace : (s.freed i).placeOf q 0 = s.placeOf q 0 := Dev.placeOf_of_registers rfl rfl rfl rfl q 0
  have hx : Sector.sub (s.windowSector i) (s.placeOf q 0).sub = s.windowSub i (s.placeOf q 0).sub :=
    s.windowSector_sub i (Place.sub_lt _)
  have hdata : ∀ d : Sub, codeData c d = if c = .ok then d else 0 := by
    intro d
    simp [codeData]
  rw [Dev.rflEnd, he]
  simp only [hfills, hwait, Bool.false_eq_true, if_false, Dev.each_cons, Dev.each_nil]
  rw [Dev.rflFree_of_no_pods hpods, Dev.req_of_lone hreqs']
  simp only []
  rw [Dev.finish_of_lone hreqs' (hans _ _) hfence (Dev.none_leaving htxns), Dev.podRun_of_no_pods]
  · rw [hplace]
    simp only [Option.isSome_some, Bool.or_true, if_true, Option.getD_some, hdata, directAnswer, ← hx, Dev.windowSector]
    rfl
  · exact hpods

/-- Registers bear on no work under way. -/
theorem Dev.RegsChange.noMoreWork {s u : Dev} {P : Nat → Prop} (h : s.RegsChange u P) (hstrap : ¬ P R.rstStrap) : NoMoreWork s u := by
  obtain ⟨⟨c, rfl⟩, hregs⟩ := h
  have hpos : ({ s with csr := c } : Dev).pos = s.pos := by rw [Dev.pos, Dev.pos, Dev.get_congr (hregs _ hstrap)]
  exact { NoMoreWork.refl s with pos := hpos }

/-- An entry freed, a request answered and the hues freed bear on no work under way. -/
theorem Dev.freed_noMoreWork (s : Dev) (i : Nat) (reqs : List ReqEntry) (out : List Msg) : NoMoreWork s
    (Dev.freeHues { s.freed i with cache.reqs := reqs, outbox := out }) :=
  { NoMoreWork.refl s with }

theorem Dev.freed_settle {s : Dev} (hq : s.quiet = true) (i : Nat) : (Dev.freeHues (s.freed i)).settle = Dev.freeHues (s.freed i) :=
  (s.freed_noMoreWork i s.cache.reqs s.outbox).settle hq

/-- A direct read's entry ends once RFL_ERR may have taken the reason: its requester is answered, and the slice settles. -/
theorem Dev.rflEnd_answers {s u : Dev} (hu : s.RegsChange u (· = R.rflErr)) (hq : s.quiet = true) {i : Nat} {e : RflEntry} {q : ReqEntry}
    (he : tget s.rfl_.queue i = some e) (hfills : e.fills = false) (hwait : e.waiters = [(q.id, 0)]) (hpods : s.cache.pods = [])
    (hreqs : s.cache.reqs = [q]) (c : Code)
    (hans : ∀ (x : Sub) (dat : Bool), ({ q with codes := q.codes.set 0 (some c), data := q.data.set 0 x, onDat := dat } : ReqEntry).Answered c x)
    (hfence : s.fenced q.r.src.toNat = false) : ∃ hues, (u.rflEnd i c).settle = { s with
      csr := u.csr, outbox := s.outbox ++ [directAnswer s i q c], cache.reqs := [], rfl_.queue := tdel s.rfl_.queue i
      rfl_.hues := hues } := by
  have hquiet : u.quiet = true := (hu.noMoreWork (by decide)).quiet hq
  obtain ⟨⟨cs, hu⟩, hregs⟩ := hu
  have hstrap : u.reg R.rstStrap = s.reg R.rstStrap := hregs _ (by decide)
  have hplace : u.placeOf q 0 = s.placeOf q 0 :=
    Dev.placeOf_of_registers (by rw [hu]) hstrap (hregs _ (by decide)) (hregs _ (by decide)) q 0
  have hwindow : ∀ k, u.windowSub i k = s.windowSub i k := fun k => by rw [hu]; rfl
  have hanswer : directAnswer u i q c = directAnswer s i q c := by rw [directAnswer, directAnswer, hplace, hwindow]
  have hfence' : u.fenced q.r.src.toNat = false := (Dev.fenced_congr (hregs _ (by decide)) _).trans hfence
  rw [Dev.rflEnd_direct (s := u) (by rw [hu]; exact he) hfills hwait (by rw [hu]; exact hpods) (by rw [hu]; exact hreqs) c hans hfence'
    (Dev.txns_of_quiet hquiet), hanswer, (u.freed_noMoreWork i [] _).settle hquiet]
  refine ⟨(Dev.freeHues (u.freed i)).rfl_.hues, ?_⟩
  rw [hu]
  rfl

/-- The reason that an entry's end leaves in RFL_ERR, if any (R654, R657, R667). -/
def Dev.rflReason (s : Dev) : Option Field → Dev
  | none => s
  | some f => s.raise f

theorem Dev.rflReason_change (s : Dev) {o : Option Field} (h : ∀ f ∈ o, f.off = R.rflErr) :
    s.RegsChange (s.rflReason o) (· = R.rflErr) := by
  cases o with
  | none => exact .refl s
  | some f => exact (Dev.RegsChange.refl s).put f 1 (h f rfl)

/-- A direct read ends with the code, and the reason, of what came of it (R654, R657). -/
theorem exec_rflRead {i : BitVec 8} {e : RflEntry} {s : State} (he : tget s.rfl_.queue i.toNat = some e) (hread : e.write = false)
    {c : Instr} {code : Code} (hc : (c, code) ∈ [(Instr.rflDoneOk i, Code.ok), (.rflDonePoison i, .poison), (.rflDoneDeny i, .deny),
      (.rflEntryTimeout i, .poison)]) :
    ∃ o : Option Field, (∀ f ∈ o, f.off = R.rflErr) ∧ code ≠ .nak ∧
      exec c s = .next { s with toDev := ((s.rflReason o).rflEnd i.toNat code).settle } ∧
      (c = .rflDonePoison i → o = some F.rflErr_REMOTE_POISON) ∧ (c = .rflEntryTimeout i → o = some F.rflErr_READ_TIMEOUT) := by
  simp only [List.mem_cons, Prod.mk.injEq, List.not_mem_nil, or_false] at hc
  have hsome : (tget s.rfl_.queue i.toNat).isNone = false := by rw [he]; rfl
  have hok : s.rflDone i.toNat 0 = s.rflEnd i.toNat .ok := by
    simp [Dev.rflDone, hsome]
  have hpoison : s.rflDone i.toNat 1 = (s.raise F.rflErr_REMOTE_POISON).rflEnd i.toNat .poison := by
    simp [Dev.rflDone, hsome]
  have hdeny : s.rflDone i.toNat 2 = s.rflEnd i.toNat .deny := by
    simp [Dev.rflDone, hsome]
  have htimeout : s.rflTimeout i.toNat = (s.raise F.rflErr_READ_TIMEOUT).rflEnd i.toNat .poison := by
    rw [Dev.rflTimeout, he]
    simp only [hread, Bool.false_eq_true, if_false]
  obtain ⟨rfl, rfl⟩ | ⟨rfl, rfl⟩ | ⟨rfl, rfl⟩ | ⟨rfl, rfl⟩ := hc
  · exact ⟨none, by simp, by decide, next_congr (congrArg Dev.settle hok), by simp, by simp⟩
  · exact ⟨some F.rflErr_REMOTE_POISON, by simp; rfl, by decide, next_congr (congrArg Dev.settle hpoison), by simp, by simp⟩
  · exact ⟨none, by simp, by decide, next_congr (congrArg Dev.settle hdeny), by simp, by simp⟩
  · exact ⟨some F.rflErr_READ_TIMEOUT, by simp; rfl, by decide, next_congr (congrArg Dev.settle htimeout), by simp, by simp⟩

/-- A sticky bit that is raised reads 1. -/
theorem Dev.get_raise (s : Dev) (f : Field) (hlo : f.lo = f.hi) (hhi : f.hi < 64) : (s.raise f).get f = 1 := by
  have hwidth : f.hi + 1 - f.lo = 1 := by omega
  rw [Dev.raise, Dev.get_put_of_ne_zero s f 1 (by omega) hhi (by rw [hwidth]; decide), hwidth]
  rfl

/-! ### An alert, and an error record (R784, R785, R792) -/

theorem bitAt_eq_testBit (w k : Nat) : bitAt w k = w.testBit k := by
  rw [bitAt, Nat.testBit_eq_decide_div_mod_eq, Nat.shiftRight_eq_div_pow]
  rfl

/-- A source that asserts ALERT_N stands in GNM_ALERT. -/
theorem Dev.alert_bit (s : Dev) {k : Nat} (hk : k < 64) : bitAt ((s.alert k).reg R.gnmAlert) k = true := by
  have hbit : (s.reg R.gnmAlert ||| 2 ^ k).testBit k = true := by simp
  have hlt : (s.reg R.gnmAlert ||| 2 ^ k) < 2 ^ 64 := Nat.or_lt_two_pow (s.reg_lt _) (Nat.pow_lt_pow_right (by decide) hk)
  have hne : (s.reg R.gnmAlert ||| 2 ^ k) ≠ 0 := fun h => by simp [h] at hbit
  rw [Dev.alert, Dev.reg_setReg_of_ne_zero _ _ _ (by rwa [Nat.mod_eq_of_lt hlt]), Nat.mod_eq_of_lt hlt, bitAt_eq_testBit, hbit]

theorem Dev.RegsChange.alert {s t : Dev} {P : Nat → Prop} (h : s.RegsChange t P) (k : Nat) (hP : P R.gnmAlert) :
    s.RegsChange (t.alert k) P := by
  rw [Dev.alert]
  exact h.setReg R.gnmAlert _ hP

theorem Dev.get_alert (s : Dev) (k : Nat) {f : Field} (h : R.gnmAlert ≠ f.off) : (s.alert k).get f = s.get f := by
  rw [Dev.alert]
  exact Dev.get_congr (s.reg_setReg_other _ _ _ h)

theorem Dev.reg_withGlow (s : Dev) (m : Memory) (off : Nat) : ({ s with afterglow := m } : Dev).reg off = s.reg off := rfl

theorem Dev.glow_noMoreWork (s : Dev) (m : Memory) : NoMoreWork s { s with afterglow := m } := { NoMoreWork.refl s with }

/-- Of the registers an error record touches RST_AG3 and GNM_ALERT alone (R784, R792). -/
def recordReg (off : Nat) : Prop := off = R.rstAg3 ∨ off = R.gnmAlert

/-- The afterglow memory once an error record is written (R784, R785). -/
def Dev.recorded (s : Dev) (type unit addr info n : Nat) : Memory :=
  memWrite s.afterglow (32 * s.get F.rstAg3_HEAD) 32 (errorRecordValue type unit s.frameNo addr info n)

/-- The slice once RST_AG3 has gone on past a record. -/
def Dev.recordPut (s : Dev) (type unit addr info n : Nat) : Dev :=
  (({ s with afterglow := s.recorded type unit addr info n } : Dev).put F.rstAg3_HEAD (s.get F.rstAg3_HEAD + 1)).put F.rstAg3_COUNT
    (min 256 (s.get F.rstAg3_COUNT + 1))

theorem Dev.errorRecord_eq (s : Dev) (type unit addr info n : Nat) : s.errorRecord type unit addr info n =
    match recordAlert type with
    | some a => (s.recordPut type unit addr info n).alert a
    | none => s.recordPut type unit addr info n := rfl

theorem Dev.errorRecord_change (s : Dev) (type unit addr info n : Nat) :
    ({ s with afterglow := s.recorded type unit addr info n } : Dev).RegsChange (s.errorRecord type unit addr info n) recordReg := by
  have hput : ({ s with afterglow := s.recorded type unit addr info n } : Dev).RegsChange (s.recordPut type unit addr info n) recordReg :=
    ((Dev.RegsChange.refl _).put _ _ (.inl rfl)).put _ _ (.inl rfl)
  rw [Dev.errorRecord_eq]
  cases recordAlert type with
  | none => exact hput
  | some a => exact hput.alert a (.inr rfl)

/-! ### A posted write that is lost (R657, R672, R786) -/

/-- The slice once RFL_ERR, ALERT_N and a record tell that a posted write is lost. -/
def Dev.writeLost (s : Dev) (addr i : Nat) : Dev := ((s.raise F.rflErr_WRITE_LOST).alert alertRfl).errorRecord 0x0D s.pos addr i

theorem Dev.writeLost_eq (s : Dev) (addr i : Nat) : s.writeLost addr i =
    (((s.raise F.rflErr_WRITE_LOST).alert alertRfl).recordPut 0x0D s.pos addr i 1).alert alertRfl := by
  have halert : recordAlert 0x0D = some alertRfl := rfl
  rw [Dev.writeLost, Dev.errorRecord_eq, halert]

theorem Dev.writeLost_tells (s : Dev) (addr i : Nat) :
    (s.writeLost addr i).get F.rflErr_WRITE_LOST = 1 ∧ bitAt ((s.writeLost addr i).reg R.gnmAlert) alertRfl = true := by
  refine ⟨?_, by rw [Dev.writeLost_eq]; exact Dev.alert_bit _ (by decide)⟩
  have hreg : ¬ recordReg F.rflErr_WRITE_LOST.off := by rw [recordReg]; decide
  have hrec := Dev.get_congr (((((s.raise F.rflErr_WRITE_LOST).alert alertRfl).errorRecord_change 0x0D s.pos addr i 1).2 _ hreg).trans
    (Dev.reg_withGlow _ _ _))
  have halert := (s.raise F.rflErr_WRITE_LOST).get_alert alertRfl (f := F.rflErr_WRITE_LOST) (by decide)
  rw [Dev.writeLost, hrec]
  exact halert.trans (s.get_raise F.rflErr_WRITE_LOST rfl (by decide))

theorem Dev.writeLost_change (s : Dev) (addr i : Nat) :
    ({ s with afterglow := s.recorded 0x0D s.pos addr i 1 } : Dev).RegsChange
      (s.writeLost addr i) fun off => off = R.rflErr ∨ off = R.rstAg3 ∨ off = R.gnmAlert := by
  have hhead : ((s.raise F.rflErr_WRITE_LOST).alert alertRfl).get F.rstAg3_HEAD = s.get F.rstAg3_HEAD := by
    rw [Dev.get_alert _ _ (by decide), Dev.raise, s.get_put_other _ _ _ (by decide)]
  generalize hu : (s.raise F.rflErr_WRITE_LOST).alert alertRfl = u at hhead ⊢
  have htold : s.RegsChange u fun off => off = R.rflErr ∨ off = R.rstAg3 ∨ off = R.gnmAlert := by
    rw [← hu]
    exact ((Dev.RegsChange.refl s).put F.rflErr_WRITE_LOST 1 (.inl rfl)).alert alertRfl (.inr (.inr rfl))
  obtain ⟨⟨cs, hcs⟩, hregs⟩ := htold
  obtain ⟨⟨cs', hcs'⟩, hregs'⟩ := u.errorRecord_change 0x0D s.pos addr i 1
  have hframe : u.frameNo = s.frameNo := Dev.get_congr (hregs _ (by decide))
  have hglow : u.recorded 0x0D s.pos addr i 1 = s.recorded 0x0D s.pos addr i 1 := by
    rw [Dev.recorded, Dev.recorded, hhead, hframe, hcs]
  rw [Dev.writeLost, hu]
  rw [hglow] at hcs' hregs'
  refine ⟨⟨cs', ?_⟩, fun off hoff => ?_⟩
  · rw [hcs', hcs]
  · exact (hregs' off fun h => hoff (.inr h)).trans ((u.reg_withGlow _ off).trans ((hregs off hoff).trans (s.reg_withGlow _ off).symm))

/-- What an entry freed leaves of a slice whose registers and afterglow memory may have changed. -/
theorem Dev.freed_parts {s w : Dev} {cs : SMap Word} {m : Memory} (hw : w = { ({ s with afterglow := m } : Dev) with csr := cs }) (i : Nat) :
    (Dev.freeHues (w.freed i)).rfl_.queue = tdel s.rfl_.queue i ∧ (Dev.freeHues (w.freed i)).afterglow = m ∧
    Dev.freeHues (w.freed i) = { s with
      csr := (Dev.freeHues (w.freed i)).csr, afterglow := (Dev.freeHues (w.freed i)).afterglow
      rfl_.queue := (Dev.freeHues (w.freed i)).rfl_.queue, rfl_.hues := (Dev.freeHues (w.freed i)).rfl_.hues } := by
  subst hw
  exact ⟨rfl, rfl, rfl⟩

theorem Dev.reg_freed (w : Dev) (i off : Nat) : (Dev.freeHues (w.freed i)).reg off = w.reg off := rfl

/-- The entry of a posted write that is not done in time is freed once its loss is told. -/
theorem Dev.rflTimeout_write {s : Dev} {i : Nat} {e : RflEntry} (he : tget s.rfl_.queue i = some e) (hwrite : e.write = true)
    (hfills : e.fills = false) (hnone : e.waiters = []) (hpods : s.cache.pods = []) :
    s.rflTimeout i = Dev.freeHues ((s.writeLost e.addr.toNat i).freed i) := by
  obtain ⟨⟨cs, hcs⟩, -⟩ := s.writeLost_change e.addr.toNat i
  have hrun : s.rflTimeout i = (s.writeLost e.addr.toNat i).rflEnd i .poison := by
    rw [Dev.rflTimeout, he]
    simp only [hwrite, if_true, Dev.writeLost]
  rw [hrun, Dev.rflEnd_unawaited (e := e) (by rw [hcs]; exact he) hfills hnone (by rw [hcs]; exact hpods)]

/-- Settles O60: of a read, the answer to its lone request as its entry ends; of a posted write, what tells of its loss. -/
theorem reflectionsEnd : Obligations.ReflectionsEnd := by
  refine ⟨fun c code i e id n r s hc hq he hread hfills hwait hreqs hlen hurgent hview hfence hpods => ?_,
    fun i e s hq he hwrite hfills hnone hpods => ?_⟩
  · obtain ⟨o, ho, hcode, hexec, hpoison, htimeout⟩ := exec_rflRead he hread hc
    have hchange := s.rflReason_change ho
    obtain ⟨hues, hsettled⟩ := Dev.rflEnd_answers hchange hq he hfills hwait hpods hreqs code
      (pulledEntry_answered hlen hurgent hview hcode) hfence
    rw [hsettled] at hexec
    refine ⟨_, hexec, rfl, rfl, fun h => ?_, fun h => ?_, fun off hoff _ => hchange.2 off fun h => hoff (by rw [h]; exact List.mem_singleton_self _), rfl⟩
    · refine Eq.trans ?_ (s.get_raise F.rflErr_REMOTE_POISON rfl (by decide))
      rw [hpoison h]
      rfl
    · refine Eq.trans ?_ (s.get_raise F.rflErr_READ_TIMEOUT rfl (by decide))
      rw [htimeout h]
      rfl
  · obtain ⟨⟨cs, hcs⟩, hregs⟩ := s.writeLost_change e.addr.toNat i.toNat
    obtain ⟨hlost, halert⟩ := s.writeLost_tells e.addr.toNat i.toNat
    have hquiet : (s.writeLost e.addr.toNat i.toNat).quiet = true :=
      (((s.glow_noMoreWork _).trans ((s.writeLost_change e.addr.toNat i.toNat).noMoreWork (by decide))).quiet hq)
    have hexec : exec (.rflEntryTimeout i) s = .next { s with toDev := Dev.freeHues ((s.writeLost e.addr.toNat i.toNat).freed i.toNat) } :=
      next_congr ((congrArg Dev.settle (Dev.rflTimeout_write he hwrite hfills hnone hpods)).trans
        (Dev.freed_settle hquiet i.toNat))
    obtain ⟨hqueue, hglow, hrest⟩ := Dev.freed_parts hcs i.toNat
    refine ⟨_, hexec, hqueue, (Dev.get_congr (Dev.reg_freed _ _ _)).trans hlost, ?_, hglow,
      congrArg (fun d : Dev => ({ s with toDev := d } : State)) hrest⟩
    rw [Dev.reg_freed]
    exact halert

end Sys2Proof.Machine
end


section
/-! PROOFS. A counter that no occurrence reaches, in a register file that keeps its register twice. -/

namespace Sys2Proof.Machine

/-- A slice whose register file keeps counter 0 of group 0 twice: 0, which is read, and 5 behind it. -/
def doubledCounter : State := { pairedSlice with csr := [((F.cntVal_VALUE 0 0).off, 0), ((F.cntVal_VALUE 0 0).off, 5)] }

/-- The counter reads 0; the 0 that is written back takes the first of the two off, and the second is read. -/
theorem doubledCounter_reads : doubledCounter.get (F.cntVal_VALUE 0 0) = 0 ∧
    (doubledCounter.countAdd 0 0 0).get (F.cntVal_VALUE 0 0) = 5 := by decide +kernel

/-- Refutes O10, by its clause of the counters, which has no premise that the register file is canonical: where a counter's register is
kept twice, a count of nothing changes what it reads. -/
theorem not_countersAndRecordsAreKept : ¬ Obligations.CountersAndRecordsAreKept := by
  rintro ⟨h, -⟩
  obtain ⟨hcount, -⟩ := h doubledCounter 0 0 0 (by decide) (by decide)
  obtain ⟨hzero, hfive⟩ := doubledCounter_reads
  rw [hzero, hfive] at hcount
  exact absurd hcount (by decide)

end Sys2Proof.Machine
end


section
/-! PROOFS. A slice that is held lost, and what is not heard from it. -/

namespace Sys2Proof.Machine

/-! ### What the holding of a slice leaves (R617, R619, R637, R638) -/

/-- The registers say that slice x is held lost. -/
structure Dev.SaysLost (t : Dev) (x : Nat) : Prop where
  lost : t.isLost x = true
  state : t.get F.shdStatus_STATE = 1
  err : t.get F.shdErr_SLICE_LOST = 1

theorem Dev.SaysLost.congr {t u : Dev} {x : Nat} (h : t.SaysLost x) (hstatus : u.reg R.shdStatus = t.reg R.shdStatus)
    (herr : u.reg R.shdErr = t.reg R.shdErr) : u.SaysLost x where
  lost := by rw [Dev.isLost, Dev.get_congr hstatus]; exact h.lost
  state := (Dev.get_congr hstatus).trans h.state
  err := (Dev.get_congr herr).trans h.err

theorem Dev.SaysLost.put {t : Dev} {x : Nat} (h : t.SaysLost x) (f : Field) (v : Nat) (hstatus : f.off ≠ R.shdStatus)
    (herr : f.off ≠ R.shdErr) : (t.put f v).SaysLost x :=
  h.congr (t.reg_setReg_other f.off _ _ hstatus) (t.reg_setReg_other f.off _ _ herr)

/-- What is under way in the slice, and what it holds of memory, image and topology, stays. -/
structure Dev.Stands (s t : Dev) : Prop where
  cache : t.cache = s.cache
  stack : t.stack = s.stack
  img : t.img = s.img
  regions : t.regions = s.regions
  lens : t.lens = s.lens
  fuse : t.fuse = s.fuse
  parity : t.shadow.parity = s.shadow.parity
  ports : t.shadow.ports = s.shadow.ports

namespace Dev.Stands

theorem refl (s : Dev) : s.Stands s := ⟨rfl, rfl, rfl, rfl, rfl, rfl, rfl, rfl⟩

theorem trans {s t u : Dev} (h : s.Stands t) (h' : t.Stands u) : s.Stands u :=
  ⟨h'.cache.trans h.cache, h'.stack.trans h.stack, h'.img.trans h.img, h'.regions.trans h.regions, h'.lens.trans h.lens,
    h'.fuse.trans h.fuse, h'.parity.trans h.parity, h'.ports.trans h.ports⟩

end Dev.Stands

theorem Dev.RegsChange.stands {s t : Dev} {P : Nat → Prop} (h : s.RegsChange t P) : s.Stands t := by
  obtain ⟨⟨c, rfl⟩, -⟩ := h
  exact ⟨rfl, rfl, rfl, rfl, rfl, rfl, rfl, rfl⟩

/-- SHD_STATUS holds slice x lost, and takeover has begun. -/
def Dev.statusLost (s : Dev) (x : Nat) : Dev :=
  (s.put F.shdStatus_LOST (s.get F.shdStatus_LOST ||| 2 ^ x)).put F.shdStatus_STATE 1

theorem Dev.get_lt (s : Dev) (f : Field) : s.get f < 2 ^ (f.hi + 1 - f.lo) := Nat.mod_lt _ (Nat.two_pow_pos _)

theorem Dev.statusLost_fields (s : Dev) {x : Nat} (hx : x < 8) :
    (s.statusLost x).isLost x = true ∧ (s.statusLost x).get F.shdStatus_STATE = 1 := by
  have hbit : (s.get F.shdStatus_LOST ||| 2 ^ x).testBit x = true := by simp
  have hlt : (s.get F.shdStatus_LOST ||| 2 ^ x) < 2 ^ 8 := Nat.or_lt_two_pow (s.get_lt F.shdStatus_LOST) (Nat.pow_lt_pow_right (by decide) hx)
  have hmod : (s.get F.shdStatus_LOST ||| 2 ^ x) % 2 ^ (F.shdStatus_LOST.hi + 1 - F.shdStatus_LOST.lo) = s.get F.shdStatus_LOST ||| 2 ^ x :=
    Nat.mod_eq_of_lt hlt
  have hne : (s.get F.shdStatus_LOST ||| 2 ^ x) ≠ 0 := fun h => by simp [h] at hbit
  have hlost := s.get_put_of_ne_zero F.shdStatus_LOST (s.get F.shdStatus_LOST ||| 2 ^ x) (by decide) (by decide) (by rwa [hmod])
  rw [hmod] at hlost
  have hset : (s.put F.shdStatus_LOST (s.get F.shdStatus_LOST ||| 2 ^ x)).get F.shdStatus_LOST ≠ 0 := by rwa [hlost]
  refine ⟨?_, Dev.get_put_beside (g := F.shdStatus_LOST) 1 rfl (by decide) (by decide) (.inr (by decide)) hset⟩
  rw [Dev.isLost, Dev.statusLost, Dev.get_put_kept (f := F.shdStatus_STATE) (g := F.shdStatus_LOST) (k := F.shdStatus_LOST) 1 rfl
    (by decide) (by decide) (.inr (by decide)) hset rfl (.inr (by decide)), hlost,
    bitAt_eq_testBit, hbit]

theorem Dev.reg_raise (s : Dev) (f : Field) {off : Nat} (h : f.off ≠ off) : (s.raise f).reg off = s.reg off :=
  s.reg_setReg_other _ _ _ h

theorem Dev.reg_alert (s : Dev) (k : Nat) {off : Nat} (h : R.gnmAlert ≠ off) : (s.alert k).reg off = s.reg off :=
  s.reg_setReg_other _ _ _ h

/-- The slice once SHD_STATUS, SHD_ERR, ALERT_N and a record tell that slice x is lost. -/
def Dev.lossNoted (s : Dev) (x : Nat) : Dev := (((s.statusLost x).raise F.shdErr_SLICE_LOST).alert alertShd).errorRecord 0x0B x 0 0

theorem Dev.withGlow_stands (s : Dev) (m : Memory) : s.Stands { s with afterglow := m } := ⟨rfl, rfl, rfl, rfl, rfl, rfl, rfl, rfl⟩

theorem Dev.errorRecord_reg (s : Dev) (type unit addr info n : Nat) {off : Nat} (h : ¬ recordReg off) :
    (s.errorRecord type unit addr info n).reg off = s.reg off :=
  ((s.errorRecord_change type unit addr info n).2 off h).trans (s.reg_withGlow _ off)

theorem Dev.errorRecord_stands (s : Dev) (type unit addr info n : Nat) : s.Stands (s.errorRecord type unit addr info n) :=
  (s.withGlow_stands _).trans (s.errorRecord_change type unit addr info n).stands

theorem Dev.errorRecord_noMoreWork (s : Dev) (type unit addr info n : Nat) : NoMoreWork s (s.errorRecord type unit addr info n) :=
  (s.glow_noMoreWork _).trans ((s.errorRecord_change type unit addr info n).noMoreWork (by rw [recordReg]; decide))

/-- The registers of the set's state and of its errors. -/
def lossReg (off : Nat) : Prop := off = R.shdStatus ∨ off = R.shdErr ∨ off = R.gnmAlert

theorem Dev.lossNoted_change (s : Dev) (x : Nat) :
    s.RegsChange (((s.statusLost x).raise F.shdErr_SLICE_LOST).alert alertShd) lossReg :=
  ((((Dev.RegsChange.refl s).put F.shdStatus_LOST _ (.inl rfl)).put F.shdStatus_STATE 1 (.inl rfl)).put F.shdErr_SLICE_LOST 1
    (.inr (.inl rfl))).alert alertShd (.inr (.inr rfl))

theorem Dev.lossNoted_says (s : Dev) {x : Nat} (hx : x < 8) : (s.lossNoted x).SaysLost x := by
  obtain ⟨hlost, hstate⟩ := s.statusLost_fields hx
  have hraised : ((s.statusLost x).raise F.shdErr_SLICE_LOST).SaysLost x := by
    have hstatus : ((s.statusLost x).raise F.shdErr_SLICE_LOST).reg R.shdStatus = (s.statusLost x).reg R.shdStatus :=
      Dev.reg_raise _ _ (by decide)
    refine ⟨?_, (Dev.get_congr hstatus).trans hstate, Dev.get_raise _ _ rfl (by decide)⟩
    rw [Dev.isLost, Dev.get_congr hstatus]
    exact hlost
  have halerted := hraised.congr (Dev.reg_alert _ alertShd (by decide)) (Dev.reg_alert _ alertShd (by decide))
  exact halerted.congr (Dev.errorRecord_reg _ _ _ _ _ _ (by rw [recordReg]; decide)) (Dev.errorRecord_reg _ _ _ _ _ _ (by rw [recordReg]; decide))

theorem Dev.lossNoted_stands (s : Dev) (x : Nat) : s.Stands (s.lossNoted x) :=
  (s.lossNoted_change x).stands.trans (Dev.errorRecord_stands _ _ _ _ _ _)

theorem Dev.lossNoted_noMoreWork (s : Dev) (x : Nat) : NoMoreWork s (s.lossNoted x) :=
  ((s.lossNoted_change x).noMoreWork (by rw [lossReg]; decide)).trans (Dev.errorRecord_noMoreWork _ _ _ _ _ _)

/-! ### A slice without dirty copies at its buddy, or deltas on their way (R613, R617, R628) -/

/-- Nothing of the slice's own awaits another slice. -/
structure Dev.Unmirrored (s : Dev) (x : Nat) : Prop where
  quiet : s.quiet = true
  buddy : x = s.buddy → s.shadow.puts = [] ∧ s.cache.lines = []
  deltas : s.shadow.deltaOut = []

/-- A buddy that mirrors nothing is lost: writes go through from then on. -/
def Dev.writesThrough (s : Dev) : Dev := ({ s with shadow.puts := [], shadow.order := [] } : Dev).put F.shdStatus_WRITE_THROUGH 1

theorem Dev.loseBuddy_of_none {s : Dev} (hputs : s.shadow.puts = []) (hlines : s.cache.lines = []) : s.loseBuddy = s.writesThrough := by
  have hlines' : s.writesThrough.cache.lines = [] := hlines
  rw [Dev.loseBuddy, hputs]
  simp only [Dev.each_nil]
  rw [Dev.writesThrough] at hlines' ⊢
  rw [hlines', Dev.each_nil]

theorem Dev.forgetSlice_of_none {s : Dev} (hrecons : s.shadow.recons = []) (hdeltas : s.shadow.deltaOut = []) (x : Nat) :
    s.forgetSlice x = s := by
  have hshadow : ({ s.shadow with recons := [], deltaOut := [] } : Shadow) = s.shadow := by rw [← hrecons, ← hdeltas]
  simp [Dev.forgetSlice, hrecons, hdeltas, hshadow]

theorem Dev.writesThrough_says {s : Dev} {x : Nat} (h : s.SaysLost x) : s.writesThrough.SaysLost x := by
  have hsays : ({ s with shadow.puts := [], shadow.order := [] } : Dev).SaysLost x := h.congr rfl rfl
  rw [Dev.writesThrough]
  generalize ({ s with shadow.puts := [], shadow.order := [] } : Dev) = u at hsays
  have hset : u.get F.shdStatus_STATE ≠ 0 := by rw [hsays.state]; decide
  have hkept : ∀ k : Field, F.shdStatus_WRITE_THROUGH.off = k.off → (k.hi < 8 ∨ 8 < k.lo) →
      (u.put F.shdStatus_WRITE_THROUGH 1).get k = u.get k := fun k hoff hapart =>
    Dev.get_put_kept (g := F.shdStatus_STATE) 1 rfl (by decide) (by decide) (.inl (by decide)) hset hoff hapart
  refine ⟨?_, ?_, ?_⟩
  · rw [Dev.isLost, hkept F.shdStatus_LOST rfl (.inr (by decide))]
    exact hsays.lost
  · rw [hkept F.shdStatus_STATE rfl (.inl (by decide))]
    exact hsays.state
  · rw [Dev.get_put_other _ _ _ _ (by decide)]
    exact hsays.err

theorem Dev.put_stands (s : Dev) (f : Field) (v : Nat) : s.Stands (s.put f v) := ⟨rfl, rfl, rfl, rfl, rfl, rfl, rfl, rfl⟩

theorem Dev.writesThrough_stands (s : Dev) : s.Stands s.writesThrough := by
  have hshadow : s.Stands { s with shadow.puts := [], shadow.order := [] } := ⟨rfl, rfl, rfl, rfl, rfl, rfl, rfl, rfl⟩
  exact hshadow.trans (Dev.put_stands _ _ _)

theorem Dev.writesThrough_noMoreWork (s : Dev) : NoMoreWork s s.writesThrough := by
  have hshadow : NoMoreWork s { s with shadow.puts := [], shadow.order := [] } := { NoMoreWork.refl s with }
  exact hshadow.trans (Dev.put_noMoreWork _ F.shdStatus_WRITE_THROUGH 1 (by decide))

/-- The slice once the loss of slice x is noted, and its buddy's mirror, if it is the buddy, is given up. -/
def Dev.lostSlice (s : Dev) (x : Nat) : Dev := if x = s.buddy then (s.lossNoted x).writesThrough else s.lossNoted x

theorem Dev.lostSlice_says (s : Dev) {x : Nat} (hx : x < 8) : (s.lostSlice x).SaysLost x := by
  unfold Dev.lostSlice
  split
  · exact Dev.writesThrough_says (s.lossNoted_says hx)
  · exact s.lossNoted_says hx

theorem Dev.lostSlice_stands (s : Dev) (x : Nat) : s.Stands (s.lostSlice x) := by
  unfold Dev.lostSlice
  split
  · exact (s.lossNoted_stands x).trans (Dev.writesThrough_stands _)
  · exact s.lossNoted_stands x

theorem Dev.lostSlice_noMoreWork (s : Dev) (x : Nat) : NoMoreWork s (s.lostSlice x) := by
  unfold Dev.lostSlice
  split
  · exact (s.lossNoted_noMoreWork x).trans (Dev.writesThrough_noMoreWork _)
  · exact s.lossNoted_noMoreWork x

theorem Dev.recons_of_quiet {s : Dev} (h : s.quiet = true) : s.shadow.recons = [] := by
  simp only [Dev.quiet, Bool.and_eq_true, List.isEmpty_iff] at h
  obtain ⟨⟨⟨⟨⟨⟨⟨⟨⟨-, hrecons⟩, -⟩, -⟩, -⟩, -⟩, -⟩, -⟩, -⟩, -⟩ := h
  exact hrecons

theorem Dev.RegsChange.shadow {s u : Dev} {P : Nat → Prop} (h : s.RegsChange u P) : u.shadow = s.shadow := by
  obtain ⟨⟨c, rfl⟩, -⟩ := h
  rfl

theorem Dev.errorRecord_shadow (s : Dev) (type unit addr info n : Nat) : (s.errorRecord type unit addr info n).shadow = s.shadow :=
  (s.errorRecord_change type unit addr info n).shadow

theorem Dev.lossNoted_shadow (s : Dev) (x : Nat) : (s.lossNoted x).shadow = s.shadow := by
  rw [Dev.lossNoted, Dev.errorRecord_shadow]
  exact (s.lossNoted_change x).shadow

theorem Dev.writesThrough_deltaOut (s : Dev) : s.writesThrough.shadow.deltaOut = s.shadow.deltaOut := rfl

theorem Dev.lostSlice_deltaOut (s : Dev) (x : Nat) : (s.lostSlice x).shadow.deltaOut = s.shadow.deltaOut := by
  unfold Dev.lostSlice
  split
  · rw [Dev.writesThrough_deltaOut, s.lossNoted_shadow]
  · rw [s.lossNoted_shadow]

theorem Dev.loseSlice_of_live {s : Dev} {x : Nat} (hguard : (x == s.pos || decide (s.setSize ≤ x) || s.isLost x) = false) :
    s.loseSlice x = ((if x == s.buddy then (s.lossNoted x).loseBuddy else s.lossNoted x).forgetSlice x).settle := by
  rw [Dev.loseSlice, hguard, if_neg Bool.false_ne_true]
  simp only [Dev.lossNoted, Dev.statusLost]

/-- The slice is held lost at once where nothing of this slice's own awaits it. -/
theorem Dev.loseSlice_eq {s : Dev} {x : Nat} (h : s.Unmirrored x) (hother : x ≠ s.pos) (hset : x < s.setSize)
    (hlive : s.isLost x = false) : s.loseSlice x = s.lostSlice x := by
  have hguard : (x == s.pos || decide (s.setSize ≤ x) || s.isLost x) = false := by
    rw [beq_false_of_ne hother, decide_eq_false (by omega), hlive]
    rfl
  have hshadow := s.lossNoted_shadow x
  have hnone : (if x == s.buddy then (s.lossNoted x).loseBuddy else s.lossNoted x) = s.lostSlice x := by
    rw [Dev.lostSlice]
    by_cases hx : x = s.buddy
    · obtain ⟨hputs, hlines⟩ := h.buddy hx
      rw [if_pos (beq_iff_eq.2 hx), if_pos hx, Dev.loseBuddy_of_none (by rw [hshadow]; exact hputs)
        (by rw [(s.lossNoted_stands x).cache]; exact hlines)]
    · rw [if_neg (by simpa using hx), if_neg hx]
  have hquiet := (s.lostSlice_noMoreWork x).quiet h.quiet
  rw [Dev.loseSlice_of_live hguard, hnone, Dev.forgetSlice_of_none (Dev.recons_of_quiet hquiet) ((s.lostSlice_deltaOut x).trans h.deltas),
    (NoMoreWork.refl _).settle hquiet]

/-! ### What tells of the loss (R618, R619, R637) -/

/-- Messages alone. -/
def Dev.sent (s : Dev) (o : List Msg) : Dev := { s with outbox := o }

theorem Dev.sent_says {s : Dev} {x : Nat} (h : s.SaysLost x) (o : List Msg) : (s.sent o).SaysLost x := h.congr rfl rfl

theorem Dev.sent_stands (s : Dev) (o : List Msg) : s.Stands (s.sent o) := ⟨rfl, rfl, rfl, rfl, rfl, rfl, rfl, rfl⟩

theorem Dev.ctlAll_sent (s : Dev) (m : Ctl) : ∃ o, s.ctlAll m = s.sent o := ⟨_, s.ctlAll_eq m⟩

theorem Dev.portDeaths_of_none {s : Dev} (h : s.cache.portsLost = []) : s.portDeaths = s := by
  have hcache : ({ s.cache with portsLost := [] } : Cache) = s.cache := by rw [← h]
  simp [Dev.portDeaths, h, hcache]

/-- The acting leader, if it is this slice, tells the others with messages alone. -/
theorem Dev.holdLost_eq {s : Dev} {x : Nat} (h : s.Unmirrored x) (hother : x ≠ s.pos) (hset : x < s.setSize)
    (hlive : s.isLost x = false) (hports : s.cache.portsLost = []) : ∃ o, s.holdLost x = (s.lostSlice x).sent o := by
  have hguard : (x == s.pos || decide (s.setSize ≤ x) || s.isLost x) = false := by
    rw [beq_false_of_ne hother, decide_eq_false (by omega), hlive]
    rfl
  have hcache : (s.lostSlice x).cache.portsLost = [] := by rw [(s.lostSlice_stands x).cache]; exact hports
  rw [Dev.holdLost, hguard, if_neg Bool.false_ne_true]
  simp only [Dev.loseSlice_eq h hother hset hlive]
  generalize s.lostSlice x = u at hcache
  have hdusk : ∃ o, (if u.phase == .toDusk && u.frm.commitAt.isNone && u.actingLeader == u.pos then u.ctlAll (.mgmt 4 0x31 0) else u) =
      u.sent o := by
    split
    · exact u.ctlAll_sent _
    · exact ⟨u.outbox, rfl⟩
  obtain ⟨o, ho⟩ := hdusk
  rw [ho]
  split
  · rw [Dev.portDeaths_of_none (s := u.sent o) hcache]
    obtain ⟨o', ho'⟩ := (u.sent o).ctlAll_sent
      (.homeMoved (BitVec.ofNat 3 x) (BitVec.ofNat 3 (x ^^^ 1)) false (BitVec.ofNat 48 (u.sent o).namedBoundary))
    exact ⟨o', ho'⟩
  · exact ⟨o, rfl⟩

/-! ### HOME_MOVED (R619, R638) -/

/-- The modules that face the slice bar. -/
theorem Dev.barPorts_says {s : Dev} {x : Nat} (h : s.SaysLost x) : (s.barPorts x).SaysLost x := by
  unfold Dev.barPorts
  split
  · exact h
  case h_2 k hk =>
    have hlt : k < 6 := List.mem_range.1 (List.mem_of_find?_eq_some hk)
    have hupd : (s.updPort k (fun x => { x with up0 := false, up1 := false, barred := true })).SaysLost x := h.congr rfl rfl
    have hstatus : R.pwkStatus k ≠ R.shdStatus := by simp only [R.pwkStatus, R.shdStatus]; omega
    have herr : R.pwkStatus k ≠ R.shdErr := by simp only [R.pwkStatus, R.shdErr]; omega
    exact ((hupd.put (F.pwkStatus_STATE k) 0 hstatus herr).put (F.pwkStatus_MOD_UP k) 0 hstatus herr).put (F.pwkStatus_LATTICE k) 0
      hstatus herr

theorem Dev.updPort_stands (s : Dev) (k : Nat) (g : Port → Port) : s.Stands (s.updPort k g) := ⟨rfl, rfl, rfl, rfl, rfl, rfl, rfl, rfl⟩

theorem Dev.barPorts_stands (s : Dev) (x : Nat) : s.Stands (s.barPorts x) := by
  unfold Dev.barPorts
  split
  · exact Dev.Stands.refl s
  · exact (((s.updPort_stands _ _).trans (Dev.put_stands _ _ _)).trans (Dev.put_stands _ _ _)).trans (Dev.put_stands _ _ _)

/-- HOME_MOVED once the slice is held lost, where no request waits at the port slice and no parity operation is under way. -/
theorem Dev.homeMovedIn_holds {s : Dev} {x : Nat} (h : s.Unmirrored x) (hx : x < 8) (hactive : s.active = true) (hother : x ≠ s.pos)
    (hset : x < s.setSize) (hlive : s.isLost x = false) (hparity : s.shadow.parity = []) (hports : s.shadow.ports = []) (home : Nat)
    (boundary : Frame) : (s.homeMovedIn x home boundary).SaysLost x ∧ s.Stands (s.homeMovedIn x home boundary) := by
  have hguard : (!s.active || decide (s.setSize ≤ x) || x == s.pos) = false := by
    rw [beq_false_of_ne hother, decide_eq_false (by omega), hactive]
    rfl
  have hsays := Dev.barPorts_says (s.lostSlice_says hx)
  have hstands := (s.lostSlice_stands x).trans ((s.lostSlice x).barPorts_stands x)
  have hnoports := hstands.ports.trans hports
  have hnoparity := hstands.parity.trans hparity
  rw [Dev.homeMovedIn, hguard, if_neg Bool.false_ne_true]
  simp only [Dev.loseSlice_eq h hother hset hlive]
  generalize (s.lostSlice x).barPorts x = u at hsays hstands hnoports hnoparity
  simp only [hnoports, List.filter_nil, Dev.each_nil, Dev.parityRun, hnoparity]
  exact ⟨hsays.congr rfl rfl, hstands.trans ⟨rfl, rfl, rfl, rfl, rfl, rfl, hnoparity.symm, hnoports.symm⟩⟩

/-! ### What is not heard (R619) -/

/-- A message of a slice that is held lost changes nothing. -/
theorem exec_of_deaf {c : Instr} {q : Pos} {s : State} (hq : c.sender = some q) (hdeaf : s.deaf q.toNat = true)
    (hd : ∀ d, c.devOffset = some d → d < deviceEnd) : exec c s = .next s := by
  have hother : (q.toNat == s.pos) = false := by
    rw [Dev.deaf, Bool.and_eq_true, bne_iff_ne] at hdeaf
    exact beq_false_of_ne hdeaf.1
  have hat : ∀ (d : Nat) (f : Dev → Dev), d < deviceEnd → f s.toDev = s.toDev → s.onDevAt d f = .next s := by
    intro d f hlt hf
    rw [State.onDevAt, if_neg (by rw [deviceEnd] at hlt; omega)]
    exact next_congr hf
  cases c with
  | heartbeat q' f u l k a =>
    obtain rfl := Option.some.inj hq
    exact next_congr (by simp [Dev.heartbeatIn, hdeaf])
  | frameDone q' f u =>
    obtain rfl := Option.some.inj hq
    exact next_congr (by simp [Dev.frameDoneIn, hdeaf])
  | eclipse cause q' =>
    obtain rfl := Option.some.inj hq
    exact next_congr (by simp [Dev.eclipseIn, hdeaf])
  | fenced q' a =>
    obtain rfl := Option.some.inj hq
    exact next_congr (by simp [Dev.fencedIn, hdeaf])
  | podSync q' a x =>
    obtain rfl := Option.some.inj hq
    exact next_congr (by simp [Dev.podSyncIn, hdeaf])
  | podSyncDone q' a x =>
    obtain rfl := Option.some.inj hq
    exact next_congr (by simp [hdeaf])
  | mirrorPut q' x d b f l r =>
    obtain rfl := Option.some.inj hq
    exact hat _ _ (hd _ rfl) (by simp [hdeaf])
  | mirrorRelease q' d b f =>
    obtain rfl := Option.some.inj hq
    exact hat _ _ (hd _ rfl) (by simp [hdeaf])
  | parityDelta q' x d y p =>
    obtain rfl := Option.some.inj hq
    exact hat _ _ (hd _ rfl) (by simp [hdeaf])
  | parityRelease q' x d =>
    obtain rfl := Option.some.inj hq
    exact hat _ _ (hd _ rfl) (by simp [hdeaf])
  | comp q' x codes =>
    obtain rfl := Option.some.inj hq
    exact next_congr (by simp [hdeaf])
  | pull q' x =>
    obtain rfl := Option.some.inj hq
    exact next_congr (by simp [hdeaf])
  | forward q' code arg =>
    obtain rfl := Option.some.inj hq
    exact next_congr (by simp [Dev.forwardIn, hdeaf])
  | ready q' =>
    obtain rfl := Option.some.inj hq
    exact next_congr (by simp [hdeaf])
  | refused q' code =>
    obtain rfl := Option.some.inj hq
    exact next_congr (by simp [hdeaf])
  | wakeLit q' =>
    obtain rfl := Option.some.inj hq
    exact next_congr (by simp [Dev.wakeLitIn, hother, hdeaf])
  | reconRead r x d =>
    obtain rfl := Option.some.inj hq
    exact hat _ _ (hd _ rfl) (by simp [hdeaf])
  | agentSuspect r cause =>
    obtain rfl := Option.some.inj hq
    exact next_congr (by simp [Dev.agentSuspectIn, hdeaf])
  | readData a =>
    obtain rfl := Option.some.inj hq
    exact next_congr (by simp [hdeaf])
  | _ => cases hq

/-- Settles O20: the three ways to a lost slice by the holding they share, the rest by the guard that each message meets. -/
theorem sliceIsHeldLost : Obligations.SliceIsHeldLost := by
  refine ⟨fun s x c _ hactive hother hset hlive hq hbuddy hdeltas hparity hports hlost hc => ?_, fun c q s hq hdeaf hd => exec_of_deaf hq hdeaf hd⟩
  have hun : s.Unmirrored x.toNat := ⟨hq, hbuddy, hdeltas⟩
  have hheld : ∃ t : Dev, exec c s = .next { s with toDev := t } ∧ t.SaysLost x.toNat ∧ s.Stands t := by
    obtain ⟨o, ho⟩ := Dev.holdLost_eq hun hother hset hlive hlost
    have hsent := And.intro (Dev.sent_says (s.lostSlice_says x.isLt) o) ((s.lostSlice_stands x.toNat).trans (Dev.sent_stands _ o))
    obtain ⟨rfl, hmissed⟩ | ⟨cause, hcause, rfl⟩ | ⟨home, f, rfl⟩ := hc
    · refine ⟨_, next_congr ?_, hsent⟩
      rw [← ho]
      simp [Dev.heartbeatMissed, hactive, hmissed]
    · refine ⟨_, next_congr ?_, hsent⟩
      rw [← ho]
      simp only [Dev.eclipseIn, hactive, Dev.deaf, hlive, beq_iff_eq, hcause, Bool.and_false, Bool.not_true, Bool.or_self, Bool.false_eq_true, if_false]
    · exact ⟨_, next_congr rfl, Dev.homeMovedIn_holds hun x.isLt hactive hother hset hlive hparity hports home.toNat f⟩
  obtain ⟨t, hexec, hsays, hstands⟩ := hheld
  exact ⟨{ s with toDev := t }, hexec, hsays.lost, hsays.state, hsays.err, hstands.cache, hstands.stack, hstands.img, hstands.regions,
    hstands.lens, hstands.fuse⟩

end Sys2Proof.Machine
end


section
/-! PROOFS. Entry to Eclipse. -/

namespace Sys2Proof.Machine

/-! ### What the answers and the ports' idling leave (R492, R634) -/

/-- The registers that entry to Eclipse changes before it records its cause: those of the ports and of the stacks' state. -/
def portReg (off : Nat) : Prop :=
  (∃ p < 6, off = R.pwkUrg p) ∨ (∃ p < 6, off = R.pwkStatus p) ∨ off = R.stkStatus0 ∨ off = R.stkStatus1

/-- Nothing of memory, fuses or topology is lost, and no message is taken back. -/
structure Dev.Winds (s t : Dev) : Prop where
  fuse : t.fuse = s.fuse
  regions : t.regions = s.regions
  dram : t.stack.dram = s.stack.dram
  sent : s.outbox ⊆ t.outbox
  regs : ∀ off, ¬ portReg off → t.reg off = s.reg off

namespace Dev.Winds

theorem refl (s : Dev) : s.Winds s := ⟨rfl, rfl, rfl, List.Subset.refl _, fun _ _ => rfl⟩

theorem trans {s t u : Dev} (h : s.Winds t) (h' : t.Winds u) : s.Winds u where
  fuse := h'.fuse.trans h.fuse
  regions := h'.regions.trans h.regions
  dram := h'.dram.trans h.dram
  sent := List.Subset.trans h.sent h'.sent
  regs off hoff := (h'.regs off hoff).trans (h.regs off hoff)

theorem each {α : Type} {s t : Dev} (h : s.Winds t) (l : List α) {f : Dev → α → Dev} (hf : ∀ u : Dev, ∀ a ∈ l, u.Winds (f u a)) :
    s.Winds (t.each l f) := by
  induction l generalizing t with
  | nil => exact h
  | cons a l ih =>
    rw [Dev.each_cons]
    exact ih (h.trans (hf t a List.mem_cons_self)) fun u b hb => hf u b (List.mem_cons_of_mem _ hb)

theorem put {s : Dev} (f : Field) (v : Nat) (hf : portReg f.off) : s.Winds (s.put f v) where
  fuse := rfl
  regions := rfl
  dram := rfl
  sent := List.Subset.refl _
  regs off hoff := s.reg_setReg_other f.off off _ fun h => hoff (h ▸ hf)

theorem send (s : Dev) (m : Msg) : s.Winds (s.send m) := ⟨rfl, rfl, rfl, List.subset_append_left _ _, fun _ _ => rfl⟩

theorem cacheLinks (s : Dev) (x : Cache) (y : Links) : s.Winds { s with cache := x, links := y } :=
  ⟨rfl, rfl, rfl, List.Subset.refl _, fun _ _ => rfl⟩

end Dev.Winds

theorem Dev.sendUnit_winds (s : Dev) (e : ReqEntry) (u : Nat) : s.Winds (s.sendUnit e u) := by
  have hnote : ∀ t : Dev, t.Winds (t.noteUrgent e.r) := by
    intro t
    rw [Dev.noteUrgent]
    split
    · exact Dev.Winds.cacheLinks t t.cache _
    · exact Dev.Winds.refl t
  unfold Dev.sendUnit
  refine Dev.Winds.trans ?_ (hnote _)
  rw [Dev.respond]
  split
  · exact Dev.Winds.refl s
  · exact Dev.Winds.send s _

theorem Dev.urgentDone_winds (s : Dev) (r : Request) : s.Winds (s.urgentDone r) := by
  unfold Dev.urgentDone
  split
  case h_1 p _ =>
    split
    · exact Dev.Winds.put _ _ (.inl ⟨p, p.isLt, rfl⟩)
    · exact Dev.Winds.refl s
  · exact Dev.Winds.refl s

/-- The sending of what is ready of a request. -/
theorem Dev.flush_winds (s : Dev) (id : Nat) : s.Winds (s.flush id) := by
  unfold Dev.flush
  split
  · exact Dev.Winds.refl s
  case h_2 e _ =>
    have hsent : s.Winds ((s.each e.ready (fun s u => s.sendUnit e u)).endHolds e e.ready) :=
      ((Dev.Winds.refl s).each _ fun u k _ => u.sendUnit_winds e k).trans (Dev.Winds.cacheLinks _ _ _)
    dsimp only
    split
    · exact (hsent.trans (Dev.Winds.cacheLinks _ _ _)).trans (Dev.urgentDone_winds _ _)
    · exact hsent.trans (Dev.Winds.cacheLinks _ _ _)

theorem Dev.answerRest_winds (s : Dev) (id : Nat) (c : Code) : s.Winds (s.answerRest id c) := by
  unfold Dev.answerRest
  split
  · exact Dev.Winds.refl s
  · exact ((Dev.Winds.refl s).each _ fun u i _ => Dev.Winds.cacheLinks u _ _).trans (Dev.flush_winds _ _)

theorem Dev.portsIdle_winds (s : Dev) (state : Nat) : s.Winds (s.portsIdle state) := by
  refine (Dev.Winds.refl s).each _ fun u p hp => ?_
  have hport : portReg (R.pwkStatus p) := .inr (.inl ⟨p, List.mem_range.1 hp, rfl⟩)
  split
  · exact Dev.Winds.refl u
  · exact ((Dev.Winds.put (F.pwkStatus_STATE p) _ hport).trans (Dev.Winds.put (F.pwkStatus_MOD_UP p) _ hport)).trans
      (Dev.Winds.put (F.pwkStatus_LATTICE p) _ hport)

theorem Dev.selfRefresh_winds (s : Dev) (enter : Bool) : s.Winds (s.selfRefresh enter) := by
  have hone : ∀ (u : Dev) (f : Field), portReg f.off → u.Winds (if u.get f == 4 then u else u.put f (if enter then 3 else 2)) := by
    intro u f hf
    split
    · exact Dev.Winds.refl u
    · exact Dev.Winds.put f _ hf
  have hplan : ∀ u : Dev, u.Winds { u with stack.planRefresh := false } := fun u => ⟨rfl, rfl, rfl, List.Subset.refl _, fun _ _ => rfl⟩
  exact (((hone s F.stkStatus0_STATE (.inr (.inr (.inl rfl)))).trans (hone _ F.stkStatus1_STATE (.inr (.inr (.inr rfl))))).trans
    (Dev.Winds.send _ _)).trans (hplan _)

/-! ### The entry (R634, R742, R750) -/

/-- ECLIPSE to the other positions of the set. -/
def Dev.eclipseSent (s : Dev) (t : Dev) (cause : Nat) : Dev :=
  t.each ((List.range s.setSize).filter (fun p => p != s.pos)) (fun s p => s.send (.ctl p (.eclipse (BitVec.ofNat 8 cause))))

/-- The slice once its requests are answered, the set is told, and ports and stacks idle. -/
def Dev.wound (s : Dev) (cause : Nat) : Dev :=
  ((s.eclipseSent (s.each (s.cache.reqs.map (fun e => e.id)) (fun s id => s.answerRest id .poison)) cause).portsIdle 0).selfRefresh true

theorem Dev.wound_winds (s : Dev) (cause : Nat) : s.Winds (s.wound cause) := by
  have hanswered := (Dev.Winds.refl s).each (s.cache.reqs.map (fun e => e.id)) (f := fun s id => s.answerRest id .poison)
    fun u id _ => u.answerRest_winds id .poison
  have htold := hanswered.each ((List.range s.setSize).filter (fun p => p != s.pos))
    (f := fun s p => s.send (.ctl p (.eclipse (BitVec.ofNat 8 cause)))) fun u p _ => Dev.Winds.send u _
  exact (htold.trans (Dev.portsIdle_winds _ _)).trans (Dev.selfRefresh_winds _ _)

/-- Every other position of the set is told the cause. -/
theorem Dev.wound_tells (s : Dev) (cause : Nat) {p : Nat} (hp : p < s.setSize) (hother : p ≠ s.pos) :
    Msg.ctl p (.eclipse (BitVec.ofNat 8 cause)) ∈ (s.wound cause).outbox := by
  refine (Dev.selfRefresh_winds _ true).sent ((Dev.portsIdle_winds _ 0).sent ?_)
  rw [Dev.eclipseSent, Dev.each_send]
  exact List.mem_append_right _ (List.mem_map.2 ⟨p, List.mem_filter.2 ⟨List.mem_range.2 hp, by simpa using hother⟩, rfl⟩)

/-- What RST_AG1 takes. -/
def eclipseWord (cause origin frame : Nat) : Nat := 2 ^ 63 + (origin % 8) * 2 ^ 56 + (cause % 256) * 2 ^ 48 + frame

/-- The cause of the Eclipse goes to RST_AG1 and to an event record, and SCLK leaves the PLL. -/
def Dev.eclipseNoted (s : Dev) (word frame info : Nat) : Dev :=
  ((s.setReg R.rstAg1 word).eventRecord 5 frame 0 info).put F.pwrState_SCLK_PLL 0

theorem Dev.reg_eventRecord (s : Dev) (kind frame duration info off : Nat) : (s.eventRecord kind frame duration info).reg off = s.reg off := rfl

theorem Dev.eventRecord_parts (s : Dev) (kind frame duration info : Nat) : ∃ g q, s.eventRecord kind frame duration info =
    { s with afterglow := g, mgmt.eventSeq := q } := ⟨_, _, rfl⟩

theorem Dev.eclipseNoted_parts (s : Dev) {word : Nat} (hlt : word < 2 ^ 64) (hne : word ≠ 0) (frame info : Nat) :
    ∃ c g q, s.eclipseNoted word frame info = { s with csr := c, afterglow := g, mgmt.eventSeq := q } ∧
      (s.eclipseNoted word frame info).reg R.rstAg1 = word := by
  obtain ⟨g, q, hrecord⟩ := (s.setReg R.rstAg1 word).eventRecord_parts 5 frame 0 info
  refine ⟨(s.eclipseNoted word frame info).csr, g, q, ?_, ?_⟩
  · rw [Dev.eclipseNoted, hrecord]
    rfl
  · have hput := ((s.setReg R.rstAg1 word).eventRecord 5 frame 0 info).reg_setReg_other F.pwrState_SCLK_PLL.off R.rstAg1
      (withBits (((s.setReg R.rstAg1 word).eventRecord 5 frame 0 info).reg F.pwrState_SCLK_PLL.off) F.pwrState_SCLK_PLL.hi F.pwrState_SCLK_PLL.lo 0)
      (by decide)
    rw [Dev.eclipseNoted, Dev.put, hput, Dev.reg_eventRecord, Dev.reg_setReg_of_ne_zero _ _ _ (by rwa [Nat.mod_eq_of_lt hlt]),
      Nat.mod_eq_of_lt hlt]

theorem Dev.enterEclipse_eq {s : Dev} (hphase : s.phase = .lit ∨ s.phase = .dim) (cause origin : Nat) : s.enterEclipse cause origin =
    { (s.wound cause).dropWork.dropPlan.eclipseNoted (eclipseWord cause origin s.frameNo) s.frameNo (cause % 256 + (origin % 8) * 256) with
      phase := .eclipse
      mgmt.eclipseAt := some s.now
      mgmt.exitKind := BitVec.ofNat 2 (s.get F.rstCfg_ECLIPSE_EXIT) } := by
  rcases hphase with h | h
  all_goals simp only [Dev.enterEclipse, h, Bool.not_true, Bool.false_eq_true, if_false, Dev.wound, Dev.eclipseSent, Dev.eclipseNoted, eclipseWord]

/-- All work is dropped, and what stands stays. -/
structure Dev.Eclipsed (s t : Dev) (cause origin : Nat) : Prop where
  phase : t.phase = .eclipse
  since : t.mgmt.eclipseAt = some s.now
  word : t.reg R.rstAg1 = eclipseWord cause origin s.frameNo
  exit : t.mgmt.exitKind = BitVec.ofNat 2 (s.get F.rstCfg_ECLIPSE_EXIT)
  reqs : t.cache.reqs = []
  txns : t.cache.txns = []
  wbs : t.cache.wbs = []
  reads : t.stack.reads = []
  writes : t.stack.writes = []
  running : t.frm.frameRunning = false
  items : t.frm.items = []
  go : t.frm.go = none
  engines : t.lens.engines = []
  told : ∀ p < s.setSize, p ≠ s.pos → Msg.ctl p (.eclipse (BitVec.ofNat 8 cause)) ∈ t.outbox
  dram : t.stack.dram = s.stack.dram
  regions : t.regions = s.regions
  fuse : t.fuse = s.fuse

theorem eclipseWord_range (cause origin : Nat) {frame : Nat} (h : frame < 2 ^ 48) :
    eclipseWord cause origin frame < 2 ^ 64 ∧ eclipseWord cause origin frame ≠ 0 := by
  have horigin := Nat.mod_lt origin (show 0 < 8 by decide)
  have hcause := Nat.mod_lt cause (show 0 < 256 by decide)
  rw [eclipseWord]
  omega

theorem Dev.enterEclipse_eclipsed {s : Dev} (hphase : s.phase = .lit ∨ s.phase = .dim) (cause origin : Nat) :
    s.Eclipsed (s.enterEclipse cause origin) cause origin := by
  have hwinds := s.wound_winds cause
  have htold := fun (p : Nat) (hp : p < s.setSize) hother => s.wound_tells cause hp hother
  obtain ⟨hlt, hne⟩ := eclipseWord_range cause origin (show s.frameNo < 2 ^ 48 from s.get_lt F.frmTickCount_COUNT)
  rw [Dev.enterEclipse_eq hphase]
  obtain ⟨c, g, q, hnoted, hword⟩ := (s.wound cause).dropWork.dropPlan.eclipseNoted_parts hlt hne s.frameNo (cause % 256 + (origin % 8) * 256)
  generalize (s.wound cause).dropWork.dropPlan.eclipseNoted (eclipseWord cause origin s.frameNo) s.frameNo
    (cause % 256 + (origin % 8) * 256) = v at hnoted hword
  generalize s.wound cause = u at hwinds htold hnoted
  have hreg : ({ v with
      phase := .eclipse
      mgmt.eclipseAt := some s.now
      mgmt.exitKind := BitVec.ofNat 2 (s.get F.rstCfg_ECLIPSE_EXIT) } : Dev).reg R.rstAg1 = eclipseWord cause origin s.frameNo := hword
  subst hnoted
  exact {
    phase := rfl, since := rfl, word := hreg, exit := rfl, reqs := rfl, txns := rfl, wbs := rfl, reads := rfl, writes := rfl, running := rfl
    items := rfl, go := rfl, engines := rfl, told := htold, dram := hwinds.dram, regions := hwinds.regions, fuse := hwinds.fuse }

/-- Pins, and registers other than those that the entry reads, bear on nothing of it. -/
theorem Dev.Eclipsed.of_entering {s u t : Dev} {cause origin : Nat} (h : u.Eclipsed t cause origin) (hnow : u.now = s.now)
    (hframe : u.frameNo = s.frameNo) (hexit : u.get F.rstCfg_ECLIPSE_EXIT = s.get F.rstCfg_ECLIPSE_EXIT) (hset : u.setSize = s.setSize)
    (hpos : u.pos = s.pos) (hdram : u.stack.dram = s.stack.dram) (hregions : u.regions = s.regions) (hfuse : u.fuse = s.fuse) :
    s.Eclipsed t cause origin where
  phase := h.phase
  since := h.since.trans (congrArg some hnow)
  word := h.word.trans (congrArg _ hframe)
  exit := h.exit.trans (congrArg _ hexit)
  reqs := h.reqs
  txns := h.txns
  wbs := h.wbs
  reads := h.reads
  writes := h.writes
  running := h.running
  items := h.items
  go := h.go
  engines := h.engines
  told p hp hother := h.told p (by rwa [hset]) (by rwa [hpos])
  dram := h.dram.trans hdram
  regions := h.regions.trans hregions
  fuse := h.fuse.trans hfuse

theorem Dev.clockLoss_eclipsed {s : Dev} (hphase : s.phase = .lit ∨ s.phase = .dim) (hpll : s.get F.pwrState_SCLK_PLL = 1) :
    s.Eclipsed s.clockLoss 4 s.pos := by
  have hentered := Dev.enterEclipse_eclipsed (s := { s with pins.refclk := false }) hphase 4 s.pos
  have heq : s.clockLoss = ({ s with pins.refclk := false } : Dev).enterEclipse 4 s.pos := by
    simp [Dev.clockLoss, Dev.on, hpll]
  rw [heq]
  exact hentered.of_entering rfl rfl rfl rfl rfl rfl rfl rfl

theorem Dev.brownout_eclipsed {s : Dev} (hphase : s.phase = .lit ∨ s.phase = .dim) (hgood : s.pins.pwrGood = true) :
    s.Eclipsed s.brownout 3 s.pos := by
  have hentered := Dev.enterEclipse_eclipsed (s := s.raise F.rstAg2_CORE_BROWNOUT) hphase 3 s.pos
  have heq : s.brownout = (s.raise F.rstAg2_CORE_BROWNOUT).enterEclipse 3 s.pos := by
    rw [Dev.brownout, hgood]
    rcases hphase with h | h <;> rw [h] <;> rfl
  have hget : ∀ f : Field, F.rstAg2_CORE_BROWNOUT.off ≠ f.off → (s.raise F.rstAg2_CORE_BROWNOUT).get f = s.get f :=
    fun f hf => s.get_put_other _ f 1 hf
  have hpos : (s.raise F.rstAg2_CORE_BROWNOUT).pos = s.pos := by rw [Dev.pos, Dev.pos, hget F.rstStrap_BAND (by decide)]
  rw [heq]
  exact hentered.of_entering rfl (hget F.frmTickCount_COUNT (by decide)) (hget F.rstCfg_ECLIPSE_EXIT (by decide))
    (hget F.shdConfig_SET_SIZE (by decide)) hpos rfl rfl rfl

/-- Settles O19: each of the four causes enters Eclipse by the one function, whose effect is stated once. -/
theorem eclipseIsEntered : Obligations.EclipseIsEntered := by
  intro s c cause origin _ hphase hc
  have hactive : s.active = true := by
    rw [Dev.active]
    rcases hphase with h | h <;> rw [h]
  have hentered : ∃ t : Dev, exec c s = .next { s with toDev := t } ∧ s.toDev.Eclipsed t cause origin ∧ cause < 256 := by
    obtain ⟨rfl, rfl, horigin, hheard⟩ | ⟨rfl, rfl, rfl⟩ | ⟨rfl, hpll, rfl, rfl⟩ | ⟨rfl, hgood, rfl, rfl⟩ := hc
    · have hid : (BitVec.ofNat 3 origin).toNat = origin := Nat.mod_eq_of_lt horigin
      refine ⟨s.enterEclipse 1 origin, next_congr ?_, Dev.enterEclipse_eclipsed hphase 1 origin, by decide⟩
      simp [Dev.eclipseIn, hid, hactive, hheard]
    · refine ⟨s.enterEclipse 5 s.pos, next_congr ?_, Dev.enterEclipse_eclipsed hphase 5 s.pos, by decide⟩
      rcases hphase with h | h <;> rw [Dev.cpExpiry, h]
    · exact ⟨s.clockLoss, rfl, Dev.clockLoss_eclipsed hphase hpll, by decide⟩
    · exact ⟨s.brownout, rfl, Dev.brownout_eclipsed hphase hgood, by decide⟩
  obtain ⟨t, hexec, ht, hcause⟩ := hentered
  have hword : t.reg R.rstAg1 = 2 ^ 63 + origin % 8 * 2 ^ 56 + cause * 2 ^ 48 + s.frameNo := by
    rw [ht.word, eclipseWord, Nat.mod_eq_of_lt hcause]
  have hlow : t.alertLow = true ∧ t.eclipseLow = true := by
    rw [Dev.alertLow, Dev.eclipseLow, ht.phase]
    exact ⟨rfl, rfl⟩
  exact ⟨{ s with toDev := t }, hexec, ht.phase, ht.since, hword, ht.exit, ht.reqs, ht.txns, ht.wbs, ht.reads, ht.writes, ht.running, ht.items,
    ht.go, ht.engines, ht.told, ht.dram, ht.regions, ht.fuse, hlow.1, hlow.2⟩

end Sys2Proof.Machine
end


section
/-! PROOFS. Events of the stack side: a write that is stored, a row that is retired, a channel that fails. -/

namespace Sys2Proof.Machine

/-! ### A DRAM write that is complete (R549) -/

theorem mem_insNat (n m : Nat) (l : List Nat) : m ∈ insNat n l ↔ m = n ∨ m ∈ l := by
  induction l with
  | nil => simp [insNat]
  | cons x l ih =>
    rw [insNat]
    split
    · simp
    · split
      case isTrue h =>
        obtain rfl : n = x := by simpa using h
        simp
      · simp [ih, or_left_comm]

/-- What a byte of a sub-block's little-endian value is (R6). -/
theorem byte_of_value (v k : Nat) : BitVec.ofNat 8 (v / 256 ^ k) = BitVec.ofNat 8 (bitsOf v (8 * k + 7) (8 * k)) := by
  have hwidth : 8 * k + 7 + 1 - 8 * k = 8 := by omega
  have hpow : 256 ^ k = 2 ^ (8 * k) := by rw [Nat.pow_mul]
  apply BitVec.eq_of_toNat_eq
  rw [bitsOf, hwidth, Nat.shiftRight_eq_div_pow, hpow, BitVec.toNat_ofNat, BitVec.toNat_ofNat, Nat.mod_mod]

theorem Dev.commitWrite_dram {s : Dev} (hwf : s.memoriesWf = true) (w : DramWrite) (a : Nat) :
    memGet (s.commitWrite w).stack.dram a = if w.d ≤ a ∧ a < w.d + 64 then
      (if w.poison = true then 0 else BitVec.ofNat 8 (bitsOf w.data.toNat (8 * (a - w.d) + 7) (8 * (a - w.d))))
    else memGet s.stack.dram a := by
  have hdram : memWf s.stack.dram = true := by
    simp only [Dev.memoriesWf, Bool.and_eq_true] at hwf
    exact hwf.1.1
  simp only [Dev.commitWrite, memPutSub]
  rw [memGet_memWrite hdram, byte_of_value]
  cases w.poison
  · rfl
  · simp [bitsOf]

theorem Dev.commitWrite_poison (s : Dev) (w : DramWrite) (n : Nat) :
    n ∈ (s.commitWrite w).stack.poison ↔ if n = w.d / 64 then w.poison = true else n ∈ s.stack.poison := by
  simp only [Dev.commitWrite]
  by_cases hn : n = w.d / 64
  · cases hp : w.poison <;> simp [hn, mem_insNat]
  · cases hp : w.poison <;> simp [hn, mem_insNat]

/-- What the stack holds bears on no work under way. -/
theorem Dev.stack_noMoreWork (s : Dev) (x : Stack) : NoMoreWork s { s with stack := x } := { NoMoreWork.refl s with }

/-- The oldest write of its sub-block, of a channel that is up and of no write-back or parity update, is stored. -/
theorem Dev.dramWriteDone_stores {s : Dev} {w : DramWrite} (hq : s.quiet = true)
    (hid : s.stack.writes.find? (fun x => x.id == w.id) = some w) (hd : s.stack.writes.find? (fun x => x.d == w.d) = some w)
    (hissued : w.issued = true) (hup : s.channelFailed (s.groupAt w.d) = false) (hwb : ∀ i, w.why ≠ .wb i)
    (hparity : ∀ i, w.why ≠ .parity i) : s.dramWriteDone w.id = s.commitWrite w := by
  have hfind : s.stack.writes.find? (fun x => x.id == w.id && x.issued) = some w := by
    obtain ⟨-, l, r, hl, hnone⟩ := List.find?_eq_some_iff_append.1 hid
    refine List.find?_eq_some_iff_append.2 ⟨by simp [hissued], l, r, hl, fun x hx => ?_⟩
    have hx' := hnone x hx
    simp only [Bool.not_eq_true'] at hx' ⊢
    rw [hx', Bool.false_and]
  have hsettle : (s.commitWrite w).settle = s.commitWrite w := (s.stack_noMoreWork _).settle hq
  rw [Dev.dramWriteDone, hfind]
  simp only [hd, hup, bne_self_eq_false, Bool.false_eq_true, if_false]
  cases hwhy : w.why with
  | wb i => exact absurd hwhy (hwb i)
  | parity i => exact absurd hwhy (hparity i)
  | _ => exact hsettle

/-! ### A row whose copy is done (R574, R576, R577) -/

/-- The slice with a row's copy taken off and its remap put on. -/
def Dev.remapped (s : Dev) (c : RowCopy) (m : Remap) : Dev :=
  { s with stack.copies := s.stack.copies.erase c, stack.remaps := m :: s.stack.remaps }

/-- The row of a copy is remapped, counted and reported. -/
def Dev.rowRetired (s : Dev) (c : RowCopy) (m : Remap) : Dev := ((s.remapped c m).bump F.stkRows_RETIRED).stkErr F.stkErr_ROW_RETIRED

theorem Dev.stkErr_rowRetired (s : Dev) : s.stkErr F.stkErr_ROW_RETIRED = s.raise F.stkErr_ROW_RETIRED := by
  have hquiet : (F.stkErr_ROW_RETIRED == F.stkErr_INIT_FAIL || F.stkErr_ROW_RETIRED == F.stkErr_STACK_FAILED ||
      F.stkErr_ROW_RETIRED == F.stkErr_CH_FAILED || F.stkErr_ROW_RETIRED == F.stkErr_SPARE_EXHAUSTED ||
      F.stkErr_ROW_RETIRED == F.stkErr_POISON_WRITTEN) = false := by decide
  simp only [Dev.stkErr, hquiet, Bool.false_eq_true, if_false]

/-- A retired row changes registers alone beside its copy and its remap. -/
theorem Dev.rowRetired_parts (s : Dev) (c : RowCopy) (m : Remap) : ∃ x, s.rowRetired c m = { s.remapped c m with csr := x } := by
  rw [Dev.rowRetired, Dev.stkErr_rowRetired]
  have hchange := ((Dev.RegsChange.refl (P := fun _ => True) (s.remapped c m)).bump F.stkRows_RETIRED 1 trivial).put F.stkErr_ROW_RETIRED 1 trivial
  exact hchange.1

theorem Dev.rowRetired_counts (s : Dev) (c : RowCopy) (m : Remap) :
    (s.rowRetired c m).get F.stkRows_RETIRED = min (s.get F.stkRows_RETIRED + 1) F.stkRows_RETIRED.max ∧
    (s.rowRetired c m).get F.stkErr_ROW_RETIRED = 1 := by
  have hstart : (s.remapped c m).get F.stkRows_RETIRED = s.get F.stkRows_RETIRED := rfl
  rw [Dev.rowRetired, Dev.stkErr_rowRetired]
  generalize s.remapped c m = u at hstart
  refine ⟨?_, Dev.get_raise _ _ rfl (by decide)⟩
  rw [Dev.raise, Dev.get_put_other _ _ _ _ (by decide), u.get_bump_one F.stkRows_RETIRED (by decide) (by decide), hstart]

theorem Dev.rowFind_congr {s u : Dev} (h : u.afterglow = s.afterglow) (row : Nat) : u.rowFind row = s.rowFind row := by
  simp only [Dev.rowFind, Dev.rowIndices, Dev.rowEntry, h]

/-- The remap of a row to the spare of its copy. -/
def RowCopy.remap (c : RowCopy) : Remap :=
  { stack := bitsOf c.rowAddr.toNat 31 31, channel := bitsOf c.rowAddr.toNat 30 26, pc := bitsOf c.rowAddr.toNat 25 25
    bank := bitsOf c.rowAddr.toNat 24 19, row := bitsOf c.rowAddr.toNat 18 7, spare := c.spare }

/-- The word of a retired row in the row health table. -/
def RowCopy.retiredWord (c : RowCopy) : Nat := 2 * 2 ^ 62 + c.spare * 2 ^ 60 + c.rowAddr.toNat

/-- The slice with the row health table's entry of a retired row written, if it has one. -/
def Dev.rowWritten (s : Dev) (c : RowCopy) : Option Nat → Dev
  | some i => s.setRowEntry i c.retiredWord
  | none => s

theorem Dev.copyDone_nil {s : Dev} {c : RowCopy} (h : s.stack.copies.find? (fun x => 256 ≤ x.moved) = some c) :
    s.copyDone [] = (s.rowRetired c c.remap).rowWritten c (s.rowFind c.rowAddr.toNat) := by
  have hrow : (s.rowRetired c c.remap).rowFind c.rowAddr.toNat = s.rowFind c.rowAddr.toNat := by
    obtain ⟨x, hx⟩ := s.rowRetired_parts c c.remap
    rw [hx]
    exact Dev.rowFind_congr (s := s) rfl _
  rw [← hrow]
  simp only [Dev.copyDone, h, Dev.each_nil, Dev.rowRetired, Dev.remapped, RowCopy.remap]
  split
  case h_1 i hi => rw [hi, Dev.rowWritten, RowCopy.retiredWord]
  case h_2 hi => rw [hi, Dev.rowWritten]

/-- What the end of a copy with no column lost leaves. -/
theorem Dev.rowWritten_parts (s : Dev) (c : RowCopy) (o : Option Nat) : ∃ g, s.rowWritten c o = { s with afterglow := g } ∧
    ∀ i, o = some i → g = memWrite s.afterglow (0x3000 + 8 * i) 8 c.retiredWord := by
  cases o with
  | none => exact ⟨s.afterglow, rfl, fun i hi => absurd hi (by simp)⟩
  | some i => exact ⟨memWrite s.afterglow (0x3000 + 8 * i) 8 c.retiredWord, rfl, fun j hj => by rw [Option.some.inj hj]⟩

/-! ### A channel that fails (R580, R581, R586) -/

/-- The registers that tell of a failed channel. -/
def tellReg (off : Nat) : Prop := off = R.stkErr ∨ off = R.shdErr ∨ off = R.gnmAlert ∨ off = R.rstAg3

/-- The slice tells of something: registers and afterglow memory alone change, and of the registers those. -/
structure Dev.Tells (s t : Dev) : Prop where
  parts : ∃ c g, t = { s with csr := c, afterglow := g }
  regs : ∀ off, ¬ tellReg off → t.reg off = s.reg off

namespace Dev.Tells

theorem refl (s : Dev) : s.Tells s := ⟨⟨s.csr, s.afterglow, rfl⟩, fun _ _ => rfl⟩

theorem trans {s t u : Dev} (h : s.Tells t) (h' : t.Tells u) : s.Tells u := by
  obtain ⟨⟨c, g, hc⟩, hreg⟩ := h
  obtain ⟨⟨c', g', hc'⟩, hreg'⟩ := h'
  exact ⟨⟨c', g', by rw [hc', hc]⟩, fun off hoff => (hreg' off hoff).trans (hreg off hoff)⟩

theorem of_regs {s t : Dev} {P : Nat → Prop} (h : s.RegsChange t P) (hP : ∀ off, P off → tellReg off) : s.Tells t := by
  obtain ⟨⟨c, hc⟩, hreg⟩ := h
  exact ⟨⟨c, s.afterglow, by rw [hc]⟩, fun off hoff => hreg off fun h => hoff (hP off h)⟩

theorem errorRecord (s : Dev) (type unit addr info n : Nat) : s.Tells (s.errorRecord type unit addr info n) := by
  obtain ⟨⟨c, hc⟩, -⟩ := s.errorRecord_change type unit addr info n
  refine ⟨⟨c, _, hc⟩, fun off hoff => s.errorRecord_reg type unit addr info n fun h => hoff ?_⟩
  rcases h with h | h
  · exact .inr (.inr (.inr h))
  · exact .inr (.inr (.inl h))

theorem stkErr (s : Dev) (f : Field) (hf : f.off = R.stkErr) : s.Tells (s.stkErr f) := by
  have hraise : s.RegsChange (s.raise f) tellReg := (Dev.RegsChange.refl s).put f 1 (.inl hf)
  rw [Dev.stkErr]
  split
  · exact of_regs (hraise.alert alertStk (.inr (.inr (.inl rfl)))) fun _ h => h
  · exact of_regs hraise fun _ h => h

end Dev.Tells

/-- The bit of STK_ERR that is set, and those beside it. -/
theorem Dev.stkErr_get (s : Dev) (f : Field) (hlo : f.lo = f.hi) (hhi : f.hi < 64) (hoff : f.off = R.stkErr) :
    (s.stkErr f).get f = 1 ∧ ∀ k : Field, k.off = R.stkErr → (k.hi < f.lo ∨ f.hi < k.lo) → s.get k ≠ 0 → (s.stkErr f).get k = s.get k := by
  have hall : ∀ k : Field, k.off = R.stkErr → (s.stkErr f).get k = (s.raise f).get k := by
    intro k hk
    rw [Dev.stkErr]
    split
    · exact Dev.get_alert _ _ (by rw [hk]; decide)
    · rfl
  refine ⟨(hall f hoff).trans (s.get_raise f hlo hhi), fun k hk hapart hne => (hall k hk).trans ?_⟩
  exact Dev.get_put_kept (g := k) 1 (hoff.trans hk.symm) (by omega) hhi hapart hne (hoff.trans hk.symm) hapart

/-- Registers and afterglow memory changed: a status register with its failed channels and its state, and CH_FAILED set. -/
structure Dev.ChannelTold (s t : Dev) (chF stF : Field) (mask st : Nat) : Prop where
  parts : ∃ c g, t = { s with csr := c, afterglow := g }
  failed : t.get chF = mask
  state : t.get stF = st
  err : t.get F.stkErr_CH_FAILED = 1

/-- The two fields of a status register. -/
structure StatusFields (chF stF : Field) : Prop where
  same : chF.off = stF.off
  untold : ¬ tellReg stF.off
  ch : chF.hi = 63 ∧ chF.lo = 32
  st : stF.hi = 2 ∧ stF.lo = 0

namespace Dev.ChannelTold

variable {s t u : Dev} {chF stF : Field} {mask st : Nat}

theorem tells (h : s.ChannelTold t chF stF mask st) (hf : StatusFields chF stF) (hu : t.Tells u) (herr : u.get F.stkErr_CH_FAILED = 1) :
    s.ChannelTold u chF stF mask st where
  parts := by
    obtain ⟨c, g, hc⟩ := h.parts
    obtain ⟨c', g', hc'⟩ := hu.parts
    exact ⟨c', g', by rw [hc', hc]⟩
  failed := (Dev.get_congr (hu.regs _ (by rw [hf.same]; exact hf.untold))).trans h.failed
  state := (Dev.get_congr (hu.regs _ hf.untold)).trans h.state
  err := herr

end Dev.ChannelTold

theorem Dev.errorRecord_stkErr (s : Dev) (unit info : Nat) : (s.errorRecord 0x0A unit 0 info).get F.stkErr_CH_FAILED = s.get F.stkErr_CH_FAILED :=
  Dev.get_congr (s.errorRecord_reg _ _ _ _ _ (by rw [recordReg]; decide))

/-- A channel is noted as failed. -/
def Dev.channelNoted (s : Dev) (chF : Field) (ch unit : Nat) : Dev :=
  ((s.put chF (s.get chF ||| 2 ^ ch)).stkErr F.stkErr_CH_FAILED).errorRecord 0x0A unit 0 0

theorem Dev.or_bit_lt (s : Dev) {chF stF : Field} (hf : StatusFields chF stF) {ch : Nat} (hch : ch < 32) :
    (s.get chF ||| 2 ^ ch) < 2 ^ 32 ∧ (s.get chF ||| 2 ^ ch) ≠ 0 := by
  obtain ⟨hhi, hlo⟩ := hf.ch
  have hlt := s.get_lt chF
  rw [hhi, hlo] at hlt
  have hbit : (s.get chF ||| 2 ^ ch).testBit ch = true := by simp
  exact ⟨Nat.or_lt_two_pow hlt (Nat.pow_lt_pow_right (by decide) hch), fun h => by simp [h] at hbit⟩

theorem Dev.channelNoted_told {s : Dev} (hwf : s.registersWf = true) {chF stF : Field} (hf : StatusFields chF stF) {ch : Nat} (hch : ch < 32)
    (unit : Nat) : s.ChannelTold (s.channelNoted chF ch unit) chF stF (s.get chF ||| 2 ^ ch) (s.get stF) := by
  obtain ⟨hhi, hlo⟩ := hf.ch
  obtain ⟨hhi', hlo'⟩ := hf.st
  obtain ⟨hlt, -⟩ := s.or_bit_lt hf hch
  have hch : (s.put chF (s.get chF ||| 2 ^ ch)).get chF = s.get chF ||| 2 ^ ch := by
    rw [s.get_put chF _ hwf (by omega) (by omega), hhi, hlo, Nat.mod_eq_of_lt hlt]
  have hst : (s.put chF (s.get chF ||| 2 ^ ch)).get stF = s.get stF :=
    s.get_put_field chF stF _ hwf hf.same (by omega) (by omega) (by omega)
  have hparts : ∃ c g, s.put chF (s.get chF ||| 2 ^ ch) = { s with csr := c, afterglow := g } := ⟨_, s.afterglow, rfl⟩
  rw [Dev.channelNoted]
  generalize s.put chF (s.get chF ||| 2 ^ ch) = u at hch hst hparts
  have herr := (u.stkErr_get F.stkErr_CH_FAILED rfl (by decide) rfl).1
  have htells := Dev.Tells.stkErr u F.stkErr_CH_FAILED rfl
  have hrecord := Dev.Tells.errorRecord (u.stkErr F.stkErr_CH_FAILED) 0x0A unit 0 0 1
  have hkept := (u.stkErr F.stkErr_CH_FAILED).errorRecord_stkErr unit 0
  obtain ⟨c, g, hc⟩ := hparts
  obtain ⟨c', g', hc'⟩ := (htells.trans hrecord).parts
  exact {
    parts := ⟨c', g', by rw [hc', hc]⟩
    failed := (Dev.get_congr ((htells.trans hrecord).regs _ (by rw [hf.same]; exact hf.untold))).trans hch
    state := (Dev.get_congr ((htells.trans hrecord).regs _ hf.untold)).trans hst
    err := hkept.trans herr }

/-- A stack is noted as failed. -/
def Dev.stackNoted (s : Dev) (stF : Field) (unit : Nat) : Dev := ((s.put stF 4).stkErr F.stkErr_STACK_FAILED).errorRecord 0x0A unit 0 1

theorem Dev.ChannelTold.stackNoted {s t : Dev} {chF stF : Field} {mask st : Nat} (h : s.ChannelTold t chF stF mask st)
    (hf : StatusFields chF stF) (hmask : mask ≠ 0) (unit : Nat) : s.ChannelTold (t.stackNoted stF unit) chF stF mask 4 := by
  obtain ⟨hhi, hlo⟩ := hf.ch
  obtain ⟨hhi', hlo'⟩ := hf.st
  have hset : t.get chF ≠ 0 := by rwa [h.failed]
  have hst : (t.put stF 4).get stF = 4 := by
    rw [t.get_put_beside (g := chF) 4 hf.same.symm (by omega) (by omega) (by omega) hset, hhi', hlo']
    rfl
  have hch : (t.put stF 4).get chF = mask :=
    (t.get_put_kept (g := chF) 4 hf.same.symm (by omega) (by omega) (by omega) hset hf.same.symm (by omega)).trans h.failed
  have herr : (t.put stF 4).get F.stkErr_CH_FAILED = 1 := by
    rw [t.get_put_other stF _ 4 fun hoff => hf.untold (.inl hoff)]
    exact h.err
  have hput : s.ChannelTold (t.put stF 4) chF stF mask 4 := by
    obtain ⟨c, g, hc⟩ := h.parts
    exact ⟨⟨(t.put stF 4).csr, g, by rw [hc]; rfl⟩, hch, hst, herr⟩
  rw [Dev.stackNoted]
  generalize t.put stF 4 = u at hput herr
  have hkept : (u.stkErr F.stkErr_STACK_FAILED).get F.stkErr_CH_FAILED = 1 :=
    ((u.stkErr_get F.stkErr_STACK_FAILED rfl (by decide) rfl).2 F.stkErr_CH_FAILED rfl (.inl (by decide)) (by rw [herr]; decide)).trans herr
  have hraised := hput.tells hf (Dev.Tells.stkErr u F.stkErr_STACK_FAILED rfl) hkept
  exact hraised.tells hf (Dev.Tells.errorRecord _ _ _ _ _ _) ((Dev.errorRecord_stkErr _ _ _).trans hkept)

/-- The members of the set are told where a shadowed region stands. -/
def Dev.memberNoted (s : Dev) (shadowed : Bool) : Dev :=
  if shadowed then (s.raise F.shdErr_MEMBER_FAILED).alert alertShd else s

theorem Dev.ChannelTold.memberNoted {s t : Dev} {chF stF : Field} {mask st : Nat} (h : s.ChannelTold t chF stF mask st)
    (hf : StatusFields chF stF) (b : Bool) : s.ChannelTold (t.memberNoted b) chF stF mask st := by
  have hchange : t.RegsChange ((t.raise F.shdErr_MEMBER_FAILED).alert alertShd) (fun off => off = R.shdErr ∨ off = R.gnmAlert) :=
    ((Dev.RegsChange.refl t).put F.shdErr_MEMBER_FAILED 1 (.inl rfl)).alert alertShd (.inr rfl)
  unfold Dev.memberNoted
  split
  · refine h.tells hf (Dev.Tells.of_regs hchange fun off hoff => ?_) ((Dev.get_congr (hchange.2 _ (by decide))).trans h.err)
    rcases hoff with hoff | hoff
    · exact .inr (.inl hoff)
    · exact .inr (.inr (.inl hoff))
  · exact h

/-- What is noted of a failed channel, and of its stack with the second one. -/
def Dev.failureNoted (s : Dev) (chF stF : Field) (ch unit : Nat) : Dev :=
  (if 2 ≤ popCount 32 (s.get chF ||| 2 ^ ch) then (s.channelNoted chF ch unit).stackNoted stF unit
    else s.channelNoted chF ch unit).memberNoted ((List.range 64).any (fun k => (s.region k).shadowed))

theorem Dev.failureNoted_told {s : Dev} (hwf : s.registersWf = true) {chF stF : Field} (hf : StatusFields chF stF) {ch : Nat} (hch : ch < 32)
    (unit : Nat) : s.ChannelTold (s.failureNoted chF stF ch unit) chF stF (s.get chF ||| 2 ^ ch)
      (if 2 ≤ popCount 32 (s.get chF ||| 2 ^ ch) then 4 else s.get stF) := by
  have htold := s.channelNoted_told hwf hf hch unit
  unfold Dev.failureNoted
  split
  · exact (htold.stackNoted hf (s.or_bit_lt hf hch).2 unit).memberNoted hf _
  · exact htold.memberNoted hf _

/-- The reads and writes of a failed channel end (R580, R615). -/
def Dev.channelCut (s : Dev) : Dev :=
  { s with
    stack.reads := s.stack.reads.map (fun r => if s.channelFailed r.grp then { r with dead := true, issued := true } else r)
    stack.writes := s.stack.writes.map (fun w => if s.channelFailed (w.pc / 2) then { w with issued := true } else w) }

theorem Dev.channelFail_eq (s : Dev) (k ch : Nat) : s.channelFail k ch =
    (s.failureNoted (if k == 0 then F.stkStatus0_CH_FAILED else F.stkStatus1_CH_FAILED)
      (if k == 0 then F.stkStatus0_STATE else F.stkStatus1_STATE) ch (k * 32 + ch)).channelCut := by
  simp only [Dev.channelFail, Dev.failureNoted, Dev.memberNoted, Dev.stackNoted, Dev.channelNoted, Dev.channelCut]
  rfl

theorem Dev.channelFailed_congr {s u : Dev} (h : u.csr = s.csr) (grp : Nat) : u.channelFailed grp = s.channelFailed grp := by
  have hget : ∀ f : Field, u.get f = s.get f := fun f => Dev.get_congr (by rw [Dev.reg, Dev.reg, h])
  simp only [Dev.channelFailed, hget]

theorem statusFields (k : Fin 2) : StatusFields (if k = 0 then F.stkStatus0_CH_FAILED else F.stkStatus1_CH_FAILED)
    (if k = 0 then F.stkStatus0_STATE else F.stkStatus1_STATE) := by
  obtain rfl | rfl : k = 0 ∨ k = 1 := by omega
  · exact ⟨rfl, by rw [tellReg]; decide, ⟨rfl, rfl⟩, ⟨rfl, rfl⟩⟩
  · exact ⟨rfl, by rw [tellReg]; decide, ⟨rfl, rfl⟩, ⟨rfl, rfl⟩⟩

/-- Settles O51: a write by the commit that stores it, a copy by the remap of its row, a channel by what is noted of it. -/
theorem stackEventsAreTaken : Obligations.StackEventsAreTaken := by
  refine ⟨fun w s hq hid hd hissued hup hwf hwb hparity => ?_, fun c s hc => ?_, fun k ch s hwf => ?_⟩
  · refine ⟨{ s with toDev := s.commitWrite w }, next_congr (Dev.dramWriteDone_stores hq hid hd hissued hup hwb hparity), ?_, ?_, rfl⟩
    · exact Dev.commitWrite_dram hwf w
    · exact s.commitWrite_poison w
  · obtain ⟨g, hg, hrow⟩ := (s.rowRetired c c.remap).rowWritten_parts c (s.rowFind c.rowAddr.toNat)
    obtain ⟨x, hx⟩ := s.rowRetired_parts c c.remap
    obtain ⟨hcount, herr⟩ := s.rowRetired_counts c c.remap
    have hglow : (s.rowRetired c c.remap).afterglow = s.afterglow := by rw [hx]; rfl
    have hexec : exec (.retirementCopyDone []) s = .next { s with toDev := { s.rowRetired c c.remap with afterglow := g } } :=
      next_congr ((Dev.copyDone_nil hc).trans hg)
    rw [hglow] at hrow
    generalize s.rowRetired c c.remap = u at hx hcount herr hexec
    subst hx
    exact ⟨_, hexec, rfl, rfl, hcount, herr, hrow, rfl⟩
  · have htold := Dev.failureNoted_told hwf (statusFields k) ch.isLt (k.val * 32 + ch.val)
    have hk : (k.val == 0) = decide (k = 0) := by
      obtain rfl | rfl : k = 0 ∨ k = 1 := by omega
      · rfl
      · rfl
    have hexec : exec (.channelFail k ch) s = .next { s with toDev :=
        (s.failureNoted (if k = 0 then F.stkStatus0_CH_FAILED else F.stkStatus1_CH_FAILED)
          (if k = 0 then F.stkStatus0_STATE else F.stkStatus1_STATE) ch.val (k.val * 32 + ch.val)).channelCut } :=
      next_congr ((s.channelFail_eq k.val ch.val).trans (by simp only [hk, decide_eq_true_eq]))
    generalize s.failureNoted (if k = 0 then F.stkStatus0_CH_FAILED else F.stkStatus1_CH_FAILED)
      (if k = 0 then F.stkStatus0_STATE else F.stkStatus1_STATE) ch.val (k.val * 32 + ch.val) = u at htold hexec
    have hfailed := Dev.channelFailed_congr (s := u) (u := u.channelCut) rfl
    obtain ⟨⟨c, g, hu⟩, hch, hst, herr⟩ := htold
    refine ⟨_, hexec, hch, hst, herr, ?_, ?_, ?_⟩
    · simp only [hfailed]
      rw [Dev.channelCut, hu]
    · simp only [hfailed]
      rw [Dev.channelCut, hu]
    · rw [Dev.channelCut, hu]

end Sys2Proof.Machine
end


section
/-! PROOFS. Mirror copies at the buddy, and parity updates. -/

namespace Sys2Proof.Machine

/-! ### The mirror way of a sector (R606) -/

/-- Whether a way holds a mirrored sector. -/
def Dev.holdsMirror (s : Dev) (grp sector w : Nat) : Bool :=
  match s.line (s.fuse.owner grp) (s.placeAt grp sector true).set w with
  | some l => l.tag == (s.placeAt grp sector true).tag && l.group == (s.placeAt grp sector true).group
  | none => false

theorem Dev.mirrorWay_eq (s : Dev) (grp sector : Nat) : s.mirrorWay grp sector =
    match (s.waysOf (s.fuse.owner grp) clsMirror).find? (s.holdsMirror grp sector) with
    | some w => some w
    | none => (s.waysOf (s.fuse.owner grp) clsMirror).find? (fun w =>
        (s.line (s.fuse.owner grp) (s.placeAt grp sector true).set w).isNone) := rfl

theorem Dev.mirrorWay_mem {s : Dev} {grp sector w : Nat} (h : s.mirrorWay grp sector = some w) :
    w ∈ s.waysOf (s.fuse.owner grp) clsMirror := by
  rw [Dev.mirrorWay_eq] at h
  split at h
  case h_1 w' hw' =>
    obtain rfl := Option.some.inj h
    exact List.mem_of_find?_eq_some hw'
  · exact List.mem_of_find?_eq_some h

/-- The mirror way of a sector that a mirror way holds is that way. -/
theorem Dev.mirrorWay_held {s : Dev} {grp sector w : Nat} (h : s.mirrorWay grp sector = some w) (hheld : s.holdsMirror grp sector w = true) :
    (s.waysOf (s.fuse.owner grp) clsMirror).find? (s.holdsMirror grp sector) = some w := by
  have hmem := Dev.mirrorWay_mem h
  rw [Dev.mirrorWay_eq] at h
  split at h
  case h_1 w' hw' => exact hw'.trans h
  case h_2 hnone => exact absurd hheld (List.find?_eq_none.1 hnone w hmem)

theorem Dev.unscathed_parts {s : Dev} (h : s.unscathed = true) : s.cache.tagUpset = [] ∧ s.cache.dirUpset = [] ∧ s.cache.dataBad = [] := by
  simp only [Dev.unscathed, Bool.and_eq_true, List.isEmpty_iff] at h
  obtain ⟨⟨⟨htags, hdirs⟩, hdata⟩, -⟩ := h
  exact ⟨htags, hdirs, hdata⟩

theorem Dev.mirrorTags_of_sound {s : Dev} (h : s.unscathed = true) (grp sector : Nat) : s.mirrorTags grp sector = s := by
  obtain ⟨htags, -, -⟩ := Dev.unscathed_parts h
  rw [Dev.mirrorTags, Dev.readTags, htags]
  rfl

/-! ### MIRROR_PUT (R601, R606, R608) -/

theorem onesOf_pow (i : BitVec 2) : onesOf 4 (BitVec.ofNat 4 (2 ^ i.toNat)).toNat = [i.toNat] ∧
    popCount 4 (BitVec.ofNat 4 (2 ^ i.toNat)).toNat = 1 := by
  revert i
  decide

/-- The line of a mirror way that takes one sub-block. -/
def Dev.mirrorLine (s : Dev) (grp sector w i : Nat) (x : Sub) : Line :=
  ({ (s.line (s.fuse.owner grp) (s.placeAt grp sector true).set w).getD (emptyLine (s.placeAt grp sector true) 0) with
    age := 0 } : Line).setSub i true true x

theorem Dev.mirrorStore_one {s : Dev} (hsound : s.unscathed = true) {grp sector w : Nat} (hway : s.mirrorWay grp sector = some w) (i : BitVec 2)
    (x : Sub) (rc : Option AtomicRecord) : s.mirrorStore grp sector (BitVec.ofNat 4 (2 ^ i.toNat)) [x] rc = some { s with
      cache.lines := tset s.cache.lines (lineKey (s.fuse.owner grp) (s.placeAt grp sector true).set w) (s.mirrorLine grp sector w i.toNat x)
      shadow.records := s.shadow.records ++ (rc.map (fun a => (recordKey grp sector, a))).toList } := by
  obtain ⟨htags, -, hdata⟩ := Dev.unscathed_parts hsound
  have hrecords : ({ s.shadow with records := s.shadow.records ++ [] } : Shadow) = s.shadow := by rw [List.append_nil]
  rw [Dev.mirrorStore, hway, (onesOf_pow i).1]
  simp only [List.zip_cons_cons, List.zip_nil_right, List.foldl_cons, List.foldl_nil, Dev.each_cons, Dev.each_nil, Dev.setLine, Dev.heal,
    htags, hdata, tdel]
  cases rc with
  | none =>
    simp only [Option.map_none, Option.toList_none, hrecords]
    rfl
  | some r => rfl

theorem Dev.active_not_eclipse {s : Dev} (h : s.active = true) : (s.phase == .eclipse) = false := by
  rw [Dev.active] at h
  cases hphase : s.phase with
  | eclipse => rw [hphase] at h; exact absurd h (by decide)
  | _ => rfl

/-- The slice that has pulled a mirror copy, stored it, and answered its receipt. -/
def Dev.mirrored (s : Dev) (q : Pos) (txid : BitVec 12) (grp sector w i : Nat) (x : Sub) (rc : Option AtomicRecord) : Dev :=
  { s with
    cache.lines := tset s.cache.lines (lineKey (s.fuse.owner grp) (s.placeAt grp sector true).set w) (s.mirrorLine grp sector w i x)
    shadow.records := s.shadow.records ++ (rc.map (fun a => (recordKey grp sector, a))).toList
    outbox := s.outbox ++ [Msg.pull (sliceAgent q.toNat) txid, Msg.comp q.toNat txid [.ok]] }

theorem Dev.mirrorPutIn_one {s : Dev} (hactive : s.active = true) (hsound : s.unscathed = true) {grp sector w : Nat}
    (hway : s.mirrorWay grp sector = some w) (q : Pos) (txid : BitVec 12) (i : BitVec 2) (x : Sub) (rc : Option AtomicRecord) :
    s.mirrorPutIn q txid sector (BitVec.ofNat 4 (2 ^ i.toNat)) grp [x] rc false = s.mirrored q txid grp sector w i.toNat x rc := by
  rw [Dev.mirrorPutIn, Dev.mirrorTags_of_sound hsound]
  simp only [Dev.active_not_eclipse hactive, Bool.false_eq_true, if_false, Dev.mirrorStore_one hsound hway, (onesOf_pow i).2,
    List.replicate_one, Dev.send, List.append_assoc, List.singleton_append, Dev.mirrored]

/-- A sector's place has the set of the sector. -/
theorem Dev.sector_set (s : Dev) (grp d : Nat) (shadowed : Bool) : (s.placeAt grp (d / 256 * 256) shadowed).set = setIndex (d / 256 * 256) := by
  have hround : d / 256 * 256 / 64 * 64 = d / 256 * 256 := by omega
  rw [Place.set, Dev.placeAt, hround]

theorem Dev.mirrorLine_holds (s : Dev) (grp sector w : Nat) (i : BitVec 2) (x : Sub) :
    (s.mirrorLine grp sector w i.toNat x).isDirty i.toNat = true ∧ Sector.sub (s.mirrorLine grp sector w i.toNat x).data i.toNat = x ∧
      (s.mirrorLine grp sector w i.toNat x).age = 0 :=
  ⟨Line.isDirty_setSub _ i.isLt true true x, Sector.sub_put _ i.isLt x, rfl⟩

/-! ### MIRROR_RELEASE (R609) -/

/-- A line all of whose sub-blocks are dropped holds none. -/
theorem Line.dropSub_all (l : Line) : ([0, 1, 2, 3].foldl Line.dropSub l).valid = 0 ∧ ([0, 1, 2, 3].foldl Line.dropSub l).dirty = 0 := by
  have hclear : ∀ v : BitVec 4, (BitVec.ofNat 4 (withBits (BitVec.ofNat 4 (withBits (BitVec.ofNat 4 (withBits (BitVec.ofNat 4
      (withBits v.toNat 0 0 0)).toNat 1 1 0)).toNat 2 2 0)).toNat 3 3 0)) = 0 := by decide
  exact ⟨hclear l.valid, hclear l.dirty⟩

theorem Dev.mirrorFree_eq (s : Dev) (grp sector : Nat) (subs : BitVec 4) : s.mirrorFree grp sector subs =
    match (s.waysOf (s.fuse.owner grp) clsMirror).find? (s.holdsMirror grp sector) with
    | none => s
    | some w =>
      let s1 := s.updLine (s.fuse.owner grp) (s.placeAt grp sector true).set w (fun l => (onesOf 4 subs.toNat).foldl Line.dropSub l)
      if (s1.line (s.fuse.owner grp) (s.placeAt grp sector true).set w).isNone then
        { s1 with shadow.records := s1.shadow.records.filter (fun r => r.1 != recordKey grp sector) }
      else s1 := rfl

theorem Dev.mirrorFree_all {s : Dev} (hsound : s.unscathed = true) {grp sector w : Nat} (hway : s.mirrorWay grp sector = some w) {l : Line}
    (hlines : s.cache.lines = [(lineKey (s.fuse.owner grp) (s.placeAt grp sector true).set w, l)])
    (htag : l.tag = (s.placeAt grp sector true).tag) (hgroup : l.group = (s.placeAt grp sector true).group) :
    s.mirrorFree grp sector 0xF = { s with
      cache.lines := [], shadow.records := s.shadow.records.filter (fun r => r.1 != recordKey grp sector) } := by
  obtain ⟨htags, -, hdata⟩ := Dev.unscathed_parts hsound
  have hline : s.line (s.fuse.owner grp) (s.placeAt grp sector true).set w = some l := by
    simp [Dev.line, hlines, tget]
  have hheld : s.holdsMirror grp sector w = true := by
    rw [Dev.holdsMirror, hline]
    simp [htag, hgroup]
  have hfind := Dev.mirrorWay_held hway hheld
  have hones : onesOf 4 (0xF : BitVec 4).toNat = [0, 1, 2, 3] := by decide
  obtain ⟨hvalid, hdirty⟩ := l.dropSub_all
  have hdel : s.updLine (s.fuse.owner grp) (s.placeAt grp sector true).set w (fun l => [0, 1, 2, 3].foldl Line.dropSub l) =
      { s with cache.lines := [] } := by
    rw [Dev.updLine, hline]
    simp only [hvalid, hdirty, beq_self_eq_true, Bool.and_self, if_true, Dev.delLine, hlines, htags, hdata, tdel, List.filter_nil]
  rw [Dev.mirrorFree_eq, hfind]
  simp only [hones, hdel]
  rfl

/-! ### PARITY_DELTA and PARITY_RELEASE (R597, R598, R600) -/

theorem Dev.busUse_reads (s : Dev) (pc : Nat) (c : DramClass) (n : Nat) : (s.busUse pc c n).stack.reads = s.stack.reads := by
  obtain ⟨r, hr⟩ := Dev.event_eq (s.busTaken pc c n) evBus pc none (s.busCycles n)
  have hbus : s.busUse pc c n = { s.busTaken pc c n with csr := r } := hr
  rw [hbus]
  rfl

/-- A read of the stack is queued last. -/
theorem Dev.issueRead_queued (s : Dev) (grp sector : Nat) (subs : BitVec 4) (shadowed : Bool) (c : DramClass) (why : ReadFor) :
    Aside s (s.issueRead grp sector subs shadowed c why).2 ∧
      ∃ r, (s.issueRead grp sector subs shadowed c why).2.stack.reads = s.stack.reads ++ [r] ∧ r.why = why ∧ r.sector = sector := by
  have hqueued : ∀ id x, Aside s { s with nextId := id, stack.reads := s.stack.reads ++ [x] } :=
    fun _ _ => ⟨fun _ _ => rfl, rfl, rfl, rfl, rfl, rfl, rfl, rfl, rfl, rfl, rfl, rfl⟩
  unfold Dev.issueRead
  dsimp only
  split
  · exact ⟨(hqueued _ _).trans (Dev.busUse_aside _ _ _ _), _, Dev.busUse_reads _ _ _ _, rfl, rfl⟩
  · exact ⟨hqueued _ _, _, rfl, rfl, rfl⟩

/-- A write of the stack is queued last, with its data and what it is for. -/
theorem Dev.issueWrite_for (s : Dev) (grp d : Nat) (data : Sub) (poison : Bool) (c : DramClass) (why : WriteFor) :
    ∃ w, (s.issueWrite grp d data poison c why).2.stack.writes = s.stack.writes ++ [w] ∧ w.why = why ∧ w.d = d ∧ w.poison = poison ∧
      (poison = false → w.data = data) := by
  unfold Dev.issueWrite
  dsimp only
  split
  · exact ⟨_, (Dev.busUse_queues _ _ _ _).2, rfl, rfl, rfl, fun h => by rw [h]; rfl⟩
  · exact ⟨_, rfl, rfl, rfl, rfl, fun h => by rw [h]; rfl⟩

theorem Dev.busUse_reg (s : Dev) (pc : Nat) (c : DramClass) (n : Nat) {off : Nat} (h : ¬ counterReg off) :
    (s.busUse pc c n).reg off = s.reg off :=
  ((Dev.RegsChange.refl (s.busTaken pc c n)).event (P := counterReg) (fun _ h => h) evBus pc none (s.busCycles n)).2 off h

/-- A write that is queued counts alone. -/
theorem Dev.issueWrite_reg (s : Dev) (grp d : Nat) (data : Sub) (poison : Bool) (c : DramClass) (why : WriteFor) {off : Nat}
    (h : ¬ counterReg off) : (s.issueWrite grp d data poison c why).2.reg off = s.reg off := by
  unfold Dev.issueWrite
  dsimp only
  split
  · rw [Dev.busUse_reg _ _ _ _ h]
    rfl
  · rfl

/-- A delta of a sub-block that no update is for, as the update that opens. -/
def openedParity (s : Dev) (q : Pos) (txid : BitVec 12) (d : Nat) (x : Sub) (bad : Bool) : ParityOp :=
  { id := s.nextId, d := d, deltas := [(q, txid, x, bad)], started := false, writing := false, recompute := false }

/-- The slice that has pulled the delta and opened the update. -/
def Dev.deltaTaken (s : Dev) (q : Pos) (txid : BitVec 12) (d : Nat) (x : Sub) (bad : Bool) : Dev :=
  { s with nextId := s.nextId + 1, shadow.parity := [openedParity s q txid d x bad], outbox := s.outbox ++ [.pull (sliceAgent q.toNat) txid] }

theorem Dev.parityArrive_opens {s : Dev} (hnone : s.shadow.parity = []) (q : Pos) (txid : BitVec 12) (d : Nat) (x : Sub) (bad : Bool) :
    s.parityArrive q txid d x bad false = (s.deltaTaken q txid d x bad).parityBegin (openedParity s q txid d x bad) := by
  have hrun : (s.deltaTaken q txid d x bad).parityRun = (s.deltaTaken q txid d x bad).parityBegin (openedParity s q txid d x bad) := by
    rw [Dev.parityRun, Dev.deltaTaken]
    rfl
  rw [← hrun, Dev.parityArrive]
  simp only [Bool.false_eq_true, if_false, Dev.send, hnone, List.find?_nil, List.nil_append]
  rfl

/-- Room for the one update. -/
theorem Dev.deltaTaken_room {s : Dev} (hroom : s.shadow.deltas.length < 4096) (q : Pos) (txid : BitVec 12) (d : Nat) (x : Sub) (bad : Bool) :
    ((openedParity s q txid d x bad).started ||
      (s.deltaTaken q txid d x bad).shadow.parity.any (fun y => y.d == (openedParity s q txid d x bad).d && y.started) ||
      decide (16 ≤ (s.deltaTaken q txid d x bad).parityBusy ((s.deltaTaken q txid d x bad).fuse.owner (facetGroup d 0))) ||
      decide (4096 < (s.deltaTaken q txid d x bad).recordsTaken + (openedParity s q txid d x bad).deltas.length)) = false := by
  have hbusy : ∀ f, (s.deltaTaken q txid d x bad).parityBusy f = 0 := fun _ => rfl
  have htaken : (s.deltaTaken q txid d x bad).recordsTaken = s.shadow.deltas.length := rfl
  have hone : (openedParity s q txid d x bad).deltas.length = 1 := rfl
  have hany : (s.deltaTaken q txid d x bad).shadow.parity.any (fun y => y.d == (openedParity s q txid d x bad).d && y.started) = false := by
    simp [Dev.deltaTaken, openedParity]
  rw [hany, hbusy, htaken, hone, decide_eq_false (show ¬ 16 ≤ 0 by decide), decide_eq_false (show ¬ 4096 < s.shadow.deltas.length + 1 by omega)]
  rfl

/-- The update is under way. -/
def Dev.deltaStarted (s : Dev) (q : Pos) (txid : BitVec 12) (d : Nat) (x : Sub) (bad writes : Bool) : Dev :=
  { s.deltaTaken q txid d x bad with shadow.parity := [{ openedParity s q txid d x bad with started := true, writing := writes }] }

theorem Dev.updParity_opened (s : Dev) (q : Pos) (txid : BitVec 12) (d : Nat) (x : Sub) (bad : Bool) (g : ParityOp → ParityOp) :
    (s.deltaTaken q txid d x bad).updParity (openedParity s q txid d x bad).id g =
      { s.deltaTaken q txid d x bad with shadow.parity := [g (openedParity s q txid d x bad)] } := by
  simp [Dev.updParity, Dev.deltaTaken]

/-- An update that has room starts: a set of 2 writes the copy, a larger one reads the old parity. -/
theorem Dev.parityBegin_of_room {u : Dev} {o : ParityOp} (h : (o.started || u.shadow.parity.any (fun x => x.d == o.d && x.started) ||
    decide (16 ≤ u.parityBusy (u.fuse.owner (facetGroup o.d 0))) || decide (4096 < u.recordsTaken + o.deltas.length)) = false) :
    u.parityBegin o = if u.setSize == 2 then
      ((u.updParity o.id (fun x => { x with started := true, writing := true })).issueWrite (facetGroup o.d 0) o.d
        (o.deltas.getLastD (0, 0, 0, false)).2.2.1 (o.deltas.getLastD (0, 0, 0, false)).2.2.2 .demand (.parity o.id)).2.recordDeltas o
    else ((u.updParity o.id (fun x => { x with started := true })).issueRead (facetGroup o.d 0) (o.d / 256 * 256)
        (BitVec.ofNat 4 (2 ^ ((o.d / 64) % 4))) true .demand (.parity o.id)).2 := by
  rw [Dev.parityBegin]
  simp only []
  rw [h, if_neg Bool.false_ne_true]

/-- In a set of more than two the update reads the old parity first. -/
theorem Dev.parityArrive_reads {s : Dev} (hnone : s.shadow.parity = []) (hroom : s.shadow.deltas.length < 4096) (hset : s.setSize ≠ 2)
    (q : Pos) (txid : BitVec 12) (d : Nat) (x : Sub) (bad : Bool) : s.parityArrive q txid d x bad false =
      ((s.deltaStarted q txid d x bad false).issueRead (facetGroup d 0) (d / 256 * 256) (BitVec.ofNat 4 (2 ^ ((d / 64) % 4))) true .demand
        (.parity s.nextId)).2 := by
  have hset' : ((s.deltaTaken q txid d x bad).setSize == 2) = false := beq_false_of_ne hset
  rw [Dev.parityArrive_opens hnone, Dev.parityBegin_of_room (Dev.deltaTaken_room hroom q txid d x bad), hset', if_neg Bool.false_ne_true,
    Dev.updParity_opened]
  rfl

/-- In a set of two the copy is written at once, and the delta recorded. -/
theorem Dev.parityArrive_writes {s : Dev} (hnone : s.shadow.parity = []) (hroom : s.shadow.deltas.length < 4096) (hset : s.setSize = 2)
    (q : Pos) (txid : BitVec 12) (d : Nat) (x : Sub) (bad : Bool) : s.parityArrive q txid d x bad false =
      ((s.deltaStarted q txid d x bad true).issueWrite (facetGroup d 0) d x bad .demand (.parity s.nextId)).2.recordDeltas
        (openedParity s q txid d x bad) := by
  have hset' : ((s.deltaTaken q txid d x bad).setSize == 2) = true := beq_iff_eq.2 hset
  rw [Dev.parityArrive_opens hnone, Dev.parityBegin_of_room (Dev.deltaTaken_room hroom q txid d x bad), hset', if_pos rfl,
    Dev.updParity_opened]
  rfl

/-- The one delta of a live slice is recorded. -/
theorem Dev.recordDeltas_one {u : Dev} {q : Pos} (hlive : u.isLost q.toNat = false) (s : Dev) (txid : BitVec 12) (d : Nat) (x : Sub) (bad : Bool) :
    ∃ c, u.recordDeltas (openedParity s q txid d x bad) =
      { u with csr := c, shadow.deltas := u.shadow.deltas ++ [{ sender := q, txid := txid, d := d }] } := by
  have hpeak : ∀ (v : Dev) (n : Nat), ∃ c, v.peak F.shdRecords_PEAK n = { v with csr := c } := by
    intro v n
    rw [Dev.peak]
    split
    · exact ⟨_, rfl⟩
    · exact ⟨v.csr, rfl⟩
  have hrecs : ((openedParity s q txid d x bad).deltas.filter (fun e => !u.isLost e.1.toNat)).map
      (fun e => ({ sender := e.1, txid := e.2.1, d := (openedParity s q txid d x bad).d } : DeltaRec)) =
      [{ sender := q, txid := txid, d := d }] := by
    simp [openedParity, hlive]
  rw [Dev.recordDeltas, hrecs]
  exact hpeak _ _

theorem Dev.isLost_congr {s u : Dev} (h : u.reg R.shdStatus = s.reg R.shdStatus) (p : Nat) : u.isLost p = s.isLost p := by
  rw [Dev.isLost, Dev.isLost, Dev.get_congr h]

theorem onDevAt_of_lt {s : State} {d : Nat} {f : Dev → Dev} {u : Dev} (h : d < deviceEnd) (hf : f s.toDev = u) :
    s.onDevAt d f = .next { s with toDev := u } := by
  rw [State.onDevAt, if_neg (by rw [deviceEnd] at h; omega), State.onDev, hf]

/-- Settles O52: a mirror copy by the way it takes, a delta by the update it opens. -/
theorem shadowCopiesAreKept : Obligations.ShadowCopiesAreKept := by
  refine ⟨fun q txid d i grp x rc w s hactive hheard hsound hd hway => ⟨?_, fun l hbuddy hlines htag hgroup => ?_⟩,
    fun q txid d x bad s hactive hlive hd halign hnone => ?_⟩
  · have hexec : exec (.mirrorPut q txid d (BitVec.ofNat 4 (2 ^ i.toNat)) grp [x] rc) s =
        .next { s with toDev := s.mirrored q txid grp.toNat (d.toNat / 256 * 256) w i.toNat x rc } :=
      onDevAt_of_lt hd (by simp only [hactive, hheard, Bool.not_true, Bool.or_self, Bool.false_eq_true, if_false,
        Dev.mirrorPutIn_one hactive hsound hway])
    have hline : (s.mirrored q txid grp.toNat (d.toNat / 256 * 256) w i.toNat x rc).line (s.fuse.owner grp.toNat)
        (setIndex (d.toNat / 256 * 256)) w = some (s.mirrorLine grp.toNat (d.toNat / 256 * 256) w i.toNat x) := by
      rw [← s.sector_set grp.toNat d.toNat true, Dev.line, Dev.mirrored, tget_tset, if_pos rfl]
    exact ⟨_, hexec, rfl, ⟨_, hline, s.mirrorLine_holds grp.toNat (d.toNat / 256 * 256) w i x⟩, rfl, rfl⟩
  · rw [← s.sector_set grp.toNat d.toNat true] at hlines
    refine onDevAt_of_lt hd ?_
    rw [hbuddy] at hheard
    simp only [hactive, hheard, hbuddy, Bool.not_true, Bool.or_self, bne_self_eq_false, Bool.false_eq_true, if_false, Dev.mirrorReleaseIn,
      Dev.mirrorTags_of_sound hsound, Dev.active_not_eclipse hactive, Dev.mirrorFree_all hsound hway hlines htag hgroup]
  · have hheard : s.deaf q.toNat = false := by rw [Dev.deaf, hlive, Bool.and_false]
    have hround : d.toNat / 64 * 64 = d.toNat := by omega
    have hdelta : exec (.parityDelta q txid d x bad) s = .next { s with toDev := s.parityArrive q txid d.toNat x bad false } :=
      onDevAt_of_lt hd (by simp [hactive, hheard, hround])
    refine ⟨fun hroom hset => ?_, fun hroom hset => ?_, ?_⟩
    · rw [Dev.parityArrive_reads hnone hroom (by omega)] at hdelta
      obtain ⟨haside, hread⟩ := (s.deltaStarted q txid d.toNat x bad false).issueRead_queued (facetGroup d.toNat 0) (d.toNat / 256 * 256)
        (BitVec.ofNat 4 (2 ^ ((d.toNat / 64) % 4))) true .demand (.parity s.nextId)
      exact ⟨_, hdelta, haside.outbox, congrArg Shadow.parity haside.shadow, hread⟩
    · rw [Dev.parityArrive_writes hnone hroom hset] at hdelta
      obtain ⟨haside, -⟩ := (s.deltaStarted q txid d.toNat x bad true).issueWrite_queued (facetGroup d.toNat 0) d.toNat x bad .demand
        (.parity s.nextId)
      have hwrite := (s.deltaStarted q txid d.toNat x bad true).issueWrite_for (facetGroup d.toNat 0) d.toNat x bad .demand (.parity s.nextId)
      have hlive' : (s.deltaStarted q txid d.toNat x bad true).isLost q.toNat = false := hlive
      rw [← Dev.isLost_congr ((s.deltaStarted q txid d.toNat x bad true).issueWrite_reg (facetGroup d.toNat 0) d.toNat x bad .demand
        (.parity s.nextId) (by decide))] at hlive'
      generalize ((s.deltaStarted q txid d.toNat x bad true).issueWrite (facetGroup d.toNat 0) d.toNat x bad .demand (.parity s.nextId)).2 = u
        at hdelta haside hwrite hlive'
      obtain ⟨c, hc⟩ := Dev.recordDeltas_one hlive' s.toDev txid d.toNat x bad
      rw [hc] at hdelta
      exact ⟨_, hdelta, haside.outbox, by rw [haside.shadow]; rfl, hwrite⟩
    · refine onDevAt_of_lt hd ?_
      simp only [hactive, hheard, Bool.not_true, Bool.or_self, Bool.false_eq_true, if_false, hround, Dev.parityReleased, Dev.parityRun, hnone,
        Dev.each_nil]

end Sys2Proof.Machine
end

section
/-! PROOFS. BLOCK_IDLE of a Lens engine that is kept twice. -/

namespace Sys2Proof.Machine

/-- The block reset of engine 0 that is in progress. -/
def engineRun : BlockRun := { code := 192, source := 6, start := 0 }

/-- A slice whose engines' table keeps engine 0 twice: the entry that is read is idle, the one behind it has a pending wave. -/
def doubledEngine : State :=
  { State.reset with
      mgmt.blockRun := some engineRun
      lens.engines := [(0, { running := none, pending := [] }), (0, { running := none, pending := [(0, 0)] })] }

/-- The block reset takes the idle entry off, and the wave behind it is pending. -/
theorem doubledEngine_blockIdle_pending :
    ∃ t : State, exec .blockIdle doubledEngine = .next t ∧ (t.engine 0).pending = [(0, 0)] := ⟨_, rfl, by decide +kernel⟩

/-- Refutes O24, by its clause of an engine, which has no premise that the table of engines is canonical: where an engine is kept
twice, the reset of the idle entry that is read leaves the pending wave of the other. -/
theorem not_blockResetEnds : ¬ Obligations.BlockResetEnds := by
  rintro ⟨h, -⟩
  obtain ⟨t, ht, -, -, -, -, -, -, -, -, hengine, -⟩ := h engineRun doubledEngine rfl (by decide +kernel) (by decide) (by decide +kernel)
    (by decide +kernel) (fun _ hlt => absurd hlt (by decide))
  obtain ⟨-, hnone, -⟩ := hengine (by decide) (by decide)
  obtain ⟨u, hu, hpending⟩ := doubledEngine_blockIdle_pending
  cases hu.symm.trans ht
  exact absurd (hpending.symm.trans hnone) (by decide)

end Sys2Proof.Machine
end
